-- ==== Sys2Proof/Word.lean ====
section
/-! DEFINITION. Word types and the sparse-table type of the model (R5, R6: bit 0 is the least significant). -/

namespace Sys2Proof

/-- One byte. -/
abbrev Byte := BitVec 8

/-- A 32-bit word: a leaf identifier, a token-log entry (R46), an FP32 value. -/
abbrev Word32 := BitVec 32

/-- A 64-bit word: a folio value of type u64, a client tag, a key of the catchword index. -/
abbrev Word64 := BitVec 64

/-- A sparse table: pairs of an index and a value, indices strictly rising.
An index that is not listed holds the table's default. -/
abbrev Tbl (α : Type) := List (Nat × α)

end Sys2Proof
end

