-- ==== Sys2Proof/Records.lean ====
section
/-! DEFINITION. Records that reach the package from outside as a command's operands: images of the boot flash, of jobs and
of tip-ins as their headers and bodies state them, and requests to write a folio. Plain data, with the spec's names. -/

namespace Sys2Proof.Machine

/-- Where a gutter unit meets an uncorrectable error (Table 17-1): at an offset of its own column, at an offset of the interleaved
window (the group view), at a byte of its scratch or row store, or on an internal bus. -/
inductive GutterFault where
  | column (offset : Nat)
  | view (offset : Nat)
  | store (byte : Nat)
  | bus
  deriving DecidableEq, Repr

/-- A table set of a job image for one quire count (R147). -/
structure TableSet where
  quireTables : List (List (BitVec 128))
  gutterTables : List (List (BitVec 128))
  /-- For each quire rank: table, entry index, sixteen initial address bases. -/
  quireMap : List (Nat × Nat × List Nat)
  /-- For each column rank: table. -/
  columnMap : List Nat
  deriving DecidableEq, Repr

/-- An outbound entry (R267, Table 12-2). -/
structure OutEntry where
  endpoint : Nat
  offsetBase : Nat
  ownerJob : Nat
  firmware : Bool
  cacheable : Bool
  ordered : Bool
  valid : Bool
  deriving DecidableEq, Repr

/-- The reset value: ORDERED 1, the rest 0. -/
def OutEntry.zero : OutEntry :=
  { endpoint := 0, offsetBase := 0, ownerJob := 0, firmware := false, cacheable := false, ordered := true, valid := false }

/-- STATE of a translation entry (Table 12-7). -/
inductive XlateState where
  | active | draining | ending
  deriving DecidableEq, Repr

/-- A translation entry (R272, Table 12-7); base and target in 4 KiB pages. -/
structure XlateEntry where
  base : Nat
  pagesM1 : Nat
  target : Nat
  srcEndpoint : Nat
  srcMask : Nat
  srcJob : Nat
  anyJob : Bool
  ownerJob : Nat
  firmware : Bool
  masters : Nat
  read : Bool
  write : Bool
  atomic : Bool
  valid : Bool
  state : XlateState
  refusals : Nat
  deriving DecidableEq, Repr

/-- The all-zero entry. -/
def XlateEntry.zero : XlateEntry :=
  { base := 0, pagesM1 := 0, target := 0, srcEndpoint := 0, srcMask := 0, srcJob := 0, anyJob := false, ownerJob := 0,
    firmware := false, masters := 0, read := false, write := false, atomic := false, valid := false, state := .active,
    refusals := 0 }

/-- A signed image as its header states it and the engines find it (R459, R460). -/
structure ImageInfo where
  readOk : Bool
  magic : Nat
  kind : Nat
  zerosOk : Bool
  version : Nat
  imageId : Nat
  bodyLen : Nat
  bodyDigest : BitVec 256
  keyDigest : BitVec 256
  /-- The signature verifies under the key that KEY_DIGEST names. -/
  sigOk : Bool
  /-- First 32 bytes of SHAKE256 over the body read. -/
  bodyHash : BitVec 256
  deriving DecidableEq, Repr

/-- A firmware or configuration image in the boot flash (R458, R461): its own key digest (configuration), values of img
folios and the override list, as (index, subindex, value). -/
structure BootImage where
  info : ImageInfo
  ownKey : BitVec 256
  img : List (Nat × Nat × Nat)
  overrides : List (Nat × Nat × Nat)
  deriving DecidableEq, Repr

/-- An entry of a job image's key block (R464). -/
structure KeyEntry where
  deviceId : BitVec 64
  ciphertext : List Byte
  /-- Wrapped key and tag, 48 bytes. -/
  wrapped : List Byte
  deriving DecidableEq, Repr

/-- A Grenino job image (R147) with the settings of R52, R81, R140, R157, R179, R202, R393, R399 and R464. -/
structure JobImage where
  info : ImageInfo
  /-- Step window and boundary phase, µs; prompt chunk; step shapes; bound durations of the shapes by quire count. -/
  w : Nat
  beta : Nat
  chunk : Nat
  shapes : List Nat
  bounds : Tbl (List Nat)
  draftLimit : Nat
  vocab : Nat
  ctxLimit : Nat
  /-- Leaf size L, KV format code of Table 3-1, layers, KV heads H, head dimension D, query heads. -/
  leafSize : Nat
  fmt : Nat
  layers : Nat
  heads : Nat
  headDim : Nat
  qHeads : Nat
  qMin : Nat
  qMax : Nat
  cMin : Nat
  cMax : Nat
  /-- Table sets by quire count. -/
  tableSets : Tbl TableSet
  routines : List Nat
  freezeRoutines : List Nat
  /-- Attention mode (0 local, 1 span), span length T in tokens, ring, least ring length (Table 8-1). -/
  attMode : Nat
  spanLen : Nat
  ring : Option Nat
  rMin : Nat
  /-- Attention scale and rotary frequency table (R163, R168). -/
  sigma : Word32
  rope : List Word32
  /-- The image declares the job sharded across its binding (R393). -/
  sharded : Bool
  listPages : Nat
  /-- Output space of wide columns in the work area: offset and bytes (R170). -/
  outBase : Nat
  outLen : Nat
  /-- Vectors placed in every column's work area, by offset (R160); weights by device physical address. -/
  vectors : List (Nat × List Byte)
  weights : List (Nat × List Byte)
  /-- The job's device memory outside its columns: (base, bytes). -/
  memory : List (Nat × Nat)
  xlates : List XlateEntry
  outbounds : List (Nat × OutEntry)
  /-- Regions to register: entry, and the words of folios 0x4102.01 and 0x4102.02 (R293); queue pairs to create: number and context (R294). -/
  regions : List (Nat × Nat × Nat)
  queues : List (Nat × Nat)
  /-- JOB_SHAPER value (R352). -/
  shaper : Option Nat
  /-- Bookmark targets and adopters by endpoint (R399). -/
  bookmarkTargets : Tbl Nat
  adopters : Tbl Nat
  keyBlock : List KeyEntry
  deriving DecidableEq, Repr

/-- The job runs in span mode (Table 8-1). -/
def JobImage.spanMode (i : JobImage) : Bool := decide (i.attMode = 1)

/-- A request to write one folio (R410, R411): interface 0 fabric, 1 control die, 2 management port, 3 PCIe; ORIGIN of the
journal; the width in bits of the request; the value; another interface wrote the folio in the same cycle (R412); the
request's form is broken (result 0x15); the bits that the hardware sets in the cycle of the write (R7). -/
structure FolioReq where
  iface : Nat
  origin : Nat
  width : Nat
  value : Nat
  sameCycle : Bool
  malformed : Bool
  hwSets : Nat
  deriving DecidableEq, Repr

/-- Where the smallest critical-path margin of a half lies against its window (R432). -/
inductive MarginAt where
  | below | within | above
  deriving DecidableEq, Repr

/-- What a regulator stage answers at a telemetry read (R431, R432, R437): voltage (mV), current (A), temperature (°C), Status byte,
whether that reports a fault, and the margins at the present and at the next higher clock. -/
structure StageReading where
  answered : Bool
  mv : Nat
  amps : Nat
  celsius : Nat
  status : Nat
  fault : Bool
  margin : MarginAt
  nextWithin : Bool
  deriving DecidableEq, Repr

/-- Whose device read of host memory is not completed (R454). -/
inductive HostReader where
  | quire (id : Nat)
  | swapIn (sig : Nat)
  | control
  deriving DecidableEq, Repr

/-- What the LPDDR6 controllers find at training (R21, R221, R222): mask of trained channels; equal density and ranks on them; density
code; ranks; rate code of folio 0x2420.04. -/
structure LpddrFound where
  mask : Nat
  uniform : Bool
  density : Nat
  ranks : Nat
  rate : Nat
  deriving DecidableEq, Repr

/-- What the flash controllers find (R244): mask of trained channels, equal targets and geometry on them, and the parameter page; the
interface is NV-LPDDR4 with an 8-bit bus, a page has so many data and spare bytes. -/
structure FlashFound where
  mask : Nat
  uniform : Bool
  nvLpddr4 : Bool
  pageBytes : Nat
  spareBytes : Nat
  targets : Nat
  luns : Nat
  planes : Nat
  cellBits : Nat
  blocks : Nat
  pages : Nat
  tProgUs : Nat
  tReadUs : Nat
  endurance : Nat
  systemUnits : Nat
  deriving DecidableEq, Repr

/-- A link of another package in UP or ACTIVE, as the fabric management agent knows it: which package and link it leaves from, the
package it reaches, and its one-way delay in ns. -/
structure LinkEdge where
  source : Nat
  link : Nat
  peer : Nat
  delayNs : Nat
  deriving DecidableEq, Repr

/-- What the fabric management agent knows at a route epoch (R266, R282, R283, R394): the links of the other packages, binding members
whose list differs from this package's, and joint jobs every other member of whose binding runs again. -/
structure EpochView where
  edges : List LinkEdge
  differing : List Nat
  bindingReady : List Nat
  /-- Time of the last change elsewhere in the volume, where there was one (R282). -/
  changedNs : Option Nat
  /-- The epoch is one of another volume. -/
  otherVolume : Bool
  deriving DecidableEq, Repr

/-- What an uncorrectable error in shared SRAM struck (R363). -/
inductive Struck where
  /-- A signature-table entry of a half: the table lies in numbers below 16,384 in the west half, the rest in the east. -/
  | entry (half : Nat)
  /-- A bucket or node of a half; `node` is the identifier of a node that could not be read, 2^20 or more above any for a bucket. -/
  | catchword (half node : Nat)
  /-- Admission queues and prefill offers. -/
  | queues
  /-- The release record of a signature. -/
  | record (sig : Nat)
  deriving DecidableEq, Repr

/-- What a boundary phase meets from outside: units whose canary output differs (R390), what an uncorrectable error struck
(R363), the highest SEQ committed in the job's bookmark slot at either target, and for the primary and the alternate target the
generation that holds no committed bookmark, none when the target accepts no bookmark (R256, R397). -/
structure BoundaryIn where
  canaryFails : List Nat
  struck : Option Struck
  seqFound : Nat
  primary : Option Nat
  alternate : Option Nat
  deriving DecidableEq, Repr

/-- What strikes a transfer of a quire (R361, R364): addresses whose single errors are corrected, and the beat at which the transfer
halts with the address that failed there. -/
structure DmaFault where
  corrected : List Nat
  halt : Option (Nat × Nat)
  deriving DecidableEq, Repr

/-- What a control-die routine asks of the span engine before it returns (R182, R187, R188): query positions from `qp0`, rows and new
keys and values at device addresses. -/
inductive SpanOp where
  /-- Begin a pass at distance, of the kind that R186 gives: `nkv` new rows lie at `kvAddr`. -/
  | pass (sig layer qp0 qpos nkv qAddr kvAddr : Nat)
  /-- The place partials of the spans that the lists name are written: fold them. -/
  | fold (sig layer qp0 qpos qAddr : Nat)
  /-- Write the finished output rows of a pass to an address. -/
  | output (sig layer qp0 addr : Nat)
  deriving DecidableEq, Repr

/-- What strikes an array stitch (R117 to R119, R124, R362): wrong block sums as (tile, row, column, block, difference); errors of the
modular cells as (tile, checksum column, index, difference); tiles whose combine stages differ as (tile, row, column); an
address that reads uncorrectable; and cycles in which B waited for A's bank. -/
structure MmaFault where
  errs : List (Nat × Nat × Nat × Nat × Int)
  cells : List (Nat × Bool × Nat × Int)
  combine : List (Nat × Nat × Nat)
  bad : Option Nat
  waits : Nat
  deriving DecidableEq, Repr

/-- What strikes a conversion (R117, R362): an address that reads uncorrectable, and a row and column at which the stages of the
cells differ. -/
structure CvtFault where
  bad : Option Nat
  differs : Option (Nat × Nat)
  deriving DecidableEq, Repr

/-- A stitch of a gutter unit that works in its scratch: the sequencer, and what the byte parity of scratch and row store finds (R161). -/
structure GutterStep where
  id : Nat
  bad : Option GutterFault
  deriving DecidableEq, Repr

/-- What a freeze routine leaves (R140): steer values by number, and bytes of gather tables by device address. -/
structure RoutineWrites where
  steer : List (Nat × Nat)
  tables : List (Nat × List Byte)
  deriving DecidableEq, Repr

/-- The head of a span message as it arrives: the member of the ring that it is for, its header (Table 8-3), and the stalls that its
holders met for want of a group since the owner last heard of the pass (R185), which no field carries. -/
structure SpanIn where
  member : Nat
  header : BitVec 512
  stalls : Nat
  deriving DecidableEq, Repr

/-- The payload of a RING_PLAN (R183), and the jobs that can restart on the ring when the plan completes here (R184). -/
structure PlanIn where
  members : List Byte
  ready : List Nat
  deriving DecidableEq, Repr

/-- A message that makes the sender of a handoff send leaves (R209), and what its leaves that rest as objects read as: group, layer,
object. -/
structure LeafCall where
  header : BitVec 1024
  objs : List (Nat × Nat × List Byte)
  deriving DecidableEq, Repr

/-- What a tier engine's move read: addresses that read uncorrectable at first, and the objects (R223, R227). -/
structure MoveRead where
  bad : List Nat
  objects : List (List Byte)
  deriving DecidableEq, Repr

/-- What the read of a request's target meets: the beat at which it is uncorrectable, and addresses that read right only after a correction
or a retry (R223, R245, R361). -/
structure TargetRead where
  bad : Option Nat
  retried : List Nat
  deriving DecidableEq, Repr

/-- A read that meets nothing. -/
def TargetRead.clean : TargetRead := { bad := none, retried := [] }

/-- What reclaim's reads meet: pages that are uncorrectable, and pages that read right only after retries (R245, R253). -/
structure ReclaimRead where
  bad : List Nat
  retried : List Nat
  deriving DecidableEq, Repr

/-- A power-fail flush: its duration in µs, and the places in the dirty area of writes whose program in the flush reserve fails at first
(R259, Table 11-7). -/
structure FlushRun where
  us : Nat
  failed : List Nat
  deriving DecidableEq, Repr

/-- The operands of an atomic request of a queue pair, and an address that reads uncorrectable (R303, R364). -/
structure AtomicIn where
  payload : List Byte
  bad : Option Nat
  deriving DecidableEq, Repr

end Sys2Proof.Machine
end

