-- ==== Sys2Proof/Syntax.lean ====
section
/-! DEFINITION. The commands of the block: one constructor per row of the spec's command table, with the operands that the
rule of the row needs. `t` is the local time, in ns, at which the command happens (R430). -/

namespace Sys2Proof

open Machine

/-- A command from outside the block, or an event of its own that the spec times. -/
inductive Instr where
  /-- A 64-byte admission request arrives; the device runs the checks through CAP and budget, takes an entry into
  ADMITTING and starts reading the prompt. (R42) -/
  | admissionRequest (t src : Nat) (request : BitVec 512)
  /-- The prompt read into the token log completes; the device matches the catchword index, reserves leaves,
  estimates, and enters QUEUED with ADMITTED or refuses. (R42) -/
  | promptReadComplete (t sig : Nat) (ok : Bool) (words : List Nat)
  /-- A home-message ACK raises DELIVERED, may call for a resend, and moves a DRAINING entry to ENDED once DELIVERED
  reaches GEN_LEN. (R48) -/
  | homeAck (t : Nat) (message : BitVec 256)
  /-- An END_ACK that repeats the END notice's POSITION moves the entry from ENDED to FREE. (R50) -/
  | endAck (t : Nat) (message : BitVec 256)
  /-- A CANCEL home message drains the signature, or sets CANCEL_PENDING while it is away or in handoff. (R34) -/
  | cancel (t : Nat) (message : BitVec 256)
  /-- A message of neither 32 nor 64 bytes, or a home message failing its checks, is ignored and counted. (R50) -/
  | unsizedMessage (t : Nat)
  /-- A signature's lifetime of folio 0x2010.05 runs out, and it drains with END_REASON 0x03. (R33) -/
  | lifetimeExpiry (t sig : Nat)
  /-- The remaining budget of a latency-critical signature reaches zero, which sets OVERDUE and counts it. (R38) -/
  | budgetExpiry (t sig : Nat)
  /-- A prefill offer carrying QUEUE_US and RATE arrives from a prompt package and is kept for estimates. (R40) -/
  | prefillOffer (t endpoint jb queueUs rate : Nat)
  /-- Once per ms, a prompt package sends its prefill offer to each generation package of the job. (R40) -/
  | prefillOfferSend (t jb : Nat) (dests : List Nat)
  /-- Writing 0x01 to folio 0x2031.01 zeroes the signature overdue, refusal and bad-trigger counters. (R51) -/
  | countClear (t : Nat) (req : FolioReq)
  /-- Writing a signature number to folio 0x2040.00 copies that entry atomically into the snapshot words. (R51) -/
  | snapIndex (t : Nat) (req : FolioReq)
  /-- A step window opens, and the control plane reads the commit, makes commit transitions, stages drafts, writes
  steer registers and sends notices. (R82) -/
  | boundaryPhase (t jb : Nat) (b : BoundaryIn)
  /-- At the compose lead before window end, the composer freezes the next step's decode batch, chunks, shape and
  position maps. (R84) -/
  | composeFreeze (t jb : Nat)
  /-- The boundary phase ends, and the sequencers are set up to run the composed step or resume the carried one.
  (R134) -/
  | stepPhaseStart (t jb : Nat)
  /-- A freeze routine that delayed the boundary phase returns, and the boundary phase proceeds, shortening the step
  phase. (R140) -/
  | freezeRoutineReturn (t jb routine : Nat) (writes : RoutineWrites)
  /-- The nominal end of a window arrives before commit, and each sequencer stops at its next preemption point or
  completes its non-preemptible stitch. (R88) -/
  | windowEnd (t jb : Nat) (busy : List Nat)
  /-- Every sequencer has stopped without commit, so the step is carried, the overrun recorded and the next window
  shortened. (R91) -/
  | stepCarried (t jb : Nat)
  /-- At the first window boundary of each split period, the prompt part of the job's quire set is sized. (R93) -/
  | splitSizing (t jb : Nat)
  /-- The last sequencer reaches step.commit, and the commit phase verifies drafts, writes tokens, raises GEN_LEN and
  writes STEP_SEQ. (R87) -/
  | stepCommit (t jb : Nat) (prompt : Bool)
  /-- Writing a version to folio 0x2824.ss starts loading and checking the tip-in image into the slot. (R100) -/
  | tipinLoad (t slot : Nat) (req : FolioReq)
  /-- A tip-in load attempt ends with a final status, making the version resident or not. (R100) -/
  | tipinLoadDone (t ss : Nat) (image : ImageInfo)
  /-- The sequencer issues a nop stitch. (R142) -/
  | nop (t id : Nat)
  /-- lp.begin opens a loop with a fixed or steered count, or skips the body when the count is zero. (R142) -/
  | lpBegin (t id : Nat)
  /-- The body's END is reached, and the loop counters step and either repeat the body or pop the level. (R142) -/
  | loopEnd (t id : Nat)
  /-- jmp.st selects a table entry by steer register, or traps 0x11 when the value is too large. (R142) -/
  | jmpSt (t id : Nat)
  /-- ar.base sets an address register's BASE. (R142) -/
  | arBase (t id : Nat)
  /-- ar.stride sets an address register's four strides. (R142) -/
  | arStride (t id : Nat)
  /-- A gutter sequencer halts at the end of its table and posts its event when NOTIFY is set. (R142) -/
  | halt (t id : Nat)
  /-- A sequencer arrives at a barrier and waits for the named number of parties. (R142) -/
  | bar (t id : Nat)
  /-- The last party arrives, and the barrier releases its waiters and frees itself for reuse. (R142) -/
  | barRelease (t jb bar : Nat)
  /-- sig.post adds to an event counter of a target quire or column rank, saturating. (R142) -/
  | sigPost (t id : Nat)
  /-- sig.wait waits until its own event counter reaches the threshold. (R142) -/
  | sigWait (t id : Nat)
  /-- A waited counter reaches its threshold, and the waiting sequencer continues, subtracting the value when CLEAR is
  set. (R142) -/
  | sigWaitRelease (t id : Nat)
  /-- A bar or sig.wait outlasts folio 0x3100.03 step phases, and the sequencer traps with cause 0x16. (R146) -/
  | waitLimitTrap (t id : Nat)
  /-- ctl.call starts a control-die routine asynchronously with its argument address. (R142) -/
  | ctlCall (t id : Nat)
  /-- A ctl.call routine returns and raises its event counter, or reports failure as trap 0x15. (R142) -/
  | ctlCallReturn (t id k : Nat) (ok : Bool) (core copy : Nat) (writes : List (Nat × List Byte)) (ops : List SpanOp)
  /-- gu.run starts a range of the job's gutter columns at an entry stitch. (R142) -/
  | guRun (t id : Nat)
  /-- mma.blk runs tile passes of exact block sums and tree combine, checked by checksums. (R142) -/
  | mmaBlk (t id : Nat) (f : MmaFault)
  /-- comb.add joins sibling FP32 partial tiles with fadd32. (R142) -/
  | combAdd (t id : Nat) (bad : Option Nat) (differs : Option (Nat × Nat))
  /-- cvt converts FP32 or BF16 tiles to an output format. (R142) -/
  | cvt (t id : Nat) (f : CvtFault)
  /-- dma.ld starts an asynchronous transfer of rows from device memory into quire SRAM. (R142) -/
  | dmaLd (t id : Nat) (f : DmaFault)
  /-- dma.st starts an asynchronous transfer of rows from quire SRAM to device memory. (R142) -/
  | dmaSt (t id : Nat) (f : DmaFault)
  /-- gath.ld starts an asynchronous gather of rows by a table of offsets. (R142) -/
  | gathLd (t id : Nat) (f : DmaFault)
  /-- An asynchronous transfer completes and adds one to its event counter. (R136) -/
  | transferComplete (t id : Nat)
  /-- kv.put writes key or value rows, rotated when asked, into leaf slots by the position map. (R142) -/
  | kvPut (t id : Nat) (bad : Option Nat)
  /-- sel.feed passes logit rows to the selector of each drawing position. (R142) -/
  | selFeed (t id : Nat) (bad : Option Nat)
  /-- A stitch fetched with bad parity is refetched from the backing region and rewritten, or traps 0x10. (R137) -/
  | stitchRefetchDone (t id : Nat) (ok : Bool)
  /-- gv.ld loads column elements and scales into scratch as FP32. (R166) -/
  | gvLd (t id : Nat) (bad : Option GutterFault) (corrected : List Nat)
  /-- gv.st stores scratch words to the column, choosing block scales. (R166) -/
  | gvSt (t : Nat) (stitch : GutterStep)
  /-- gv.gld loads through the wide column's group view into scratch. (R166) -/
  | gvGld (t id : Nat) (bad : Option GutterFault) (corrected : List Nat)
  /-- gv.op applies an elementwise function to scratch words. (R165) -/
  | gvOp (t : Nat) (stitch : GutterStep)
  /-- gv.red reduces scratch words to one word by sum, max or sum of squares. (R166) -/
  | gvRed (t : Nat) (stitch : GutterStep)
  /-- att.run attends the column's query rows over the leaves of its work list and writes partial rows. (R168) -/
  | attRun (t id : Nat) (bad : Option GutterFault) (corrected : List Nat)
  /-- att.comb combines the bundle's partial rows in place order into output rows. (R169) -/
  | attComb (t id : Nat) (bad : Option GutterFault) (corrected : List Nat)
  /-- The gutter work count reaches its interval, and the next unit of work is repeated with rotated lanes and
  compared. (R174) -/
  | spotCheck (t column : Nat) (differs : Bool)
  /-- An ordinary access reaches a column and is served at once or held while the gutter unit owns the port. (R171) -/
  | ordinaryAccess (t column id beats : Nat) (slot : Bool)
  /-- A column's span ends, and held ordinary accesses are served for up to 64 beats before the next span. (R171) -/
  | spanEnd (t column : Nat)
  /-- A per-bank refresh falls due, and the gutter unit stops at its next yield point for it. (R172) -/
  | refreshDue (t column : Nat)
  /-- A refresh ends, and the gutter unit resumes 4 stack cycles later. (R172) -/
  | refreshComplete (t column : Nat)
  /-- A write to a bundle's broadcast window stores the bytes in all 16 work areas, or is refused and freezes the
  writer. (R155) -/
  | broadcastWrite (t cls index jb addr : Nat) (data : List Byte)
  /-- A route epoch opens 1 ms after the last change, and routes and ring plans are recomputed, links join and
  restarts and adoptions begin. (R282) -/
  | routeEpoch (t : Nat) (view : EpochView)
  /-- A RING_PLAN frame arrives and is appended to and forwarded, or completes the plan and sets the ring folios.
  (R183) -/
  | ringPlan (t : Nat) (header : BitVec 512) (plan : PlanIn)
  /-- A QUERY arrives, and the holder writes new KV, attends its spans and starts or forwards the accumulator. (R187)
  -/
  | query (t : Nat) (m : SpanIn) (payload : List Byte)
  /-- An ACC accumulator arrives and is merged with the member's spans and passed upstream, or finished at position 0.
  (R187) -/
  | acc (t : Nat) (m : SpanIn) (payload : List Byte)
  /-- An OUTPUT of attention rows reaches the owner. (R187) -/
  | output (t : Nat) (m : SpanIn) (payload : List Byte)
  /-- A BLOCK_REQ arrives, and the holder answers with the spans' leaves of the layer. (R188) -/
  | blockReq (t : Nat) (m : SpanIn)
  /-- A BLOCK of leaves reaches the owner and fills its transit groups. (R188) -/
  | block (t : Nat) (m : SpanIn) (payload : List Byte)
  /-- A KV_PUT span message writes new key and value rows into the holder's shard. (R188) -/
  | kvPutMessage (t : Nat) (m : SpanIn) (payload : List Byte)
  /-- An ATTEND reaches a host job, which queues it, copies leaves, runs passes and returns PARTIALS, or refuses.
  (R194) -/
  | attend (t : Nat) (header : BitVec 512) (payload : List Byte) (ready : Bool)
  /-- PARTIALS from a cache host arrive and are merged as the holder's own span partials. (R193) -/
  | partials (t : Nat) (header : BitVec 512) (payload : List Byte)
  /-- A span REFUSE arrives, and the spans' leaves are treated as in a late or failed tier, retrying once for queue
  full. (R195) -/
  | spanRefuse (t : Nat) (header : BitVec 512)
  /-- No PARTIALS arrive within folio 0x3812.jj µs, and the spans' tier is treated as late or failed. (R195) -/
  | remoteTimeout (t jb : Nat)
  /-- A handoff OFFER arrives and is checked, then dropped or taken into HANDOFF_IN with CONFIRM or ACCEPT. (R208) -/
  | offer (t : Nat) (header : BitVec 1024) (words : List Nat) (readable : Bool)
  /-- An ACCEPT arrives, and the sender streams LEAF messages from the wanted group position. (R209) -/
  | accept (t : Nat) (call : LeafCall)
  /-- A LEAF arrives and is checked and placed, completing groups and sending CONFIRM after the last, or RESEND on
  failure. (R209) -/
  | leaf (t : Nat) (header : BitVec 1024) (object : List Byte)
  /-- A RESEND arrives, and the sender sends the named leaf again. (R209) -/
  | resend (t : Nat) (call : LeafCall)
  /-- A CONFIRM reaches the sender, which drops the release record and enters AWAY or FREE by kind, or answers CLAIM.
  (R211) -/
  | confirm (t : Nat) (header : BitVec 1024)
  /-- The fabric reports the receiver's CONFIRM delivered, and the signature becomes composable. (R210) -/
  | confirmDelivered (t sig : Nat)
  /-- The fabric reports a CONFIRM undeliverable, and the receiver probes the sender. (R213) -/
  | confirmUndeliverable (t sig : Nat)
  /-- A handoff lease expires without confirm, and the sender resumes at a raised epoch and sends CLAIM. (R212) -/
  | leaseExpiry (t sig : Nat)
  /-- A CLAIM with a higher epoch drops a handoff copy or supersedes a running entry. (R212) -/
  | claim (t : Nat) (header : BitVec 1024)
  /-- A probe interval passes for an AWAY, waiting HANDOFF_IN or unconfirmed entry, and a PROBE is sent. (R213) -/
  | handoffProbeTimer (t sig : Nat)
  /-- A handoff PROBE arrives and is answered with PROBE_REPLY giving the entry's state and epoch. (R213) -/
  | handoffProbe (t : Nat) (header : BitVec 1024)
  /-- A PROBE_REPLY arrives, and the prober rebuilds, drops, takes its confirm as delivered or is superseded. (R213)
  -/
  | probeReply (t : Nat) (header : BitVec 1024)
  /-- A write to folio 0x2060.07 starts a MOVE of a decoding signature to a listed target, or is refused. (R206) -/
  | rebalance (t : Nat) (req : FolioReq)
  /-- Every 1 ms, or when grow() asks, the tier engine starts demotions of old candidate groups and may request a
  loan. (R230) -/
  | demotionPass (t : Nat)
  /-- The target confirms the last write of a group move, and descriptors are rewritten, the source freed and MOVING
  cleared. (R227) -/
  | tierMoveComplete (t jb group outcome : Nat) (read : MoveRead)
  /-- Every 10 ms, a lender sends ADVERT of its free amount to packages that asked and to its binding. (R233) -/
  | advertTimer (t : Nat)
  /-- Once a second, a package sends a REQUEST of size 0 to each endpoint of its lender list. (R234) -/
  | lenderListPoll (t : Nat)
  /-- An ADVERT arrives and is kept as the lender's free amount for borrowing. (R234) -/
  | advert (t : Nat) (header : BitVec 512)
  /-- A loan REQUEST arrives, and the lender grants, registers the range, or records the asker for adverts. (R234) -/
  | request (t : Nat) (header : BitVec 512)
  /-- A GRANT arrives, and the borrower enters the loan in a free entry of its class pool. (R234) -/
  | grant (t : Nat) (header : BitVec 512)
  /-- A RECALL arrives, and the borrower marks the loan recalled and moves every group out of it. (R237) -/
  | recall (t : Nat) (header : BitVec 512)
  /-- A RELEASE arrives, and the lender reclaims and discards the lent space. (R237) -/
  | release (t : Nat) (header : BitVec 512)
  /-- Writing a loan identifier to folio 0x2450.06 makes the lender send RECALL for that loan. (R237) -/
  | loanRecall (t : Nat) (req : FolioReq)
  /-- Every 1 ms, the controller reads each device's refresh-rate indication and adjusts per-bank refresh. (R224) -/
  | lpddr6RefreshRateRead (t channel rate : Nat)
  /-- Every 100 ms, or after an uncorrectable parity error, the controller reads on-die ECC counts. (R225) -/
  | lpddr6EccCountRead (t channel count : Nat)
  /-- Every 100 ms, a channel's data timing is retrained with a pause of at most 1 µs. (R226) -/
  | lpddr6Retrain (t channel : Nat)
  /-- A write to the local flash window is logged to an open erase unit and confirmed from the dirty area. (R249) -/
  | flashWrite (t id page : Nat) (data : List Byte)
  /-- A read of the local flash window returns mapped data, zeros, or an uncorrectable error for a poisoned page.
  (R250) -/
  | flashRead (t id page effort : Nat)
  /-- A flash program completes, freeing dirty-area room for waiting writes, or fails and is rewritten elsewhere.
  (R258) -/
  | flashProgramComplete (t ch : Nat) (ok : Bool)
  /-- With free erase units below the low mark, reclaim chooses a unit, copies its valid sectors and erases it. (R252)
  -/
  | flashReclaim (t ch : Nat) (read : ReclaimRead)
  /-- An erase completes, freeing the unit or retiring it on failure. (R253) -/
  | flashEraseComplete (t ch u : Nat) (ok : Bool)
  /-- Each second, every target's temperature is read and the channel's health bins updated. (R257) -/
  | flashTempSample (t : Nat) (temps : List Int)
  /-- The flash map rebuild finishes after reset, and the flash window is answered again. (R260) -/
  | flashRebuildComplete (t : Nat)
  /-- A write to folio 0x7000.08 discards a logical page range. (R250) -/
  | discardRange (t : Nat) (req : FolioReq)
  /-- A write to folio 0x7030.05 discards both generations of a bookmark slot. (R250) -/
  | bookmarkDiscard (t : Nat) (req : FolioReq)
  /-- The commit record write of a bookmark is confirmed, and the older generation is discarded if the record checks.
  (R256) -/
  | bookmarkCommit (t slot gen : Nat)
  /-- A master accesses an outbound window, which sends a fabric request or refuses locally. (R268) -/
  | outboundAccess (t cls index jb op aop addr len : Nat) (data : List Byte) (dst : Option Nat)
  /-- A LOAD request arrives and is checked, translated and served, or refused. (R273) -/
  | load (t : Nat) (header : BitVec 256) (read : TargetRead) (back : List (Nat × List Byte))
  /-- A STORE request arrives and is checked, translated and performed, or refused. (R273) -/
  | store (t : Nat) (header : BitVec 256) (payload : List Byte) (back : List (Nat × List Byte))
  /-- An ATOMIC request arrives and is performed indivisibly at the target, or refused. (R271) -/
  | atomic (t : Nat) (header : BitVec 256) (payload : List Byte) (read : TargetRead) (back : List (Nat × List Byte))
  /-- A LOAD_RESP completes the issuer's load. (R276) -/
  | loadResp (t : Nat) (header : BitVec 256) (payload : List Byte)
  /-- A STORE_ACK completes the issuer's store. (R276) -/
  | storeAck (t : Nat) (header : BitVec 256)
  /-- An ATOMIC_RESP completes the issuer's atomic with the prior value. (R276) -/
  | atomicResp (t : Nat) (header : BitVec 256) (payload : List Byte)
  /-- A fabric REFUSE completes a transaction unsuccessfully, freezing its master or applying Table 12-9. (R274) -/
  | refuse (t : Nat) (header : BitVec 256)
  /-- A THAW arrives and clears the quarantine entry of the named master. (R274) -/
  | thaw (t : Nat) (header : BitVec 256)
  /-- A binding coherence transaction for invalidation, recall or grant is handled by the line's home. (R279) -/
  | bindingCoherence (t kind member line : Nat) (data : List Byte) (back : List (Nat × List Byte))
  /-- A transaction has no response after folio 0x4000.05 µs and completes with TIMEOUT, reporting a suspect path.
  (R285) -/
  | transactionTimeout (t tag : Nat)
  /-- Writing an index to folio 0x4021.01 clears that quarantine entry. (R274) -/
  | quarantineClear (t : Nat) (req : FolioReq)
  /-- A write to doorbell offset 0x00 sets the send producer index and starts reading send descriptors. (R295) -/
  | sendDoorbell (t q cls index jb value : Nat) (host : List (Nat × List Byte))
  /-- A write to doorbell offset 0x08 sets the receive producer index. (R295) -/
  | receiveDoorbell (t q cls index jb value : Nat) (host : List (Nat × List Byte))
  /-- A write to doorbell offset 0x10 sets the completion consumer index. (R295) -/
  | completionDoorbell (t q cls index jb value : Nat)
  /-- The control plane serves a host queue's send ring and handles admission requests and home messages. (R455) -/
  | hostQueueSend (t q : Nat) (host : List (Nat × List Byte))
  /-- A queue WRITE packet passes its checks and is placed at its final address, completing the message when its
  bitmap fills. (R299) -/
  | write (t : Nat) (header qheader : BitVec 256) (payload : List Byte) (imm : Bool)
  /-- A queue SEND packet is placed in the receive buffer of its index, or answered NAK 0x21 when none is posted.
  (R299) -/
  | send (t : Nat) (header qheader : BitVec 256) (payload : List Byte) (imm : Bool)
  /-- A READ_REQ arrives, and the responder reads memory afresh and sends READ_RESP packets. (R302) -/
  | readReq (t : Nat) (header qheader : BitVec 256) (bad : Option Nat)
  /-- A READ_RESP packet is placed at its address in the requester's buffer. (R299) -/
  | readResp (t : Nat) (header qheader : BitVec 256) (payload : List Byte)
  /-- An ATOMIC_REQ is answered from the result cache or performed once and cached. (R303) -/
  | atomicReq (t : Nat) (header qheader : BitVec 256) (args : AtomicIn)
  /-- A queue ATOMIC_RESP returns the prior value and completes the requester's atomic. (R303) -/
  | queueAtomicResp (t : Nat) (header qheader : BitVec 256) (payload : List Byte)
  /-- A queue ACK arrives, completing messages below ACK_PSN and triggering fast repeat from the SACK. (R301) -/
  | ack (t : Nat) (header qheader : BitVec 256) (payload : List Byte)
  /-- A queue NAK arrives, such as receiver not ready, and the sender schedules a repeat. (R299) -/
  | nak (t : Nat) (header qheader : BitVec 256) (payload : List Byte)
  /-- 2 µs after the oldest unacknowledged packet, the receiver sends an ACK. (R301) -/
  | ackTimer (t q : Nat)
  /-- No ACK covers a packet within folio 0x4100.04 µs, so it is repeated, or the message fails with RETRY_EXCEEDED.
  (R302) -/
  | repeatTimeout (t q psn : Nat)
  /-- After folio 0x4100.06 µs, a SEND refused for lack of a receive descriptor is repeated. (R299) -/
  | rnrRetry (t q msn : Nat)
  /-- Command 0x01 to folio 0x4101.05 creates a queue pair from the staged context and enters READY, or is refused.
  (R294) -/
  | qpCreate (t : Nat) (req : FolioReq)
  /-- Command 0x02 to folio 0x4101.05 returns a queue pair to RESET. (R296) -/
  | qpReset (t : Nat) (req : FolioReq)
  /-- Command 0x03 to folio 0x4101.05 destroys a queue pair and frees its result cache entries. (R303) -/
  | qpDestroy (t : Nat) (req : FolioReq)
  /-- Command 0x01 to folio 0x4102.03 registers a region and returns its key. (R293) -/
  | regionRegister (t : Nat) (req : FolioReq)
  /-- Command 0x02 to folio 0x4102.03 puts a region into DRAINING and stamps its queue pairs. (R304) -/
  | regionRevoke (t : Nat) (req : FolioReq)
  /-- Folio 0x4100.08 ms pass in DRAINING, and revocation completes. (R304) -/
  | revokeTimeout (t region : Nat)
  /-- A transaction arrives on a link and is delivered, stomped, NAKed or discarded by SEQ and check. (R312) -/
  | linkTransactionReceive (t link : Nat) (header : BitVec 256) (payload : List Byte) (check : BitVec 32) (corrected : Nat) (uncorrectable : Nat)
  /-- An IDLE control word arrives, carrying the previous check and an ACK. (R314) -/
  | idle (t link : Nat) (word : BitVec 256)
  /-- ACKs are pending with no traffic for 100 ns, so an IDLE is sent. (R314) -/
  | idleTimer (t link : Nat)
  /-- A link NAK arrives, and the transmitter replays from the named SEQ, entering RETRAIN on the eighth NAK for it.
  (R313) -/
  | linkNak (t link : Nat) (word : BitVec 256)
  /-- A CREDIT control word returns receive-buffer credit per plane. (R315) -/
  | credit (t link : Nat) (word : BitVec 256)
  /-- 1 µs after freeing receive buffer, a CREDIT word is sent. (R314) -/
  | creditTimer (t link : Nat)
  /-- A PROBE control word arrives and is answered with ECHO within 1 µs. (R319) -/
  | linkProbe (t link : Nat) (word : BitVec 256)
  /-- An ECHO arrives, a delay sample is taken and the link delay updated. (R319) -/
  | echo (t link : Nat) (word : BitVec 256)
  /-- Every 1 ms in UP or ACTIVE, and in MEASURING, a link sends PROBE. (R319) -/
  | linkProbeTimer (t link : Nat)
  /-- A PARAM training word is exchanged, deciding ReedtoSolomon and the replay point on retrain. (R318) -/
  | param (t link : Nat) (word : BitVec 256)
  /-- Setting bit [1] of folio 0x4802.ll disables the link. (R318) -/
  | linkDisable (t link : Nat) (req : FolioReq)
  /-- Clearing bit [1] of folio 0x4802.ll returns a disabled link to DOWN. (R375) -/
  | linkEnable (t link : Nat) (req : FolioReq)
  /-- Light arrives on both receive lanes after the hold-off with the laser ready, and the link enters TRAINING.
  (R318) -/
  | lightDetected (t link : Nat)
  /-- Lanes adapt and deskew and PARAM is exchanged, so the link enters TESTING. (R318) -/
  | trainingComplete (t link : Nat)
  /-- 2 ms of PRBS31 pass without error, and the link enters MEASURING. (R318) -/
  | testingComplete (t link : Nat)
  /-- 16 delay samples are taken, and the link enters UP with SEQ reset. (R318) -/
  | measuringComplete (t link : Nat)
  /-- A training step fails or exceeds its time, and the link returns to DOWN. (R318) -/
  | trainingTimeout (t link cause : Nat)
  /-- Light is lost for 10 µs, so the link enters DOWN; a shorter loss of lock enters RETRAIN. (R318) -/
  | lightLost (t link : Nat)
  /-- An ACTIVE link loses lock briefly and enters RETRAIN. (R318) -/
  | lossOfLock (t link : Nat)
  /-- RETRAIN exceeds folio 0x4800.02, and the link enters DOWN. (R318) -/
  | retrainTimeout (t link : Nat)
  /-- No good control word or transaction arrives for 100 µs, and the link enters DOWN. (R314) -/
  | linkSilenceTimeout (t link : Nat)
  /-- A link exceeds folio 0x4800.03 replays in a second and enters DOWN with a doubled hold-off, fencing after the
  fourth time in an hour. (R321) -/
  | replayLimit (t link : Nat)
  /-- The link hold-off elapses, and training may start again. (R321) -/
  | holdoffExpiry (t link : Nat)
  /-- Folio 0x6400.04 ms pass after fencing for a dead peer, and the link leaves FENCED for DOWN. (R388) -/
  | fenceHoldExpiry (t link : Nat)
  /-- A laser source module faults or is removed, and its engine's links enter DOWN with cause 0x04. (R309) -/
  | laserSourceFault (t engine : Nat) (removed : Bool)
  /-- A laser source module is inserted or recovers, is enabled, and its links train again. (R309) -/
  | laserSourceReady (t engine tempC : Nat)
  /-- Command 0x01 to folio 0x4811.nn opens the ring bypass so the package joins the ring. (R323) -/
  | bypassOpen (t ring : Nat) (req : FolioReq)
  /-- Command 0x02 to folio 0x4811.nn closes the ring bypass. (R322) -/
  | bypassClose (t ring : Nat) (req : FolioReq)
  /-- A bypass switch completes its move within 2 ms. (R322) -/
  | bypassMoveComplete (t ring : Nat)
  /-- An object enters an encoder pair and is compressed, encrypted and checked into a cased object. (R329) -/
  | caseObject (t j stride half : Nat) (raw : List Byte)
  /-- A cased object is checked, decrypted and decompressed, or fails with a cause. (R338) -/
  | openObject (t half : Nat) (obj : List Byte)
  /-- After job end, the job's objects leave the engines and the key slot is zeroed. (R337) -/
  | keyZeroed (t jb : Nat)
  /-- A write to CVU_FEED feeds 8 bytes into the check-value unit. (R342) -/
  | cvuFeed (t unit : Nat) (req : FolioReq)
  /-- A write to CVU_FEED_BYTE feeds one byte into the check-value unit. (R342) -/
  | cvuFeedByte (t unit : Nat) (req : FolioReq)
  /-- CVU_COMMAND 0x01 sets V to INIT, stopping any DMA. (R340) -/
  | cvuStart (t unit : Nat) (req : FolioReq)
  /-- CVU_COMMAND 0x02 starts a DMA read of bytes into the unit. (R342) -/
  | cvuRunDma (t unit : Nat) (req : FolioReq)
  /-- CVU_COMMAND 0x03 stops the unit's DMA. (R342) -/
  | cvuStopDma (t unit : Nat) (req : FolioReq)
  /-- A check-value DMA ends, or stops with an error status. (R342) -/
  | cvuDmaComplete (t u status done : Nat) (data : List Byte)
  /-- JOB_COMMAND 0x01 starts a latency-critical job from its image, yielding best-effort jobs if needed. (R347) -/
  | jobStartLatencyCritical (t jb : Nat) (req : FolioReq)
  /-- JOB_COMMAND 0x02 starts a best-effort job from its image. (R347) -/
  | jobStartBestEffort (t jb : Nat) (req : FolioReq)
  /-- The image is loaded, the key installed and every check passed, so the job enters RUNNING, or fails back to FREE.
  (R347) -/
  | jobStartComplete (t jb : Nat) (image : JobImage) (others : Bool)
  /-- JOB_COMMAND 0x03 ends a running job by closing admission and draining, or frees a torn-down job. (R349) -/
  | jobEnd (t jb : Nat) (req : FolioReq)
  /-- Signatures have drained, so entries end, regions are revoked, groups freed, the sweep run and the key zeroed,
  and the job enters FREE. (R349) -/
  | jobEndComplete (t jb : Nat)
  /-- The sweep of a job's catchword nodes finishes, and a waiting job start may proceed. (R73) -/
  | catchwordSweepDone (t jb : Nat)
  /-- Room returns with no latency-critical start waiting, and a yielded job restarts. (R348) -/
  | yieldedJobRestart (t jb : Nat)
  /-- A write to a shaper folio replaces its rate, burst and enable, and sets its token count. (R352) -/
  | shaperWrite (t queue : Nat) (req : FolioReq)
  /-- A write to a policer folio changes it and refills its buckets, or is refused. (R354) -/
  | policerWrite (t word policer : Nat) (req : FolioReq)
  /-- The shaper tokens suffice, so a held VN0 transaction leaves its egress queue. (R351) -/
  | egressDeparture (t : Nat)
  /-- Writing 0x01 to folio 0x5402.01 zeroes every high-water mark. (R356) -/
  | hwmClear (t : Nat) (req : FolioReq)
  /-- The outcome of a unit's first error completes, and the slot returns to IDLE. (R370) -/
  | handlingEnd (t unit : Nat)
  /-- 10 ms pass after a unit's first error, and its handling ends. (R370) -/
  | handlingLimitExpiry (t unit : Nat)
  /-- An hour of local time ends, and per-unit correctable counts start again. (R372) -/
  | ceHourRollover (t : Nat)
  /-- A network-on-chip hop finishes retraining after repeated parity failure, and traffic resumes. (R360) -/
  | nocHopRetrainDone (t half hop : Nat)
  /-- Writing folio 0x6000.03 frees error-log entries up to the new TAIL, or is refused. (R365) -/
  | errlogTailWrite (t : Nat) (req : FolioReq)
  /-- Writing a memory code to folio 0x6007.03 clears that address log. (R366) -/
  | addrlogClear (t : Nat) (req : FolioReq)
  /-- A write to folio 0x6010.01 runs THAW and releases a frozen master, or is refused. (R369) -/
  | freezeRelease (t : Nat) (req : FolioReq)
  /-- THAW acknowledgements arrive or 1 ms passes, and the master is released. (R274) -/
  | thawWaitEnd (t cls index : Nat)
  /-- Writing a fenced unit to folio 0x6021.01 starts its self-test, or is refused. (R375) -/
  | reinstate (t : Nat) (req : FolioReq)
  /-- A reinstatement self-test ends, and the unit joins the free pool or stays fenced. (R375) -/
  | reinstateSelfTestDone (t unit : Nat) (ok : Bool) (checker : Nat)
  /-- INJECT kind 0x01 injects a correctable error into a free unit. (R373) -/
  | injectCorrectable (t unit : Nat) (req : FolioReq)
  /-- INJECT kind 0x02 injects an uncorrectable stored error into a free unit. (R373) -/
  | injectUncorrectable (t unit : Nat) (req : FolioReq)
  /-- INJECT kind 0x03 injects a path error into a free unit. (R373) -/
  | injectPath (t unit : Nat) (req : FolioReq)
  /-- A start-up checker proof of a quire or column ends, and the unit joins the free pool or is fenced. (R374) -/
  | unitProofComplete (t unit : Nat) (ok : Bool) (checker : Nat)
  /-- Every 50 µs, a PULSE is sent on each link in UP or ACTIVE. (R380) -/
  | pulseTimer (t : Nat)
  /-- A good PULSE arrives and records the neighbour's incarnation. (R380) -/
  | pulse (t link : Nat) (word : BitVec 256)
  /-- No good PULSE arrives from a neighbour for 200 µs, and SUSPECT is flooded. (R382) -/
  | suspectTimeout (t subject : Nat)
  /-- A SUSPECT note arrives and is forwarded, answered with SEEN, or counted toward a DEAD majority. (R384) -/
  | suspect (t link : Nat) (word : BitVec 256)
  /-- A SEEN note arrives and is forwarded, blocking a verdict. (R383) -/
  | seen (t link : Nat) (word : BitVec 256)
  /-- A DEAD note is forwarded and applied, or resets the package when it names its own incarnation. (R386) -/
  | dead (t link : Nat) (word : BitVec 256)
  /-- 1 ms passes without a verdict, and the links to the suspect are fenced. (R385) -/
  | verdictTimeout (t subject : Nat)
  /-- No good PULSE arrives on any link for 2 ms, and the package resets itself. (R387) -/
  | isolationTimeout (t : Nat)
  /-- A TEARDOWN note arrives, and a joint job of that image is torn down and forwarded. (R393) -/
  | teardown (t link : Nat) (word : BitVec 256)
  /-- Writing 0x01 to folio 0x6415.jj requests a bookmark at the next boundary phase. (R395) -/
  | bookmarkNow (t jb : Nat) (req : FolioReq)
  /-- The read of a bookmark for restart or adoption completes, and its records are placed. (R399) -/
  | bookmarkReadComplete (t jb writer : Nat) (seen : Option (Nat × List Byte))
  /-- No notice goes out for an entry within folio 0x6400.05 ms, so an empty TOKENS or a repeated END is sent. (R401)
  -/
  | keepaliveTimer (t sig : Nat)
  /-- A write to a folio without its own row is decided, applied and journalled. (R411) -/
  | folioWrite (t idx sub : Nat) (req : FolioReq)
  /-- A Plithen READ PDU reads consecutive folios and is answered. (R420) -/
  | plithenRead (t dest source : Nat) (payload : List Byte)
  /-- A Plithen WRITE PDU writes consecutive folios until the first failure, answered from the cache when repeated.
  (R420) -/
  | plithenWrite (t dest source : Nat) (payload : List Byte)
  /-- A Plithen DESCRIBE PDU returns the descriptor words of folios. (R420) -/
  | plithenDescribe (t dest source : Nat) (payload : List Byte)
  /-- A management frame with another destination or EtherType, or a broadcast WRITE, is discarded and counted. (R418)
  -/
  | frameDiscard (t dest ethertype : Nat) (payload : List Byte)
  /-- Every folio 0x1040.05 ms, the port broadcasts an ANNOUNCE. (R422) -/
  | announceTimer (t : Nat)
  /-- Every 100 µs, regulator telemetry is read and the voltage loop adjusts the request or detects a failed stage.
  (R431) -/
  | telemetryRead (t : Nat) (west east : StageReading)
  /-- Every 1 ms, package power is formed and k lowered or raised. (R434) -/
  | powerLimitCheck (t : Nat)
  /-- Every 100 µs, sensors are read, throttling hot halves and tripping at 100 °C. (R436) -/
  | thermalSample (t : Nat) (west east control dram : List Nat)
  /-- A stage reports overcurrent or asserts vrhot, and the half's k drops to 16. (R435) -/
  | vrhotAssert (t : Nat) (east : Bool)
  /-- The overcurrent or vrhot report ends, and k may rise again. (R435) -/
  | vrhotEnd (t : Nat) (east : Bool)
  /-- Every 10 µs, local-time copies are corrected over the UCIe sideband. (R430) -/
  | localTimeCorrection (t : Nat) (left : List Int)
  /-- A UCIe module fails training or its replay limit and is fenced, failing the package when the limits of R15 are
  reached. (R14) -/
  | ucieModuleFail (t module : Nat)
  /-- pwr_good rises, and a POWER_ON reset begins. (R438) -/
  | powerOn
  /-- pwr_good falls without hold-up, and the device stops at once. (R445) -/
  | powerLoss (journalled : List Nat)
  /-- rst_n is asserted, and a PIN reset runs its entry sequence. (R439) -/
  | pinReset (t heldNs : Nat)
  /-- Writing 0xA5 to folio 0x7810.02 starts a COMMAND reset. (R438) -/
  | resetCommand (t : Nat) (req : FolioReq)
  /-- The control-die watchdog expires, and a WATCHDOG reset starts. (R438) -/
  | watchdogExpiry (t : Nat)
  /-- pfail_n is asserted, and the device stops, darkens, closes bypasses and flushes flash. (R443) -/
  | powerFail (t : Nat)
  /-- The flush and bypass move complete, pfail_done is asserted, and a POWER_FAIL reset follows if power stays.
  (R443) -/
  | powerFailPathComplete (t : Nat) (flush : FlushRun)
  /-- The init engine leaves reset, starting local time, reading the PUF, locking PLLs and training UCIe. (R439) -/
  | initEngineStart (flush : FlushRun) (pufOk : Bool) (failed : List Nat)
  /-- Internal memories are zero-filled, and the control-die cores are released. (R441) -/
  | memoryFillComplete (t : Nat)
  /-- Firmware and configuration images are selected and verified, and folios take reset and override values. (R461)
  -/
  | imagesVerified (t : Nat) (found : List (Nat × BootImage))
  /-- Stacked DRAM is trained and filled, and the capacity and part number are set. (R4) -/
  | stackTrainingComplete (t : Nat) (large : Bool)
  /-- LPDDR6 and flash channels are trained, and the population is checked and ROLE_ACTIVE set. (R21) -/
  | lpddr6TrainingComplete (t : Nat) (l : LpddrFound) (f : FlashFound)
  /-- perst_n is asserted, failing host accesses, tearing down host-window jobs and resetting host-port folios. (R457)
  -/
  | perstAssert (t : Nat)
  /-- The host port reaches L0, and host windows and waiting restarts resume. (R457) -/
  | pcieL0Reached (t rate width : Nat) (flit : Bool) (unmasked : List Nat)
  /-- A device read of host memory is not completed in folio 0x7C20.01 ms and completes with TIMEOUT. (R454) -/
  | hostReadTimeout (t : Nat) (who : HostReader)
  /-- UPDATE_COMMAND 0x01 reads, checks and writes a firmware image into the unused slot. (R462) -/
  | updateFirmware (t : Nat) (req : FolioReq)
  /-- UPDATE_COMMAND 0x02 reads, checks and writes a configuration image into the unused slot. (R462) -/
  | updateConfiguration (t : Nat) (req : FolioReq)
  /-- An update write and read-back finishes, and its status is reported. (R462) -/
  | updateComplete (t : Nat) (image : BootImage) (readBack : Bool)
  /-- QUOTE_COMMAND 0x01 forms the quote body and starts signing. (R465) -/
  | quoteCommand (t : Nat) (req : FolioReq)
  /-- Quote signing finishes, and the body and signature are written to the quote address. (R465) -/
  | quoteSigned (t : Nat) (refused : Bool)
  /-- EXTEST, EXTEST_PULSE, EXTEST_TRAIN, CLAMP or HIGHZ is loaded, stopping the package as in step 1 of R439. (R466)
  -/
  | tapExtest (t : Nat)
  /-- The TAP leaves a boundary-scan instruction, and the package resets with kind PIN. (R466) -/
  | tapInstructionExit (t : Nat)
  /-- IJTAG_ACCESS opens the instrument network, with memory instruments only when debug is enabled. (R467) -/
  | ijtagAccess (t instrument : Nat)
  /-- Steps holding the victim's positions have ended, and its private groups are read and written cased to host
  memory. (R75) -/
  | swapOutBegin (t sig : Nat)
  /-- Host memory confirms the last swap-out write, the groups are freed and the signature enters PREEMPTED. (R75) -/
  | swapOutConfirmed (t sig : Nat)
  /-- A swap-in group read completes and is checked, retried, or tears down the job. (R77) -/
  | swapInGroupRead (t sig : Nat) (objects : List (List Byte))
  /-- After teardown, every swap write has been sent and every read completed, so the swap region is reported
  released. (R78) -/
  | swapRegionReleased (t jb : Nat)
  /-- pfail_n is released after pfail_done while pwr_good stays asserted, and the package leaves the held reset with
  kind POWER_FAIL. (R443) -/
  | pfailRelease (t : Nat)
  /-- The start-up proof of the shared-SRAM, network-on-chip, UCIe and control-die checkers ends within 40 ms of core
  release, fencing any unit whose checker fails before jobs may start. (R374) -/
  | startupCheckersProved (t : Nat) (failed : List (Nat × Nat))
  deriving DecidableEq, Repr

end Sys2Proof
end

