-- ==== Sys2Proof/Machine/Bits.lean ====
section
/-! DEFINITION. Bit fields (R5), byte order (R6), saturating and rounding helpers used by every layout of the spec. -/

namespace Sys2Proof.Machine

/-- Bits [hi:lo] of a number, both ends included (R5). -/
def nfld (x hi lo : Nat) : Nat := (x >>> lo) % 2 ^ (hi + 1 - lo)

/-- Bits [hi:lo] of a word as a number (R5). -/
def fld {n : Nat} (w : BitVec n) (hi lo : Nat) : Nat := nfld w.toNat hi lo

/-- Bit `i` of a number. -/
def nbit (x i : Nat) : Bool := x.testBit i

/-- A value placed at bits [hi:lo] of an otherwise zero word (bits beyond the field are cut off). -/
def place (v hi lo : Nat) : Nat := (v % 2 ^ (hi + 1 - lo)) <<< lo

/-- `x` with bits [hi:lo] replaced by `v`. -/
def setFld (x v hi lo : Nat) : Nat :=
  (x - place (nfld x hi lo) hi lo) + place v hi lo

/-- 1 for true, 0 for false. -/
def b2n (b : Bool) : Nat := if b then 1 else 0

/-- The quotient rounded up; zero divisor gives zero, as Nat division does. -/
def ceilDiv (a b : Nat) : Nat := (a + b - 1) / b

/-- `a` rounded up to a multiple of `b`. -/
def roundUp (a b : Nat) : Nat := ceilDiv a b * b

/-- Increment that stops at the greatest value of a `w`-bit field. -/
def satInc {w : Nat} (x : BitVec w) : BitVec w := if x = BitVec.allOnes w then x else x + 1

/-- The bytes of a number, least significant first (R6). -/
def toBytesLE : Nat → Nat → List Byte
  | 0, _ => []
  | n + 1, x => BitVec.ofNat 8 x :: toBytesLE n (x / 256)

/-- The number whose bytes, least significant first, are given (R6). -/
def ofBytesLE : List Byte → Nat
  | [] => 0
  | b :: r => b.toNat + 256 * ofBytesLE r

/-- The bits of a number, least significant first. -/
def toBits : Nat → Nat → List Bool
  | 0, _ => []
  | n + 1, x => x.testBit 0 :: toBits n (x / 2)

/-- The number of one bits among the lowest `n`. -/
def popCount : Nat → Nat → Nat
  | 0, _ => 0
  | n + 1, x => x % 2 + popCount n (x / 2)

/-- Least power of two at or above `n`. -/
def pow2Ceil (n : Nat) : Nat := if n ≤ 1 then 1 else 2 ^ (Nat.log2 (n - 1) + 1)

end Sys2Proof.Machine
end

