-- ==== Sys2Proof/Machine/Aes.lean ====
section
/-! DEFINITION. AES-256-GCM (NIST SP 800-38D), which the casing and opening engines and the key block use (R332, R464). -/

namespace Sys2Proof.Machine

/-- Rows 0x0 to 0x7 of the AES substitution table. -/
def aesSboxLow : List (List Nat) :=
 [
  [0x63, 0x7C, 0x77, 0x7B, 0xF2, 0x6B, 0x6F, 0xC5, 0x30, 0x01, 0x67, 0x2B, 0xFE, 0xD7, 0xAB, 0x76],
  [0xCA, 0x82, 0xC9, 0x7D, 0xFA, 0x59, 0x47, 0xF0, 0xAD, 0xD4, 0xA2, 0xAF, 0x9C, 0xA4, 0x72, 0xC0],
  [0xB7, 0xFD, 0x93, 0x26, 0x36, 0x3F, 0xF7, 0xCC, 0x34, 0xA5, 0xE5, 0xF1, 0x71, 0xD8, 0x31, 0x15],
  [0x04, 0xC7, 0x23, 0xC3, 0x18, 0x96, 0x05, 0x9A, 0x07, 0x12, 0x80, 0xE2, 0xEB, 0x27, 0xB2, 0x75],
  [0x09, 0x83, 0x2C, 0x1A, 0x1B, 0x6E, 0x5A, 0xA0, 0x52, 0x3B, 0xD6, 0xB3, 0x29, 0xE3, 0x2F, 0x84],
  [0x53, 0xD1, 0x00, 0xED, 0x20, 0xFC, 0xB1, 0x5B, 0x6A, 0xCB, 0xBE, 0x39, 0x4A, 0x4C, 0x58, 0xCF],
  [0xD0, 0xEF, 0xAA, 0xFB, 0x43, 0x4D, 0x33, 0x85, 0x45, 0xF9, 0x02, 0x7F, 0x50, 0x3C, 0x9F, 0xA8],
  [0x51, 0xA3, 0x40, 0x8F, 0x92, 0x9D, 0x38, 0xF5, 0xBC, 0xB6, 0xDA, 0x21, 0x10, 0xFF, 0xF3, 0xD2]]

/-- Rows 0x8 to 0xF of the AES substitution table. -/
def aesSboxHigh : List (List Nat) :=
 [
  [0xCD, 0x0C, 0x13, 0xEC, 0x5F, 0x97, 0x44, 0x17, 0xC4, 0xA7, 0x7E, 0x3D, 0x64, 0x5D, 0x19, 0x73],
  [0x60, 0x81, 0x4F, 0xDC, 0x22, 0x2A, 0x90, 0x88, 0x46, 0xEE, 0xB8, 0x14, 0xDE, 0x5E, 0x0B, 0xDB],
  [0xE0, 0x32, 0x3A, 0x0A, 0x49, 0x06, 0x24, 0x5C, 0xC2, 0xD3, 0xAC, 0x62, 0x91, 0x95, 0xE4, 0x79],
  [0xE7, 0xC8, 0x37, 0x6D, 0x8D, 0xD5, 0x4E, 0xA9, 0x6C, 0x56, 0xF4, 0xEA, 0x65, 0x7A, 0xAE, 0x08],
  [0xBA, 0x78, 0x25, 0x2E, 0x1C, 0xA6, 0xB4, 0xC6, 0xE8, 0xDD, 0x74, 0x1F, 0x4B, 0xBD, 0x8B, 0x8A],
  [0x70, 0x3E, 0xB5, 0x66, 0x48, 0x03, 0xF6, 0x0E, 0x61, 0x35, 0x57, 0xB9, 0x86, 0xC1, 0x1D, 0x9E],
  [0xE1, 0xF8, 0x98, 0x11, 0x69, 0xD9, 0x8E, 0x94, 0x9B, 0x1E, 0x87, 0xE9, 0xCE, 0x55, 0x28, 0xDF],
  [0x8C, 0xA1, 0x89, 0x0D, 0xBF, 0xE6, 0x42, 0x68, 0x41, 0x99, 0x2D, 0x0F, 0xB0, 0x54, 0xBB, 0x16]]

/-- The substitution of one byte. -/
def aesSub (b : Byte) : Byte :=
  let n := b.toNat
  BitVec.ofNat 8 (((aesSboxLow ++ aesSboxHigh).getD (n / 16) []).getD (n % 16) 0)

/-- Multiplication by x in GF(2^8). -/
def aesXtime (b : Byte) : Byte := if b.msb then (b <<< 1) ^^^ 0x1B else b <<< 1

/-- Byte `i` of a list of bytes. -/
def byteAt (l : List Byte) (i : Nat) : Byte := l.getD i 0

/-- XOR of two byte strings, as long as the shorter. -/
def xorBytes (a b : List Byte) : List Byte := (a.zip b).map (fun p => p.1 ^^^ p.2)

/-- Key expansion: from the words so far, newest first, `n` words more of four bytes each; `i` counts words, `rc` is the
round constant. -/
def aesExpand : Nat → Nat → Byte → List (List Byte) → List (List Byte)
  | 0, _, _, ws => ws
  | n + 1, i, rc, ws =>
    let prev := ws.getD 0 []
    let back := ws.getD 7 []
    if i % 8 = 0 then
      let t := [byteAt prev 1, byteAt prev 2, byteAt prev 3, byteAt prev 0].map aesSub
      let t := xorBytes t [rc, 0, 0, 0]
      aesExpand n (i + 1) (aesXtime rc) (xorBytes back t :: ws)
    else if i % 8 = 4 then aesExpand n (i + 1) rc (xorBytes back (prev.map aesSub) :: ws)
    else aesExpand n (i + 1) rc (xorBytes back prev :: ws)

/-- The 15 round keys of a 32-byte key, 16 bytes each. -/
def aesKeys (key : List Byte) : List (List Byte) :=
  let first := ((List.range 8).map (fun i => (key.drop (4 * i)).take 4)).reverse
  let ws := (aesExpand 52 8 1 first).reverse
  (List.range 15).map (fun r => ((ws.drop (4 * r)).take 4).flatten)

/-- ShiftRows over 16 bytes in column order. -/
def aesShift (s : List Byte) : List Byte :=
  (List.range 16).map (fun i => byteAt s ((i + 4 * (i % 4)) % 16))

/-- MixColumns of one column. -/
def aesMixColumn (a b c d : Byte) : List Byte :=
  let x := aesXtime
  [x a ^^^ (x b ^^^ b) ^^^ c ^^^ d, a ^^^ x b ^^^ (x c ^^^ c) ^^^ d, a ^^^ b ^^^ x c ^^^ (x d ^^^ d),
   (x a ^^^ a) ^^^ b ^^^ c ^^^ x d]

/-- MixColumns over 16 bytes. -/
def aesMix (s : List Byte) : List Byte :=
  (List.range 4).flatMap (fun c => aesMixColumn (byteAt s (4 * c)) (byteAt s (4 * c + 1)) (byteAt s (4 * c + 2)) (byteAt s (4 * c + 3)))

/-- One block under the round keys. -/
def aesBlock (ks : List (List Byte)) (block : List Byte) : List Byte :=
  let s := xorBytes block (ks.getD 0 [])
  let s := (List.range 13).foldl (fun s r => xorBytes (aesMix (aesShift (s.map aesSub))) (ks.getD (r + 1) [])) s
  xorBytes (aesShift (s.map aesSub)) (ks.getD 14 [])

/-- A block as a 128-bit number, first byte most significant. -/
def blockNat (bs : List Byte) : Nat := (bs ++ List.replicate (16 - bs.length) 0).foldl (fun (a : Nat) (b : Byte) => a * 256 + b.toNat) 0

/-- A 128-bit number as a block. -/
def natBlock (n : Nat) : List Byte := (toBytesLE 16 n).reverse

/-- Multiplication in the field of GHASH: bit 127 of the number is coefficient 0. -/
def ghashMul (x y : Nat) : Nat :=
  ((List.range 128).foldl (fun (p : Nat × Nat) i =>
    let z := if nbit x (127 - i) then p.1 ^^^ p.2 else p.1
    let v := if nbit p.2 0 then (p.2 / 2) ^^^ (0xE1 * 2 ^ 120) else p.2 / 2
    (z, v)) (0, y)).1

/-- The 16-byte blocks of a string, the last one possibly short. -/
def gcmBlocks : Nat → List Byte → List (List Byte)
  | 0, _ => []
  | n + 1, bs => bs.take 16 :: gcmBlocks n (bs.drop 16)

/-- The blocks of a whole string. -/
def blocksOf (bs : List Byte) : List (List Byte) := gcmBlocks (ceilDiv bs.length 16) bs

/-- GHASH over the additional data, the ciphertext and their lengths. -/
def ghash (h : Nat) (aad ct : List Byte) : Nat :=
  let y := (blocksOf aad ++ blocksOf ct).foldl (fun y b => ghashMul (y ^^^ blockNat b) h) 0
  ghashMul (y ^^^ (aad.length * 8 * 2 ^ 64 + ct.length * 8)) h

/-- The counter block for a 96-bit IV. -/
def gcmCounter (iv : List Byte) (n : Nat) : List Byte := iv ++ (toBytesLE 4 n).reverse

/-- The key stream over a string: counter values from 2. -/
def gcmCrypt (ks : List (List Byte)) (iv : List Byte) : Nat → List (List Byte) → List Byte
  | _, [] => []
  | n, b :: r => xorBytes b (aesBlock ks (gcmCounter iv n)) ++ gcmCrypt ks iv (n + 1) r

/-- The tag of a ciphertext. -/
def gcmTag (key iv aad ct : List Byte) : List Byte :=
  let ks := aesKeys key
  let h := blockNat (aesBlock ks (List.replicate 16 0))
  natBlock (ghash h aad ct ^^^ blockNat (aesBlock ks (gcmCounter iv 1)))

/-- AES-256-GCM encryption: ciphertext and 16-byte tag. -/
def gcmSeal (key iv aad pt : List Byte) : List Byte × List Byte :=
  let ct := gcmCrypt (aesKeys key) iv 2 (blocksOf pt)
  (ct, gcmTag key iv aad ct)

/-- AES-256-GCM decryption with tag verification. -/
def gcmOpen (key iv aad ct tag : List Byte) : Option (List Byte) :=
  if gcmTag key iv aad ct = tag then some (gcmCrypt (aesKeys key) iv 2 (blocksOf ct)) else none

end Sys2Proof.Machine
end

