-- ==== Sys2Proof/Config.lean ====
section
/-! DEFINITION. What one part fixes and what the spec leaves open: each free value is a constant without a body, so no
proof can see what it is. A free value that may differ at every use is applied to State.freeCtr. -/

namespace Sys2Proof

/-- Whether sin32 of minus zero is minus zero: R162 asks for the FP32 value nearest the exact result and both zeros are. -/
opaque Config.sinNegZeroIsNeg : Bool

/-- rsqrt32 of minus zero, for which R162 states no result. -/
opaque Config.rsqrtNegZero : BitVec 32

/-- min of two words of which one is NaN, or of two zeros of different sign: R162 states them for max only. -/
opaque Config.minOpen : BitVec 32 → BitVec 32 → BitVec 32

/-- The ZF4 step of a sub-block for which R108 states none: a block that holds NaN, or a sub-block that holds an infinity. -/
opaque Config.zf4OpenStep : Nat → Nat

/-- Byte n of the reserved area of quire q: canary vectors, whose content is the part's (R122). -/
opaque Config.canaryByte : Nat → Nat → BitVec 8

/-- The byte at an address of a line that a member held modified, as its recall for an access of the home's own returns it (R279). -/
opaque Config.recalledByte : Nat → Nat → BitVec 8

/-- The flash access time, ns, of a lender for so many bytes (R261, Table 10-6): a borrower is not told it. -/
opaque Config.flashAccessNs : Nat → Nat → Nat

/-- The 4-byte check over the data of a flash sector (R245), whose function the spec does not give. -/
opaque Config.sectorCheck : List (BitVec 8) → BitVec 32

/-- A fresh number each time it is used: the addresses, salts, tags and draws that the spec leaves to the part. -/
opaque Config.fresh : Nat → Nat

/-- Folios 0x1030.02, 0x1030.03 and 0x1030.04 where they mean nothing (R409): number 0 to 2 of a folio that does not exist, 1 and 2 of one
without a range. -/
opaque Config.unstated : Nat → Nat → Nat → Nat

/-- Key digests of the two Vashane keys in the mask ROM (R460). -/
opaque Config.romKey : Nat → BitVec 256

/-- ML-KEM-768 of FIPS 203, which the spec names and does not write out: byte n of the encapsulation key, and of the shared secret of a
ciphertext, for the pair that a seed gives (R463, R464). -/
opaque Config.kemKey : BitVec 256 → Nat → BitVec 8

/-- See Config.kemKey. -/
opaque Config.kemSecret : BitVec 256 → List (BitVec 8) → Nat → BitVec 8

/-- SLH-DSA-SHAKE-192f of FIPS 205: byte n of the public key that a seed gives, and of its signature of a message (R463, R465). -/
opaque Config.attestKey : BitVec 256 → Nat → BitVec 8

/-- See Config.attestKey. -/
opaque Config.attestSign : BitVec 256 → List (BitVec 8) → Nat → BitVec 8

end Sys2Proof
end

