-- ==== Sys2Proof/Machine/State.lean ====
section
/-! DEFINITION. The machine's state as plain data: every register, table, queue, counter and pin the spec gives the
package, and the state right after reset. Types carry the names and widths of the spec's tables. -/

namespace Sys2Proof.Machine

/-- Why the machine stops: no meaning of this model stops with a fault (every access the spec forbids is answered by
the refusal, trap or halt that the spec itself describes), so the type has no constructor. Safe. [DESIGN CHOICE: log 10] -/
inductive Fault where
  deriving DecidableEq, Repr

/-- Why a command has no meaning. [DESIGN CHOICE: log 10] -/
inductive Refusal where
  /-- Raised only by an arm of exec whose command has no meaning yet; names the command. Safe: nothing is claimed. -/
  | notModelled (mnemonic : String)
  deriving DecidableEq, Repr

/-- Access codes of folios and fields (R7, Table 0-3). -/
inductive FolioAccess where
  | ro | rw | rw1c | wo | rov
  deriving DecidableEq, Repr

/-- One row of the folio dictionary (R406, R408, R409, Table 19-2): indices idxLo to idxHi, subindices subLo to subHi. -/
structure FolioRow where
  idxLo : Nat
  idxHi : Nat
  subLo : Nat
  subHi : Nat
  width : Nat
  access : FolioAccess
  img : Bool
  reset : Nat
  range : Option (Nat × Nat)
  perInterface : Bool
  ruled : Bool
  /-- The bits that a write stores: bits the Meaning column marks RSVD are ignored (R8). -/
  mask : Nat
  deriving DecidableEq, Repr

/-- One entry of the change journal (Table 19-4). -/
structure JournalEntry where
  timeNs : Nat
  prior : Nat
  value : Nat
  seq : Nat
  index : Nat
  sub : Nat
  origin : Nat
  source : Nat
  result : Nat
  sameCycle : Bool
  deriving DecidableEq, Repr

/-- One entry of the Plithen response cache (R421). -/
structure PlithenCached where
  mac : Nat
  seq : Nat
  header : BitVec 128
  values : List Nat
  deriving DecidableEq, Repr

/-- The folio dictionary and its interfaces (chapter 19). -/
structure DictState where
  /-- Values of folios held once, by index × 256 + subindex; unlisted: the reset value in force. -/
  folios : Tbl Nat
  /-- Copies of per-interface folios, by interface × 2^24 + index × 256 + subindex. -/
  perIf : Tbl Nat
  /-- Overrides of the configuration image in force (R407). -/
  overrides : Tbl Nat
  /-- Values that the configuration image supplies for folios whose Reset is img. -/
  img : Tbl Nat
  /-- The change journal, oldest first (R414). -/
  journal : List JournalEntry
  /-- The Plithen response cache, least recently used first (R421). -/
  cache : List PlithenCached
  /-- JOB_PEERS of each job (folio 0x2060.0A). -/
  jobPeers : Tbl Nat
  /-- Snapshot words per interface: 1024-bit entry copied by a write to folio 0x2040.00. -/
  snaps : Tbl Nat
  /-- Staging words (Table 19-1) that an interface has written since it last wrote their selector, by interface × 2^24 + folio: they read as
  the last value written (R7). -/
  staged : List Nat
  deriving DecidableEq, Repr

/-- SIGNATURE.STATE (Table 2-2). -/
inductive SigState where
  | free | admitting | queued | prefilling | away | handoffOut | handoffIn | rebuilding
  | decoding | swappingOut | preempted | swappingIn | draining | ended | replaying
  deriving DecidableEq, Repr

/-- A signature-table entry (R29, Table 2-1), RSVD fields left out: they read as zero. -/
structure SigEntry where
  holderEndpoint : BitVec 16
  stepSeq : BitVec 32
  clientTag : BitVec 64
  seed : BitVec 64
  prefixLen : BitVec 24
  preemptCount : BitVec 8
  stallCount : BitVec 16
  draftLen : BitVec 3
  stopToken : BitVec 24
  topK : BitVec 7
  topP : BitVec 16
  temperature : BitVec 16
  tlogBase : BitVec 36
  arrivalUs : BitVec 40
  estimateUs : BitVec 32
  budgetUs : BitVec 32
  leavesReserved : BitVec 24
  leafRoot : BitVec 32
  delivered : BitVec 24
  genLen : BitVec 24
  maxOutput : BitVec 24
  promptLen : BitVec 24
  cancelPending : Bool
  overdue : Bool
  tipinVersion : BitVec 16
  tipinSlot : BitVec 8
  peerEndpoint : BitVec 16
  homeEndpoint : BitVec 16
  ownerEpoch : BitVec 32
  endReason : BitVec 8
  priority : BitVec 4
  /-- CLASS: true is best-effort. -/
  bestEffort : Bool
  job : BitVec 6
  resumeState : SigState
  state : SigState
  deriving DecidableEq, Repr

/-- The entry that the memory fill leaves: every field zero, which is state FREE (R29). [DESIGN CHOICE: log 11] -/
def SigEntry.zero : SigEntry :=
  { holderEndpoint := 0, stepSeq := 0, clientTag := 0, seed := 0, prefixLen := 0, preemptCount := 0, stallCount := 0,
    draftLen := 0, stopToken := 0, topK := 0, topP := 0, temperature := 0, tlogBase := 0, arrivalUs := 0,
    estimateUs := 0, budgetUs := 0, leavesReserved := 0, leafRoot := 0, delivered := 0, genLen := 0, maxOutput := 0,
    promptLen := 0, cancelPending := false, overdue := false, tipinVersion := 0, tipinSlot := 0, peerEndpoint := 0,
    homeEndpoint := 0, ownerEpoch := 0, endReason := 0, priority := 0, bestEffort := false, job := 0,
    resumeState := .free, state := .free }

/-- What the control plane keeps beside an entry: the content of its token log and leaf list, and the progress of what
the chapters say happens to it later. -/
structure SigAux where
  /-- Tokens of the token log (R44, R46), prompt first; the log lies at TLOG_BASE. -/
  tokens : List Nat
  /-- Token positions whose KV is written, counted from 0 (R66, R85). -/
  kv : Nat
  /-- The leaf list: the group at each group position, or null (R61). -/
  groups : List (Option Nat)
  /-- List pages taken from the list-page pool of the job (R62). -/
  pages : List Nat
  /-- This package is the signature's holder (R200). -/
  holder : Bool
  /-- Leaves held of the job's pool, by the signature's own reservation or by a working one (R200). -/
  reservedLeaves : Nat
  /-- The leaf list as it stood when the entry came into its handoff or resumed after a lease expiry (R212). -/
  baseList : List (Option Nat)
  /-- PROMPT_ADDR of the request (Table 2-4): the 64-bit fabric address from which the prompt is read. -/
  promptAddr : Nat
  /-- Host queue through which the request came; none for a fabric queue (R50). -/
  via : Option Nat
  /-- Local time, ns, at which the entry was taken: the signature's life starts (folio 0x2010.05). -/
  bornNs : Nat
  /-- Drafts staged for the next step (R96). -/
  drafts : List Nat
  /-- Consecutive steps without a token because of selector errors (R98). -/
  selectorErrors : Nat
  /-- Last prompt chunk has committed (transition out of PREFILLING due at the boundary). -/
  prefillDone : Bool
  /-- First position not yet sent in a TOKENS notice (R47). -/
  sentTo : Nat
  /-- An ACK equal to DELIVERED asked for a resend (R47). -/
  resendAsked : Bool
  /-- Local time, ns, of the last resend (R47). -/
  resendNs : Nat
  /-- Local time, ns, of the last notice (R401). -/
  noticeNs : Nat
  /-- Release of leaves and reservation waits for the commit of a step that holds positions (R101). -/
  releaseDue : Bool
  /-- Reason with which the entry drains when its swap transfer completes (Table 2-3). -/
  drainAfterSwap : Option Nat
  /-- The entry lost to a higher epoch (R212), with the claimant's endpoint. -/
  superseded : Option Nat
  /-- The entry resumed after a lease expiry (R212). -/
  resumedAfterLease : Bool
  /-- Waiting for the fabric to report its CONFIRM delivered (R210). -/
  confirmWaiting : Bool
  /-- A rebalancing target chosen by folio 0x2060.07 (R206). -/
  moveTarget : Option Nat
  /-- Groups received in or taken for the current handoff. -/
  handoffGroups : List Nat
  /-- The stall of grow() that a swap-out serves first (R74). -/
  owedBy : Option Nat
  /-- Group positions still to be read by a swap-in, and repeats made of the first (R76, R77). -/
  swapLeft : List Nat
  swapRetries : Nat
  /-- PREFIX_LEN of the holder, as the offer that made the entry gave it (R204). -/
  holderPrefix : Nat
  /-- Kind of the running handoff (R199) as sender. -/
  handoffKind : Nat
  /-- Local time, ns, at which the next probe is due (R213). -/
  probeAtNs : Nat
  /-- Prompt package of a PREFILL whose lease expired: the signature makes no further PREFILL (R206). -/
  noOfferPeer : Option Nat
  deriving DecidableEq, Repr

/-- The record of an entry that has none. [DESIGN CHOICE: log 115] -/
def SigAux.zero : SigAux :=
  { tokens := [], kv := 0, groups := [], pages := [], holder := false, reservedLeaves := 0, baseList := [], promptAddr := 0, via := none, bornNs := 0, drafts := [],
    selectorErrors := 0, prefillDone := false, sentTo := 0, resendAsked := false, resendNs := 0, noticeNs := 0,
    releaseDue := false, drainAfterSwap := none, superseded := none, resumedAfterLease := false,
    confirmWaiting := false, moveTarget := none, handoffGroups := [], owedBy := none, swapLeft := [], swapRetries := 0,
    holderPrefix := 0, handoffKind := 0, probeAtNs := 0, noOfferPeer := none }

/-- An admission request waiting in its job's order (R42). -/
structure AdmitRequest where
  src : Nat
  via : Option Nat
  arrivedNs : Nat
  /-- Delay that R36 subtracts from the budget, whole µs. -/
  delayUs : Nat
  request : BitVec 512
  deriving DecidableEq, Repr

/-- A prefill offer kept for estimates (R40). -/
structure PrefillOffer where
  endpoint : Nat
  job : Nat
  queueUs : Nat
  rate : Nat
  receivedNs : Nat
  deriving DecidableEq, Repr

/-- The signature table and admission (chapter 2). -/
structure SigTable where
  entries : Tbl SigEntry
  aux : Tbl SigAux
  /-- Requests waiting while an earlier request of the same job is being checked (R42), oldest first. -/
  waiting : List AdmitRequest
  offers : List PrefillOffer
  deriving DecidableEq, Repr

/-- Where a leaf lies (Table 3-4, TIER). -/
inductive Tier where
  | stacked | lpddr6 | neighbour | host | flash | notPlaced
  deriving DecidableEq, Repr

/-- A group descriptor (R58, Table 3-3). -/
structure GroupDesc where
  refcount : Nat
  fill : Nat
  indexed : Bool
  moving : Bool
  live : Bool
  lastWriter : Nat
  ageMs : Nat
  /-- When not live: the next free group. -/
  nextFree : Option Nat
  deriving DecidableEq, Repr

/-- The all-zero descriptor; NEXT_FREE null. [DESIGN CHOICE: log 11] -/
def GroupDesc.zero : GroupDesc :=
  { refcount := 0, fill := 0, indexed := false, moving := false, live := false, lastWriter := 0, ageMs := 0, nextFree := none }

/-- A leaf descriptor (R59, Table 3-4); addresses in bytes. -/
structure LeafDesc where
  tier : Tier
  column : Nat
  scaleAddr : Nat
  page : Nat
  deriving DecidableEq, Repr

/-- The reset value: TIER 0b111, the rest zero. -/
def LeafDesc.zero : LeafDesc := { tier := .notPlaced, column := 0, scaleAddr := 0, page := 0 }

/-- A catchword node (R69, Table 3-7) with the tokens of its run record. -/
structure CwNode where
  key : Nat
  group : Nat
  ageMs : Nat
  parent : Nat
  children : Nat
  run : List Nat
  valid : Bool
  job : Nat
  tipinSlot : Nat
  tipinVersion : Nat
  rootChild : Bool
  runAddr : Nat
  deriving DecidableEq, Repr

/-- An unused node. -/
def CwNode.zero : CwNode :=
  { key := 0, group := 0, ageMs := 0, parent := 0, children := 0, run := [], valid := false, job := 0, tipinSlot := 0,
    tipinVersion := 0, rootChild := false, runAddr := 0 }

/-- A bucket slot (R68, Table 3-6). -/
structure CwSlot where
  tag : Nat
  valid : Bool
  node : Nat
  deriving DecidableEq, Repr

/-- The catchword index (chapter 3): 2 Mi buckets of eight slots, and nodes by identifier. -/
structure CwIndex where
  buckets : Tbl (List CwSlot)
  nodes : Tbl CwNode
  /-- Jobs whose nodes are being swept out (R73). -/
  sweeping : List Nat
  deriving DecidableEq, Repr

/-- An address register (Table 6-1): BASE and four signed strides in 64-byte units. -/
structure AddrReg where
  base : BitVec 48
  s0 : BitVec 24
  s1 : BitVec 24
  s2 : BitVec 24
  s3 : BitVec 24
  deriving DecidableEq, Repr

/-- One level of the loop stack (Table 6-1). -/
structure LoopLevel where
  start : Nat
  endAt : Nat
  left : Nat
  index : Nat
  deriving DecidableEq, Repr

/-- One contiguous move of a transfer: source and destination device physical addresses and a length in bytes. -/
structure Move where
  src : Nat
  dst : Nat
  len : Nat
  deriving DecidableEq, Repr

/-- A gather whose table is yet to be read (R142): the stitch's index, the table's address and entries, the base of its rows, the
quire-local address of the first and the bytes of each. -/
structure GatherRef where
  sp : Nat
  table : Nat
  count : Nat
  base : Nat
  dst : Nat
  len : Nat
  deriving DecidableEq, Repr

/-- An asynchronous transfer issued and not complete (R136): its moves and the counter it raises; its direction, and its rows in
outbound windows as (quire byte, device address, bytes); what the memory it reads answers; and a gather not begun. -/
structure Transfer where
  moves : List Move
  event : Nat
  load : Bool
  away : List (Nat × Nat × Nat)
  fault : DmaFault
  gather : Option GatherRef
  deriving DecidableEq, Repr

/-- An outstanding ctl.call (R136, R142). -/
structure CtlCall where
  routine : Nat
  arg : Nat
  event : Nat
  startNs : Nat
  deriving DecidableEq, Repr

/-- What a sequencer is waiting for. -/
inductive SeqWait where
  | none
  | bar (id parties : Nat)
  | sig (event value : Nat) (clear : Bool)
  deriving DecidableEq, Repr

/-- A sequencer (R133, Table 6-1, folio 0x3110), of a quire or of a gutter unit. -/
structure Sequencer where
  /-- Job that holds the unit. -/
  job : Option Nat
  sp : Nat
  /-- Outermost level first. -/
  loops : List LoopLevel
  aregs : List AddrReg
  events : List Nat
  /-- The stitch store (R137). -/
  store : Tbl (BitVec 128)
  /-- Address of the table's backing region (R137). -/
  backing : Option Nat
  /-- Entry index and initial address bases from the rank map (R134, R147). -/
  entry : Nat
  bases : List Nat
  running : Bool
  /-- Stopped at a preemption point, keeping its context (R88). -/
  stopped : Bool
  frozen : Bool
  trap : Option Nat
  waiting : SeqWait
  /-- Step phases that the present wait has spanned (R146, cause 0x16). -/
  waitSteps : Nat
  transfers : List Transfer
  calls : List CtlCall
  /-- Checksum mismatch bit of a quire (R119), spot mismatch bit of a column (R174). -/
  mismatch : Bool
  deriving DecidableEq, Repr

/-- A sequencer of an unassigned unit after the memory fill. -/
def Sequencer.zero : Sequencer :=
  { job := Option.none, sp := 0, loops := [], aregs := List.replicate 16 ⟨0, 0, 0, 0, 0⟩,
    events := List.replicate 16 0, store := [], backing := Option.none, entry := 0, bases := List.replicate 16 0, running := false,
    stopped := false, frozen := false, trap := Option.none, waiting := SeqWait.none, waitSteps := 0, transfers := [],
    calls := [], mismatch := false }

/-- An ordinary access held by a column (R171). -/
structure HeldAccess where
  id : Nat
  beats : Nat
  sinceNs : Nat
  deriving DecidableEq, Repr

/-- One row of the row store of an attention engine (R168). -/
structure AttRow where
  query : List Word32
  m : Word32
  l : Word32
  o : List Word32
  deriving DecidableEq, Repr

/-- A gutter unit and its column (R161, R171, R172, R174). -/
structure GutterUnit where
  seq : Sequencer
  /-- 8,192 FP32 words. -/
  scratch : Tbl Word32
  /-- Entry of the work list at which att.run stands, and its row store. -/
  attEntry : Nat
  attRows : List AttRow
  /-- Units of work since the last spot check, and the interval in force (R174). -/
  workCount : Nat
  spotInterval : Nat
  /-- Units of work that are still to be repeated. -/
  repeats : Nat
  /-- Accesses held, oldest first. -/
  held : List HeldAccess
  refreshPause : Bool
  /-- Quire and counter that the column's halt raises (gu.run with NOTIFY). -/
  notify : Option (Nat × Nat)
  /-- att.run has met a leaf that is not in the column and waits for it (R239). -/
  attWait : Bool
  /-- It was started by a quire of the prompt part, whose steer bank it reads (R138). -/
  byPrompt : Bool
  deriving DecidableEq, Repr

/-- A gutter unit after the memory fill. -/
def GutterUnit.zero : GutterUnit :=
  { seq := Sequencer.zero, scratch := [], attEntry := 0, attRows := [], workCount := 0, spotInterval := 0x400, repeats := 0, held := [],
    refreshPause := false, notify := none, attWait := false, byPrompt := false }

/-- Outcome of a selector for one position (R95, R98). -/
inductive Draw where
  | token (t : Nat)
  | error
  deriving DecidableEq, Repr

/-- Logits gathered so far for one position of the step: slices (V_BASE, logits) in arrival order. -/
structure SelectorFeed where
  sig : Nat
  drawIndex : Nat
  slices : List (Nat × List Word32)
  deriving DecidableEq, Repr

/-- A member of a frozen decode batch (R84): the positions it writes start at `base`. -/
structure BatchMember where
  sig : Nat
  base : Nat
  drafts : List Nat
  deriving DecidableEq, Repr

/-- A chunk of a composed step (R85). -/
structure Chunk where
  sig : Nat
  start : Nat
  len : Nat
  deriving DecidableEq, Repr

/-- One entry of a step's position map (R143, Table 6-5). -/
structure PosMapEntry where
  group : Option Nat
  slot : Nat
  sig : Option Nat
  draw : Option Nat
  position : Nat
  deriving DecidableEq, Repr

/-- A line of the span engine's fold lists (R182): the place partials of a span that the lists of a step make, for one set of query
positions of a signature in one layer: its bundle's wide column, the places that write them, and their offset in the exchange area. -/
structure FoldEntry where
  layer : Nat
  sig : Nat
  qp0 : Nat
  qpos : Nat
  span : Nat
  column : Nat
  places : List Nat
  /-- In units of 64 bytes. -/
  poff : Nat
  deriving DecidableEq, Repr

/-- A composed step (R84): decode batch, chunks, shape, position map. -/
structure Composition where
  window : Nat
  batch : List BatchMember
  chunks : List Chunk
  shape : Nat
  shapeIndex : Nat
  promptOnly : Bool
  /-- The quire ranks that run it: the first, and how many (R92). -/
  lo : Nat
  count : Nat
  posMap : List PosMapEntry
  /-- Values composed for SR4–SR15 by freeze routines. -/
  steer : List Nat
  /-- Distinct tip-in slot–version pairs (R99). -/
  pairs : List (Nat × Nat)
  /-- Token inputs staged at the boundary, one per position (R82, R86, R96). -/
  inputs : List Nat
  /-- Position map and lists were written at the freeze (R143, R167). -/
  staged : Bool
  /-- The fold lists of the step (R182). -/
  folds : List FoldEntry
  deriving DecidableEq, Repr

/-- A step in flight (R87, R91). -/
structure StepRun where
  plan : Composition
  /-- Its sequencers run: false once it is carried, until the step phase that resumes it. -/
  started : Bool
  /-- It was stopped at a window end and has not committed since (R91). -/
  carried : Bool
  feeds : List SelectorFeed
  /-- Draws decided so far, by (signature, generated-token index). -/
  draws : List ((Nat × Nat) × Draw)
  /-- Signatures whose generation the commit ended (Table 2-3). -/
  finished : List Nat
  /-- A checksum mismatch, spot mismatch, trap, freeze or fence bars the commit (R87, R119, R146). -/
  barred : Bool
  /-- Slowest tier that the step waited for, 0 for none; the time waited so far, ns; when the present wait began; what waits now: a
  column (0, column) or a pass at distance (1 + layer, signature) (R239). -/
  lateTier : Nat
  lateNs : Nat
  lateSince : Option Nat
  lateWaits : List (Nat × Nat)
  deriving DecidableEq, Repr

/-- What the spec lets differ between the two parts of split service (R92): 0 generation (or the whole set), 1 prompt. -/
structure PartState where
  frozen : Option Composition
  /-- Compositions frozen for windows after that one: a compose lead longer than the step phase freezes further ahead (R84). -/
  ahead : List Composition
  run : Option StepRun
  /-- Commit read at the next boundary phase. -/
  committed : Option StepRun
  deriving DecidableEq, Repr

/-- A release record (R207, Table 9-5). -/
structure ReleaseRecord where
  leaseEndNs : Nat
  ownerEpoch : Nat
  sig : Nat
  peer : Nat
  fromGroup : Option Nat
  lastGroup : Nat
  groupsSent : Nat
  kind : Nat
  accepted : Bool
  deriving DecidableEq, Repr

/-- What a receiver knows of a handoff in HANDOFF_IN or awaiting delivery of its CONFIRM (R208 to R213). -/
structure HandoffIn where
  sig : Nat
  sender : Nat
  kind : Nat
  nextState : SigState
  arrivedNs : Nat
  deadlineNs : Nat
  kvLen : Nat
  /-- First group position wanted and the groups taken for the stream, in position order. -/
  fromGroup : Nat
  groups : List Nat
  /-- Leaves still wanted, as (group position, layer). -/
  wanted : List (Nat × Nat)
  /-- RESENDs made for the leaf (group position, layer). -/
  resends : List ((Nat × Nat) × Nat)
  /-- The transfer stopped after a leaf failed beyond its retries. -/
  stopped : Bool
  probeAtNs : Nat
  deriving DecidableEq, Repr

/-- Handoffs (chapter 9): release records held, and handoffs being received. -/
structure HandoffState where
  records : List ReleaseRecord
  incoming : List HandoffIn
  deriving DecidableEq, Repr

/-- A shard of a ring job (R185): the leaves of spans held for another member's signature. -/
structure Shard where
  job : Nat
  owner : Nat
  sig : Nat
  epoch : Nat
  anchor : Nat
  /-- Groups by group position of the signature. -/
  groups : Tbl Nat
  /-- Positions of committed KV (R187). -/
  kvLen : Nat
  /-- New rows that have found no group yet: layer, first position, rows (R185). -/
  waiting : List (Nat × Nat × List (List Byte))
  deriving DecidableEq, Repr

/-- The latest plan of a spine ring (R183, folios 0x3800 to 0x380B). -/
structure RingPlan where
  valid : Bool
  members : List Nat
  position : Nat
  /-- This package plans the ring and its first frame has not returned (R183). -/
  planning : Bool
  deriving DecidableEq, Repr

/-- An accumulator or span partial row (Table 8-2). -/
structure SpanRow where
  m : Word32
  l : Word32
  o : List Word32
  deriving DecidableEq, Repr

/-- Spans asked of a cache host (R193, R195). -/
structure HostAsk where
  host : Nat
  hi : Nat
  lo : Nat
  sentNs : Nat
  /-- The queue-full retry is due at the next step, or used up. -/
  retryDue : Bool
  retried : Bool
  late : Bool
  deriving DecidableEq, Repr

/-- A pass at distance in progress, at its owner or at a member that holds spans of it (R187, R188, R193). -/
structure SpanPass where
  job : Nat
  owner : Nat
  sig : Nat
  epoch : Nat
  stepSeq : Nat
  layer : Nat
  spanHi : Nat
  qpos : Nat
  qp0 : Nat
  kvLen : Nat
  anchor : Nat
  ring : Nat
  /-- At the owner: the window of the step it belongs to, and the members whose BLOCK it awaits (R188). -/
  window : Nat
  awaits : List Nat
  /-- Its queries are here: query rows as received. -/
  known : Bool
  queries : List (List Word32)
  /-- A block pass: the owner attends every span itself. -/
  solo : Bool
  /-- At the owner: its gutter units have written the place partials of the spans that the fold lists name. -/
  folded : Bool
  /-- A BLOCK_REQ to be answered for spans `spanHi` down to this one. -/
  block : Option Nat
  /-- Spans not yet attended, descending, and those of them that a cache host refused. -/
  todo : List Nat
  refused : List Nat
  /-- Span partials ready. -/
  spans : List (Nat × List SpanRow)
  /-- The accumulator that has arrived, and whether it has been passed on. -/
  acc : Option (List SpanRow)
  sent : Bool
  asks : List HostAsk
  /-- Finished output rows at the owner. -/
  output : Option (List Byte)
  deriving DecidableEq, Repr

/-- An ATTEND queued at a host job (R194), its payload opened, and the number by which the holder knows its job. -/
structure AttendWork where
  src : Nat
  job : Nat
  srcJob : Nat
  header : BitVec 512
  payload : List Byte
  deriving DecidableEq, Repr

/-- The transit groups of a signature in the step of a window (R188): its groups by group position; the block passes they serve, by
first query; what BLOCKs have brought, as (layer, group position); and the folds that are complete, as (layer, first query). -/
structure Transit where
  job : Nat
  sig : Nat
  window : Nat
  groups : List (Nat × Nat)
  sets : List Nat
  filled : List (Nat × Nat)
  folded : List (Nat × Nat)
  deriving DecidableEq, Repr

/-- Rings, shards and passes at distance (chapter 8). -/
structure SpanState where
  plans : List RingPlan
  /-- Job that uses each ring (folio 0x3803.nn). -/
  ringJob : List (Option Nat)
  shards : List Shard
  passes : List SpanPass
  attends : List AttendWork
  /-- Leaves copied by host jobs: (job, source address, column, address, last use in ms). -/
  copied : List (Nat × Nat × Nat × Nat × Nat)
  /-- Transit groups of block passes (R188). -/
  transit : List Transit
  deriving DecidableEq, Repr

/-- Where a group move goes (R227): a tier, and in tier 2 the loan entry. -/
structure TierPlace where
  tier : Tier
  loan : Nat
  deriving DecidableEq, Repr

/-- A group move of a tier engine (R227, R230, R231): `urgent` is step priority. -/
structure TierMove where
  job : Nat
  group : Nat
  target : TierPlace
  promotion : Bool
  urgent : Bool
  started : Bool
  /-- The writes to the target have been issued; a source in a loan is read first (R227). -/
  sent : Bool
  /-- A write to the target was refused. -/
  refused : Bool
  /-- Target addresses of the leaves (payload, scale), layer 0 first, once started. -/
  addrs : List (Nat × Nat)
  /-- A promotion follows the demotion (Table 10-7): at step priority, or not. -/
  follow : Option Bool
  deriving DecidableEq, Repr

/-- A move whose job was torn down: its source and target ranges (address, bytes) stay taken until its outstanding writes end
(Table 10-7). `pool` is its class pool. -/
structure EndingMove where
  job : Nat
  group : Nat
  pool : Nat
  ranges : List (Nat × Nat)
  deriving DecidableEq, Repr

/-- A loan entry of a borrower (R235, Table 10-4). -/
structure LoanEntry where
  lender : Nat
  kind : Nat
  recalled : Bool
  dead : Bool
  /-- CLASS: true is the best-effort pool. -/
  bestEffort : Bool
  sizeGib : Nat
  remoteBase : Nat
  loanId : Nat
  deriving DecidableEq, Repr

/-- A loan granted by this package as lender (R233, R234). -/
structure LentRange where
  loanId : Nat
  borrower : Nat
  kind : Nat
  sizeGib : Nat
  base : Nat
  recallSent : Bool
  deriving DecidableEq, Repr

/-- The last ADVERT of a lender for one kind (R234). -/
structure AdvertSeen where
  lender : Nat
  kind : Nat
  freeGib : Nat
  receivedNs : Nat
  deriving DecidableEq, Repr

/-- A request for a loan that awaits its GRANT, and when it was sent. -/
structure LoanAsked where
  lender : Nat
  kind : Nat
  bestEffort : Bool
  sentNs : Nat
  deriving DecidableEq, Repr

/-- One LPDDR6 channel (R220 to R226). -/
structure LpChannel where
  trained : Bool
  densityCode : Nat
  ranks : Nat
  /-- Refresh rate read from each device, in multiples of the base rate (R224). -/
  refreshRate : Nat
  /-- On-die ECC count last read (R225). -/
  eccCount : Nat
  /-- Local time of the last retraining of data timing (R226). -/
  retrainedNs : Nat
  deriving DecidableEq, Repr

/-- The tiers (chapter 10). -/
structure TierState where
  moves : List TierMove
  ending : List EndingMove
  /-- Jobs whose demotion is active (R230). -/
  active : List Nat
  /-- Loan entries 0–63 of a borrower. -/
  loans : Tbl LoanEntry
  lent : List LentRange
  /-- Endpoints that named this package in a REQUEST, with the local time (R233). -/
  askers : List (Nat × Nat)
  adverts : List AdvertSeen
  asked : List LoanAsked
  channels : Tbl LpChannel
  deriving DecidableEq, Repr

/-- Geometry and timing of the trained flash channels (R244, parameter page). -/
structure FlashGeometry where
  targets : Nat
  luns : Nat
  planes : Nat
  cellBits : Nat
  blocks : Nat
  pages : Nat
  tProgUs : Nat
  tReadUs : Nat
  endurance : Nat
  /-- Erase units per channel that the system area takes. -/
  systemUnits : Nat
  deriving DecidableEq, Repr

/-- A map entry (R247, Table 11-3). -/
structure FlashMapEntry where
  mapped : Bool
  poisoned : Bool
  slot : Nat
  deriving DecidableEq, Repr

/-- What an erase unit is being used for. -/
inductive EraseUse where
  | free | opened | closed | erasing | retired
  deriving DecidableEq, Repr

/-- The record of an erase unit (chapter 11, Reclaim and wear), and the next sector to be written in it. -/
structure EraseUnit where
  valid : Nat
  erases : Nat
  closeS : Nat
  use : EraseUse
  next : Nat
  deriving DecidableEq, Repr

/-- A free erase unit that was never erased. -/
def EraseUnit.zero : EraseUnit := { valid := 0, erases := 0, closeS := 0, use := .free, next := 0 }

/-- Whom a write of the flash tier serves (R249): a requester at the flash port by its number, a fabric request with the bytes that its
response carries, the bookmark of a job, or the tier engine, for the move of a (job, group) or without one. -/
inductive FlashFor where
  | user (id : Nat)
  | fabric (header : BitVec 256) (prior : List Byte)
  | bookmark (job : Nat)
  | engine (move : Option (Nat × Nat))
  deriving DecidableEq, Repr

/-- A write of one logical page that is not yet programmed (R249, R258). -/
structure FlashWrite where
  origin : FlashFor
  page : Nat
  channel : Nat
  slot : Nat
  seq : Nat
  confirmed : Bool
  data : List Byte
  /-- The map entry that the write replaced. -/
  prior : FlashMapEntry
  deriving DecidableEq, Repr

/-- A change of the map that a power-fail flush journalled: the page, the slot that its entry names, and the sector of the flush reserve
that holds its data (R259). -/
structure FlushEntry where
  page : Nat
  channel : Nat
  slot : Nat
  reserveSlot : Nat
  deriving DecidableEq, Repr

/-- A stored sector (R245): logical page and write sequence number of 7 bytes, the check over the data, the data. -/
structure FlashSector where
  page : Nat
  seq : Nat
  check : BitVec 32
  data : List Byte
  deriving DecidableEq, Repr

/-- A channel's health record (R257, Table 11-5); SPARE_PCT, WEAR_PCT, ERASES_MAX and RETIRED are computed from the erase units. -/
structure FlashHealth where
  corrected : Nat
  uncorrectable : Nat
  programFails : Nat
  eraseFails : Nat
  tempNow : Int
  tempMax : Int
  /-- Seconds counted in each temperature bin. -/
  seconds : Tbl Nat
  deriving DecidableEq, Repr

/-- A health record of a channel that has none yet. -/
def FlashHealth.zero : FlashHealth :=
  { corrected := 0, uncorrectable := 0, programFails := 0, eraseFails := 0, tempNow := 0, tempMax := 0, seconds := [] }

/-- The flash tier (chapter 11). Map, sectors, units and the saved health records survive every reset. -/
structure FlashState where
  geometry : FlashGeometry
  /-- Trained channels, ascending; empty: not trained. -/
  channels : List Nat
  map : Tbl FlashMapEntry
  /-- Sectors by channel × 2^30 + slot. -/
  sectors : Tbl FlashSector
  /-- Erase units by channel × 2^24 + number. -/
  units : Tbl EraseUnit
  health : Tbl FlashHealth
  /-- The health records as the last map checkpoint stored them (R257). -/
  healthSaved : Tbl FlashHealth
  dirty : List FlashWrite
  /-- Writes waiting for room, oldest first. -/
  waiting : List FlashWrite
  /-- Answers due to fabric requests and bookmarks: confirmed (true) or refused. -/
  answers : List (FlashFor × Bool)
  seq : Nat
  reclaiming : List Nat
  /-- Duration of the last flush, µs, once one completed (folio 0x7020.04). -/
  lastFlush : Option Nat
  /-- The map journal that the last flush programmed into the flush reserve (R259), until the rebuild has replayed it (R260). -/
  journal : List FlushEntry
  /-- Writes and discards are refused since the power-fail indication (R259). -/
  flushing : Bool
  /-- Extents lent: (loan identifier, first extent, extents). -/
  lentExtents : List (Nat × Nat × Nat)
  deriving DecidableEq, Repr

/-- A quarantined master (R274, folio 0x4020). -/
structure QuarantineEntry where
  source : Nat
  srcJob : Nat
  master : Nat
  deriving DecidableEq, Repr

/-- A transaction this package issued that has not completed (R276, R285). -/
structure Outstanding where
  tag : Nat
  dest : Nat
  job : Nat
  master : Nat
  header : BitVec 256
  payload : List Byte
  issuedNs : Nat
  /-- Local device address that the response data goes to (a load of a transfer). -/
  dst : Option Nat
  deriving DecidableEq, Repr

/-- A request withheld until the ordered requests on the old path complete (R284). -/
structure Withheld where
  dest : Nat
  header : BitVec 256
  payload : List Byte
  dst : Option Nat
  deriving DecidableEq, Repr

/-- A frozen master (R274, R368), with its thaw list of at most 16 endpoints and the THAWs still unacknowledged. -/
structure FrozenMaster where
  cls : Nat
  index : Nat
  job : Nat
  thaw : List Nat
  /-- Release under way: endpoints whose STORE_ACK is awaited, and the local time of sending. -/
  releasing : Option (List Nat × Nat)
  deriving DecidableEq, Repr

/-- A directory entry of a cached line (R279): sharers, and the member that holds it modified. -/
structure DirEntry where
  line : Nat
  sharers : List Nat
  modified : Option Nat
  deriving DecidableEq, Repr

/-- The route to an endpoint (R282, R283). -/
structure Route where
  delayNs : Nat
  hops : Nat
  link : Nat
  /-- The links of the path with the delays in use. -/
  path : List LinkEdge
  deriving DecidableEq, Repr

/-- The memory fabric (chapter 12). -/
structure FabricState where
  outbound : Tbl OutEntry
  xlate : Tbl XlateEntry
  quarantine : Tbl QuarantineEntry
  outstanding : List Outstanding
  withheld : List Withheld
  /-- Destinations whose new ordered requests wait for the old path to drain (R284). -/
  holding : List Nat
  frozen : List FrozenMaster
  /-- Directory, granted least recently first. -/
  directory : List DirEntry
  poisoned : List Nat
  routes : Tbl Route
  /-- Local time at which the open change of the volume ripens into a route epoch (R282). -/
  epochDueNs : Option Nat
  /-- Endpoints declared dead. -/
  deadEndpoints : List Nat
  /-- The binding list matched at the first epoch (R266). -/
  bindingChecked : Bool
  bindingAlone : Bool
  deriving DecidableEq, Repr

/-- STATE of a queue pair (Table 13-3). -/
inductive QpMode where
  | reset | ready | error
  deriving DecidableEq, Repr

/-- A packet sent and not yet acknowledged (R300, R302). -/
structure TxPacket where
  psn : Nat
  msn : Nat
  header : BitVec 256
  qheader : BitVec 256
  payload : List Byte
  /-- Time of its last departure; none while it waits to leave. -/
  departNs : Option Nat
  repeats : Nat
  fastDone : Bool
  deriving DecidableEq, Repr

/-- A message of the send ring being carried (R296). -/
structure SendMsg where
  msn : Nat
  desc : BitVec 512
  firstPsn : Nat
  /-- Packets (PSNs) of the message, and how many have been issued. -/
  packets : Nat
  issued : Nat
  /-- Receive index m of a SEND (R299). -/
  recvIndex : Nat
  atomicSeq : Nat
  /-- Message offsets whose READ response is placed. -/
  readDone : List Nat
  /-- Ended: completion status (R296); reported in MSN order. -/
  ended : Option Nat
  /-- Local time at which a SEND refused with NAK 0x21 is repeated, and its repeats so far (R299). -/
  rnrAtNs : Option Nat
  rnrTries : Nat
  deriving DecidableEq, Repr

/-- A message arriving (R299). -/
structure RecvMsg where
  msn : Nat
  /-- Opcode as in Table 13-4. -/
  opcode : Nat
  len : Nat
  /-- Message offsets and lengths placed. -/
  placed : List (Nat × Nat)
  recvIndex : Nat
  immediate : Nat
  key : Nat
  source : Nat
  complete : Bool
  deriving DecidableEq, Repr

/-- A queue pair (R294, Table 13-3) with its rings' indices and the packets and messages in flight. -/
structure QueuePair where
  peerQp : Nat
  peerEndpoint : Nat
  pd : Nat
  job : Nat
  mode : QpMode
  frozen : Bool
  atomics : Bool
  multipath : Bool
  vn : Nat
  sqBase : Nat
  sqLog : Nat
  rqBase : Nat
  rqLog : Nat
  cqBase : Nat
  cqLog : Nat
  sendPsn : Nat
  expectPsn : Nat
  msn : Nat
  atomicSeq : Nat
  /-- The queue pair was created and not destroyed; one that its job's end destroyed keeps its peer (Table 13-11). -/
  made : Bool
  sqProd : Nat
  sqCons : Nat
  rqProd : Nat
  cqProd : Nat
  cqCons : Nat
  /-- SEND messages numbered so far (R299). -/
  sends : Nat
  msgs : List SendMsg
  tx : List TxPacket
  rx : List RecvMsg
  /-- Next MSN whose receive completion is due. -/
  recvMsn : Nat
  /-- Receive descriptors whose completion is written. -/
  recvDone : Nat
  /-- PSNs placed above EXPECT_PSN. -/
  beyond : List Nat
  /-- Packets placed since the last ACK, and the arrival of the oldest of them. -/
  sinceAck : Nat
  ackOldestNs : Option Nat
  /-- Highest MSN of which a packet has arrived. -/
  topMsn : Option Nat
  /-- Completions waiting for room in the completion ring. -/
  held : List (BitVec 256)
  /-- Result cache entries (R303): (ATOMIC_SEQ, prior value, bytes). -/
  results : List (Nat × Nat × Nat)
  /-- Atomic sequences whose response this requester holds out of order, and the highest held in order. -/
  gotAtomics : List Nat
  ackedAtomic : Nat
  /-- Host queue: send doorbells not yet served, as (producer index, local time) (R455). -/
  bells : List (Nat × Nat)
  /-- Host queue: notices waiting for a receive buffer, oldest first (R455). -/
  notices : List (List Byte)
  deriving DecidableEq, Repr

/-- A queue pair after reset: MULTIPATH 1, the rest 0. [DESIGN CHOICE: log 115, 124] -/
def QueuePair.zero : QueuePair :=
  { peerQp := 0, peerEndpoint := 0, pd := 0, job := 0, mode := .reset, frozen := false, atomics := false,
    multipath := true, vn := 0, sqBase := 0, sqLog := 0, rqBase := 0, rqLog := 0, cqBase := 0, cqLog := 0,
    sendPsn := 0, expectPsn := 0, msn := 0, atomicSeq := 0, made := false, sqProd := 0, sqCons := 0, rqProd := 0,
    cqProd := 0, cqCons := 0, sends := 0, msgs := [], tx := [], rx := [], recvMsn := 0, recvDone := 0, beyond := [], sinceAck := 0,
    ackOldestNs := none, topMsn := none, held := [], results := [], gotAtomics := [], ackedAtomic := 0xFFFF,
    bells := [], notices := [] }

/-- STATE of a region (Table 13-2). -/
inductive RegionMode where
  | free | active | draining | revoked
  deriving DecidableEq, Repr

/-- A region entry (R293, Table 13-2), with the stamps of R304: (queue pair, highest MSN that had arrived). -/
structure Region where
  base : Nat
  pagesM1 : Nat
  pd : Nat
  mode : RegionMode
  read : Bool
  write : Bool
  atomic : Bool
  host : Bool
  generation : Nat
  tag : Nat
  xlate : Nat
  stamps : List (Nat × Nat)
  drainNs : Nat
  deriving DecidableEq, Repr

/-- A region entry after reset. -/
def Region.zero : Region :=
  { base := 0, pagesM1 := 0, pd := 0, mode := .free, read := false, write := false, atomic := false, host := false,
    generation := 0, tag := 0, xlate := 0, stamps := [], drainNs := 0 }

/-- A space key in force (R291, R292). -/
structure SpaceKey where
  generation : Nat
  tag : Nat
  live : Bool
  deriving DecidableEq, Repr

/-- No space key yet. -/
def SpaceKey.zero : SpaceKey := { generation := 0, tag := 0, live := false }

/-- Queues, keys and regions (chapter 13). -/
structure QueueState where
  qps : Tbl QueuePair
  regions : Tbl Region
  spaces : Tbl SpaceKey
  deriving DecidableEq, Repr

/-- Link states (Table 14-5). -/
inductive LinkMode where
  | disabled | down | training | testing | measuring | up | active | retrain | fenced
  deriving DecidableEq, Repr

/-- A transaction on a link: its plane, header as the transaction layer sees it, payload, and the local time at which it
joined the transmit path (R356). -/
structure LinkItem where
  plane : Nat
  header : BitVec 256
  payload : List Byte
  atNs : Nat
  deriving DecidableEq, Repr

/-- A transaction in a replay buffer (R313). -/
structure ReplayItem where
  seq : Nat
  item : LinkItem
  /-- The copy was sent as a stomp, its check inverted (R312). -/
  stomped : Bool
  deriving DecidableEq, Repr

/-- One of the 64 fabric links (chapter 14). -/
structure Link where
  mode : LinkMode
  sinceNs : Nat
  rsOn : Bool
  peerEndpoint : Nat
  peerLink : Nat
  /-- Next SEQ to send and next SEQ expected. -/
  txSeq : Nat
  rxSeq : Nat
  replay : List ReplayItem
  /-- 256-byte units of credit held for VN0, VN1, VN2. -/
  credit : List Nat
  /-- Bytes of each plane's receive buffer freed since the last CREDIT, and the local time of the first freeing. -/
  freed : List Nat
  freedNs : Option Nat
  /-- Transactions of each plane waiting to be sent. -/
  egress : List LinkItem
  /-- Transactions sent since VN1 and VN2 last had a turn (R315). -/
  sinceVn1 : Nat
  sinceVn2 : Nat
  /-- Check of the last transaction or control word sent, which the next one carries (R311). -/
  lastCheck : BitVec 32
  /-- A NAK naming the expected SEQ is outstanding; transactions are discarded until it arrives (R312). -/
  nakOut : Bool
  /-- SEQ named by the last NAK received, and how many times in a row. -/
  nakSeq : Nat
  nakRun : Nat
  /-- The last delay samples, newest first, at most 16 (R319). -/
  samples : List Nat
  lastGoodNs : Nat
  ackSinceNs : Option Nat
  probeNs : Nat
  /-- Transactions resent within the last second, as (local time, how many) (R321). -/
  resent : List (Nat × Nat)
  /-- Local times of the entries into DOWN by R321 within the last hour, and the end of the hold-off. -/
  limitNs : List Nat
  holdoffNs : Nat
  /-- Link delay that the path delays in force were computed with (R283). -/
  usedNs : Nat
  /-- The peer's PARAM has arrived in this training (R318). -/
  paramSeen : Bool
  /-- Reed–Solomon was requested in the PARAM sent in this training (R316). -/
  rsAsked : Bool
  /-- Light falls on both receive lanes (R318). -/
  light : Bool
  /-- Lane of the next 32-byte unit of the stream (R308). -/
  lane : Nat
  deriving DecidableEq, Repr

/-- A link in reset: DISABLED, its transmitters dark. It enters DOWN when the package leaves reset. [DEDUCED: log 116; DESIGN CHOICE: log 115] -/
def Link.zero : Link :=
  { mode := .disabled, sinceNs := 0, rsOn := false, peerEndpoint := 0, peerLink := 0, txSeq := 0, rxSeq := 0,
    replay := [], credit := [2048, 256, 256], freed := [0, 0, 0], freedNs := none, egress := [], sinceVn1 := 15,
    sinceVn2 := 15, lastCheck := 0, nakOut := false, nakSeq := 0, nakRun := 0, samples := [], lastGoodNs := 0,
    ackSinceNs := none, probeNs := 0, resent := [], limitNs := [], holdoffNs := 0, usedNs := 0,
    paramSeen := false, rsAsked := false, light := false, lane := 0 }

/-- What a bypass switch is doing (R322, R323). -/
inductive BypassMove where
  | still | opening | closing
  /-- A close written while the switch was opening: it closes when the move completes (Table 14-8). -/
  | openingThenClose
  deriving DecidableEq, Repr

/-- A latching bypass switch: its position survives every reset and loss of power. -/
structure Bypass where
  closed : Bool
  move : BypassMove
  sinceNs : Nat
  /-- The opening at the end of start-up self-test has been made or declined (R323). -/
  startDone : Bool
  deriving DecidableEq, Repr

/-- A bypass switch as shipped. [DESIGN CHOICE: log 12] -/
def Bypass.zero : Bypass := { closed := true, move := .still, sinceNs := 0, startDone := false }

/-- An external laser source module (R309). -/
structure LaserSource where
  present : Bool
  ready : Bool
  fault : Bool
  tempC : Nat
  deriving DecidableEq, Repr

/-- No module. -/
def LaserSource.zero : LaserSource := { present := false, ready := false, fault := false, tempC := 0 }

/-- Links, optics and bypass (chapter 14). -/
structure LinksState where
  links : Tbl Link
  bypass : Tbl Bypass
  lasers : Tbl LaserSource
  /-- Transmitters dark because of reset or the power-fail indication (Table 14-1). -/
  dark : Bool
  deriving DecidableEq, Repr

/-- A job key slot (R334 to R337). -/
structure KeySlot where
  key : Option (BitVec 256)
  salt : Nat
  /-- Objects cased under this installation, by encoder. -/
  counts : Tbl Nat
  zeroing : Bool
  /-- Local time at which the last object of the job in an engine finishes. -/
  busyNs : Nat
  deriving DecidableEq, Repr

/-- A slot without a key. -/
def KeySlot.zero : KeySlot := { key := none, salt := 0, counts := [], zeroing := false, busyNs := 0 }

/-- Press, casing and check-value units (chapter 15). -/
structure PressState where
  keys : Tbl KeySlot
  /-- Local time until which each encoder and decoder pair is busy with the objects given to it (R328). -/
  encBusy : Tbl Nat
  decBusy : Tbl Nat
  /-- Check-value DMAs under way: unit to (address, bytes). -/
  cvuDma : Tbl (Nat × Nat)
  /-- Local time at which the hardware last set the bits [2:1] of CVU_STATUS, and which it set then (R7). -/
  cvuSet : Tbl (Nat × Nat)
  deriving DecidableEq, Repr

/-- An error-log entry (R365, Table 17-2). -/
structure ErrEntry where
  timeNs : Nat
  unit : Nat
  cause : Nat
  plane : Nat
  nested : Bool
  fence : Bool
  job : Option Nat
  address : Nat
  master : Nat
  detail : Nat
  seq : Nat
  deriving DecidableEq, Repr

/-- An address-log entry (R366, Table 17-5a). -/
structure AddrEntry where
  address : Nat
  count : Nat
  uncorrectable : Bool
  lastNs : Nat
  deriving DecidableEq, Repr

/-- The handling slot of a unit (R370). -/
inductive Slot where
  | idle | handling | pending
  deriving DecidableEq, Repr

/-- What the device keeps for a unit of Table 17-5. -/
structure UnitState where
  slot : Slot
  /-- Local time of the first error in hand, ns. -/
  sinceNs : Nat
  fenced : Bool
  reason : Nat
  selfTest : Bool
  /-- Correctable errors of this hour. -/
  hour : Nat
  /-- They have exceeded folio 0x6022.01 in this hour (R372). -/
  alarmed : Bool
  corrected : Nat
  uncorrectable : Nat
  /-- The start-up proof of the unit's checkers passed (R374). -/
  proved : Bool
  /-- Local time of the unit's last reinstatement (R131, R375). -/
  backNs : Option Nat
  deriving DecidableEq, Repr

/-- A unit after reset. -/
def UnitState.zero : UnitState :=
  { slot := .idle, sinceNs := 0, fenced := false, reason := 0, selfTest := false, hour := 0, alarmed := false, corrected := 0,
    uncorrectable := 0, proved := false, backNs := none }

/-- A self-test of reinstatement (R375). -/
structure Reinstating where
  unit : Nat
  sinceNs : Nat
  /-- An error met the unit under its self-test, which fails (Table 17-9). -/
  hurt : Bool
  deriving DecidableEq, Repr

/-- Error detection and logging (chapter 17). -/
structure ErrorState where
  /-- The 4,096 places of the error log. -/
  log : Tbl ErrEntry
  seq : Nat
  /-- Address logs by memory (Table 17-4). -/
  addrLogs : Tbl (List AddrEntry)
  units : Tbl UnitState
  reinstating : List Reinstating
  /-- Hop of the network-on-chip that retrains, or last did, with the local time (R360): (half × 2^16 + hop, ns). -/
  hopRetrains : Tbl Nat
  /-- Hops whose traffic waits for the retraining. -/
  hopsWaiting : List Nat
  /-- Links whose next received transaction an injection corrupts (R373). -/
  corruptNext : List Nat
  /-- The shared-SRAM, network-on-chip, UCIe and control-die checkers are proved (R374). -/
  checkersDone : Bool
  /-- The package is treated as failed (R15), and the local time from which it is. -/
  failed : Bool
  failedNs : Nat
  deriving DecidableEq, Repr

/-- State of a job number (Table 16-1). -/
inductive JobMode where
  | free | starting | running | ending | tornDown
  deriving DecidableEq, Repr

/-- A shaper's token count, in thousandths of a byte, as of a local time (R351). -/
structure Bucket where
  tokens : Nat
  atNs : Nat
  deriving DecidableEq, Repr

/-- The two buckets of a policer (R354), in thousandths of a byte, as of a local time. -/
structure Policer where
  c : Nat
  e : Nat
  atNs : Nat
  deriving DecidableEq, Repr

/-- A VN0 transaction waiting in an egress queue (R350): queue n < 64 is job n's, 64 and 65 are the class pools'. -/
structure EgressItem where
  queue : Nat
  issuedNs : Nat
  header : BitVec 256
  payload : List Byte
  deriving DecidableEq, Repr

/-- Egress queues, shapers and policers (chapter 16). -/
structure TrafficState where
  egress : List EgressItem
  shapers : Tbl Bucket
  policers : Tbl Policer
  /-- Queue served last among the queues of each class (R350), 0 latency-critical, 1 best-effort. -/
  lastServed : Tbl Nat
  /-- Local time from which the head of a queue waits on its shapers. -/
  headSince : Tbl Nat
  /-- Time that the heads of a queue have waited on shapers in all, ns (folio 0x5424.jj). -/
  heldNs : Tbl Nat
  /-- Jobs whose mark passed the alarm since the last zeroing (R356). -/
  alarmed : List Nat
  deriving DecidableEq, Repr

/-- What a package knows of a neighbour (R380 to R383). -/
structure Neighbour where
  incarnation : Nat
  pulseNs : Nat
  /-- Local time of the last SEEN flooded for it. -/
  seenNs : Option Nat
  /-- Local time at which this package last suspected it, where it lies in another volume (R389). -/
  suspectNs : Option Nat
  deriving DecidableEq, Repr

/-- An own suspicion (R382, R384). -/
structure Suspicion where
  subject : Nat
  incarnation : Nat
  sinceNs : Nat
  /-- Origins from which SUSPECT has arrived. -/
  voters : List Nat
  seen : Bool
  deriving DecidableEq, Repr

/-- The kettle (chapter 18). -/
structure KettleState where
  noteId : Nat
  /-- Notes seen in the last 16 ms: (ORIGIN, NOTE_ID, local time). -/
  notes : List (Nat × Nat × Nat)
  neighbours : Tbl Neighbour
  suspicions : List Suspicion
  /-- SUSPECT notes that arrived before this package's own suspicion: (origin, subject, incarnation, local time). -/
  heard : List (Nat × Nat × Nat × Nat)
  /-- Dead table, latest last (folio 0x6402). -/
  dead : List (Nat × Nat)
  /-- Sources whose traffic is discarded: (endpoint, dead incarnation). -/
  discard : List (Nat × Nat)
  /-- Links that were UP or ACTIVE at the last route epoch: (link, peer endpoint). -/
  epochLinks : List (Nat × Nat)
  /-- Links between packages at the last route epoch, as the fabric management agent knows them. -/
  topology : List (Nat × Nat)
  /-- Subjects whose links 0–7 are fenced logically (R388): (endpoint, until local time). -/
  logical : List (Nat × Nat)
  /-- Packages to adopt at the next route epoch (R386, R399): (endpoint, incarnation). -/
  adopt : List (Nat × Nat)
  /-- Adoption reads under way: (endpoint, job). -/
  adopting : List (Nat × Nat)
  /-- A verdict is being applied: admission is refused with CLOSED (R386). -/
  applying : Bool
  lastPulseNs : Nat
  deriving DecidableEq, Repr

/-- A bookmark being written (R395 to R397). -/
structure BookmarkWrite where
  seq : Nat
  target : Nat
  slot : Nat
  gen : Nat
  records : Nat
  body : List Byte
  /-- Tags of the stores not yet known to be confirmed, none at the own store; the commit record has been sent. -/
  tags : List Nat
  recordSent : Bool
  /-- A store failed: the write is abandoned. -/
  failed : Bool
  deriving DecidableEq, Repr

/-- Bookmarks of a job. -/
structure BookmarkState where
  /-- Next SEQ once it has been read from the commit records after a start. -/
  nextSeq : Option Nat
  lastNs : Nat
  /-- Local times, bits [47:0], of the snapshots taken since reset. -/
  taken : List Nat
  requested : Bool
  writing : Option BookmarkWrite
  deriving DecidableEq, Repr

/-- A job without bookmarks. -/
def BookmarkState.zero : BookmarkState :=
  { nextSeq := none, lastNs := 0, taken := [], requested := false, writing := none }

/-- Where the package stands between power-on and service (chapter 20). -/
inductive PowerPhase where
  /-- No power: pwr_good low. -/
  | off
  /-- Entry of a reset of kind 0x03 to 0x06: stopped and dark, the flash flush running (R439). -/
  | entry
  /-- Internal reset asserted; the init engine has not left reset. -/
  | held
  /-- The init engine runs: initialisation, and then service. -/
  | running
  /-- The power-fail path runs (R443). -/
  | failing
  /-- pfail_done asserted; the package stays in reset until pfail_n is released. -/
  | failed
  deriving DecidableEq, Repr

/-- A half's power and clock control (R431 to R436); k itself is folio 0x7800.hh. -/
structure HalfPower where
  /-- Requested core voltage, mV. -/
  requestMv : Nat
  /-- AVSBus frames in a row without an answer. -/
  missed : Nat
  stageFailed : Bool
  /-- Overcurrent or vrhot reported. -/
  vrhot : Bool
  /-- The loop would need more than 0.85 V at the present clock. -/
  ceiling : Bool
  /-- The last telemetry showed a margin within the window at the next higher clock (R432). -/
  marginOk : Bool
  /-- The rise of k from 16 after a reset goes on (R433); local time of its last step. -/
  rising : Bool
  riseNs : Nat
  /-- Local time of the last lowering of k by the power or thermal loop. -/
  downNs : Option Nat
  deriving DecidableEq, Repr

/-- A half after power-on: the stage at its boot voltage. -/
def HalfPower.zero : HalfPower :=
  { requestMv := 800, missed := 0, stageFailed := false, vrhot := false, ceiling := false, marginOk := false,
    rising := true, riseNs := 0, downNs := none }

/-- Power, clocks and reset (chapter 20). -/
structure PowerState where
  phase : PowerPhase
  /-- Kind of the reset under way or last taken (Table 20-4), held by the init engine. -/
  kind : Nat
  pwrGood : Bool
  pfail : Bool
  rst : Bool
  pfailDone : Bool
  thermtrip : Bool
  west : HalfPower
  east : HalfPower
  /-- Since when the package power has stayed 2 % below the limit. -/
  lowSinceNs : Option Nat
  /-- The hottest junction has reached folio 0x7801.04 and is not yet 3 °C below it again (R436). -/
  thermal : Bool
  /-- Offset of each local-time copy from the control die's count, ns: 0 west, 1 east, 2 + ll link timestamp units. -/
  copies : Tbl Int
  /-- An EXTEST-like instruction is loaded in the TAP (R466). -/
  tapLoaded : Bool
  /-- Interfaces are answered (images verified). -/
  answering : Bool
  /-- Control-die cores released (R441). -/
  coresReleased : Bool
  /-- Memories of step 2 filled: stacked DRAM; LPDDR6 (R441). -/
  stackReady : Bool
  lpddrReady : Bool
  deriving DecidableEq, Repr

/-- An image update under way (R462). -/
structure UpdateRun where
  kind : Nat
  slot : Nat
  deriving DecidableEq, Repr

/-- Package, host attachment and trust (chapter 21). -/
structure BootState where
  /-- Boot flash slots written by this package: 0 firmware A, 1 firmware B, 2 configuration A, 3 configuration B. -/
  slots : Tbl BootImage
  firmware : Option (Nat × BootImage)
  config : Option (Nat × BootImage)
  /-- The secret to which the helper data leads; none: the helper region is erased (R463). -/
  helper : Option (BitVec 256)
  /-- The seed S of this reset. -/
  seed : Option (BitVec 256)
  pcieL0 : Bool
  unmasked : List Nat
  update : Option UpdateRun
  /-- The quote body being signed and the address it goes to. -/
  quote : Option (List Byte × Nat)
  deriving DecidableEq, Repr

/-- What a restart of a torn-down job waits for (R348, R394, R457). -/
inductive RestartWait where
  | none
  /-- Room for a yielded job, in the order of yielding. -/
  | room (order qMin cMin : Nat)
  /-- The next route epoch at which a joint job's conditions hold. -/
  | epoch
  /-- The PCIe port to reach L0. -/
  | port
  deriving DecidableEq, Repr

/-- A job number (chapter 16) with everything its job holds. -/
structure JobSt where
  mode : JobMode
  bestEffort : Bool
  image : Option JobImage
  /-- Place in the order in which start commands were accepted; the start under way is a restart (R347, R394). -/
  startOrder : Nat
  isRestart : Bool
  wait : RestartWait
  /-- Local time of the start (R82). -/
  runNs : Nat
  /-- Quires and columns by rank. -/
  quires : List Nat
  columns : List Nat
  /-- Job step number: the number the next commit takes (R87). -/
  step : Nat
  /-- Number of the next window to open, the actual beginning of the window now open, whether its boundary phase is over, and
  whether its nominal end found a step uncommitted. -/
  window : Nat
  windowNs : Nat
  inStep : Bool
  ended : Bool
  /-- A non-preemptible stitch was running at the nominal end (R89). -/
  nonPreempt : Bool
  /-- Number of the last window for which a composition was frozen, plus one. -/
  composed : Nat
  /-- The boundary phase that waits for freeze routines, with what it was given (R140). -/
  awaiting : Option BoundaryIn
  /-- The generation part (or whole set) and the prompt part (R92). -/
  gen : PartState
  prompt : PartState
  /-- Quires of the prompt part in force, and the division that takes effect at the next freeze (R93). -/
  split : Nat
  splitNext : Option Nat
  /-- The split period in which the prompt part was last sized, and that in which a trigger last held (R92). -/
  sizedPeriod : Option Nat
  triggerPeriod : Option Nat
  /-- Steer registers: bank 0 and bank 1 (R138). -/
  steer0 : List Nat
  steer1 : List Nat
  /-- Freeze routines that have not returned, and the values they wrote to SR4–SR15 (R140). -/
  freezeOut : List Nat
  freezeSteer : List Nat
  /-- Group table and leaf descriptors (R58, R59), and the head of the free list. -/
  groups : Tbl GroupDesc
  leaves : Tbl LeafDesc
  freeHead : Option Nat
  /-- Areas of the job in the interleaved pool, (address, bytes): the group table (R58), then the backing regions of its stitch
  tables, quire tables first (R137, R147). -/
  tables : List (Nat × Nat)
  /-- Addresses of the list pages by page number (R61). -/
  pageAddrs : List Nat
  /-- Leaves and list pages reserved (R62). -/
  reserved : Nat
  pagesReserved : Nat
  /-- Objects in the swap region: (signature, group position, offset, bytes). -/
  swapped : List (Nat × Nat × Nat × Nat)
  /-- Swaps that a teardown left to finish (R78): signatures. -/
  swapLeft : List Nat
  /-- Leaves of signatures that became FREE while a step held their positions: (signature, groups, leaves reserved, list pages); released at
  that step's commit (R101). -/
  orphans : List (Nat × List Nat × Nat × List Nat)
  /-- Signatures chosen as victims by the composition in progress (R74). -/
  victims : List Nat
  /-- Steps voided in a row by program traps (Table 18-2). -/
  trapVoids : Nat
  /-- Local time at which a step of the job was last voided (R131). -/
  voidNs : Option Nat
  /-- Last event of the first row of Table 18-2 by unit, and units whose canary is due. -/
  unitEvents : Tbl Nat
  canaries : List Nat
  bookmark : BookmarkState
  /-- Ring plan in force at the start (R183). -/
  plan : Option RingPlan
  joint : Bool
  /-- Barriers of the job: identifier to sequencers that have arrived (R142). -/
  barriers : Tbl (List Nat)
  deriving DecidableEq, Repr

/-- A part without steps. -/
def PartState.zero : PartState := { frozen := none, ahead := [], run := none, committed := none }

/-- A free job number. [DESIGN CHOICE: log 115] -/
def JobSt.zero : JobSt :=
  { mode := .free, bestEffort := false, image := none, startOrder := 0, isRestart := false, wait := .none, runNs := 0,
    quires := [], columns := [], step := 1, window := 0, windowNs := 0, inStep := false, ended := false, nonPreempt := false,
    composed := 0, awaiting := none,
    gen := PartState.zero, prompt := PartState.zero, split := 0, splitNext := none, sizedPeriod := none,
    triggerPeriod := none, steer0 := List.replicate 16 0, steer1 := List.replicate 16 0, freezeOut := [], freezeSteer := [],
    groups := [], leaves := [], freeHead := none, tables := [], pageAddrs := [], reserved := 0, pagesReserved := 0, swapped := [], swapLeft := [],
    orphans := [], victims := [], trapVoids := 0, voidNs := none, unitEvents := [], canaries := [], bookmark := BookmarkState.zero, plan := none,
    joint := false, barriers := [] }

/-- What the package shows to the outside: the model's own record of everything it sends or drives. -/
inductive Out where
  /-- A notice (R49) to a home endpoint, or to a host queue: header and token-log entries. -/
  | notice (dest : Nat) (via : Option Nat) (header : BitVec 256) (tokens : List Nat)
  /-- A message of handoff, lending, span or offer traffic: its plane (0 data, 1 control), destination, header (128 bytes for OFFER,
  else 64 or fewer in the low bits), payload. -/
  | message (plane dest : Nat) (header : BitVec 1024) (payload : List Byte)
  /-- A fabric transaction or queue packet that leaves for its destination. -/
  | fabric (header : BitVec 256) (payload : List Byte)
  /-- A transaction leaves on a link with the link fields of Table 14-2, its payload padded, its first unit on a lane (R308). -/
  | sent (link lane : Nat) (header : BitVec 256) (payload : List Byte)
  /-- A control word leaves on a lane of a link. -/
  | word (link lane : Nat) (w : BitVec 256)
  /-- A received transaction is delivered to this package's transaction layer. -/
  | delivered (link : Nat) (header : BitVec 256) (payload : List Byte)
  | flashAck (id : Nat) (ok : Bool)
  /-- Data of a flash read: status 0 good, 1 uncorrectable, 2 refused. -/
  | flashData (id status : Nat) (data : List Byte)
  /-- A management frame leaves the port. -/
  | frame (bytes : List Byte)
  /-- The result that a folio write reports to its interface. -/
  | folioResult (iface idx sub result : Nat)
  /-- The value that a folio read reports to its interface. -/
  | folioValue (iface idx sub value : Nat)
  | hostWrite (addr : Nat) (data : List Byte)
  | hostRead (addr len : Nat)
  | msix (vector : Nat)
  /-- A refusal of a fabric access, given to the local master: class and index, status. -/
  | localRefusal (cls index status : Nat)
  /-- A transaction of a local master ended: tag, status, data. -/
  | completion (tag status : Nat) (data : List Byte)
  | suspectPath (dest : Nat)
  | cased (job : Nat) (object : List Byte)
  /-- The tier engine writes an object into a loan, or reads one, at a fabric offset of its lender (R235). -/
  | loanWrite (lender offset : Nat) (object : List Byte)
  | loanRead (lender offset len : Nat)
  | opened (job : Nat) (raw : List Byte)
  | openFailed (job cause : Nat)
  | swapReleased (job : Nat)
  | avs (east : Bool) (millivolts : Nat)
  | pfailDone (asserted : Bool)
  | thermtrip
  | dark
  /-- The data plane reads a prompt into a token log (R42): signature, fabric address, bytes. -/
  | promptRead (sig addr len : Nat)
  | resetStart (kind : Nat)
  | bypassPulse (ring : Nat) (close : Bool)
  /-- What a scan of the instrument network answers: readable or not. -/
  | ijtag (instrument : Nat) (answered : Bool)
  | columnData (column id : Nat) (held : Bool)
  /-- A span message leaves, or is forwarded, on a link of its ring (R189), for a member further on or for the neighbour. -/
  | spanHop (link dest : Nat) (header : BitVec 1024) (payload : List Byte)
  deriving DecidableEq, Repr

/-- The state of one package. -/
structure State where
  /-- Commands waiting, first in first out. -/
  pending : List Instr
  /-- Local time, ns (R430). -/
  now : Nat
  /-- Everything sent so far, oldest first: the model's own record. -/
  out : List Out
  /-- Draws made from Config.fresh: the model's own counter. -/
  freeCtr : Nat
  /-- Device memory: stacked DRAM by column window address, SRAM, LPDDR6, and host memory as this package knows it. -/
  mem : List Host.Cell
  dict : DictState
  sig : SigTable
  cw : CwIndex
  jobs : Tbl JobSt
  /-- Jobs whose start commands wait or run, in the order accepted (R347). -/
  starts : List Nat
  quires : Tbl Sequencer
  gutters : Tbl GutterUnit
  handoff : HandoffState
  span : SpanState
  tier : TierState
  flash : FlashState
  fabric : FabricState
  queue : QueueState
  link : LinksState
  press : PressState
  traffic : TrafficState
  err : ErrorState
  kettle : KettleState
  power : PowerState
  boot : BootState
  deriving DecidableEq, Repr

/-- The dictionary after reset: no folio differs from its reset value, the journal is empty. -/
def DictState.reset : DictState :=
  { folios := [], perIf := [], overrides := [], img := [], journal := [], cache := [], jobPeers := [], snaps := [], staged := [] }

/-- The flash tier as shipped: untrained and empty. [DESIGN CHOICE: log 12] -/
def FlashState.reset : FlashState :=
  { geometry := { targets := 0, luns := 0, planes := 0, cellBits := 0, blocks := 0, pages := 0, tProgUs := 0,
                  tReadUs := 0, endurance := 0, systemUnits := 0 },
    channels := [], map := [], sectors := [], units := [], health := [], healthSaved := [], dirty := [], waiting := [], answers := [],
    seq := 0, reclaiming := [], lastFlush := none, journal := [], flushing := false, lentExtents := [] }

/-- The fabric after reset. -/
def FabricState.reset : FabricState :=
  { outbound := [], xlate := [], quarantine := [], outstanding := [], withheld := [], holding := [], frozen := [],
    directory := [], poisoned := [], routes := [], epochDueNs := none, deadEndpoints := [], bindingChecked := false,
    bindingAlone := false }

/-- Links after reset: every transmitter dark (R438). -/
def LinksState.reset : LinksState := { links := [], bypass := [], lasers := [], dark := true }

/-- Power state right after a POWER_ON reset begins: pwr_good high, the init engine not yet out of reset. [DESIGN CHOICE: log 4] -/
def PowerState.reset : PowerState :=
  { phase := .held, kind := 1, pwrGood := true, pfail := false, rst := false, pfailDone := false, thermtrip := false,
    west := HalfPower.zero, east := HalfPower.zero, lowSinceNs := none, thermal := false, copies := [], tapLoaded := false, answering := false,
    coresReleased := false, stackReady := false, lpddrReady := false }

/-- Kettle state after reset. -/
def KettleState.reset : KettleState :=
  { noteId := 0, notes := [], neighbours := [], suspicions := [], heard := [], dead := [], discard := [],
    epochLinks := [], topology := [], logical := [], adopt := [], adopting := [], applying := false, lastPulseNs := 0 }

/-- The machine right after a POWER_ON reset begins (R438, R439): every folio at its Reset value, every memory but the
flash discarded, local time zero, every bypass closed, the init engine about to leave reset. [DESIGN CHOICE: log 3, 4, 9] -/
def State.reset : State :=
  { pending := [], now := 0, out := [], freeCtr := 0, mem := [], dict := DictState.reset,
    sig := { entries := [], aux := [], waiting := [], offers := [] },
    cw := { buckets := [], nodes := [], sweeping := [] }, jobs := [], starts := [], quires := [], gutters := [],
    handoff := { records := [], incoming := [] },
    span := { plans := List.replicate 4 { valid := false, members := [], position := 0, planning := false },
              ringJob := List.replicate 4 none, shards := [], passes := [], attends := [], copied := [], transit := [] },
    tier := { moves := [], ending := [], active := [], loans := [], lent := [], askers := [], adverts := [], asked := [],
              channels := [] },
    flash := FlashState.reset, fabric := FabricState.reset,
    queue := { qps := [], regions := [], spaces := [] }, link := LinksState.reset,
    press := { keys := [], encBusy := [], decBusy := [], cvuDma := [], cvuSet := [] },
    traffic := { egress := [], shapers := [], policers := [], lastServed := [], headSince := [], heldNs := [], alarmed := [] },
    err := { log := [], seq := 0, addrLogs := [], units := [], reinstating := [], hopRetrains := [], hopsWaiting := [],
             corruptNext := [], checkersDone := false, failed := false, failedNs := 0 },
    kettle := KettleState.reset, power := PowerState.reset,
    boot := { slots := [], firmware := none, config := none, helper := none, seed := none, pcieL0 := false,
              unmasked := [], update := none, quote := none } }

end Sys2Proof.Machine
end

