-- ==== Sys2Proof/Machine/FolioTable.lean ====
section
/-! DEFINITION. The folio dictionary's rows (R406, R408, R409): every folio the chapters list, with its type, access code, reset value, range and marks. -/

namespace Sys2Proof.Machine

/-- Folios of index range 0x1000, part 1. -/
def folioRows04a : List FolioRow := [
  ⟨0x1000, 0x1000, 0x01, 0x01, 32, .rov, false, 0x0, none, false, false, 0xFFFFFFFF⟩,  -- PART_NUMBER
  ⟨0x1000, 0x1000, 0x02, 0x02, 16, .ro, false, 0xA1, none, false, false, 0xFFFF⟩,  -- STEPPING
  ⟨0x1000, 0x1000, 0x03, 0x03, 8, .ro, false, 0x43, none, false, false, 0xFF⟩,  -- GRADE
  ⟨0x1000, 0x1000, 0x04, 0x04, 8, .rov, false, 0x0, none, false, false, 0xFF⟩,  -- STACK_GIB
  ⟨0x1000, 0x1000, 0x05, 0x05, 64, .rov, false, 0x0, none, false, false, 0xFFFFFFFFFFFFFFFF⟩,  -- DEVICE_ID
  ⟨0x1000, 0x1000, 0x06, 0x06, 32, .rov, false, 0x0, none, false, false, 0xFFFFFFFF⟩,  -- FIRMWARE_VERSION
  ⟨0x1000, 0x1000, 0x07, 0x07, 32, .rov, false, 0x0, none, false, false, 0xFFFFFFFF⟩,  -- CONFIG_IMAGE_ID
  ⟨0x1000, 0x1000, 0x08, 0x08, 64, .rov, false, 0x0, none, false, false, 0xFFFFFFFFFFFFFFFF⟩,  -- LOCAL_TIME_NS
  ⟨0x1000, 0x1000, 0x09, 0x09, 16, .rov, false, 0x0, none, false, false, 0xFFFF⟩,  -- OVERRIDES_SKIPPED
  ⟨0x1010, 0x1010, 0x01, 0x01, 16, .ro, false, 0x400, none, false, false, 0xFFFF⟩,  -- JOURNAL_ENTRIES
  ⟨0x1010, 0x1010, 0x02, 0x02, 32, .rov, false, 0x1, none, false, false, 0xFFFFFFFF⟩,  -- JOURNAL_NEXT_SEQ
  ⟨0x1010, 0x1010, 0x03, 0x03, 32, .rov, false, 0x0, none, false, false, 0xFFFFFFFF⟩,  -- JOURNAL_OVERWRITTEN
  ⟨0x1010, 0x1010, 0x04, 0x04, 32, .rw, false, 0x0, none, true, false, 0xFFFFFFFF⟩,  -- JOURNAL_SELECT
  ⟨0x1011, 0x1011, 0x01, 0x06, 64, .rov, false, 0x0, none, false, false, 0xFFFFFFFFFFFFFFFF⟩,  -- JOURNAL_WORD
  ⟨0x1018, 0x1018, 0x00, 0x03, 32, .rov, false, 0x0, none, false, false, 0xFFFFFFFF⟩,  -- LAST_RESULT
  ⟨0x1019, 0x1019, 0x00, 0x03, 32, .rov, false, 0x0, none, false, false, 0xFFFFFFFF⟩,  -- WRITES
  ⟨0x101A, 0x101A, 0x00, 0x03, 32, .rov, false, 0x0, none, false, false, 0xFFFFFFFF⟩,  -- WRITES_FAILED
  ⟨0x1030, 0x1030, 0x00, 0x00, 32, .rw, false, 0x0, none, true, false, 0xFFFFFFFF⟩,  -- DESC_SELECT
  ⟨0x1030, 0x1030, 0x01, 0x01, 64, .rov, false, 0x0, none, false, false, 0xFFFFFFFFFFFFFFFF⟩,  -- DESC_WORD
  ⟨0x1030, 0x1030, 0x02, 0x02, 64, .rov, false, 0x0, none, false, false, 0xFFFFFFFFFFFFFFFF⟩,  -- DESC_RESET
  ⟨0x1030, 0x1030, 0x03, 0x03, 64, .rov, false, 0x0, none, false, false, 0xFFFFFFFFFFFFFFFF⟩,  -- DESC_LEAST
  ⟨0x1030, 0x1030, 0x04, 0x04, 64, .rov, false, 0x0, none, false, false, 0xFFFFFFFFFFFFFFFF⟩,  -- DESC_GREATEST
  ⟨0x1040, 0x1040, 0x01, 0x01, 64, .ro, true, 0x0, none, false, false, 0xFFFFFFFFFFFFFFFF⟩,  -- PORT_MAC
  ⟨0x1040, 0x1040, 0x02, 0x02, 32, .rw, true, 0x0, none, false, true, 0x8FFFFFFF⟩,  -- PLCA_CONFIG
  ⟨0x1040, 0x1040, 0x03, 0x03, 8, .rov, false, 0x0, none, false, false, 0xFF⟩,  -- PLCA_STATUS
  ⟨0x1040, 0x1040, 0x04, 0x04, 32, .rov, false, 0x0, none, false, false, 0xFFFFFFFF⟩,  -- FRAMES_DISCARDED
  ⟨0x1040, 0x1040, 0x05, 0x05, 16, .rw, false, 0x3E8, none, false, true, 0xFFFF⟩   -- ANNOUNCE_MS
]

/-- Folios of index range 0x2000, part 1. -/
def folioRows08a : List FolioRow := [
  ⟨0x2000, 0x2000, 0x01, 0x01, 16, .ro, false, 0x8000, none, false, false, 0xFFFF⟩,  -- SIG_ENTRIES
  ⟨0x2000, 0x2000, 0x02, 0x02, 16, .rov, false, 0x0, none, false, false, 0xFFFF⟩,  -- SIG_IN_USE
  ⟨0x2000, 0x2000, 0x03, 0x03, 16, .rov, false, 0x0, none, false, false, 0xFFFF⟩,  -- SIG_PEAK
  ⟨0x2010, 0x2010, 0x01, 0x01, 8, .rw, false, 0x1, some (0,1), false, false, 0xFF⟩,  -- ADMIT_ENABLE
  ⟨0x2010, 0x2010, 0x02, 0x02, 32, .rw, false, 0x3E8, some (1,4294967294), false, false, 0xFFFFFFFF⟩,  -- ADMIT_MIN_BUDGET_US
  ⟨0x2010, 0x2010, 0x03, 0x03, 8, .rw, false, 0xA, some (0,100), false, false, 0xFF⟩,  -- ADMIT_MARGIN_PCT
  ⟨0x2010, 0x2010, 0x04, 0x04, 16, .rw, false, 0x64, some (100,400), false, false, 0xFFFF⟩,  -- ADMIT_OVERCOMMIT_PCT
  ⟨0x2010, 0x2010, 0x05, 0x05, 16, .rw, false, 0x78, some (1,600), false, false, 0xFFFF⟩,  -- MAX_LIFETIME_S
  ⟨0x2010, 0x2010, 0x06, 0x06, 16, .rw, false, 0xBB8, none, false, false, 0xFFFF⟩,  -- OFFER_MAX_AGE_US
  ⟨0x2010, 0x2010, 0x07, 0x07, 16, .rw, false, 0x40, none, false, false, 0xFFFF⟩,  -- LOCAL_PREFILL_TOKENS
  ⟨0x2020, 0x2020, 0x00, 0x3F, 16, .rw, false, 0x0, none, false, true, 0xFFFF⟩,  -- JOB_SIG_CAP
  ⟨0x2021, 0x2021, 0x00, 0x3F, 16, .rov, false, 0x0, none, false, false, 0xFFFF⟩,  -- JOB_SIG_LIVE
  ⟨0x2022, 0x2022, 0x00, 0x3F, 32, .rov, false, 0x0, none, false, false, 0xFFFFFFFF⟩,  -- JOB_OVERDUE
  ⟨0x2023, 0x2023, 0x00, 0x3F, 32, .rw, false, 0xC8, none, false, false, 0xFFFFFFFF⟩,  -- JOB_DELIVERY_US
  ⟨0x2024, 0x2024, 0x00, 0x3F, 32, .rw, false, 0x190, none, false, false, 0xFFFFFFFF⟩,  -- JOB_HANDOFF_US
  ⟨0x2030, 0x2030, 0x00, 0x00, 32, .rov, false, 0x0, none, false, false, 0xFFFFFFFF⟩,  -- ADMIT_COUNT
  ⟨0x2030, 0x2030, 0x01, 0x0C, 32, .rov, false, 0x0, none, false, false, 0xFFFFFFFF⟩,  -- REFUSE_COUNT
  ⟨0x2031, 0x2031, 0x01, 0x01, 8, .wo, false, 0x0, none, false, true, 0xFF⟩,  -- COUNT_CLEAR
  ⟨0x2040, 0x2040, 0x00, 0x00, 16, .rw, false, 0x0, none, true, true, 0xFFFF⟩,  -- SNAP_INDEX
  ⟨0x2040, 0x2040, 0x01, 0x10, 64, .rov, false, 0x0, none, false, false, 0xFFFFFFFFFFFFFFFF⟩,  -- SNAP_WORD
  ⟨0x2050, 0x2050, 0x01, 0x01, 32, .rov, false, 0x0, none, false, false, 0xFFFFFFFF⟩,  -- SIG_BAD_TRIGGER
  ⟨0x2050, 0x2050, 0x02, 0x02, 32, .rov, false, 0x0, none, false, false, 0xFFFFFFFF⟩,  -- BAD_HOME_MESSAGES
  ⟨0x2060, 0x2060, 0x01, 0x01, 16, .ro, false, 0x7D0, none, false, false, 0xFFFF⟩,  -- LEASE_US
  ⟨0x2060, 0x2060, 0x02, 0x02, 16, .rw, false, 0x12C, some (100,1000), false, false, 0xFFFF⟩,  -- CONFIRM_GUARD_US
  ⟨0x2060, 0x2060, 0x03, 0x03, 32, .rw, false, 0x1388, some (1000,1000000), false, false, 0xFFFFFFFF⟩,  -- AWAY_PROBE_US
  ⟨0x2060, 0x2060, 0x04, 0x04, 8, .rw, false, 0x3, some (0,7), false, false, 0xFF⟩,  -- LEAF_RETRIES
  ⟨0x2060, 0x2060, 0x05, 0x05, 16, .ro, false, 0x1000, none, false, false, 0xFFFF⟩,  -- RELEASE_RECORDS
  ⟨0x2060, 0x2060, 0x06, 0x06, 16, .rov, false, 0x0, none, false, false, 0xFFFF⟩,  -- RELEASE_IN_USE
  ⟨0x2060, 0x2060, 0x07, 0x07, 32, .wo, false, 0x0, none, false, true, 0xFFFFFFFF⟩,  -- REBALANCE
  ⟨0x2060, 0x2060, 0x09, 0x09, 32, .rov, false, 0x0, none, false, false, 0xFFFFFFFF⟩,  -- IMAGE_ID
  ⟨0x2060, 0x2060, 0x0A, 0x0A, 64, .rw, false, 0x0, none, false, false, 0xFFFFFFFFFFFFFFFF⟩,  -- JOB_PEERS
  ⟨0x2060, 0x2060, 0x0B, 0x0B, 8, .rw, false, 0x0, some (0,63), true, false, 0xFF⟩,  -- PEER_JOB_SELECT
  ⟨0x2061, 0x2061, 0x00, 0x3F, 32, .rov, false, 0x0, none, false, false, 0xFFFFFFFF⟩,  -- HANDOFFS_OUT
  ⟨0x2062, 0x2062, 0x00, 0x3F, 32, .rov, false, 0x0, none, false, false, 0xFFFFFFFF⟩,  -- HANDOFFS_IN
  ⟨0x2063, 0x2063, 0x00, 0x3F, 32, .rov, false, 0x0, none, false, false, 0xFFFFFFFF⟩,  -- LEASES_EXPIRED
  ⟨0x2064, 0x2064, 0x00, 0x3F, 32, .rov, false, 0x0, none, false, false, 0xFFFFFFFF⟩,  -- CLAIMS_LOST
  ⟨0x2065, 0x2065, 0x00, 0x3F, 32, .rov, false, 0x0, none, false, false, 0xFFFFFFFF⟩,  -- REBUILDS
  ⟨0x2066, 0x2066, 0x00, 0x3F, 32, .rov, false, 0x0, none, false, false, 0xFFFFFFFF⟩,  -- LEAVES_SENT
  ⟨0x2067, 0x2067, 0x00, 0x3F, 32, .rov, false, 0x0, none, false, false, 0xFFFFFFFF⟩,  -- LEAVES_RECEIVED
  ⟨0x2068, 0x2068, 0x00, 0x3F, 32, .rov, false, 0x0, none, false, false, 0xFFFFFFFF⟩   -- LEAF_RESENDS
]

/-- Folios of index range 0x2000, part 2. -/
def folioRows08b : List FolioRow := [
  ⟨0x2069, 0x2069, 0x00, 0x3F, 32, .rov, false, 0x0, none, false, false, 0xFFFFFFFF⟩,  -- SUPERSEDED
  ⟨0x206A, 0x206A, 0x00, 0x3F, 32, .rov, false, 0x0, none, false, false, 0xFFFFFFFF⟩,  -- HOLDER_TEARDOWNS
  ⟨0x2070, 0x2070, 0x01, 0x0A, 32, .rov, false, 0x0, none, false, false, 0xFFFFFFFF⟩   -- OFFERS_DROPPED
]

/-- Folios of index range 0x2400, part 1. -/
def folioRows09a : List FolioRow := [
  ⟨0x2400, 0x2400, 0x01, 0x01, 32, .ro, false, 0x200000, none, false, false, 0xFFFFFFFF⟩,  -- CW_BUCKETS
  ⟨0x2400, 0x2400, 0x02, 0x02, 32, .ro, false, 0x200000, none, false, false, 0xFFFFFFFF⟩,  -- CW_NODES
  ⟨0x2400, 0x2400, 0x03, 0x03, 32, .rov, false, 0x0, none, false, false, 0xFFFFFFFF⟩,  -- CW_NODES_USED
  ⟨0x2400, 0x2400, 0x04, 0x04, 32, .rov, false, 0x0, none, false, false, 0xFFFFFFFF⟩,  -- CW_LOOKUPS
  ⟨0x2400, 0x2400, 0x05, 0x05, 32, .rov, false, 0x0, none, false, false, 0xFFFFFFFF⟩,  -- CW_MATCHED_TOKENS
  ⟨0x2400, 0x2400, 0x06, 0x06, 32, .rov, false, 0x0, none, false, false, 0xFFFFFFFF⟩,  -- CW_COLLISIONS
  ⟨0x2400, 0x2400, 0x07, 0x07, 32, .rov, false, 0x0, none, false, false, 0xFFFFFFFF⟩,  -- CW_INSERT_SKIPPED
  ⟨0x2400, 0x2400, 0x08, 0x08, 8, .rov, false, 0x0, none, false, false, 0xFF⟩,  -- CW_SWEEP_BUSY
  ⟨0x2401, 0x2401, 0x00, 0x3F, 32, .rov, false, 0x0, none, false, false, 0xFFFFFFFF⟩,  -- LEAF_GEOMETRY
  ⟨0x2402, 0x2402, 0x00, 0x3F, 8, .rw, false, 0x2, none, false, true, 0x7⟩,  -- INDEX_POLICY
  ⟨0x2403, 0x2403, 0x00, 0x3F, 32, .rov, false, 0x0, none, false, false, 0xFFFFFFFF⟩,  -- GROUPS_TOTAL
  ⟨0x2404, 0x2404, 0x00, 0x3F, 32, .rov, false, 0x0, none, false, false, 0xFFFFFFFF⟩,  -- GROUPS_FREE
  ⟨0x2405, 0x2405, 0x00, 0x3F, 32, .rov, false, 0x0, none, false, false, 0xFFFFFFFF⟩,  -- COW_COUNT
  ⟨0x2406, 0x2406, 0x00, 0x3F, 32, .rov, false, 0x0, none, false, false, 0xFFFFFFFF⟩,  -- ROLLBACK_SLOTS
  ⟨0x2407, 0x2407, 0x00, 0x3F, 32, .rov, false, 0x0, none, false, false, 0xFFFFFFFF⟩,  -- EXHAUST_STALLS
  ⟨0x2408, 0x2408, 0x00, 0x3F, 32, .rov, false, 0x0, none, false, false, 0xFFFFFFFF⟩,  -- PREEMPTIONS
  ⟨0x2409, 0x2409, 0x00, 0x3F, 32, .rov, false, 0x0, none, false, false, 0xFFFFFFFF⟩,  -- SWAP_RETRIES
  ⟨0x2410, 0x2410, 0x01, 0x01, 16, .rw, false, 0x10, some (0,65535), false, false, 0xFFFF⟩,  -- RESUME_HEADROOM
  ⟨0x2410, 0x2410, 0x02, 0x02, 8, .rw, false, 0x3, some (0,7), false, false, 0xFF⟩,  -- SWAP_READ_RETRIES
  ⟨0x2420, 0x2420, 0x01, 0x01, 16, .rw, true, 0x0, none, false, true, 0xFFFF⟩,  -- SHARE_LC_GIB
  ⟨0x2420, 0x2420, 0x02, 0x02, 16, .rw, true, 0x0, none, false, true, 0xFFFF⟩,  -- SHARE_BE_GIB
  ⟨0x2420, 0x2420, 0x03, 0x03, 16, .rw, false, 0x32, some (1,65535), false, false, 0xFFFF⟩,  -- DEMOTE_MIN_AGE_MS
  ⟨0x2420, 0x2420, 0x04, 0x04, 8, .rov, false, 0x0, none, false, false, 0xFF⟩,  -- LPDDR6_RATE
  ⟨0x2420, 0x2420, 0x05, 0x05, 16, .rov, false, 0x0, none, false, false, 0xFFFF⟩,  -- LPDDR6_GIB
  ⟨0x2421, 0x2421, 0x00, 0x01, 8, .rw, false, 0x16, none, false, true, 0x16⟩,  -- TIER_ENABLE
  ⟨0x2422, 0x2422, 0x00, 0x3F, 32, .rw, false, 0x100, none, false, false, 0xFFFFFFFF⟩,  -- LOW_GROUPS
  ⟨0x2423, 0x2423, 0x00, 0x3F, 32, .rw, false, 0x200, none, false, false, 0xFFFFFFFF⟩,  -- HIGH_GROUPS
  ⟨0x2430, 0x2433, 0x00, 0x3F, 32, .rov, false, 0x0, none, false, false, 0xFFFFFFFF⟩,  -- TIER_LATE
  ⟨0x2434, 0x2437, 0x00, 0x3F, 32, .rov, false, 0x0, none, false, false, 0xFFFFFFFF⟩,  -- TIER_LATE_US
  ⟨0x2438, 0x2438, 0x00, 0x3F, 32, .rov, false, 0x0, none, false, false, 0xFFFFFFFF⟩,  -- PROMOTE_STALLS
  ⟨0x2439, 0x2439, 0x00, 0x3F, 32, .rov, false, 0x0, none, false, false, 0xFFFFFFFF⟩,  -- DEMOTIONS
  ⟨0x243A, 0x243A, 0x00, 0x3F, 32, .rov, false, 0x0, none, false, false, 0xFFFFFFFF⟩,  -- PROMOTIONS
  ⟨0x243C, 0x243F, 0x00, 0x3F, 32, .rov, false, 0x0, none, false, false, 0xFFFFFFFF⟩,  -- TIER_LOST
  ⟨0x2440, 0x2440, 0x00, 0x0F, 64, .rw, false, 0x0, none, false, true, 0xFFFFFFFFFFFFFFFF⟩,  -- HOST_BASE
  ⟨0x2441, 0x2441, 0x00, 0x0F, 32, .rw, false, 0x0, some (0,1048576), false, false, 0xFFFFFFFF⟩,  -- HOST_SIZE_MIB
  ⟨0x2442, 0x2442, 0x00, 0x0F, 32, .rw, false, 0x0, none, false, false, 0xFFFFFFFF⟩,  -- HOST_REGION_KEY
  ⟨0x2443, 0x2443, 0x00, 0x0F, 8, .rw, false, 0x0, none, false, false, 0xFF⟩,  -- HOST_USE
  ⟨0x2450, 0x2450, 0x01, 0x01, 16, .rw, true, 0x0, none, false, true, 0xFFFF⟩,  -- LEND_LPDDR6_GIB
  ⟨0x2450, 0x2450, 0x02, 0x02, 32, .rw, true, 0x0, none, false, true, 0xFFFFFFFF⟩,  -- LEND_FLASH_GIB
  ⟨0x2450, 0x2450, 0x03, 0x03, 16, .rov, false, 0x0, none, false, false, 0xFFFF⟩   -- LENT_LPDDR6_GIB
]

/-- Folios of index range 0x2400, part 2. -/
def folioRows09b : List FolioRow := [
  ⟨0x2450, 0x2450, 0x04, 0x04, 32, .rov, false, 0x0, none, false, false, 0xFFFFFFFF⟩,  -- LENT_FLASH_GIB
  ⟨0x2450, 0x2450, 0x05, 0x05, 16, .rw, false, 0x10, some (1,1024), false, false, 0xFFFF⟩,  -- LOAN_STEP_GIB
  ⟨0x2450, 0x2450, 0x06, 0x06, 16, .wo, false, 0x0, none, false, true, 0xFFFF⟩,  -- LOAN_RECALL
  ⟨0x2451, 0x2452, 0x00, 0x3F, 64, .rov, false, 0x0, none, false, false, 0xFFFFFFFFFFFFFFFF⟩,  -- LOAN_ENTRY
  ⟨0x2453, 0x2453, 0x00, 0x03, 64, .rw, true, 0x0, none, false, false, 0xFFFFFFFFFFFFFFFF⟩   -- LENDER_LIST
]

/-- Folios of index range 0x2800, part 1. -/
def folioRows0Aa : List FolioRow := [
  ⟨0x2800, 0x2800, 0x01, 0x01, 16, .ro, false, 0x1388, none, false, false, 0xFFFF⟩,  -- NP_STITCH_MAX_NS
  ⟨0x2800, 0x2800, 0x02, 0x02, 8, .ro, false, 0x64, none, false, false, 0xFF⟩,  -- SPLIT_PERIOD_MS
  ⟨0x2801, 0x2801, 0x00, 0x3F, 32, .rov, false, 0x0, none, false, false, 0xFFFFFFFF⟩,  -- STEP_GEOMETRY
  ⟨0x2802, 0x2802, 0x00, 0x3F, 32, .rov, false, 0x0, none, false, false, 0xFFFFFFFF⟩,  -- STEP_WINDOW_US
  ⟨0x2803, 0x2803, 0x00, 0x3F, 16, .rov, false, 0x0, none, false, false, 0xFFFF⟩,  -- DECODE_CAPACITY
  ⟨0x2804, 0x2804, 0x00, 0x3F, 32, .rov, false, 0x0, none, false, false, 0xFFFFFFFF⟩,  -- STEPS_COMMITTED
  ⟨0x2805, 0x2805, 0x00, 0x3F, 32, .rov, false, 0x0, none, false, false, 0xFFFFFFFF⟩,  -- STEPS_CARRIED
  ⟨0x2806, 0x2806, 0x00, 0x3F, 32, .rov, false, 0x0, none, false, false, 0xFFFFFFFF⟩,  -- OVERRUNS
  ⟨0x2807, 0x2807, 0x00, 0x3F, 32, .rov, false, 0x0, none, false, false, 0xFFFFFFFF⟩,  -- OVERRUN_MAX_NS
  ⟨0x2808, 0x2808, 0x00, 0x3F, 32, .rov, false, 0x0, none, false, false, 0xFFFFFFFF⟩,  -- WINDOWS_SKIPPED
  ⟨0x2809, 0x2809, 0x00, 0x3F, 32, .rov, false, 0x0, none, false, false, 0xFFFFFFFF⟩,  -- CHUNK_TOKENS
  ⟨0x280A, 0x280A, 0x00, 0x3F, 32, .rov, false, 0x0, none, false, false, 0xFFFFFFFF⟩,  -- PAD_POSITIONS
  ⟨0x280B, 0x280B, 0x00, 0x3F, 32, .rov, false, 0x0, none, false, false, 0xFFFFFFFF⟩,  -- DRAFTS_PROPOSED
  ⟨0x280C, 0x280C, 0x00, 0x3F, 32, .rov, false, 0x0, none, false, false, 0xFFFFFFFF⟩,  -- DRAFTS_ACCEPTED
  ⟨0x280D, 0x280D, 0x00, 0x3F, 16, .rov, false, 0x0, none, false, false, 0xFFFF⟩,  -- SPLIT_STATE
  ⟨0x280E, 0x280E, 0x00, 0x3F, 32, .rov, false, 0x0, none, false, false, 0xFFFFFFFF⟩,  -- TIPIN_DEFERRALS
  ⟨0x280F, 0x280F, 0x00, 0x3F, 32, .rov, false, 0x0, none, false, false, 0xFFFFFFFF⟩,  -- DECODE_DEFERRALS
  ⟨0x2810, 0x2810, 0x01, 0x01, 16, .rw, false, 0xC8, some (50,2000), false, false, 0xFFFF⟩,  -- COMPOSE_LEAD_US
  ⟨0x2810, 0x2810, 0x02, 0x02, 8, .rw, false, 0x3, some (1,8), false, false, 0xFF⟩,  -- DRAFT_NGRAM
  ⟨0x2810, 0x2810, 0x03, 0x03, 16, .rw, false, 0x1000, some (64,65535), false, false, 0xFFFF⟩,  -- DRAFT_SPAN
  ⟨0x2810, 0x2810, 0x04, 0x04, 8, .rw, false, 0x8, some (8,64), false, true, 0xFF⟩,  -- SPLIT_MIN_QUIRES
  ⟨0x2810, 0x2810, 0x05, 0x05, 32, .rw, false, 0x10000, none, false, false, 0xFFFFFFFF⟩,  -- SPLIT_RECOVERY_TOKENS
  ⟨0x2820, 0x2820, 0x00, 0xFF, 8, .rw, false, 0x0, none, false, true, 0xBF⟩,  -- TIPIN_OWNER
  ⟨0x2821, 0x2821, 0x00, 0xFF, 16, .rw, false, 0x0, none, false, true, 0xFFFF⟩,  -- TIPIN_CURRENT
  ⟨0x2822, 0x2822, 0x00, 0xFF, 64, .rov, false, 0x0, none, false, false, 0xFFFFFFFFFFFFFFFF⟩,  -- TIPIN_RESIDENT
  ⟨0x2823, 0x2823, 0x00, 0xFF, 64, .rov, false, 0x0, none, false, false, 0xFFFFFFFFFFFFFFFF⟩,  -- TIPIN_PINNED
  ⟨0x2824, 0x2824, 0x00, 0xFF, 16, .wo, false, 0x0, none, false, true, 0xFFFF⟩,  -- TIPIN_LOAD
  ⟨0x2825, 0x2825, 0x00, 0xFF, 64, .rw, false, 0x0, none, false, false, 0xFFFFFFFFFFFFFFFF⟩,  -- TIPIN_LOAD_ADDR
  ⟨0x2826, 0x2826, 0x00, 0xFF, 8, .rov, false, 0x0, none, false, false, 0xFF⟩   -- TIPIN_LOAD_STATUS
]

/-- Folios of index range 0x3000, part 1. -/
def folioRows0Ca : List FolioRow := [
  ⟨0x3000, 0x3000, 0x01, 0x01, 8, .ro, false, 0x80, none, false, false, 0xFF⟩,  -- QUIRE_COUNT
  ⟨0x3000, 0x3000, 0x02, 0x02, 64, .rov, false, 0x0, none, false, false, 0xFFFFFFFFFFFFFFFF⟩,  -- QUIRE_FREE_LO
  ⟨0x3000, 0x3000, 0x03, 0x03, 64, .rov, false, 0x0, none, false, false, 0xFFFFFFFFFFFFFFFF⟩,  -- QUIRE_FREE_HI
  ⟨0x3000, 0x3000, 0x04, 0x04, 64, .rov, false, 0x0, none, false, false, 0xFFFFFFFFFFFFFFFF⟩,  -- QUIRE_FENCED_LO
  ⟨0x3000, 0x3000, 0x05, 0x05, 64, .rov, false, 0x0, none, false, false, 0xFFFFFFFFFFFFFFFF⟩,  -- QUIRE_FENCED_HI
  ⟨0x3001, 0x3001, 0x00, 0x3F, 64, .rov, false, 0x0, none, false, false, 0xFFFFFFFFFFFFFFFF⟩,  -- JOB_QUIRES_LO
  ⟨0x3002, 0x3002, 0x00, 0x3F, 64, .rov, false, 0x0, none, false, false, 0xFFFFFFFFFFFFFFFF⟩,  -- JOB_QUIRES_HI
  ⟨0x3003, 0x3003, 0x00, 0x3F, 8, .rov, false, 0x0, none, false, false, 0xFF⟩,  -- JOB_QUIRE_COUNT
  ⟨0x3010, 0x3010, 0x00, 0x7F, 16, .rov, false, 0x0, none, false, false, 0xFFFF⟩,  -- QUIRE_STATUS
  ⟨0x3011, 0x3011, 0x00, 0x7F, 32, .rov, false, 0x0, none, false, false, 0xFFFFFFFF⟩,  -- CHECKSUM_MISMATCHES
  ⟨0x3012, 0x3012, 0x00, 0x7F, 32, .rov, false, 0x0, none, false, false, 0xFFFFFFFF⟩,  -- SPECIAL_BLOCKS
  ⟨0x3013, 0x3013, 0x00, 0x7F, 32, .rov, false, 0x0, none, false, false, 0xFFFFFFFF⟩,  -- NAN_TO_ZERO
  ⟨0x3014, 0x3014, 0x00, 0x7F, 32, .rov, false, 0x0, none, false, false, 0xFFFFFFFF⟩,  -- TILE_PASSES
  ⟨0x3015, 0x3015, 0x00, 0x7F, 32, .rov, false, 0x0, none, false, false, 0xFFFFFFFF⟩,  -- BANK_WAITS
  ⟨0x3020, 0x3020, 0x00, 0x01, 8, .rov, false, 0x98, none, false, false, 0xFF⟩,  -- STAGING_FREE_MIB
  ⟨0x3100, 0x3100, 0x01, 0x01, 16, .ro, false, 0x1000, none, false, false, 0xFFFF⟩,  -- STORE_STITCHES
  ⟨0x3100, 0x3100, 0x02, 0x02, 8, .ro, false, 0x10, none, false, false, 0xFF⟩,  -- STEER_REGS
  ⟨0x3100, 0x3100, 0x03, 0x03, 8, .rw, false, 0x2, some (1,15), false, false, 0xFF⟩,  -- WAIT_LIMIT_STEPS
  ⟨0x3102, 0x3102, 0x00, 0x3F, 8, .rov, false, 0x0, none, false, false, 0xFF⟩,  -- IMAGE_LOAD_STATUS
  ⟨0x3103, 0x3103, 0x00, 0x3F, 32, .rov, false, 0x0, none, false, false, 0xFFFFFFFF⟩,  -- IMAGE_LOAD_DETAIL
  ⟨0x3104, 0x3104, 0x00, 0x3F, 8, .rov, false, 0x0, none, false, false, 0xFF⟩,  -- TABLE_SET
  ⟨0x3110, 0x3110, 0x00, 0x7F, 32, .rov, false, 0x0, none, false, false, 0xFFFFFFFF⟩,  -- SEQ_STATUS
  ⟨0x3111, 0x3111, 0x00, 0x7F, 32, .rov, false, 0x0, none, false, false, 0xFFFFFFFF⟩,  -- FETCH_REPLAYS
  ⟨0x3112, 0x3112, 0x00, 0x7F, 32, .rov, false, 0x0, none, false, false, 0xFFFFFFFF⟩,  -- TRAPS
  ⟨0x3113, 0x3113, 0x00, 0x7F, 32, .rov, false, 0x0, none, false, false, 0xFFFFFFFF⟩,  -- PREEMPT_STOPS
  ⟨0x3120, 0x3123, 0x00, 0x3F, 64, .rov, false, 0x0, none, false, false, 0xFFFFFFFFFFFFFFFF⟩,  -- STEER_B0
  ⟨0x3124, 0x3127, 0x00, 0x3F, 64, .rov, false, 0x0, none, false, false, 0xFFFFFFFFFFFFFFFF⟩,  -- STEER_B1
  ⟨0x3130, 0x3130, 0x00, 0x3F, 32, .rov, false, 0x0, none, false, false, 0xFFFFFFFF⟩,  -- CTL_CALLS
  ⟨0x3131, 0x3131, 0x00, 0x3F, 32, .rov, false, 0x0, none, false, false, 0xFFFFFFFF⟩,  -- CTL_CALL_MAX_US
  ⟨0x3132, 0x3132, 0x00, 0x3F, 32, .rov, false, 0x0, none, false, false, 0xFFFFFFFF⟩   -- FREEZE_ROUTINE_WAITS
]

/-- Folios of index range 0x3400, part 1. -/
def folioRows0Da : List FolioRow := [
  ⟨0x3400, 0x3400, 0x01, 0x01, 16, .ro, false, 0x400, none, false, false, 0xFFFF⟩,  -- COLUMN_COUNT
  ⟨0x3400, 0x3400, 0x02, 0x02, 8, .rov, false, 0x0, none, false, false, 0xFF⟩,  -- COLUMN_MIB
  ⟨0x3400, 0x3400, 0x03, 0x03, 8, .ro, true, 0x0, none, false, false, 0xFF⟩,  -- INTERLEAVE_MIB
  ⟨0x3400, 0x3400, 0x04, 0x04, 8, .rov, false, 0x0, none, false, false, 0xFF⟩,  -- REFRESH_RATE
  ⟨0x3400, 0x3400, 0x05, 0x05, 32, .rw, false, 0x400, none, false, true, 0xFFFFFFFF⟩,  -- SPOT_INTERVAL
  ⟨0x3400, 0x3400, 0x06, 0x06, 64, .rov, false, 0x0, none, false, false, 0xFFFFFFFFFFFFFFFF⟩,  -- BUNDLES_FREE
  ⟨0x3401, 0x3401, 0x00, 0x3F, 64, .rov, false, 0x0, none, false, false, 0xFFFFFFFFFFFFFFFF⟩,  -- JOB_BUNDLES
  ⟨0x3402, 0x3402, 0x00, 0x3F, 16, .rov, false, 0x0, none, false, false, 0xFFFF⟩,  -- JOB_COLUMN_COUNT
  ⟨0x3403, 0x3403, 0x00, 0x3F, 32, .rov, false, 0x0, none, false, false, 0xFFFFFFFF⟩,  -- COLUMN_DEFERRALS
  ⟨0x3404, 0x3404, 0x00, 0x3F, 32, .rov, false, 0x0, none, false, false, 0xFFFFFFFF⟩,  -- EMPTY_ROWS
  ⟨0x3410, 0x3413, 0x00, 0xFF, 32, .rov, false, 0x0, none, false, false, 0xFFFFFFFF⟩,  -- COLUMN_STATUS
  ⟨0x3414, 0x3417, 0x00, 0xFF, 32, .rov, false, 0x0, none, false, false, 0xFFFFFFFF⟩,  -- HOLDS
  ⟨0x3418, 0x341B, 0x00, 0xFF, 16, .rov, false, 0x0, none, false, false, 0xFFFF⟩,  -- HOLD_MAX_NS
  ⟨0x341C, 0x341F, 0x00, 0xFF, 32, .rov, false, 0x0, none, false, false, 0xFFFFFFFF⟩,  -- REFRESH_PAUSES
  ⟨0x3420, 0x3423, 0x00, 0xFF, 32, .rov, false, 0x0, none, false, false, 0xFFFFFFFF⟩,  -- SPOT_MISMATCHES
  ⟨0x3424, 0x3427, 0x00, 0xFF, 32, .rov, false, 0x0, none, false, false, 0xFFFFFFFF⟩,  -- SPOT_CHECKS
  ⟨0x3428, 0x342B, 0x00, 0xFF, 32, .rov, false, 0x0, none, false, false, 0xFFFFFFFF⟩   -- GUTTER_TRAPS
]

/-- Folios of index range 0x3800, part 1. -/
def folioRows0Ea : List FolioRow := [
  ⟨0x3800, 0x3800, 0x00, 0x03, 32, .rov, false, 0x0, none, false, false, 0xFFFFFFFF⟩,  -- RING_STATE
  ⟨0x3801, 0x3801, 0x00, 0x03, 16, .rov, false, 0x0, none, false, false, 0xFFFF⟩,  -- RING_UPSTREAM
  ⟨0x3802, 0x3802, 0x00, 0x03, 16, .rov, false, 0x0, none, false, false, 0xFFFF⟩,  -- RING_DOWNSTREAM
  ⟨0x3803, 0x3803, 0x00, 0x03, 8, .rov, false, 0x0, none, false, false, 0xFF⟩,  -- RING_JOB
  ⟨0x3804, 0x3804, 0x00, 0x03, 32, .rov, false, 0x0, none, false, false, 0xFFFFFFFF⟩,  -- RING_PLANS
  ⟨0x3808, 0x380B, 0x00, 0x03, 64, .rov, false, 0x0, none, false, false, 0xFFFFFFFFFFFFFFFF⟩,  -- RING_LIST
  ⟨0x3810, 0x3810, 0x00, 0x3F, 32, .rov, false, 0x0, none, false, false, 0xFFFFFFFF⟩,  -- SPAN_GEOMETRY
  ⟨0x3811, 0x3811, 0x00, 0x3F, 16, .rw, false, 0x40, some (1,4096), false, false, 0xFFFF⟩,  -- BLOCK_THRESHOLD
  ⟨0x3812, 0x3812, 0x00, 0x3F, 32, .rw, false, 0x7D0, some (100,100000), false, false, 0xFFFFFFFF⟩,  -- REMOTE_TIMEOUT_US
  ⟨0x3813, 0x3813, 0x00, 0x3F, 8, .rw, false, 0x0, none, false, true, 0xFF⟩,  -- HOST_JOB
  ⟨0x3814, 0x3814, 0x00, 0x3F, 32, .rov, false, 0x0, none, false, false, 0xFFFFFFFF⟩,  -- QUERY_PASSES
  ⟨0x3815, 0x3815, 0x00, 0x3F, 32, .rov, false, 0x0, none, false, false, 0xFFFFFFFF⟩,  -- BLOCK_PASSES
  ⟨0x3816, 0x3816, 0x00, 0x3F, 32, .rov, false, 0x0, none, false, false, 0xFFFFFFFF⟩,  -- REMOTE_SPANS
  ⟨0x3817, 0x3817, 0x00, 0x3F, 32, .rov, false, 0x0, none, false, false, 0xFFFFFFFF⟩,  -- REMOTE_LATE
  ⟨0x3818, 0x3818, 0x00, 0x3F, 32, .rov, false, 0x0, none, false, false, 0xFFFFFFFF⟩,  -- REMOTE_REFUSED
  ⟨0x381A, 0x381A, 0x00, 0x3F, 32, .rov, false, 0x0, none, false, false, 0xFFFFFFFF⟩,  -- STALE_REPLIES
  ⟨0x3820, 0x3820, 0x00, 0x3F, 32, .rov, false, 0x0, none, false, false, 0xFFFFFFFF⟩,  -- ATTEND_SERVED
  ⟨0x3821, 0x3821, 0x00, 0x3F, 32, .rov, false, 0x0, none, false, false, 0xFFFFFFFF⟩   -- ATTEND_REFUSED
]

/-- Folios of index range 0x4000, part 1. [DESIGN CHOICE: log 124] -/
def folioRows10a : List FolioRow := [
  ⟨0x4000, 0x4000, 0x01, 0x01, 16, .ro, true, 0x0, none, false, false, 0xFFFF⟩,  -- ENDPOINT
  ⟨0x4000, 0x4000, 0x02, 0x02, 8, .ro, true, 0x0, none, false, false, 0xFF⟩,  -- VOLUME
  ⟨0x4000, 0x4000, 0x03, 0x03, 64, .ro, true, 0x0, none, false, false, 0xFFFFFFFFFFFFFFFF⟩,  -- BINDING_MEMBERS
  ⟨0x4000, 0x4000, 0x04, 0x04, 32, .rov, false, 0x0, none, false, false, 0xFFFFFFFF⟩,  -- ROUTE_EPOCH
  ⟨0x4000, 0x4000, 0x05, 0x05, 32, .rw, false, 0xBB8, some (2500,100000), false, false, 0xFFFFFFFF⟩,  -- TIMEOUT_US
  ⟨0x4002, 0x4002, 0x00, 0x00, 16, .rw, false, 0x0, none, true, false, 0xFFFF⟩,  -- PATH_SELECT
  ⟨0x4002, 0x4002, 0x01, 0x01, 32, .rov, false, 0x0, none, false, false, 0xFFFFFFFF⟩,  -- PATH_DELAY_NS
  ⟨0x4002, 0x4002, 0x02, 0x02, 8, .rov, false, 0x0, none, false, false, 0xFF⟩,  -- PATH_HOPS
  ⟨0x4010, 0x4010, 0x00, 0x00, 16, .rw, false, 0x0, some (0,4095), true, false, 0xFFFF⟩,  -- XLATE_SELECT
  ⟨0x4010, 0x4010, 0x01, 0x04, 64, .rov, false, 0x0, none, false, false, 0xFFFFFFFFFFFFFFFF⟩,  -- XLATE_WORD
  ⟨0x4011, 0x4011, 0x00, 0x00, 16, .rw, false, 0x0, some (0,1023), true, false, 0xFFFF⟩,  -- OUT_SELECT
  ⟨0x4011, 0x4011, 0x01, 0x02, 64, .rov, false, 0x0, none, false, false, 0xFFFFFFFFFFFFFFFF⟩,  -- OUT_WORD
  ⟨0x4020, 0x4020, 0x00, 0x3F, 64, .rov, false, 0x0, none, false, false, 0xFFFFFFFFFFFFFFFF⟩,  -- QUARANTINE
  ⟨0x4021, 0x4021, 0x01, 0x01, 8, .wo, false, 0x0, none, false, true, 0xFF⟩,  -- QUARANTINE_CLEAR
  ⟨0x4021, 0x4021, 0x02, 0x02, 32, .rov, false, 0x0, none, false, false, 0xFFFFFFFF⟩,  -- QUARANTINE_OVERFLOW
  ⟨0x4030, 0x4030, 0x00, 0x0F, 32, .rov, false, 0x0, none, false, false, 0xFFFFFFFF⟩,  -- REFUSALS_SENT
  ⟨0x4031, 0x4031, 0x00, 0x0F, 32, .rov, false, 0x0, none, false, false, 0xFFFFFFFF⟩,  -- COMPLETIONS_FAILED
  ⟨0x4032, 0x4032, 0x01, 0x01, 32, .rov, false, 0x0, none, false, false, 0xFFFFFFFF⟩,  -- LATE_RESPONSES
  ⟨0x4032, 0x4032, 0x02, 0x02, 32, .rov, false, 0x0, none, false, false, 0xFFFFFFFF⟩,  -- EPOCH_DRAINS
  ⟨0x4033, 0x4033, 0x01, 0x01, 32, .rov, false, 0x0, none, false, false, 0xFFFFFFFF⟩,  -- DIRECTORY_RECALLS
  ⟨0x4033, 0x4033, 0x02, 0x02, 32, .rov, false, 0x0, none, false, false, 0xFFFFFFFF⟩,  -- POISONED_LINES
  ⟨0x4100, 0x4100, 0x01, 0x01, 16, .ro, false, 0x2000, none, false, false, 0xFFFF⟩,  -- QP_COUNT
  ⟨0x4100, 0x4100, 0x02, 0x02, 32, .rov, false, 0x10000, none, false, false, 0xFFFFFFFF⟩,  -- RESULT_ENTRIES_FREE
  ⟨0x4100, 0x4100, 0x04, 0x04, 16, .rw, false, 0x32, some (10,10000), false, false, 0xFFFF⟩,  -- REPEAT_US
  ⟨0x4100, 0x4100, 0x05, 0x05, 8, .rw, false, 0x7, some (1,15), false, false, 0xFF⟩,  -- REPEAT_LIMIT
  ⟨0x4100, 0x4100, 0x06, 0x06, 16, .rw, false, 0x64, some (10,10000), false, false, 0xFFFF⟩,  -- RNR_DELAY_US
  ⟨0x4100, 0x4100, 0x07, 0x07, 16, .rw, false, 0x400, some (64,4096), false, false, 0xFFFF⟩,  -- WINDOW_PACKETS
  ⟨0x4100, 0x4100, 0x08, 0x08, 8, .rw, false, 0xA, some (1,255), false, false, 0xFF⟩,  -- REVOKE_TIMEOUT_MS
  ⟨0x4101, 0x4101, 0x00, 0x00, 16, .rw, false, 0x0, none, true, false, 0xFFFF⟩,  -- QP_SELECT
  ⟨0x4101, 0x4101, 0x01, 0x01, 64, .rw, false, 0x0, none, true, false, 0x0⟩,  -- QP_WORD: fields RO/V (Table 13-3)
  ⟨0x4101, 0x4101, 0x02, 0x02, 64, .rw, false, 0x0, none, true, false, 0xFFFFFFFFFF000000⟩,  -- QP_WORD
  ⟨0x4101, 0x4101, 0x03, 0x03, 64, .rw, false, 0x0, none, true, false, 0xFFFFFFFFFFFFFFFF⟩,  -- QP_WORD
  ⟨0x4101, 0x4101, 0x04, 0x04, 64, .rw, false, 0x0, none, true, false, 0xFFFFFFFFFFC7FFFF⟩,  -- QP_WORD
  ⟨0x4101, 0x4101, 0x05, 0x05, 8, .wo, false, 0x0, none, false, true, 0xFF⟩,  -- QP_COMMAND
  ⟨0x4102, 0x4102, 0x00, 0x00, 16, .rw, false, 0x0, none, true, false, 0xFFFF⟩,  -- REGION_SELECT
  ⟨0x4102, 0x4102, 0x01, 0x01, 64, .rw, false, 0x0, none, true, false, 0xFE70000000000000⟩,  -- REGION_WORD (Table 13-2)
  ⟨0x4102, 0x4102, 0x02, 0x02, 64, .rw, false, 0x0, none, true, false, 0xFFFFFFFFFFFFFFFF⟩,  -- REGION_WORD
  ⟨0x4102, 0x4102, 0x03, 0x03, 8, .wo, false, 0x0, none, false, true, 0xFF⟩,  -- REGION_COMMAND
  ⟨0x4102, 0x4102, 0x04, 0x04, 64, .rov, false, 0x0, none, false, false, 0xFFFFFFFFFFFFFFFF⟩,  -- REGION_RESULT
  ⟨0x4104, 0x4104, 0x40, 0x7F, 8, .rw, false, 0x0, none, false, true, 0xBF⟩,  -- PD_OWNER
  ⟨0x4110, 0x4110, 0x01, 0x01, 32, .rov, false, 0x0, none, false, false, 0xFFFFFFFF⟩,  -- REPEATS
  ⟨0x4110, 0x4110, 0x02, 0x02, 32, .rov, false, 0x0, none, false, false, 0xFFFFFFFF⟩,  -- FAST_REPEATS
  ⟨0x4110, 0x4110, 0x03, 0x03, 32, .rov, false, 0x0, none, false, false, 0xFFFFFFFF⟩,  -- DUPLICATES
  ⟨0x4110, 0x4110, 0x04, 0x04, 32, .rov, false, 0x0, none, false, false, 0xFFFFFFFF⟩   -- OUT_OF_WINDOW
]

/-- Folios of index range 0x4000, part 2. -/
def folioRows10b : List FolioRow := [
  ⟨0x4110, 0x4110, 0x05, 0x05, 32, .rov, false, 0x0, none, false, false, 0xFFFFFFFF⟩,  -- ATOMIC_REPLAYS
  ⟨0x4110, 0x4110, 0x06, 0x06, 32, .rov, false, 0x0, none, false, false, 0xFFFFFFFF⟩,  -- STAMPED_PLACED
  ⟨0x4110, 0x4110, 0x07, 0x07, 32, .rov, false, 0x0, none, false, false, 0xFFFFFFFF⟩   -- REVOCATIONS
]

/-- Folios of index range 0x4800, part 1. -/
def folioRows12a : List FolioRow := [
  ⟨0x4800, 0x4800, 0x01, 0x01, 8, .ro, false, 0x40, none, false, false, 0xFF⟩,  -- LINK_COUNT
  ⟨0x4800, 0x4800, 0x02, 0x02, 16, .rw, false, 0x3E8, some (100,10000), false, false, 0xFFFF⟩,  -- RETRAIN_LIMIT_US
  ⟨0x4800, 0x4800, 0x03, 0x03, 16, .rw, false, 0x64, some (1,65535), false, false, 0xFFFF⟩,  -- REPLAY_LIMIT_PER_S
  ⟨0x4800, 0x4800, 0x04, 0x04, 16, .rw, false, 0x64, some (10,60000), false, false, 0xFFFF⟩,  -- HOLDOFF_MS
  ⟨0x4801, 0x4801, 0x00, 0x3F, 32, .rov, false, 0x0, none, false, false, 0xFFFFFFFF⟩,  -- LINK_STATE
  ⟨0x4802, 0x4802, 0x00, 0x3F, 8, .rw, false, 0x0, none, false, true, 0x3⟩,  -- LINK_CONTROL
  ⟨0x4803, 0x4803, 0x00, 0x3F, 32, .rov, false, 0x0, none, false, false, 0xFFFFFFFF⟩,  -- LINK_DELAY_NS
  ⟨0x4804, 0x4804, 0x00, 0x3F, 32, .rov, false, 0x0, none, false, false, 0xFFFFFFFF⟩,  -- REPLAYS
  ⟨0x4805, 0x4805, 0x00, 0x3F, 32, .rov, false, 0x0, none, false, false, 0xFFFFFFFF⟩,  -- CHECK_ERRORS
  ⟨0x4806, 0x4806, 0x00, 0x3F, 32, .rov, false, 0x0, none, false, false, 0xFFFFFFFF⟩,  -- RETRAINS
  ⟨0x4807, 0x4807, 0x00, 0x3F, 32, .rov, false, 0x0, none, false, false, 0xFFFFFFFF⟩,  -- STOMPS
  ⟨0x4808, 0x4808, 0x00, 0x3F, 32, .rov, false, 0x0, none, false, false, 0xFFFFFFFF⟩,  -- RS_CORRECTED
  ⟨0x4809, 0x4809, 0x00, 0x3F, 32, .rov, false, 0x0, none, false, false, 0xFFFFFFFF⟩,  -- RS_UNCORRECTABLE
  ⟨0x480A, 0x480A, 0x00, 0x3F, 32, .rov, false, 0x0, none, false, false, 0xFFFFFFFF⟩,  -- TRAIN_FAILS
  ⟨0x4810, 0x4810, 0x00, 0x03, 8, .rov, false, 0x1, none, false, false, 0xFF⟩,  -- BYPASS_STATE
  ⟨0x4811, 0x4811, 0x00, 0x03, 8, .wo, false, 0x0, none, false, true, 0xFF⟩,  -- BYPASS_COMMAND
  ⟨0x4812, 0x4812, 0x00, 0x03, 8, .ro, true, 0x0, none, false, false, 0xFF⟩,  -- JOIN_AT_START
  ⟨0x4820, 0x4820, 0x00, 0x07, 32, .rov, false, 0x0, none, false, false, 0xFFFFFFFF⟩   -- LASER_SOURCE
]

/-- Folios of index range 0x5000, part 1. -/
def folioRows14a : List FolioRow := [
  ⟨0x5000, 0x5000, 0x01, 0x01, 16, .ro, false, 0x80, none, false, false, 0xFFFF⟩,  -- PRESS_ENGINES
  ⟨0x5000, 0x5000, 0x02, 0x02, 8, .rw, false, 0x1, none, false, false, 0xFF⟩,  -- PRESS_ENABLE
  ⟨0x5001, 0x5001, 0x00, 0x3F, 8, .rov, false, 0x0, none, false, false, 0xFF⟩,  -- KEY_STATE
  ⟨0x5002, 0x5002, 0x00, 0x3F, 32, .rov, false, 0x0, none, false, false, 0xFFFFFFFF⟩,  -- KEY_ID
  ⟨0x5003, 0x5003, 0x00, 0x3F, 32, .rov, false, 0x0, none, false, false, 0xFFFFFFFF⟩,  -- OBJECTS_CASED
  ⟨0x5004, 0x5004, 0x00, 0x3F, 64, .rov, false, 0x0, none, false, false, 0xFFFFFFFFFFFFFFFF⟩,  -- RAW_BYTES
  ⟨0x5005, 0x5005, 0x00, 0x3F, 64, .rov, false, 0x0, none, false, false, 0xFFFFFFFFFFFFFFFF⟩,  -- CASED_BYTES
  ⟨0x5006, 0x5006, 0x00, 0x3F, 32, .rov, false, 0x0, none, false, false, 0xFFFFFFFF⟩,  -- SALT_REDRAWS
  ⟨0x5008, 0x5008, 0x01, 0x05, 32, .rov, false, 0x0, none, false, false, 0xFFFFFFFF⟩,  -- OPEN_FAILS
  ⟨0x5040, 0x5040, 0x00, 0x0F, 16, .rw, false, 0x720, none, false, true, 0x77F⟩,  -- CVU_CONFIG
  ⟨0x5041, 0x5041, 0x00, 0x0F, 64, .rw, false, 0x4C11DB7, none, false, false, 0xFFFFFFFFFFFFFFFF⟩,  -- CVU_POLY
  ⟨0x5042, 0x5042, 0x00, 0x0F, 64, .rw, false, 0xFFFFFFFF, none, false, false, 0xFFFFFFFFFFFFFFFF⟩,  -- CVU_INIT
  ⟨0x5043, 0x5043, 0x00, 0x0F, 64, .rw, false, 0xFFFFFFFF, none, false, true, 0xFFFFFFFFFFFFFFFF⟩,  -- CVU_VALUE
  ⟨0x5044, 0x5044, 0x00, 0x0F, 64, .wo, false, 0x0, none, false, false, 0xFFFFFFFFFFFFFFFF⟩,  -- CVU_FEED
  ⟨0x5045, 0x5045, 0x00, 0x0F, 8, .wo, false, 0x0, none, false, false, 0xFF⟩,  -- CVU_FEED_BYTE
  ⟨0x5046, 0x5046, 0x00, 0x0F, 64, .rw, false, 0x0, none, false, false, 0xFFFFFFFFFFFFFFFF⟩,  -- CVU_DMA_ADDR
  ⟨0x5047, 0x5047, 0x00, 0x0F, 32, .rw, false, 0x0, none, false, false, 0xFFFFFFFF⟩,  -- CVU_DMA_LEN
  ⟨0x5048, 0x5048, 0x00, 0x0F, 8, .wo, false, 0x0, none, false, true, 0xFF⟩,  -- CVU_COMMAND
  ⟨0x5049, 0x5049, 0x00, 0x0F, 64, .rov, false, 0x0, none, false, false, 0xFFFFFFFFFFFFFFFF⟩,  -- CVU_RESULT
  ⟨0x504A, 0x504A, 0x00, 0x0F, 8, .rov, false, 0x0, none, false, false, 0xFF⟩   -- CVU_STATUS
]

/-- Folios of index range 0x5400, part 1. -/
def folioRows15a : List FolioRow := [
  ⟨0x5402, 0x5402, 0x01, 0x01, 8, .wo, false, 0x0, none, false, true, 0xFF⟩,  -- HWM_CLEAR
  ⟨0x5402, 0x5402, 0x02, 0x02, 32, .rw, false, 0x186A0, none, false, false, 0xFFFFFFFF⟩,  -- WAIT_ALARM_NS
  ⟨0x5403, 0x5403, 0x02, 0x02, 32, .rov, false, 0x0, none, false, false, 0xFFFFFFFF⟩,  -- YIELDS
  ⟨0x5410, 0x5410, 0x00, 0x3F, 8, .rov, false, 0x0, none, false, false, 0xFF⟩,  -- JOB_STATE
  ⟨0x5411, 0x5411, 0x00, 0x3F, 64, .rw, false, 0x0, none, false, false, 0xFFFFFFFFFFFFFFFF⟩,  -- JOB_IMAGE_ADDR
  ⟨0x5412, 0x5412, 0x00, 0x3F, 8, .wo, false, 0x0, none, false, true, 0xFF⟩,  -- JOB_COMMAND
  ⟨0x5413, 0x5413, 0x00, 0x3F, 8, .rov, false, 0x0, none, false, false, 0xFF⟩,  -- JOB_START_STATUS
  ⟨0x5414, 0x5414, 0x00, 0x3F, 8, .rov, false, 0x0, none, false, false, 0xFF⟩,  -- JOB_CLASS
  ⟨0x5420, 0x5420, 0x00, 0x3F, 64, .rw, false, 0x400010000036B000, none, false, true, 0xC0FFFFFFFFFFFFFF⟩,  -- JOB_SHAPER
  ⟨0x5421, 0x5421, 0x00, 0x01, 64, .rw, false, 0x400010000036B000, none, false, true, 0xC0FFFFFFFFFFFFFF⟩,  -- CLASS_SHAPER
  ⟨0x5424, 0x5424, 0x00, 0x3F, 32, .rov, false, 0x0, none, false, false, 0xFFFFFFFF⟩,  -- SHAPER_HELD_US
  ⟨0x5425, 0x5425, 0x00, 0x3F, 32, .rov, false, 0x0, none, false, false, 0xFFFFFFFF⟩,  -- EGRESS_WAIT_HWM_NS
  ⟨0x5430, 0x5430, 0x00, 0x1F, 64, .rw, false, 0x8100000000000, none, false, true, 0xFFFFFFC0FFFFFFFF⟩,  -- POLICER_MATCH
  ⟨0x5431, 0x5431, 0x00, 0x1F, 64, .rw, false, 0x0, none, false, true, 0xFFFFFFFFFFFFFFFF⟩,  -- POLICER_RATES
  ⟨0x5432, 0x5432, 0x00, 0x1F, 64, .rw, false, 0x1040, none, false, true, 0xFFFFFFFFFFFFFFFF⟩,  -- POLICER_SIZES
  ⟨0x5433, 0x5433, 0x00, 0x1F, 32, .rov, false, 0x0, none, false, false, 0xFFFFFFFF⟩,  -- POLICER_GREEN
  ⟨0x5434, 0x5434, 0x00, 0x1F, 32, .rov, false, 0x0, none, false, false, 0xFFFFFFFF⟩,  -- POLICER_YELLOW
  ⟨0x5435, 0x5435, 0x00, 0x1F, 32, .rov, false, 0x0, none, false, false, 0xFFFFFFFF⟩,  -- POLICER_DROPPED
  ⟨0x5440, 0x5442, 0x00, 0x3F, 64, .rov, false, 0x0, none, false, false, 0xFFFFFFFFFFFFFFFF⟩   -- LINK_HWM
]

/-- Folios of index range 0x6000, part 1. -/
def folioRows18a : List FolioRow := [
  ⟨0x6000, 0x6000, 0x01, 0x01, 16, .ro, false, 0x1000, none, false, false, 0xFFFF⟩,  -- ERRLOG_ENTRIES
  ⟨0x6000, 0x6000, 0x02, 0x02, 16, .rov, false, 0x0, none, false, false, 0xFFFF⟩,  -- ERRLOG_HEAD
  ⟨0x6000, 0x6000, 0x03, 0x03, 16, .rw, false, 0x0, none, false, true, 0xFFFF⟩,  -- ERRLOG_TAIL
  ⟨0x6000, 0x6000, 0x04, 0x04, 32, .rov, false, 0x0, none, false, false, 0xFFFFFFFF⟩,  -- ERRLOG_OVERFLOW
  ⟨0x6000, 0x6000, 0x05, 0x05, 16, .rw, false, 0x0, none, true, false, 0xFFFF⟩,  -- ERRLOG_SELECT
  ⟨0x6000, 0x6000, 0x06, 0x09, 64, .rov, false, 0x0, none, false, false, 0xFFFFFFFFFFFFFFFF⟩,  -- ERRLOG_WORD
  ⟨0x6000, 0x6000, 0x0A, 0x0A, 16, .rov, false, 0x0, none, false, false, 0xFFFF⟩,  -- ERRLOG_USED
  ⟨0x6004, 0x6004, 0x00, 0x08, 32, .rov, false, 0x0, none, false, false, 0xFFFFFFFF⟩,  -- MEM_CORRECTED
  ⟨0x6004, 0x6004, 0x10, 0x1F, 32, .rov, false, 0x0, none, false, false, 0xFFFFFFFF⟩,  -- MEM_CORRECTED
  ⟨0x6004, 0x6004, 0x20, 0x2F, 32, .rov, false, 0x0, none, false, false, 0xFFFFFFFF⟩,  -- MEM_CORRECTED
  ⟨0x6005, 0x6005, 0x00, 0x08, 32, .rov, false, 0x0, none, false, false, 0xFFFFFFFF⟩,  -- MEM_UNCORRECTABLE
  ⟨0x6005, 0x6005, 0x10, 0x1F, 32, .rov, false, 0x0, none, false, false, 0xFFFFFFFF⟩,  -- MEM_UNCORRECTABLE
  ⟨0x6005, 0x6005, 0x20, 0x2F, 32, .rov, false, 0x0, none, false, false, 0xFFFFFFFF⟩,  -- MEM_UNCORRECTABLE
  ⟨0x6006, 0x6006, 0x00, 0x08, 32, .rov, false, 0x0, none, false, false, 0xFFFFFFFF⟩,  -- ADDRLOG_OVERFLOW
  ⟨0x6006, 0x6006, 0x10, 0x1F, 32, .rov, false, 0x0, none, false, false, 0xFFFFFFFF⟩,  -- ADDRLOG_OVERFLOW
  ⟨0x6006, 0x6006, 0x20, 0x2F, 32, .rov, false, 0x0, none, false, false, 0xFFFFFFFF⟩,  -- ADDRLOG_OVERFLOW
  ⟨0x6007, 0x6007, 0x00, 0x00, 16, .rw, false, 0x0, none, true, false, 0xFFFF⟩,  -- ADDRLOG_SELECT
  ⟨0x6007, 0x6007, 0x01, 0x02, 64, .rov, false, 0x0, none, false, false, 0xFFFFFFFFFFFFFFFF⟩,  -- ADDRLOG_WORD
  ⟨0x6007, 0x6007, 0x03, 0x03, 8, .wo, false, 0x0, none, false, true, 0xFF⟩,  -- ADDRLOG_CLEAR
  ⟨0x6010, 0x6010, 0x01, 0x01, 32, .wo, false, 0x0, none, false, true, 0xFFFFFFFF⟩,  -- FREEZE_RELEASE
  ⟨0x6010, 0x6010, 0x02, 0x02, 16, .rov, false, 0x0, none, false, false, 0xFFFF⟩,  -- FROZEN_MASTERS
  ⟨0x6020, 0x6020, 0x00, 0x00, 16, .rw, false, 0x0, none, true, false, 0xFFFF⟩,  -- UNIT_SELECT
  ⟨0x6020, 0x6020, 0x01, 0x01, 32, .rov, false, 0x0, none, false, false, 0xFFFFFFFF⟩,  -- UNIT_STATUS
  ⟨0x6020, 0x6020, 0x02, 0x02, 32, .rov, false, 0x0, none, false, false, 0xFFFFFFFF⟩,  -- UNIT_CORRECTED
  ⟨0x6020, 0x6020, 0x03, 0x03, 32, .rov, false, 0x0, none, false, false, 0xFFFFFFFF⟩,  -- UNIT_UNCORRECTABLE
  ⟨0x6021, 0x6021, 0x01, 0x01, 16, .wo, false, 0x0, none, false, true, 0xFFFF⟩,  -- REINSTATE
  ⟨0x6021, 0x6021, 0x02, 0x02, 8, .rov, false, 0x0, none, false, false, 0xFF⟩,  -- REINSTATE_RESULT
  ⟨0x6022, 0x6022, 0x01, 0x01, 32, .rw, false, 0x400, some (1,16777215), false, false, 0xFFFFFFFF⟩,  -- CE_LIMIT_PER_HOUR
  ⟨0x6030, 0x6030, 0x01, 0x01, 32, .wo, false, 0x0, none, false, true, 0xFFFFFFFF⟩,  -- INJECT
  ⟨0x6040, 0x6040, 0x01, 0x01, 32, .rov, false, 0x0, none, false, false, 0xFFFFFFFF⟩,  -- STARTUP_CHECKS
  ⟨0x6041, 0x6041, 0x01, 0x01, 32, .rov, false, 0x0, none, false, false, 0xFFFFFFFF⟩,  -- NESTED_FENCES
  ⟨0x6041, 0x6041, 0x02, 0x02, 32, .rov, false, 0x0, none, false, false, 0xFFFFFFFF⟩   -- SLOT_OVERFLOW
]

/-- Folios of index range 0x6400, part 1. -/
def folioRows19a : List FolioRow := [
  ⟨0x6400, 0x6400, 0x01, 0x01, 16, .ro, false, 0x32, none, false, false, 0xFFFF⟩,  -- HEARTBEAT_US
  ⟨0x6400, 0x6400, 0x02, 0x02, 16, .ro, false, 0xC8, none, false, false, 0xFFFF⟩,  -- SUSPECT_US
  ⟨0x6400, 0x6400, 0x03, 0x03, 32, .rov, false, 0x0, none, false, false, 0xFFFFFFFF⟩,  -- INCARNATION
  ⟨0x6400, 0x6400, 0x04, 0x04, 16, .rw, false, 0x64, some (10,60000), false, false, 0xFFFF⟩,  -- FENCE_HOLD_MS
  ⟨0x6400, 0x6400, 0x05, 0x05, 8, .rw, false, 0x5, some (1,100), false, false, 0xFF⟩,  -- KEEPALIVE_MS
  ⟨0x6400, 0x6400, 0x06, 0x06, 16, .rw, false, 0x64, some (1,65535), false, false, 0xFFFF⟩,  -- CANARY_EVERY
  ⟨0x6400, 0x6400, 0x07, 0x07, 16, .rw, false, 0x3E8, some (1,60000), false, false, 0xFFFF⟩,  -- ESCALATE_MS
  ⟨0x6401, 0x6401, 0x01, 0x01, 32, .rov, false, 0x0, none, false, false, 0xFFFFFFFF⟩,  -- SUSPICIONS
  ⟨0x6401, 0x6401, 0x02, 0x02, 32, .rov, false, 0x0, none, false, false, 0xFFFFFFFF⟩,  -- DEAD_DECLARED
  ⟨0x6401, 0x6401, 0x03, 0x03, 32, .rov, false, 0x0, none, false, false, 0xFFFFFFFF⟩,  -- DEAD_APPLIED
  ⟨0x6401, 0x6401, 0x04, 0x04, 32, .rov, false, 0x0, none, false, false, 0xFFFFFFFF⟩,  -- NO_VERDICTS
  ⟨0x6401, 0x6401, 0x05, 0x05, 32, .rov, false, 0x0, none, false, false, 0xFFFFFFFF⟩,  -- DEAD_SOURCE_DROPS
  ⟨0x6402, 0x6402, 0x00, 0x3F, 64, .rov, false, 0x0, none, false, false, 0xFFFFFFFFFFFFFFFF⟩,  -- DEAD_TABLE
  ⟨0x6410, 0x6410, 0x00, 0x3F, 64, .rw, false, 0x0, none, false, false, 0xFFFFFFFFFFFF0000⟩,  -- BOOKMARK_TARGET
  ⟨0x6411, 0x6411, 0x00, 0x3F, 16, .rw, false, 0xFA, some (10,10000), false, false, 0xFFFF⟩,  -- BOOKMARK_PERIOD_MS
  ⟨0x6412, 0x6412, 0x00, 0x3F, 64, .rw, false, 0x0, none, false, false, 0xFFFFFFFFFFFFFFFF⟩,  -- ADOPTERS
  ⟨0x6413, 0x6413, 0x00, 0x3F, 8, .rov, false, 0x0, none, false, false, 0xFF⟩,  -- JOB_SCOPE
  ⟨0x6414, 0x6414, 0x00, 0x3F, 64, .rov, false, 0x0, none, false, false, 0xFFFFFFFFFFFFFFFF⟩,  -- BOOKMARK_STATUS
  ⟨0x6415, 0x6415, 0x00, 0x3F, 8, .wo, false, 0x0, none, false, true, 0xFF⟩,  -- BOOKMARK_NOW
  ⟨0x6420, 0x6420, 0x00, 0x3F, 32, .rov, false, 0x0, none, false, false, 0xFFFFFFFF⟩,  -- STEPS_VOIDED
  ⟨0x6421, 0x6421, 0x00, 0x3F, 32, .rov, false, 0x0, none, false, false, 0xFFFFFFFF⟩,  -- CANARY_FAILS
  ⟨0x6422, 0x6422, 0x00, 0x3F, 32, .rov, false, 0x0, none, false, false, 0xFFFFFFFF⟩,  -- TEARDOWNS
  ⟨0x6423, 0x6423, 0x00, 0x3F, 32, .rov, false, 0x0, none, false, false, 0xFFFFFFFF⟩,  -- RESTARTS
  ⟨0x6424, 0x6424, 0x00, 0x3F, 32, .rov, false, 0x0, none, false, false, 0xFFFFFFFF⟩,  -- RECORDS_ADOPTED
  ⟨0x6425, 0x6425, 0x00, 0x3F, 32, .rov, false, 0x0, none, false, false, 0xFFFFFFFF⟩   -- RECORDS_NOT_PLACED
]

/-- Folios of index range 0x7000, part 1. -/
def folioRows1Ca : List FolioRow := [
  ⟨0x7000, 0x7000, 0x01, 0x01, 8, .rov, false, 0x0, none, false, false, 0xFF⟩,  -- FLASH_STATE
  ⟨0x7000, 0x7000, 0x02, 0x02, 32, .rov, false, 0x0, none, false, false, 0xFFFFFFFF⟩,  -- RAW_GIB
  ⟨0x7000, 0x7000, 0x03, 0x03, 32, .rov, false, 0x0, none, false, false, 0xFFFFFFFF⟩,  -- LOGICAL_GIB
  ⟨0x7000, 0x7000, 0x04, 0x04, 32, .rov, false, 0x0, none, false, false, 0xFFFFFFFF⟩,  -- MAP_MIB
  ⟨0x7000, 0x7000, 0x05, 0x05, 8, .ro, true, 0x0, none, false, false, 0xFF⟩,  -- FLASH_RATE
  ⟨0x7000, 0x7000, 0x06, 0x06, 32, .rov, false, 0x0, none, false, false, 0xFFFFFFFF⟩,  -- FLASH_GEOMETRY
  ⟨0x7000, 0x7000, 0x07, 0x07, 16, .rov, false, 0x0, none, false, false, 0xFFFF⟩,  -- FLASH_TR_MAX_US
  ⟨0x7000, 0x7000, 0x08, 0x08, 64, .wo, false, 0x0, none, false, true, 0xFFFFFFFFFFFFFFFF⟩,  -- DISCARD_RANGE
  ⟨0x7010, 0x7010, 0x01, 0x01, 16, .rw, false, 0x40, none, false, true, 0xFFFF⟩,  -- RECLAIM_LOW_EU
  ⟨0x7010, 0x7010, 0x02, 0x02, 16, .rw, false, 0x80, none, false, true, 0xFFFF⟩,  -- RECLAIM_HIGH_EU
  ⟨0x7010, 0x7010, 0x03, 0x03, 16, .rw, false, 0x10, none, false, true, 0xFFFF⟩,  -- RECLAIM_URGENT_EU
  ⟨0x7010, 0x7010, 0x04, 0x04, 8, .rw, false, 0x19, some (5,100), false, false, 0xFF⟩,  -- RECLAIM_SHARE_PCT
  ⟨0x7010, 0x7010, 0x05, 0x05, 8, .rw, false, 0x4, some (0,64), false, false, 0xFF⟩,  -- RECLAIM_WEAR_WEIGHT
  ⟨0x7010, 0x7010, 0x06, 0x06, 16, .rw, false, 0xC8, some (16,65535), false, false, 0xFFFF⟩,  -- WEAR_SPREAD
  ⟨0x7010, 0x7010, 0x07, 0x07, 8, .rw, false, 0xA, some (1,50), false, false, 0xFF⟩,  -- SPARE_LOW_PCT
  ⟨0x7011, 0x7011, 0x00, 0x0F, 32, .rov, false, 0x0, none, false, false, 0xFFFFFFFF⟩,  -- RECLAIMS
  ⟨0x7012, 0x7012, 0x00, 0x0F, 32, .rov, false, 0x0, none, false, false, 0xFFFFFFFF⟩,  -- POISONED_PAGES
  ⟨0x7020, 0x7020, 0x01, 0x01, 16, .ro, true, 0x0, none, false, false, 0xFFFF⟩,  -- FLUSH_BUDGET_US
  ⟨0x7020, 0x7020, 0x02, 0x02, 32, .rov, false, 0x0, none, false, false, 0xFFFFFFFF⟩,  -- DIRTY_CAP_KIB
  ⟨0x7020, 0x7020, 0x03, 0x03, 32, .rov, false, 0x0, none, false, false, 0xFFFFFFFF⟩,  -- DIRTY_KIB
  ⟨0x7020, 0x7020, 0x04, 0x04, 32, .rov, false, 0x0, none, false, false, 0xFFFFFFFF⟩,  -- LAST_FLUSH
  ⟨0x7030, 0x7030, 0x01, 0x01, 16, .ro, true, 0x0, none, false, false, 0xFFFF⟩,  -- BOOKMARK_GIB
  ⟨0x7030, 0x7030, 0x02, 0x02, 16, .ro, true, 0x0, none, false, false, 0xFFFF⟩,  -- BOOKMARK_SLOT_MIB
  ⟨0x7030, 0x7030, 0x03, 0x03, 32, .rov, false, 0x0, none, false, false, 0xFFFFFFFF⟩,  -- BOOKMARK_COMMITS
  ⟨0x7030, 0x7030, 0x04, 0x04, 32, .rov, false, 0x0, none, false, false, 0xFFFFFFFF⟩,  -- BOOKMARK_REJECTS
  ⟨0x7030, 0x7030, 0x05, 0x05, 16, .wo, false, 0x0, none, false, true, 0xFFFF⟩,  -- BOOKMARK_DISCARD
  ⟨0x7031, 0x7031, 0x01, 0x01, 32, .rw, true, 0x0, none, false, true, 0xFFFFFFFF⟩,  -- FLASH_SHARE_LC_GIB
  ⟨0x7031, 0x7031, 0x02, 0x02, 32, .rw, true, 0x0, none, false, true, 0xFFFFFFFF⟩,  -- FLASH_SHARE_BE_GIB
  ⟨0x7040, 0x7047, 0x00, 0x0F, 64, .rov, false, 0x0, none, false, false, 0xFFFFFFFFFFFFFFFF⟩   -- HEALTH
]

/-- Folios of index range 0x7800, part 1. -/
def folioRows1Ea : List FolioRow := [
  ⟨0x7800, 0x7800, 0x00, 0x01, 8, .rov, false, 0x10, none, false, false, 0xFF⟩,  -- QUIRE_CLOCK_K
  ⟨0x7800, 0x7800, 0x02, 0x02, 32, .rov, false, 0x0, none, false, false, 0xFFFFFFFF⟩,  -- CLOCK_STATUS
  ⟨0x7801, 0x7801, 0x01, 0x01, 16, .rw, false, 0x6D6, some (800,1750), false, false, 0xFFFF⟩,  -- POWER_LIMIT_W
  ⟨0x7801, 0x7801, 0x02, 0x02, 16, .rw, false, 0x1B8, some (0,1000), false, false, 0xFFFF⟩,  -- NONCORE_ALLOWANCE_W
  ⟨0x7801, 0x7801, 0x03, 0x03, 16, .rov, false, 0x0, none, false, false, 0xFFFF⟩,  -- PACKAGE_POWER_W
  ⟨0x7801, 0x7801, 0x04, 0x04, 8, .rw, false, 0x5C, some (70,95), false, false, 0xFF⟩,  -- THROTTLE_C
  ⟨0x7801, 0x7801, 0x05, 0x05, 8, .ro, false, 0x64, none, false, false, 0xFF⟩,  -- TRIP_C
  ⟨0x7801, 0x7801, 0x06, 0x06, 32, .rov, false, 0x0, none, false, false, 0xFFFFFFFF⟩,  -- THROTTLE_STEPS
  ⟨0x7801, 0x7801, 0x07, 0x07, 8, .rov, false, 0x0, none, false, false, 0xFF⟩,  -- THROTTLE_CAUSE
  ⟨0x7802, 0x7802, 0x00, 0x01, 64, .rov, false, 0x0, none, false, false, 0xFFFFFFFFFFFFFFFF⟩,  -- CORE_RAIL
  ⟨0x7803, 0x7803, 0x01, 0x01, 8, .rov, false, 0x0, none, false, false, 0xFF⟩,  -- JUNCTION_MAX_C
  ⟨0x7803, 0x7803, 0x02, 0x02, 8, .rov, false, 0x0, none, false, false, 0xFF⟩,  -- STACK_MAX_C
  ⟨0x7810, 0x7810, 0x01, 0x01, 8, .rov, false, 0x0, none, false, false, 0xFF⟩,  -- LAST_RESET
  ⟨0x7810, 0x7810, 0x02, 0x02, 8, .wo, false, 0x0, none, false, true, 0xFF⟩,  -- RESET_COMMAND
  ⟨0x7810, 0x7810, 0x03, 0x03, 16, .rw, false, 0x3E8, some (100,60000), false, false, 0xFFFF⟩,  -- WATCHDOG_MS
  ⟨0x7820, 0x7820, 0x01, 0x01, 32, .rov, false, 0x0, none, false, false, 0xFFFFFFFF⟩,  -- INIT_STAGE
  ⟨0x7830, 0x7830, 0x01, 0x01, 32, .rov, false, 0x0, none, false, false, 0xFFFFFFFF⟩   -- HOLDUP_REQUIRED_MJ
]

/-- Folios of index range 0x7C00, part 1. -/
def folioRows1Fa : List FolioRow := [
  ⟨0x7C00, 0x7C00, 0x01, 0x01, 32, .rov, false, 0x0, none, false, false, 0xFFFFFFFF⟩,  -- BOOT_STATUS
  ⟨0x7C01, 0x7C01, 0x00, 0x03, 64, .rov, false, 0x0, none, false, false, 0xFFFFFFFFFFFFFFFF⟩,  -- FIRMWARE_DIGEST
  ⟨0x7C02, 0x7C02, 0x00, 0x03, 64, .rov, false, 0x0, none, false, false, 0xFFFFFFFFFFFFFFFF⟩,  -- CONFIG_DIGEST
  ⟨0x7C03, 0x7C03, 0x00, 0x03, 64, .rov, false, 0x0, none, false, false, 0xFFFFFFFFFFFFFFFF⟩,  -- OWNER_KEY_DIGEST
  ⟨0x7C05, 0x7C05, 0x01, 0x01, 8, .rov, false, 0x0, none, false, false, 0xFF⟩,  -- PUF_STATUS
  ⟨0x7C06, 0x7C06, 0x00, 0x93, 64, .rov, false, 0x0, none, false, false, 0xFFFFFFFFFFFFFFFF⟩,  -- KEM_KEY
  ⟨0x7C07, 0x7C07, 0x00, 0x05, 64, .rov, false, 0x0, none, false, false, 0xFFFFFFFFFFFFFFFF⟩,  -- ATTEST_KEY
  ⟨0x7C10, 0x7C10, 0x01, 0x01, 8, .ro, true, 0x0, none, false, false, 0xFF⟩,  -- ROLE_CONFIGURED
  ⟨0x7C10, 0x7C10, 0x02, 0x02, 8, .rov, false, 0xFF, none, false, false, 0xFF⟩,  -- ROLE_ACTIVE
  ⟨0x7C10, 0x7C10, 0x03, 0x03, 8, .rov, false, 0x0, none, false, false, 0xFF⟩,  -- ROLE_REASON
  ⟨0x7C10, 0x7C10, 0x04, 0x04, 32, .rov, false, 0x0, none, false, false, 0xFFFFFFFF⟩,  -- POP_LPDDR6
  ⟨0x7C10, 0x7C10, 0x05, 0x05, 32, .rov, false, 0x0, none, false, false, 0xFFFFFFFF⟩,  -- POP_FLASH
  ⟨0x7C20, 0x7C20, 0x00, 0x00, 32, .rov, false, 0x0, none, false, false, 0xFFFFFFFF⟩,  -- PCIE_STATUS
  ⟨0x7C20, 0x7C20, 0x01, 0x01, 8, .rw, false, 0xA, some (1,64), false, false, 0xFF⟩,  -- PCIE_CPL_TIMEOUT_MS
  ⟨0x7C20, 0x7C20, 0x02, 0x02, 32, .rov, false, 0x0, none, false, false, 0xFFFFFFFF⟩,  -- PCIE_ERRORS
  ⟨0x7C30, 0x7C30, 0x00, 0x03, 64, .rw, false, 0x0, none, false, false, 0xFFFFFFFFFFFFFFFF⟩,  -- QUOTE_NONCE
  ⟨0x7C30, 0x7C30, 0x04, 0x04, 8, .rw, false, 0xFF, none, false, false, 0xFF⟩,  -- QUOTE_JOB
  ⟨0x7C30, 0x7C30, 0x05, 0x05, 64, .rw, false, 0x0, none, false, false, 0xFFFFFFFFFFFFFFFF⟩,  -- QUOTE_ADDR
  ⟨0x7C30, 0x7C30, 0x06, 0x06, 8, .wo, false, 0x0, none, false, true, 0xFF⟩,  -- QUOTE_COMMAND
  ⟨0x7C30, 0x7C30, 0x07, 0x07, 8, .rov, false, 0x0, none, false, false, 0xFF⟩,  -- QUOTE_STATUS
  ⟨0x7C31, 0x7C31, 0x00, 0x1F, 64, .rov, false, 0x0, none, false, false, 0xFFFFFFFFFFFFFFFF⟩,  -- QUOTE_BODY
  ⟨0x7C40, 0x7C40, 0x01, 0x01, 64, .rw, false, 0x0, none, false, false, 0xFFFFFFFFFFFFFFFF⟩,  -- UPDATE_ADDR
  ⟨0x7C40, 0x7C40, 0x02, 0x02, 8, .wo, false, 0x0, none, false, true, 0xFF⟩,  -- UPDATE_COMMAND
  ⟨0x7C40, 0x7C40, 0x03, 0x03, 8, .rov, false, 0x0, none, false, false, 0xFF⟩,  -- UPDATE_STATUS
  ⟨0x7C50, 0x7C50, 0x01, 0x01, 8, .ro, true, 0x0, none, false, false, 0x1⟩   -- DEBUG_STATE
]

/-- The rows whose index lies in range `g` × 0x400 to `g` × 0x400 + 0x3FF. -/
def folioGroup : Nat → List FolioRow
  | 4 => folioRows04a
  | 8 => folioRows08a ++ folioRows08b
  | 9 => folioRows09a ++ folioRows09b
  | 10 => folioRows0Aa
  | 12 => folioRows0Ca
  | 13 => folioRows0Da
  | 14 => folioRows0Ea
  | 16 => folioRows10a ++ folioRows10b
  | 18 => folioRows12a
  | 20 => folioRows14a
  | 21 => folioRows15a
  | 24 => folioRows18a
  | 25 => folioRows19a
  | 28 => folioRows1Ca
  | 30 => folioRows1Ea
  | 31 => folioRows1Fa
  | _ => []

/-- Every row of the dictionary, in ascending index order. -/
def folioRows : List FolioRow := (List.range 32).flatMap folioGroup

/-- The dictionary row of a folio, if it exists (R423: otherwise it does not exist). -/
def folioRow (idx sub : Nat) : Option FolioRow :=
  (folioGroup (idx / 1024)).find? (fun r => decide (r.idxLo ≤ idx) && decide (idx ≤ r.idxHi) && decide (r.subLo ≤ sub) && decide (sub ≤ r.subHi))

/-- The key of a folio in the stores of the model. -/
def folioKey (idx sub : Nat) : Nat := idx * 256 + sub

/-- The Reset column's value of a folio; zero where the table says img (the image supplies it) or no folio exists. -/
def folioReset (idx sub : Nat) : Nat := match folioRow idx sub with
  | some r => r.reset
  | none => 0

/-- The bits of a folio that a value from outside sets: RSVD bits read as zero (R8). -/
def folioMask (idx sub : Nat) : Nat := match folioRow idx sub with
  | some r => r.mask
  | none => 0

/-- The width in bits of a folio's type; 64 where no folio exists. -/
def folioWidth (idx sub : Nat) : Nat := match folioRow idx sub with
  | some r => r.width
  | none => 64

end Sys2Proof.Machine
end

