-- ==== Sys2Proof/Machine/Tables.lean ====
section
/-! DEFINITION. Sparse tables: the one way every table of the model is read and written.
A table is a list of (index, value) pairs with strictly rising indices. -/

namespace Sys2Proof.Machine

/-- The value listed at index `k`, if any. -/
def tfind {α : Type} : Tbl α → Nat → Option α
  | [], _ => none
  | (i, v) :: r, k => if i = k then some v else tfind r k

/-- The value at index `k`: the listed one, or the default `d`. -/
def tget {α : Type} (d : α) (t : Tbl α) (k : Nat) : α := (tfind t k).getD d

/-- Remove index `k`. -/
def tdel {α : Type} : Tbl α → Nat → Tbl α
  | [], _ => []
  | (i, v) :: r, k => if i = k then tdel r k else (i, v) :: tdel r k

/-- Put value `v` at index `k`, keeping the indices rising. -/
def tput {α : Type} : Tbl α → Nat → α → Tbl α
  | [], k, v => [(k, v)]
  | (i, x) :: r, k, v =>
    if k < i then (k, v) :: (i, x) :: r
    else if i = k then (k, v) :: r
    else (i, x) :: tput r k v

/-- Write `v` at index `k` of a table whose default is `d`: writing the default removes the entry. -/
def tset {α : Type} [DecidableEq α] (d : α) (t : Tbl α) (k : Nat) (v : α) : Tbl α :=
  if v = d then tdel t k else tput t k v

/-- Apply `f` to the value at index `k`. -/
def tmod {α : Type} [DecidableEq α] (d : α) (t : Tbl α) (k : Nat) (f : α → α) : Tbl α :=
  tset d t k (f (tget d t k))

/-- The indices of a table are strictly rising, all of them above `b` when `b` is given. -/
def tsortedFrom {α : Type} : Option Nat → Tbl α → Bool
  | _, [] => true
  | none, (i, _) :: r => tsortedFrom (some i) r
  | some b, (i, _) :: r => decide (b < i) && tsortedFrom (some i) r

/-- The canonical form of a table with default `d`: indices strictly rising and no entry equal to `d`. -/
def twf {α : Type} [DecidableEq α] (d : α) (t : Tbl α) : Bool :=
  tsortedFrom none t && t.all (fun p => decide (p.2 ≠ d))

/-- The indices whose listed value satisfies `p`, ascending. -/
def tkeys {α : Type} (t : Tbl α) (p : Nat → α → Bool) : List Nat :=
  (t.filter (fun e => p e.1 e.2)).map (fun e => e.1)

/-- Apply `f` to every listed value. -/
def tmap {α : Type} (t : Tbl α) (f : Nat → α → α) : Tbl α := t.map (fun e => (e.1, f e.1 e.2))

/-- Least natural number at or above `lo`, within `n` tries, that satisfies `p`. -/
def firstFrom (p : Nat → Bool) : Nat → Nat → Option Nat
  | 0, _ => none
  | n + 1, lo => if p lo then some lo else firstFrom p n (lo + 1)

/-- The least index of the rising table `t` that is not listed, searched from `lo`; `none` at or above `hi`. -/
def firstGap {α : Type} (hi : Nat) : Tbl α → Nat → Option Nat
  | [], lo => if lo < hi then some lo else none
  | (i, _) :: r, lo => if i = lo then firstGap hi r (lo + 1)
      else if lo < i then (if lo < hi then some lo else none) else firstGap hi r lo

end Sys2Proof.Machine
end

