-- ==== Sys2Proof/Machine/Ops.lean ====
section
/-! DEFINITION. The named operations that every family of commands shares: local time, folios and the change journal,
what the package sends, free draws, device memory, the error log, address logs and unit records. -/

namespace Sys2Proof.Machine

open Host

/-- Local time never runs backwards: an event stamped `t` happens at `t`, or now if that has passed. [DESIGN CHOICE: log 5, 118] -/
def atTime (t : Nat) (s : State) : State := { s with now := max s.now t }

/-- Local time in µs. [DEDUCED: log 114] -/
def nowUs (s : State) : Nat := s.now / 1000

/-- Local time in ms, as AGE_MS fields hold it (bits [31:0]). -/
def nowMs (s : State) : Nat := s.now / 1000000 % 2 ^ 32

/-- The package sends or drives `o`. [DESIGN CHOICE: log 9] -/
def emit (s : State) (o : Out) : State := { s with out := s.out ++ [o] }

/-- The package sends `o` to another package; with its transmitters dark nothing leaves (R15, R308). -/
def transmit (s : State) (o : Out) : State := if s.link.dark then s else emit s o

/-- One more free draw has been made. [DESIGN CHOICE: log 8] -/
def draw (s : State) : State := { s with freeCtr := s.freeCtr + 1 }

/-- The free value of the present draw. [DESIGN CHOICE: log 8] -/
def freshOf (s : State) : Nat := Config.fresh s.freeCtr

/-- A number below `n` that satisfies `p`, the search starting at `start` and wrapping. [DESIGN CHOICE: log 8] -/
def pickFree (p : Nat → Bool) (n start : Nat) : Option Nat :=
  match firstFrom p (n - start % n) (start % n) with
  | some k => some k
  | none => firstFrom p (start % n) 0

/-! ### Folios -/

/-- The value a folio has after reset with the image and its overrides in force (R407). [DESIGN CHOICE: log 11] -/
def resetValue (d : DictState) (idx sub : Nat) : Nat :=
  match tfind d.overrides (folioKey idx sub) with
  | some v => v
  | none => match tfind d.img (folioKey idx sub) with
    | some v => v
    | none => folioReset idx sub

/-- The stored value of a folio. -/
def getF (s : State) (idx sub : Nat) : Nat :=
  match tfind s.dict.folios (folioKey idx sub) with
  | some v => v
  | none => resetValue s.dict idx sub

/-- Store a folio's value: a change of the device's own to an RO/V folio, which is not journalled (R413). -/
def setF (s : State) (idx sub v : Nat) : State :=
  { s with dict := { s.dict with folios := tput s.dict.folios (folioKey idx sub) v } }

/-- Add to a counter, which wraps at its width. -/
def addF (s : State) (idx sub n : Nat) : State := setF s idx sub ((getF s idx sub + n) % 2 ^ folioWidth idx sub)

/-- Raise a counter by one; every counter wraps. -/
def incF (s : State) (idx sub : Nat) : State := addF s idx sub 1

/-- Raise a folio to `v` when it is lower. -/
def maxF (s : State) (idx sub v : Nat) : State := if getF s idx sub < v then setF s idx sub v else s

/-- Bit `b` of a folio set or cleared. -/
def setBitF (s : State) (idx sub b : Nat) (on : Bool) : State :=
  setF s idx sub (setFld (getF s idx sub) (b2n on) b b)

/-- Add an entry to the change journal: 1,024 entries, the one of lowest SEQ replaced (R414). -/
def journal (s : State) (e : JournalEntry) : State :=
  let q := getF s 0x1010 0x02
  let j := s.dict.journal ++ [{ e with seq := q, timeNs := s.now }]
  let s := incF s 0x1010 0x02
  if 1024 < j.length then incF { s with dict := { s.dict with journal := j.drop 1 } } 0x1010 0x03
  else { s with dict := { s.dict with journal := j } }

/-- The device changes an RW folio by its own rule: journalled with SOURCE 4 (R413). -/
def devSetF (s : State) (idx sub v : Nat) : State :=
  journal (setF s idx sub v)
    { timeNs := s.now, prior := getF s idx sub, value := v, seq := 0, index := idx, sub := sub, origin := 0, source := 4,
      result := 0, sameCycle := false }

/-! ### Device memory -/

/-- Column capacity C in bytes, once the stack is trained (folio 0x3400.02). -/
def columnBytes (s : State) : Nat := getF s 0x3400 0x02 * 2 ^ 20

/-- The interleaved share Ci of each column, in bytes (R154). -/
def shareBytes (s : State) : Nat := getF s 0x3400 0x03 * 2 ^ 20

/-- Column and column-local offset of an interleaved-window offset (R153). -/
def interleave (ci a : Nat) : Nat × Nat :=
  let h := a / (512 * ci)
  let r := a % (512 * ci)
  let g := r / 256
  (512 * h + g % 512, g / 512 * 256 + r % 256)

/-- The inverse of `interleave` (R153). -/
def deinterleave (ci c o : Nat) : Nat := c / 512 * 512 * ci + (o / 256 * 512 + c % 512) * 256 + o % 256

/-- The address of column-local offset `o` of column `c` in the column window (Table 7-1). -/
def columnAddr (c o : Nat) : Nat := 0x100000000000 + c * 0x4000000 + o

/-- Column and offset that a device physical address of the stacked-DRAM windows reaches for reading (R152). -/
def stackedLoc (s : State) (a : Nat) : Option (Nat × Nat) :=
  if a < 0x100000000000 then
    if a < 1024 * shareBytes s then some (interleave (shareBytes s) a) else none
  else if a < 0x101000000000 then
    let x := a - 0x100000000000
    if x % 0x4000000 < columnBytes s then some (x / 0x4000000, x % 0x4000000) else none
  else none

/-- Capacity in bytes of one rank of a channel (Table 10-3). -/
def rankBytes : Nat → Nat
  | 1 => 4 * 2 ^ 30
  | 2 => 6 * 2 ^ 30
  | 3 => 8 * 2 ^ 30
  | 4 => 12 * 2 ^ 30
  | 5 => 16 * 2 ^ 30
  | _ => 0

/-- Trained LPDDR6 capacity in bytes (folio 0x7C10.04). -/
def lpddrBytes (s : State) : Nat :=
  let p := getF s 0x7C10 0x04
  popCount 16 (nfld p 31 16) * nfld p 7 0 * rankBytes (nfld p 15 8)

/-- Host region and offset of an address of the host windows, mapped when folio 0x2443.rr is valid and the offset lies
below HOST_SIZE_MIB (R454), and reachable while the port is at L0 (R457). -/
def hostLoc (s : State) (a : Nat) : Option (Nat × Nat) :=
  if 0x800000000000 ≤ a ∧ a < 0x900000000000 then
    let r := (a - 0x800000000000) / 2 ^ 40
    let o := (a - 0x800000000000) % 2 ^ 40
    if nbit (getF s 0x2443 r) 7 = true ∧ o < getF s 0x2441 r * 2 ^ 20 ∧ s.boot.pcieL0 = true then some (r, o) else none
  else none

/-- The canonical address under which a byte of plain memory is held, or none where no byte exists (R127, R152, R219). A byte of host
memory is held under 2^64 plus its host address, HOST_BASE plus the offset in the window (R454). [DEDUCED: log 13] -/
def canon (s : State) (a : Nat) : Option Nat :=
  if a < 0x1C0000000000 then (stackedLoc s a).map (fun p => columnAddr p.1 p.2)
  else if 0x200000000000 ≤ a ∧ a < 0x200000000000 + lpddrBytes s then some a
  else if 0xF00000000000 ≤ a ∧ a < 0xF00040000000 then some a
  else if 0xF00080000000 ≤ a ∧ a < 0xF000A0000000 then some a
  else (hostLoc s a).map (fun p => 2 ^ 64 + (getF s 0x2440 p.1 + p.2) % 2 ^ 64)

/-- The memory invariant: addresses strictly rising, and no entry equal to zero, which an unlisted address reads as. -/
def Memory.wf (m : List Cell) : Bool := twf (0 : Byte) m

/-- The byte held at a canonical address; zero where none is listed. [DESIGN CHOICE: log 3] -/
def memGet (m : List Cell) (a : Nat) : Byte := tget 0 m a

/-- Store one byte at a canonical address. -/
def memSet (m : List Cell) (a : Nat) (b : Byte) : List Cell := tset 0 m a b

/-! ### Group tables (R58): the descriptors of a job, and the bytes of its table that show them -/

/-- The record of a job number. -/
def job (s : State) (j : Nat) : JobSt := tget JobSt.zero s.jobs j

/-- The job image in force for a job, if any. -/
def jobImage (s : State) (j : Nat) : Option JobImage := (job s j).image

/-- S: the layer count rounded up to a power of two (R57). -/
def groupStride (i : JobImage) : Nat := pow2Ceil i.layers

/-- Group indices that a job may have (R57). [DEDUCED: log 90] -/
def maxGroups (i : JobImage) : Nat := 2 ^ 25 / groupStride i

/-- The image of a job, or one of no layers. -/
def JobImage.none : JobImage :=
  { info := { readOk := false, magic := 0, kind := 0, zerosOk := false, version := 0, imageId := 0, bodyLen := 0, bodyDigest := 0,
              keyDigest := 0, sigOk := false, bodyHash := 0 },
    w := 0, beta := 0, chunk := 0, shapes := [], bounds := [], draftLimit := 0, vocab := 0, ctxLimit := 0, leafSize := 16,
    fmt := 6, layers := 0, heads := 0, headDim := 0, qHeads := 0, qMin := 0, qMax := 0, cMin := 0, cMax := 0, tableSets := [],
    routines := [], freezeRoutines := [], attMode := 0, spanLen := 0, ring := Option.none, rMin := 0, sigma := 0, rope := [],
    sharded := false, listPages := 0, outBase := 0, outLen := 0, vectors := [], weights := [], memory := [], xlates := [],
    outbounds := [], regions := [], queues := [], shaper := Option.none, bookmarkTargets := [], adopters := [], keyBlock := [] }

/-- The image in force for a job. -/
def imageOf (s : State) (j : Nat) : JobImage := (jobImage s j).getD JobImage.none

/-- The descriptor of group g: one never used is free, and its NEXT_FREE is the next group of the job. -/
def groupOf (s : State) (j g : Nat) : GroupDesc :=
  (tfind (job s j).groups g).getD
    { GroupDesc.zero with nextFree := if g + 1 < maxGroups (imageOf s j) then some (g + 1) else none }

/-- INDEX of leaf (g, l). -/
def leafIndex (s : State) (j g l : Nat) : Nat := g * groupStride (imageOf s j) + l

/-- Identifier of leaf (g, l) (Table 3-2); layer 0 names the group. -/
def leafId (s : State) (j g l : Nat) : Nat := j * 2 ^ 26 + leafIndex s j g l

/-- The null identifier. -/
def nullLeaf : Nat := 0xFFFFFFFF

/-- The word of a group descriptor (Table 3-3); NEXT_FREE of a live group shows its reset value. [DESIGN CHOICE: log 121] -/
def groupWord (s : State) (j : Nat) (d : GroupDesc) : Nat :=
  let next := match d.nextFree with
    | some g => leafId s j g 0
    | none => nullLeaf
  place d.refcount 127 104 + place d.fill 103 97 + place (b2n d.indexed) 96 96 + place (b2n d.moving) 95 95 + place (b2n d.live) 94 94
    + place d.lastWriter 79 64 + place d.ageMs 63 32 + (if d.live then 0 else next)

/-- The byte of a job's group table at a canonical address of stacked DRAM, while the job has one there (R58). [DESIGN CHOICE: log 121] -/
def tableByte (s : State) (k : Nat) : Option Byte :=
  if k < 0x100000000000 ∨ 0x101000000000 ≤ k then none else
  let c := (k - 0x100000000000) / 0x4000000
  let o := k % 0x4000000
  if shareBytes s ≤ o then none else
  let a := deinterleave (shareBytes s) c o
  let byteOf (x : Nat × JobSt) : Option Byte := match x.2.tables.head? with
    | some (b, n) => if b ≤ a ∧ a < b + n then some (BitVec.ofNat 8 (groupWord s x.1 (groupOf s x.1 ((a - b) / 16)) / 2 ^ (8 * ((a - b) % 16)))) else none
    | none => none
  s.jobs.findSome? byteOf

/-- The byte at a device physical address; zero where no byte exists (the caller has checked that it does). [DESIGN CHOICE: log 3] -/
def readByte (s : State) (a : Nat) : Byte := match canon s a with
  | some k => (tableByte s k).getD (memGet s.mem k)
  | none => 0

/-- Every byte of the range exists. -/
def mapped (s : State) (a n : Nat) : Bool := (List.range n).all (fun i => (canon s (a + i)).isSome)

/-- The bytes of a range of device memory. -/
def readBytes (s : State) (a n : Nat) : List Byte := (List.range n).map (fun i => readByte s (a + i))

/-- Store one byte at a device physical address; nothing where no byte exists. -/
def writeByte (s : State) (a : Nat) (b : Byte) : State := match canon s a with
  | some k => { s with mem := memSet s.mem k b }
  | none => s

/-- Store consecutive bytes of device memory from `a`. -/
def writeBytes : State → Nat → List Byte → State
  | s, _, [] => s
  | s, a, b :: r => writeBytes (writeByte s a b) (a + 1) r

/-- The little-endian number of `n` bytes at `a`. -/
def readNat (s : State) (a n : Nat) : Nat := ofBytesLE (readBytes s a n)

/-- Store a number as `n` little-endian bytes at `a`. -/
def writeNat (s : State) (a n v : Nat) : State := writeBytes s a (toBytesLE n v)

/-- One contiguous move of a transfer. -/
def doMove (s : State) (m : Move) : State := writeBytes s m.dst (readBytes s m.src m.len)

/-! ### Endpoints and paths -/

/-- Own endpoint (folio 0x4000.01). -/
def ownEndpoint (s : State) : Nat := getF s 0x4000 0x01

/-- Volume of an endpoint (R264). -/
def volumeOf (e : Nat) : Nat := nfld e 15 12

/-- The path delay held for an endpoint (R283, folio 0x4002.01), in ns; zero where it is unreachable or this package. -/
def pathDelay (s : State) (e : Nat) : Nat := match tfind s.fabric.routes e with
  | some r => r.delayNs
  | none => 0

/-- Endpoints other than this package's in the binding list (R266). -/
def bindingPeers (s : State) : List Nat :=
  if s.fabric.bindingAlone then [] else
  let v := getF s 0x4000 0x03
  ([nfld v 15 0, nfld v 31 16, nfld v 47 32, nfld v 63 48]).filter (fun e => decide (e ≠ 0) && decide (e ≠ ownEndpoint s))

/-- The package answers its interfaces: images verified, and neither in reset, failing nor failed (R439, R441, R443). -/
def answering (s : State) : Bool :=
  decide (s.power.phase = .running) && s.power.answering && !s.power.tapLoaded && !s.err.failed

/-- An interface is answered: without a valid configuration only the management port and PCIe are (R461). -/
def answersTo (s : State) (iface : Nat) : Bool :=
  answering s && decide (iface < 4) && (s.boot.config.isSome || decide (2 ≤ iface))

/-! ### Jobs, quires and columns -/

/-- Replace the record of a job number. -/
def setJob (s : State) (j : Nat) (x : JobSt) : State := { s with jobs := tset JobSt.zero s.jobs j x }

/-- Change the record of a job number. -/
def modJob (s : State) (j : Nat) (f : JobSt → JobSt) : State := setJob s j (f (job s j))

/-- Job numbers whose record differs from that of a free one. -/
def jobNumbers (s : State) : List Nat := s.jobs.map (fun e => e.1)

/-- Job numbers in RUNNING. -/
def runningJobs (s : State) : List Nat := tkeys s.jobs (fun _ j => decide (j.mode = .running))

/-- The sequencer of a quire (0–127). -/
def quire (s : State) (q : Nat) : Sequencer := tget Sequencer.zero s.quires q

/-- The gutter unit of a column (0–1023). -/
def gutter (s : State) (c : Nat) : GutterUnit := tget GutterUnit.zero s.gutters c

/-- A sequencer by its identifier: quire q is q, the gutter unit of column c is 128 + c. -/
def seqOf (s : State) (i : Nat) : Sequencer := if i < 128 then quire s i else (gutter s (i - 128)).seq

/-- Replace a sequencer. -/
def setSeq (s : State) (i : Nat) (x : Sequencer) : State :=
  if i < 128 then { s with quires := tset Sequencer.zero s.quires i x }
  else { s with gutters := tmod GutterUnit.zero s.gutters (i - 128) (fun g => { g with seq := x }) }

/-- Change a sequencer. -/
def modSeq (s : State) (i : Nat) (f : Sequencer → Sequencer) : State := setSeq s i (f (seqOf s i))

/-- The sequencers of a job: its quires by rank, then its gutter units by column rank. -/
def jobSeqs (s : State) (j : Nat) : List Nat := (job s j).quires ++ (job s j).columns.map (· + 128)

/-- Change the gutter unit of a column. -/
def modGutter (s : State) (c : Nat) (f : GutterUnit → GutterUnit) : State :=
  { s with gutters := tmod GutterUnit.zero s.gutters c f }

/-! ### Units and the error log -/

/-- Unit identifiers of Table 17-5. -/
def unitQuire (q : Nat) : Nat := 0x1000 + q
/-- Column c. -/
def unitColumn (c : Nat) : Nat := 0x2000 + c
/-- Link ll. -/
def unitLink (l : Nat) : Nat := 0x3000 + l
/-- Press slice n. -/
def unitPress (n : Nat) : Nat := 0x4000 + n
/-- LPDDR6 channel n. -/
def unitLpddr (n : Nat) : Nat := 0x5000 + n
/-- Flash channel n. -/
def unitFlash (n : Nat) : Nat := 0x6000 + n
/-- UCIe module n. -/
def unitUcie (n : Nat) : Nat := 0x7000 + n
/-- Half h. -/
def unitHalf (h : Nat) : Nat := 0x8000 + h
/-- The control die. -/
def unitControl : Nat := 0x9000

/-- The record of a unit. -/
def unitOf (s : State) (u : Nat) : UnitState := tget UnitState.zero s.err.units u

/-- Change the record of a unit. -/
def modUnit (s : State) (u : Nat) (f : UnitState → UnitState) : State :=
  { s with err := { s.err with units := tmod UnitState.zero s.err.units u f } }

/-- A unit is fenced. -/
def fencedU (s : State) (u : Nat) : Bool := (unitOf s u).fenced

/-- The unit to which a sequencer belongs. -/
def seqUnit (i : Nat) : Nat := if i < 128 then unitQuire i else unitColumn (i - 128)

/-- The job that holds a unit of kind 0x1 or 0x2. -/
def unitJob (s : State) (u : Nat) : Option Nat :=
  if u / 4096 = 1 then (quire s (u % 4096)).job
  else if u / 4096 = 2 then (gutter s (u % 4096)).seq.job else none

/-- Write one entry at HEAD (R365): an entry that finds the log full is counted instead. -/
def logEntry (s : State) (e : ErrEntry) : State :=
  let head := getF s 0x6000 0x02
  if getF s 0x6000 0x0A < 4096 then
    let s := { s with err := { s.err with log := tput s.err.log head { e with seq := s.err.seq % 2 ^ 32, timeNs := s.now },
                                          seq := s.err.seq + 1 } }
    let s := incF (setF s 0x6000 0x02 ((head + 1) % 4096)) 0x6000 0x0A
    if s.boot.unmasked.contains 0 then emit s (.msix 0) else s
  else incF s 0x6000 0x04

/-- The plane of a master's class (Table 1-3, Table 12-5): the control plane is class 4, management writers are class 5, the rest data. -/
def masterPlane (cls : Nat) : Nat := if cls = 4 then 1 else if cls = 5 then 2 else 0

/-- Log a cause against a unit, with the source plane, the job if one is concerned, DETAIL and ADDRESS. -/
def logErr (s : State) (cause unit plane : Nat) (jb : Option Nat) (detail addr : Nat) : State :=
  logEntry s { timeNs := 0, unit := unit, cause := cause, plane := plane, nested := false, fence := false, job := jb,
               address := addr % 2 ^ 48, master := 0, detail := detail % 2 ^ 32, seq := 0 }

/-- The same with a MASTER field (Table 12-3 form). -/
def logMaster (s : State) (cause unit plane : Nat) (jb : Option Nat) (detail master : Nat) : State :=
  logEntry s { timeNs := 0, unit := unit, cause := cause, plane := plane, nested := false, fence := false, job := jb,
               address := 0, master := master, detail := detail % 2 ^ 32, seq := 0 }

/-- The granule of an address in a memory of Table 17-4 (R366). -/
def granule (mem addr : Nat) : Nat :=
  if 0x20 ≤ mem then addr / 4096 * 4096 else if 0x10 ≤ mem then addr / 32 * 32 else addr / 64 * 64

/-- Enter an error's address in the address log of its memory (R366). -/
def addrLog (s : State) (mem addr : Nat) (uncorrectable : Bool) : State :=
  let a := granule mem addr
  let l := tget [] s.err.addrLogs mem
  if l.any (fun e => decide (e.address = a)) then
    let l := l.map (fun e => if e.address = a then
      { e with count := min 65535 (e.count + 1), uncorrectable := e.uncorrectable || uncorrectable, lastNs := s.now % 2 ^ 48 }
      else e)
    { s with err := { s.err with addrLogs := tput s.err.addrLogs mem l } }
  else if l.length < 64 then
    let e : AddrEntry := { address := a, count := 1, uncorrectable := uncorrectable, lastNs := s.now % 2 ^ 48 }
    { s with err := { s.err with addrLogs := tput s.err.addrLogs mem (l ++ [e]) } }
  else incF s 0x6006 mem

/-- An error of a memory: counted in folio 0x6004 or 0x6005, and its address logged (R361, R366). -/
def memError (s : State) (mem addr : Nat) (correctable : Bool) : State :=
  addrLog (if correctable then incF s 0x6004 mem else incF s 0x6005 mem) mem addr (!correctable)

/-- Trained LPDDR6 channels, ascending (R21, R220). -/
def lpddrChannels (s : State) : List Nat := (List.range 16).filter (fun n => nbit (nfld (getF s 0x7C10 0x04) 31 16) n)

/-- The LPDDR6 channel of a device physical address (R220). -/
def lpddrChannel (s : State) (a : Nat) : Nat :=
  let ch := lpddrChannels s
  ch.getD ((a - 0x200000000000) / 4096 % ch.length) 0

/-- Where an LPDDR6 address lies in its channel (R220): rank, and offset in the channel. -/
def lpddrOffset (s : State) (a : Nat) : Nat × Nat :=
  let o := (a - 0x200000000000) / 4096 / (lpddrChannels s).length * 4096 + a % 4096
  (o / rankBytes (nfld (getF s 0x7C10 0x04) 15 8), o)

/-- Memory of Table 17-4 that holds a device physical address of this package's own memory. -/
def memoryOf (s : State) (a : Nat) : Nat :=
  if a < 0x1C0000000000 then (match stackedLoc s a with
    | some (c, _) => if c < 512 then 0 else 1
    | none => 0)
  else if a < 0x300000000000 then 0x10 + lpddrChannel s a
  else if a < 0xF00080000000 then (if (a - 0xF00000000000) / 0x800000 < 64 then 4 else 5)
  else if a < 0xF00090000000 then 2 else 3

/-- Unit of Table 17-5 that holds a device physical address of this package's own memory. -/
def unitAt (s : State) (a : Nat) : Nat :=
  if a < 0x1C0000000000 then (match stackedLoc s a with
    | some (c, _) => unitColumn c
    | none => 0)
  else if a < 0x300000000000 then unitLpddr (lpddrChannel s a)
  else if a < 0xF00080000000 then unitQuire ((a - 0xF00000000000) / 0x800000)
  else unitHalf (if a < 0xF00090000000 then 0 else 1)

/-- One bit of INIT_STAGE, folio 0x7820.01, in the order of Table 20-5. -/
def initStage (n : Nat) (s : State) : State := setBitF s 0x7820 0x01 n true

/-! ### Check values -/

/-- reflect_k (R340): the low `k` bits of `x` in reverse order. -/
def reflectBits : Nat → Nat → Nat
  | 0, _ => 0
  | k + 1, x => x % 2 * 2 ^ k + reflectBits k (x / 2)

/-- One bit step of the check-value register (R340). -/
def crcBit (w poly v : Nat) (b : Bool) : Nat :=
  let top := xor (nbit v (w - 1)) b
  let v := v * 2 % 2 ^ w
  if top then v ^^^ poly else v

/-- One byte of input (R340). -/
def crcByte (w poly : Nat) (refin : Bool) (v : Nat) (d : Byte) : Nat :=
  let x := if refin then reflectBits 8 d.toNat else d.toNat
  (List.range 8).foldl (fun v i => crcBit w poly v (nbit x (7 - i))) v

/-- The result of R340 over register V. -/
def crcResult (w : Nat) (refout inv : Bool) (v : Nat) : Nat :=
  (if refout then reflectBits w v else v) ^^^ (if inv then 2 ^ w - 1 else 0)

/-- A whole run: start, bytes, result. -/
def crcRun (w poly : Nat) (refin refout inv : Bool) (init : Nat) (bs : List Byte) : Nat :=
  crcResult w refout inv (bs.foldl (crcByte w poly refin) init)

/-- Two ranges of bytes overlap. -/
def overlaps (a n b m : Nat) : Bool := decide (a < b + m) && decide (b < a + n)

end Sys2Proof.Machine
end

