-- ==== Sys2Proof/Machine/Shake.lean ====
section
/-! DEFINITION. SHAKE256 (FIPS 202), which the catchword index, key identifiers, image digests and identity use. The sponge's state is one
number of 1,600 bits, as FIPS 202 has it as one bit string: lane (x, y) is bits 64 (5 y + x) and up, plane y the 320 bits from 320 y. -/

namespace Sys2Proof.Machine

/-- Plane `y` of a state. -/
def spongePlane (s y : Nat) : Nat := (s >>> (320 * y)) % 2 ^ 320

/-- The plane whose lane x is lane x + `k` of the given one. -/
def turnPlane (k p : Nat) : Nat := ((p >>> (64 * k)) ||| (p <<< (320 - 64 * k))) % 2 ^ 320

/-- Every lane of a plane rotated left by one bit. -/
def spinPlane (p : Nat) : Nat :=
  let low := 1 + 2 ^ 64 + 2 ^ 128 + 2 ^ 192 + 2 ^ 256
  ((p <<< 1) &&& ((2 ^ 320 - 1) ^^^ low)) ||| ((p >>> 63) &&& low)

/-- A state of five planes. -/
def joinPlanes (f : Nat → Nat) : Nat := (List.range 5).foldl (fun s y => s ||| (f y <<< (320 * y))) 0

/-- θ: every lane takes up the parities of the column before it and, by one bit, of the column after it. -/
def spongeTheta (s : Nat) : Nat :=
  let c := (List.range 5).foldl (fun c y => c ^^^ spongePlane s y) 0
  let d := turnPlane 4 c ^^^ spinPlane (turnPlane 1 c)
  joinPlanes (fun y => spongePlane s y ^^^ d)

/-- ρ and π in one walk: after t steps from (1, 0) along (x, y) ↦ (y, 2 x + 3 y) the lane found there moves on to the next point, rotated by
(t + 1)(t + 2) / 2; lane (0, 0) stays. -/
def spongeWalk (s : Nat) : Nat → Nat → Nat → Nat → Nat → Nat
  | 0, _, _, _, done => done
  | n + 1, t, x, y, done =>
    let l := (s >>> (64 * (5 * y + x))) % 2 ^ 64
    let r := (t + 1) * (t + 2) / 2 % 64
    let moved := ((l <<< r) ||| (l >>> (64 - r))) % 2 ^ 64
    spongeWalk s n (t + 1) y ((2 * x + 3 * y) % 5) (done ||| (moved <<< (64 * (5 * ((2 * x + 3 * y) % 5) + y))))

/-- χ: every bit is inverted where the next lane of its plane has 0 and the one after that has 1. -/
def spongeChi (s : Nat) : Nat :=
  joinPlanes (fun y =>
    let p := spongePlane s y
    p ^^^ (((2 ^ 320 - 1) ^^^ turnPlane 1 p) &&& turnPlane 2 p))

/-- The shift register that gives ι its bits, x^8 + x^6 + x^5 + x^4 + 1. -/
def iotaShift (r : Nat) : Nat := if r < 128 then 2 * r else (2 * r) ^^^ 0x171

/-- ι's constant of one round, at bits 2^j − 1, and the register after its seven bits. -/
def iotaRound (r : Nat) : Nat × Nat :=
  (List.range 7).foldl (fun a j => (a.1 ||| ((a.2 % 2) <<< (2 ^ j - 1)), iotaShift a.2)) (0, r)

/-- `n` rounds of Keccak-p[1600], with the register of ι. -/
def spongeRounds : Nat → Nat → Nat → Nat
  | 0, _, s => s
  | n + 1, r, s =>
    let i := iotaRound r
    let t := spongeTheta s
    spongeRounds n i.2 (spongeChi (spongeWalk t 24 0 1 0 (t % 2 ^ 64)) ^^^ i.1)

/-- The permutation of 24 rounds. -/
def spongeStep (s : Nat) : Nat := spongeRounds 24 1 s

/-- Absorb `n` whole blocks of 136 bytes, then what is left with the padding of SHAKE256. -/
def spongeTake : Nat → List Byte → Nat → Nat
  | 0, bs, s => spongeStep (s ^^^ (ofBytesLE (bs ++ [0x1F])) ^^^ (0x80 <<< 1080))
  | n + 1, bs, s => spongeTake n (bs.drop 136) (spongeStep (s ^^^ ofBytesLE (bs.take 136)))

/-- Squeeze out `n` blocks of 136 bytes. -/
def spongeGive : Nat → Nat → List Byte
  | 0, _ => []
  | n + 1, s => toBytesLE 136 (s % 2 ^ 1088) ++ spongeGive n (spongeStep s)

/-- SHAKE256 of a byte string, `n` bytes of output. -/
def shake256 (bs : List Byte) (n : Nat) : List Byte := (spongeGive (ceilDiv n 136) (spongeTake (bs.length / 136) bs 0)).take n

end Sys2Proof.Machine
end

