-- ==== Sys2Proof/Machine/Press.lean ====
section
/-! DEFINITION. Press, casing and check values (chapter 15): the coded body, the cased object, key slots, opening with its
failure causes, and the sixteen check-value units. -/

namespace Sys2Proof.Machine

open Host

/-! ### Press format (R333) -/

/-- Bytes of `x` at offsets congruent to `i` modulo the stride. -/
def subStream (x : List Byte) (st i : Nat) : List Byte :=
  (List.range (ceilDiv (x.length - i) st)).map (fun k => x.getD (i + k * st) 0)

/-- Least and greatest byte of a run. -/
def runBounds (y : List Byte) : Nat × Nat :=
  y.foldl (fun (p : Nat × Nat) b => (min p.1 b.toNat, max p.2 b.toNat)) (255, 0)

/-- `n` values of `w` bits each, packed least significant bit first. -/
def packBits (w : Nat) (vs : List Nat) : Nat := vs.foldr (fun v acc => v + acc * 2 ^ w) 0

/-- One block: width byte, least byte, packed differences, padded to a byte. -/
def codeRun (y : List Byte) : List Byte :=
  let (lo, hi) := runBounds y
  let w := if hi = lo then 0 else Nat.log2 (hi - lo) + 1
  [BitVec.ofNat 8 w, BitVec.ofNat 8 lo] ++ toBytesLE (ceilDiv (y.length * w) 8) (packBits w (y.map (fun b => b.toNat - lo)))

/-- Runs of 64 bytes, `n` of them. -/
def splitRuns : Nat → List Byte → List (List Byte)
  | 0, _ => []
  | n + 1, y => y.take 64 :: splitRuns n (y.drop 64)

/-- One sub-stream coded. -/
def codeStream (y : List Byte) : List Byte := (splitRuns (ceilDiv y.length 64) y).flatMap codeRun

/-- code_chunk of R333, with its 4-byte header. -/
def codeChunk (st : Nat) (x : List Byte) : List Byte :=
  let out := (List.range st).flatMap (fun i => codeStream (subStream x st i))
  if x.length ≤ out.length then toBytesLE 4 (x.length + 2 ^ 16) ++ x else toBytesLE 4 out.length ++ out

/-- Chunks of 4,096 bytes, `n` of them. -/
def splitChunks : Nat → List Byte → List (List Byte)
  | 0, _ => []
  | n + 1, x => x.take 4096 :: splitChunks n (x.drop 4096)

/-- The coded body of an object. -/
def codeBody (st : Nat) (raw : List Byte) : List Byte := (splitChunks (ceilDiv raw.length 4096) raw).flatMap (codeChunk st)

/-- Decode `n` bytes of one sub-stream: what it holds and the bytes left, or none where R333 refuses. -/
def decodeStream : Nat → Nat → List Byte → Option (List Byte × List Byte)
  | 0, _, bs => some ([], bs)
  | fuel + 1, n, bs =>
    if n = 0 then some ([], bs) else
    match bs with
    | wb :: lo :: rest =>
      let w := wb.toNat
      if 8 < w then none else
      let k := min n 64
      let bytes := ceilDiv (k * w) 8
      if rest.length < bytes then none else
      let v := ofBytesLE (rest.take bytes)
      let vals := (List.range k).map (fun i => lo.toNat + (v >>> (i * w)) % 2 ^ w)
      -- a padding bit that is set, or a value above 255, is a body no encoder forms
      if v >>> (k * w) ≠ 0 ∨ vals.any (fun x => decide (255 < x)) then none else
      match decodeStream fuel (n - k) (rest.drop bytes) with
      | some (ys, left) => some (vals.map (BitVec.ofNat 8) ++ ys, left)
      | none => none
    | _ => none

/-- Bytes of sub-stream `i` of a chunk of `c` bytes. -/
def streamLen (c st i : Nat) : Nat := ceilDiv (c - i) st

/-- The sub-streams of a chunk, in order. -/
def decodeStreams (c st : Nat) : List Nat → List Byte → Option (List (List Byte) × List Byte)
  | [], bs => some ([], bs)
  | i :: r, bs => match decodeStream (c + 1) (streamLen c st i) bs with
    | none => none
    | some (y, bs) => match decodeStreams c st r bs with
      | none => none
      | some (ys, bs) => some (y :: ys, bs)

/-- Interleave the sub-streams of a chunk. -/
def joinStreams (c st : Nat) (ys : List (List Byte)) : List Byte :=
  (List.range c).map (fun k => (ys.getD (k % st) []).getD (k / st) 0)

/-- Decode the chunks of a body into `raw` bytes; none where R333 refuses the body. -/
def decodeBody (st : Nat) : Nat → Nat → List Byte → Option (List Byte)
  | 0, _, _ => none
  | fuel + 1, raw, bs =>
    if raw = 0 then (if bs = [] then some [] else none) else
    let h := ofBytesLE (bs.take 4)
    let n := nfld h 15 0
    let body := (bs.drop 4).take n
    let c := min raw 4096
    if bs.length < 4 ∨ nfld h 31 17 ≠ 0 ∨ body.length < n then none else
    let x := if nbit h 16 then (if n = c then some body else none)
      else match decodeStreams c st (List.range st) body with
        | some (ys, []) => some (joinStreams c st ys)
        | _ => none
    match x with
    | none => none
    | some x => match decodeBody st fuel (raw - c) (bs.drop (4 + n)) with
      | some r => some (x ++ r)
      | none => none

/-! ### Key slots (R334 to R337) -/

/-- The key slot of a job number. -/
def keySlot (s : State) (j : Nat) : KeySlot := tget KeySlot.zero s.press.keys j

/-- Replace a key slot; folio 0x5001.jj shows whether a key is installed or being zeroed. -/
def setKeySlot (s : State) (j : Nat) (k : KeySlot) : State :=
  setF { s with press := { s.press with keys := tset KeySlot.zero s.press.keys j k } } 0x5001 j
    (b2n k.key.isSome + 2 * b2n k.zeroing)

/-- The 32 bytes of a key. -/
def keyBytes (k : BitVec 256) : List Byte := toBytesLE 32 k.toNat

/-- KEY_ID of a key (R335). -/
def keyId (k : BitVec 256) : Nat := ofBytesLE (shake256 (keyBytes k) 4)

/-- Install a job key (R334): a new SALT is drawn and the counts start at zero (R336). -/
def installKey (s : State) (j : Nat) (k : BitVec 256) : State :=
  let slot : KeySlot := { key := some k, salt := freshOf s % 2 ^ 32, counts := [], zeroing := false,
                          busyNs := (keySlot s j).busyNs }
  setF (setKeySlot (draw s) j slot) 0x5002 j (keyId k)

/-- The key slot is zeroed (R337). -/
def zeroKey (s : State) (j : Nat) : State := setF (setKeySlot s j KeySlot.zero) 0x5002 j 0

/-- Zeroing starts at the job end: at once when no object of the job is in an engine (R337). -/
def startZeroing (s : State) (j : Nat) : State :=
  let k := keySlot s j
  if k.key.isNone then s
  else if k.busyNs ≤ s.now then zeroKey s j
  else setKeySlot s j { k with zeroing := true }

/-! ### Casing -/

/-- Bytes per sub-stream element of a STRIDE code (Table 15-1). -/
def strideBytes : Nat → Nat
  | 0 => 1
  | 1 => 2
  | _ => 4

/-- The least-loaded engine pair of a half that is not fenced, the lower number on a tie (R328). -/
def pickEngine (s : State) (busy : Tbl Nat) (half : Nat) : Option Nat :=
  let cand := ((List.range 64).map (· + 64 * (half % 2))).filter (fun n => !fencedU s (unitPress n))
  let load (n : Nat) : Nat := tget 0 busy n - s.now
  cand.foldl (fun (b : Option Nat) n => match b with
    | none => some n
    | some x => if load n < load x then some n else b) none

/-- Time that an engine pair takes for `n` bytes at 67.2 GB/s, in ns (R343). -/
def engineNs (n : Nat) : Nat := ceilDiv (n * 10) 672

/-- The engine pair and the key slot are busy with one more object. -/
def busyEngine (s : State) (enc : Bool) (n j raw : Nat) : State :=
  let old := if enc then s.press.encBusy else s.press.decBusy
  let b := max (tget 0 old n) s.now + engineNs raw
  let k := keySlot s j
  let p := if enc then { s.press with encBusy := tput old n b } else { s.press with decBusy := tput old n b }
  { s with press := { p with keys := tset KeySlot.zero p.keys j { k with busyNs := max k.busyNs b } } }

/-- The count of an encoder would wrap (R336): SALT is redrawn and every count of the slot zeroed. -/
def saltRedraw (s : State) (j : Nat) : State :=
  let k := keySlot s j
  incF (setKeySlot (draw s) j { k with salt := freshOf s % 2 ^ 32, counts := [] }) 0x5006 j

/-- The CRC-64 of R255 and Table 15-2. -/
def crc64 (bs : List Byte) : Nat := crcRun 64 0x42F0E1EBA9EA3693 true true true (2 ^ 64 - 1) bs

/-- The header of a cased object (Table 15-1). -/
def casedHeader (j stride : Nat) (pressed : Bool) (kid iv raw body : Nat) : List Byte :=
  toBytesLE 64 (place 1 511 504 + place j 503 498 + place stride 497 496 + place (b2n pressed) 495 495 + place kid 479 448
    + place iv 447 352 + place raw 351 320 + place body 319 288)

/-- CASE: compress, encrypt, check (R329, R330, R332). The job's key must be installed and not being zeroed, the length
within R330, and an engine pair of the half in service; otherwise nothing is cased. -/
def caseObject (s : State) (j stride half : Nat) (raw : List Byte) : State × Option (List Byte) :=
  let k := keySlot s j
  match k.key, pickEngine s s.press.encBusy half with
  | some key, some n =>
    if k.zeroing ∨ raw = [] ∨ 67108864 < raw.length ∨ 3 ≤ stride then (s, none) else
    let s := if tget 0 k.counts n + 1 = 2 ^ 40 then saltRedraw s j else s
    let k := keySlot s j
    let cnt := tget 0 k.counts n
    let coded := codeBody (strideBytes stride) raw
    let pressed := decide (coded.length < raw.length) && decide (getF s 0x5000 0x02 = 1)
    let body := if pressed then coded else raw
    let iv := place (ownEndpoint s) 95 80 + place k.salt 79 48 + place n 47 40 + place cnt 39 0
    let h := casedHeader j stride pressed (keyId key) iv raw.length body.length
    let (ct, tag) := gcmSeal (keyBytes key) (toBytesLE 12 iv) h body
    let obj := h ++ ct ++ tag ++ toBytesLE 8 (crc64 (h ++ ct ++ tag)) ++ List.replicate 8 0
    let s := { s with press := { s.press with keys := tset KeySlot.zero s.press.keys j { k with counts := tput k.counts n (cnt + 1) } } }
    let s := busyEngine s true n j raw.length
    let s := addF (addF (incF s 0x5003 j) 0x5004 j raw.length) 0x5005 j obj.length
    (s, some obj)
  | _, _ => (s, none)

/-- CASE_OBJECT (R329): an object of `raw` bytes of job `j` enters the encoder pair chosen in `half` with STRIDE code
`stride`. -/
def execCaseObject (t j stride half : Nat) (raw : List Byte) (s : State) : Outcome State Fault Refusal :=
  let s := atTime t s
  match caseObject s j stride half raw with
  | (s, some obj) => .next (emit s (.cased j obj))
  | (s, none) => .next s

/-! ### Opening -/

/-- What opening an object gives: the raw bytes, or a cause of Table 15-3. A key that is being zeroed takes no new object (R337). -/
def openBytes (s : State) (obj : List Byte) : Except Nat (List Byte) :=
  let h := ofBytesLE (obj.take 64)
  let body := nfld h 319 288
  let raw := nfld h 351 320
  let j := nfld h 503 498
  if obj.length < 96 + body then .error 0x03 else
  let b := (obj.drop 64).take body
  let tag := (obj.drop (64 + body)).take 16
  if ofBytesLE ((obj.drop (80 + body)).take 8) ≠ crc64 (obj.take (80 + body)) then .error 0x01 else
  if nfld h 511 504 ≠ 1 ∨ nfld h 497 496 = 3 ∨ nfld h 494 480 ≠ 0 ∨ nfld h 287 0 ≠ 0 ∨ raw = 0 ∨ 67108864 < raw
    ∨ raw < body ∨ (nbit h 495 = false ∧ body ≠ raw) then .error 0x03 else
  match (if (keySlot s j).zeroing then none else (keySlot s j).key) with
  | none => .error 0x04
  | some key =>
    if keyId key ≠ nfld h 479 448 then .error 0x04 else
    match gcmOpen (keyBytes key) (toBytesLE 12 (nfld h 447 352)) (obj.take 64) b tag with
    | none => .error 0x02
    | some pt =>
      if nbit h 495 then
        match decodeBody (strideBytes (nfld h 497 496)) (raw / 4096 + 2) raw pt with
        | some r => .ok r
        | none => .error 0x05
      else .ok pt

/-- OPEN with the keys that `keys` shows: check, decrypt with tag verification, decompress (R329, R338); a failure is counted by cause. With
no pair of the half in service nothing opens: code 0. -/
def openWith (s : State) (keys : State) (j half : Nat) (obj : List Byte) : State × Except Nat (List Byte) :=
  match pickEngine s s.press.decBusy half with
  | none => (s, .error 0)
  | some n =>
    let s := busyEngine s false n j (nfld (ofBytesLE (obj.take 64)) 351 320)
    match openBytes keys obj with
    | .ok r => (s, .ok r)
    | .error c => (incF s 0x5008 c, .error c)

/-- OPEN with the key of the job that the object names. -/
def openObject (s : State) (half : Nat) (obj : List Byte) : State × Except Nat (List Byte) :=
  openWith s s (nfld (ofBytesLE (obj.take 64)) 503 498) half obj

/-- OPEN_OBJECT (R338): a cased object reaches a decoder pair of `half`. -/
def execOpenObject (t half : Nat) (obj : List Byte) (s : State) : Outcome State Fault Refusal :=
  let s := atTime t s
  let j := nfld (ofBytesLE (obj.take 64)) 503 498
  match openObject s half obj with
  | (s, .ok r) => .next (emit s (.opened j r))
  | (s, .error c) => .next (if c = 0 then s else emit s (.openFailed j c))

/-! ### Check-value units (R340 to R342) -/

/-- Width w of a unit, 1 to 64. -/
def cvuWidth (s : State) (u : Nat) : Nat := nfld (getF s 0x5040 u) 6 0

/-- A unit's DMA is busy. -/
def cvuBusy (s : State) (u : Nat) : Bool := (tfind s.press.cvuDma u).isSome

/-- Set V. -/
def cvuSet (s : State) (u v : Nat) : State := setF s 0x5043 u (v % 2 ^ cvuWidth s u)

/-- Process input bytes (R340). -/
def cvuBytes (s : State) (u : Nat) (bs : List Byte) : State :=
  let w := cvuWidth s u
  cvuSet s u (bs.foldl (crcByte w (getF s 0x5041 u) (nbit (getF s 0x5040 u) 8)) (getF s 0x5043 u % 2 ^ w))

/-- CVU_RESULT of a unit (R340). -/
def cvuResult (s : State) (u : Nat) : Nat :=
  let c := getF s 0x5040 u
  let w := cvuWidth s u
  crcResult w (nbit c 9) (nbit c 10) (getF s 0x5043 u % 2 ^ w)

/-- The rule of R341 and R342: a write to a unit's folio `idx` of value `v` is refused. -/
def cvuRefuses (s : State) (idx u v : Nat) : Bool :=
  let big := decide (2 ^ cvuWidth s u ≤ v)
  if idx = 0x5040 then cvuBusy s u || decide (nfld v 6 0 = 0) || decide (64 < nfld v 6 0)
  else if idx = 0x5041 ∨ idx = 0x5042 ∨ idx = 0x5043 then cvuBusy s u || big
  else if idx = 0x5044 ∨ idx = 0x5045 then cvuBusy s u
  else if idx = 0x5048 then decide (v = 0) || decide (3 < v) || (cvuBusy s u && decide (v = 2))
  else false

/-- The hardware sets bit `b` of CVU_STATUS, and the local time at which it did is kept (R7). -/
def cvuRaise (s : State) (u b : Nat) : State :=
  let old := match tfind s.press.cvuSet u with
    | some (at_, x) => if at_ = s.now then x else 0
    | none => 0
  setBitF { s with press := { s.press with cvuSet := tput s.press.cvuSet u (s.now, old ||| 2 ^ b) } } 0x504A u b true

/-- A refused write sets CVU_STATUS bit [2] (R341, R342). -/
def cvuRefused (s : State) (u : Nat) : State := cvuRaise s u 2

/-- Stop a unit's DMA where it stands: how many bytes it has processed is the part's own timing, and of bytes that come
from another package nothing is known. -/
def cvuStop (s : State) (u : Nat) : State :=
  match tfind s.press.cvuDma u with
  | none => s
  | some (a, n) =>
    let k := freshOf s % (n + 1)
    let s2 := if mapped s a n then cvuBytes s u (readBytes s a k) else cvuSet s u (freshOf (draw s))
    setBitF (draw (draw { s2 with press := { s2.press with cvuDma := tdel s2.press.cvuDma u } })) 0x504A u 0 false

/-- CVU_COMMAND 0x01: V := INIT, a busy DMA being stopped first (Table 15-5). -/
def cvuStartAction (u : Nat) (s : State) : State :=
  let s := cvuStop s u
  cvuSet s u (getF s 0x5042 u)

/-- CVU_COMMAND 0x02: the DMA starts (R342). [DESIGN CHOICE: log 150] -/
def cvuRunAction (u : Nat) (s : State) : State :=
  let e := (getF s 0x5046 u % 2 ^ 48, getF s 0x5047 u)
  setBitF { s with press := { s.press with cvuDma := tput s.press.cvuDma u e } } 0x504A u 0 true

/-- CVU_COMMAND 0x03: the DMA stops. -/
def cvuStopAction (u : Nat) (s : State) : State := cvuStop s u

/-- A write to CVU_FEED: 8 bytes, low byte first. -/
def cvuFeedAction (u v : Nat) (s : State) : State := cvuBytes s u (toBytesLE 8 v)

/-- A write to CVU_FEED_BYTE. -/
def cvuFeedByteAction (u v : Nat) (s : State) : State := cvuBytes s u (toBytesLE 1 v)

/-- A check-value DMA ends with `status` (R342, R364): `done` bytes were processed, `data` being what was read where the
source lies outside this package's own memory. [DESIGN CHOICE: log 150] -/
def cvuDmaComplete (t u status done : Nat) (data : List Byte) (s : State) : State :=
  let s := atTime t s
  match tfind s.press.cvuDma u with
  | none => s
  | some (a, n) =>
    let k := if status = 0 then n else min done n
    let bs := if mapped s a n then readBytes s a k else data.take k
    let s := cvuBytes { s with press := { s.press with cvuDma := tdel s.press.cvuDma u } } u bs
    let s := setBitF s 0x504A u 0 false
    if status = 0 then s else cvuRaise s u 1

/-- CVU_DMA_COMPLETE (R342). -/
def execCvuDmaComplete (t u status done : Nat) (data : List Byte) (s : State) : Outcome State Fault Refusal :=
  .next (cvuDmaComplete t u status done data s)

end Sys2Proof.Machine
end

