-- ==== Sys2Proof/Machine/Flash.lean ====
section
/-! DEFINITION. The flash tier (chapter 11): logical space, map, log-structured writes, reclaim, bookmark store, health log
and rebuild. The map, the sectors, the erase units and the saved health records survive every reset. -/

namespace Sys2Proof.Machine

open Host

/-- An unmapped map entry. -/
def FlashMapEntry.zero : FlashMapEntry := { mapped := false, poisoned := false, slot := 0 }

/-- FLASH_STATE, folio 0x7000.01. -/
def flashState (s : State) : Nat := getF s 0x7000 0x01

/-- Sectors of one erase unit, V (R252): pages × planes × four sectors of 4 KiB. -/
def unitSectors (g : FlashGeometry) : Nat := g.pages * g.planes * 4

/-- Erase units of one channel. -/
def channelUnits (g : FlashGeometry) : Nat := g.targets * g.luns * g.blocks

/-- Channel of a logical page (R247). -/
def flashChannel (f : FlashState) (page : Nat) : Nat := f.channels.getD (page % f.channels.length) 0

/-- Logical pages of the flash space (R246, folio 0x7000.03 in GiB). -/
def flashPages (s : State) : Nat := getF s 0x7000 0x03 * 2 ^ 18

/-- Trained raw capacity in GiB (R246). -/
def flashRawGib (f : FlashState) : Nat :=
  f.channels.length * channelUnits f.geometry * unitSectors f.geometry * 4096 / 2 ^ 30

/-- R246: logical := min(floor(raw × 15 / 16), (ld div 4) × 1,024). -/
def flashLogicalGib (raw ld : Nat) : Nat := min (raw * 15 / 16) (ld / 4 * 1024)

/-- Transfer rate in MT/s of folio 0x7000.05. -/
def flashRateMts : Nat → Nat
  | 1 => 1600
  | 2 => 2400
  | 3 => 3200
  | 4 => 3600
  | _ => 0

/-- D_cap in bytes (R258): f × 10^6 bytes/s is f bytes per µs; the program rate of a channel is compared as a fraction
over tPROG_max. Below 1 MiB per trained channel it is 0. -/
def flashDirtyCap (s : State) : Nat :=
  let f := s.flash
  let g := f.geometry
  let n := f.channels.length
  let mts := flashRateMts (getF s 0x7000 0x05)
  let progBytes := g.targets * g.luns * g.planes * (16384 * g.cellBits)
  let us := getF s 0x7020 0x01 - g.tProgUs - 300
  let cap := if mts * g.tProgUs ≤ progBytes then us * n * mts else us * n * progBytes / g.tProgUs
  if cap < n * 2 ^ 20 then 0 else cap

/-- Bytes of one dirty write: its data and its map change of 4 bytes (R249, R258). -/
def dirtyBytes (w : FlashWrite) : Nat := if w.confirmed then 4096 + 4 else 0

/-- Bytes now in the dirty area. -/
def flashDirty (f : FlashState) : Nat := (f.dirty.map dirtyBytes).foldl (· + ·) 0

/-- The record of an erase unit. -/
def flashUnit (f : FlashState) (ch u : Nat) : EraseUnit := tget EraseUnit.zero f.units (ch * 2 ^ 24 + u)

/-- Write the record of an erase unit. -/
def setFlashUnit (f : FlashState) (ch u : Nat) (e : EraseUnit) : FlashState :=
  { f with units := tset EraseUnit.zero f.units (ch * 2 ^ 24 + u) e }

/-- The health record of a channel. -/
def flashHealth (f : FlashState) (ch : Nat) : FlashHealth := tget FlashHealth.zero f.health ch

/-- Apply a change to a channel's health record. -/
def modFlashHealth (f : FlashState) (ch : Nat) (g : FlashHealth → FlashHealth) : FlashState :=
  { f with health := tmod FlashHealth.zero f.health ch g }

/-- Erase units set apart in each channel for the flush reserve: room for D_cap and one spare unit (R259, Table 11-7). -/
def reserveUnits (s : State) : Nat :=
  let f := s.flash
  ceilDiv (flashDirtyCap s) (f.channels.length * unitSectors f.geometry * 4096) + 1

/-- Units of a channel that hold data: those beyond the flush reserve and the system area, which take the highest numbers. -/
def dataUnits (s : State) : Nat :=
  channelUnits s.flash.geometry - reserveUnits s - s.flash.geometry.systemUnits

/-- Free erase units of a channel, the flush reserve and system area left out (R252). -/
def freeUnits (s : State) (ch : Nat) : Nat :=
  let n := dataUnits s
  n - (tkeys s.flash.units (fun k e => decide (k / 2 ^ 24 = ch) && decide (k % 2 ^ 24 < n) && decide (e.use ≠ .free))).length

/-- The data units of a channel that are listed (every other one is free and never used). -/
def listedUnits (s : State) (ch : Nat) : List (Nat × EraseUnit) :=
  let n := dataUnits s
  (s.flash.units.filter (fun e => decide (e.1 / 2 ^ 24 = ch) && decide (e.1 % 2 ^ 24 < n))).map (fun e => (e.1 % 2 ^ 24, e.2))

/-- A free data unit of a channel; which one is the part's choice. -/
def pickFreeUnit (s : State) (ch : Nat) : Option Nat :=
  pickFree (fun u => decide ((flashUnit s.flash ch u).use = .free)) (dataUnits s) (Config.fresh s.freeCtr)

/-- The next free sector of an open erase unit of the channel (R249), opening a free unit when none is open. -/
def takeSector (s : State) (ch : Nat) : Option (State × Nat) :=
  let v := unitSectors s.flash.geometry
  let go (s : State) (u : Nat) : State × Nat :=
    let e := flashUnit s.flash ch u
    ({ s with flash := setFlashUnit s.flash ch u { e with next := e.next + 1, valid := e.valid + 1, use := .opened } }, u * v + e.next)
  match (listedUnits s ch).find? (fun e => decide (e.2.use = .opened) && decide (e.2.next < v)) with
  | some (u, _) => some (go s u)
  | none => match pickFreeUnit s ch with
    | some u => some (go (draw s) u)
    | none => none

/-! ### The maps in LPDDR6 (R247) -/

/-- LPDDR6 that the flash maps take, at the highest offsets of the window (R247). -/
def mapRange (s : State) : Nat × Nat :=
  let n := getF s 0x7000 0x04 * 2 ^ 20
  (0x200000000000 + lpddrBytes s - n, n)

/-- Device physical address of the map entry of a logical page: word k div n of the map of channel ch[k mod n]. The maps follow one
another in the order of their channels. [DESIGN CHOICE: log 144] -/
def mapWordAt (s : State) (page : Nat) : Nat :=
  let n := max s.flash.channels.length 1
  (mapRange s).1 + page % n * ((mapRange s).2 / n) + page / n * 4

/-- A map entry as its word (Table 11-3). -/
def flashMapWord (m : FlashMapEntry) : Nat := place (b2n m.mapped) 31 31 + place (b2n m.poisoned) 30 30 + place m.slot 29 0

/-- The words of some pages are stored in their maps. -/
def storeMap (s : State) (pages : List Nat) : State :=
  if getF s 0x7000 0x04 = 0 then s else
  pages.foldl (fun s k => writeBytes s (mapWordAt s k) (toBytesLE 4 (flashMapWord (tget FlashMapEntry.zero s.flash.map k)))) s

/-! ### Sectors -/

/-- The sector that a write programs (R245). -/
def writtenSector (w : FlashWrite) : FlashSector := { page := w.page, seq := w.seq, check := Config.sectorCheck w.data, data := w.data }

/-- The next write sequence number, of 7 bytes (R245). -/
def nextSeq (f : FlashState) : Nat := (f.seq + 1) % 2 ^ 56

/-- Lower the valid count of the unit that holds a page's sector; a poisoned entry has none any more. -/
def dropSector (f : FlashState) (page : Nat) : FlashState :=
  let m := tget FlashMapEntry.zero f.map page
  if m.mapped ∧ m.poisoned = false then
    let ch := flashChannel f page
    let u := m.slot / unitSectors f.geometry
    let e := flashUnit f ch u
    setFlashUnit f ch u { e with valid := e.valid - 1 }
  else f

/-- Discard of `n` logical pages from `page` (R250): MAPPED and POISONED cleared, valid counts lowered. -/
def discardPages : Nat → Nat → FlashState → FlashState
  | 0, _, f => f
  | n + 1, page, f =>
    let f := dropSector f page
    discardPages n (page + 1) { f with map := tset FlashMapEntry.zero f.map page FlashMapEntry.zero }

/-- Discard of the listed pages of a range only: pages never mapped need nothing. -/
def discardRange (first n : Nat) (f : FlashState) : FlashState :=
  (tkeys f.map (fun k _ => decide (first ≤ k) && decide (k < first + n))).foldl (fun f k => discardPages 1 k f) f

/-- Spare left, as a percentage of the spare at first initialisation: a sixteenth of the raw capacity, less retired
units (R246, R253, R254). -/
def sparePct (units retired : Nat) : Nat := (units - 16 * retired) * 100 / units

/-- Retired units of a channel. -/
def retiredIn (f : FlashState) (ch : Nat) : Nat := f.units.countP (fun e => decide (e.1 / 2 ^ 24 = ch) && decide (e.2.use = .retired))

/-- Retired units over all trained channels. -/
def retiredUnits (f : FlashState) : Nat := (f.channels.map (retiredIn f)).foldl (· + ·) 0

/-- A data unit of a channel can be freed: it is being erased, or reclaim can choose it (R252). -/
def canFree (s : State) (ch : Nat) : Bool :=
  (listedUnits s ch).any (fun e => decide (e.2.use = .erasing) || (decide (e.2.use = .closed) && decide (e.2.valid < unitSectors s.flash.geometry)))

/-- A channel without a free erase unit beyond the flush reserve, and from which none can be freed (R254). -/
def channelStuck (s : State) (ch : Nat) : Bool := decide (freeUnits s ch = 0) && !(canFree s ch)

/-- Writes of a channel wait for room (R252): its free units are below folio 0x7010.03 and reclaim can free more. [DEDUCED: log 145] -/
def urgentWait (s : State) (ch : Nat) : Bool := decide (freeUnits s ch < getF s 0x7010 0x03) && canFree s ch

/-- A write is confirmed, or refused: its requester hears of it, a fabric request or a bookmark once the tier is done, a tier move that was
refused at its end. -/
def flashAnswer (s : State) (w : FlashWrite) (ok : Bool) : State := match w.origin with
  | .user id => emit s (.flashAck id ok)
  | .engine (some (j, g)) =>
    if ok then s else { s with tier := { s.tier with moves := s.tier.moves.map (fun m => if m.job = j ∧ m.group = g then { m with refused := true } else m) } }
  | .engine none => s
  | o => { s with flash := { s.flash with answers := s.flash.answers ++ [(o, ok)] } }

/-- FLASH_STATE follows the spare (R254): READ_ONLY when no channel can free a unit any more. The entry to READ_ONLY is logged with
cause 0x3A, and writes that wait are refused (Table 11-7). [DEDUCED: log 145] -/
def flashStateUpdate (s : State) : State :=
  let st := flashState s
  if st = 0 ∨ st = 1 then s else
  let n := s.flash.channels.length * channelUnits s.flash.geometry
  if s.flash.channels.all (channelStuck s) then
    if st = 4 then s else
      let s := logErr (setF s 0x7000 0x01 4) 0x3A 0 0 none (s.flash.channels.headD 0) 0
      let s := s.flash.waiting.foldl (fun s w => flashAnswer s w false) s
      { s with flash := { s.flash with waiting := [] } }
  -- the spare left as an exact percentage of the spare at first initialisation
  else if (n - 16 * retiredUnits s.flash) * 100 ≤ getF s 0x7010 0x07 * n then setF s 0x7000 0x01 3
  else setF s 0x7000 0x01 2

/-- Discard of a range of logical pages (R250), refused since the power-fail indication (R259). -/
def discardAt (s : State) (first n : Nat) : State :=
  if s.flash.flushing then s else
  let ks := tkeys s.flash.map (fun k _ => decide (first ≤ k) && decide (k < first + n))
  flashStateUpdate (storeMap { s with flash := discardRange first n s.flash } ks)

/-- Place a write in the dirty area and the map (R249); none when the channel has no free sector. -/
def placeWrite (s : State) (w : FlashWrite) (confirm : Bool) : Option State :=
  let ch := flashChannel s.flash w.page
  match takeSector s ch with
  | none => none
  | some (s, slot) =>
    let f := dropSector s.flash w.page
    let w2 := { w with channel := ch, slot := slot, seq := f.seq, confirmed := confirm,
                       prior := tget FlashMapEntry.zero s.flash.map w.page }
    let f := { f with map := tput f.map w.page { mapped := true, poisoned := false, slot := slot }, seq := nextSeq f,
                      dirty := f.dirty ++ [w2] }
    let s := storeMap { s with flash := f } [w.page]
    some (if confirm then flashAnswer s w true else s)

/-- Room for one more write under D_cap (R258); with D_cap = 0 the write is confirmed only after its program. -/
def dirtyRoom (s : State) : Bool :=
  decide (flashDirtyCap s = 0) || decide (flashDirty s.flash + 4100 ≤ flashDirtyCap s)

/-- A channel takes a write: it need not wait for room, and has a free sector. -/
def channelTakes (s : State) (ch : Nat) : Bool := !(urgentWait s ch) && (takeSector s ch).isSome

/-- Writes waiting for room go on, in order within each channel, while the dirty area has room. -/
def flashPump : Nat → State → State
  | 0, s => s
  | n + 1, s =>
    if dirtyRoom s = false then s else
    match s.flash.waiting.find? (fun w => channelTakes s (flashChannel s.flash w.page)) with
    | none => s
    | some w =>
      match placeWrite { s with flash := { s.flash with waiting := s.flash.waiting.erase w } } w (decide (flashDirtyCap s ≠ 0)) with
      | some s2 => flashPump n s2
      | none => s

/-- Folio 0x7020.03 shows the bytes in the dirty area. -/
def showDirty (s : State) : State := setF s 0x7020 0x03 (flashDirty s.flash / 1024)

/-- The tier takes writes: it is READY or SPARE_LOW, and no power failure is indicated (R254, R259, R260). -/
def flashTakes (s : State) : Bool := (decide (flashState s = 2) || decide (flashState s = 3)) && !s.flash.flushing

/-- A write of one page on behalf of someone. -/
def newWrite (s : State) (o : FlashFor) (page : Nat) (data : List Byte) : FlashWrite :=
  { origin := o, page := page, channel := flashChannel s.flash page, slot := 0, seq := 0, confirmed := false,
    data := (data ++ List.replicate 4096 0).take 4096, prior := FlashMapEntry.zero }

/-- A write joins those that wait and goes on as far as it can; what it takes of the spare may change FLASH_STATE. -/
def queueWrite (s : State) (w : FlashWrite) : State :=
  flashStateUpdate (showDirty (flashPump (s.flash.waiting.length + 1) { s with flash := { s.flash with waiting := s.flash.waiting ++ [w] } }))

/-- A write of one 4 KiB page of the local flash window (R249, R254, R258 to R260). -/
def flashWrite (t id page : Nat) (data : List Byte) (s : State) : State :=
  let s := atTime t s
  if flashTakes s = false ∨ flashPages s ≤ page then emit s (.flashAck id false) else queueWrite s (newWrite s (.user id) page data)

/-- The data of a logical page: the newest dirty write of it, else its sector, else zeros (R250). -/
def flashPageData (f : FlashState) (page : Nat) : List Byte :=
  let m := tget FlashMapEntry.zero f.map page
  if m.mapped then
    match f.dirty.reverse.find? (fun w => decide (w.page = page)) with
    | some w => w.data
    | none => match tfind f.sectors (flashChannel f page * 2 ^ 30 + m.slot) with
      | some x => x.data
      | none => List.replicate 4096 0
  else List.replicate 4096 0

/-- The data that a page will hold once the writes waiting for it are placed. -/
def latestPage (f : FlashState) (page : Nat) : List Byte := match f.waiting.reverse.find? (fun w => decide (w.page = page)) with
  | some w => w.data
  | none => flashPageData f page

/-- A logical page is POISONED (Table 11-3). -/
def poisonedPage (f : FlashState) (page : Nat) : Bool := (tget FlashMapEntry.zero f.map page).poisoned

/-- An uncorrectable sector is counted in its channel's health record (R257). -/
def countUncorrectable (s : State) (page : Nat) : State :=
  { s with flash := modFlashHealth s.flash (flashChannel s.flash page) (fun h => { h with uncorrectable := (h.uncorrectable + 1) % 2 ^ 32 }) }

/-- How much effort a codeword took to decode (R245). -/
def flashEffort (e : Nat) : Nat := min e 2

/-- A discard that covers a page stands in the queue for the cycle of `t`: it comes before a read of that cycle (Table 11-7). [DEDUCED: log 145] -/
def discardQueued (s : State) (t page : Nat) : Bool :=
  let base := getF s 0x7030 0x01 * 2 ^ 18
  let per := getF s 0x7030 0x02 * 256
  s.pending.any (fun c => match c with
    | .discardRange u req => decide (u = t) && decide (base ≤ page) && decide (nfld req.value 63 32 ≤ page)
        && decide (page < nfld req.value 63 32 + nfld req.value 31 0)
    | .bookmarkDiscard u req => decide (u = t) && decide (page < base) && decide (page / per = req.value)
    | _ => false)

/-- Pages whose map entry names a valid sector of unit `u` of channel `ch`. -/
def unitPages (f : FlashState) (ch u : Nat) : List Nat :=
  tkeys f.map (fun k m => m.mapped && !m.poisoned && decide (flashChannel f k = ch) && decide (m.slot / unitSectors f.geometry = u))

/-- A unit closes once every sector of it has been programmed: none is free, and no dirty write is still to go into it (R249, R252). [DEDUCED: log 163] -/
def closeUnit (s : State) (ch u : Nat) : State :=
  let v := unitSectors s.flash.geometry
  let e := flashUnit s.flash ch u
  if e.use = .opened ∧ v ≤ e.next ∧ s.flash.dirty.any (fun w => decide (w.channel = ch) && decide (w.slot / v = u)) = false then
    { s with flash := setFlashUnit s.flash ch u { e with use := .closed, closeS := s.now / 10 ^ 9 } }
  else s

/-- Copy one page to an open unit of its channel and map the copy (R252, R253). -/
def copyPage (ch : Nat) (s : State) (page : Nat) : State :=
  let d := flashPageData s.flash page
  match takeSector s ch with
  | none => s
  | some (s, slot) =>
    let f := dropSector s.flash page
    let m := tget FlashMapEntry.zero f.map page
    let f := { f with map := tput f.map page { m with slot := slot },
                      sectors := tput f.sectors (ch * 2 ^ 30 + slot) { page := page, seq := f.seq, check := Config.sectorCheck d, data := d },
                      seq := nextSeq f }
    closeUnit (storeMap { s with flash := f } [page]) ch (slot / unitSectors f.geometry)

/-- A dirty write whose unit failed takes another sector; its map entry follows unless a later write has replaced it (R253). -/
def reslot (u : Nat) (s : State) (w : FlashWrite) : State :=
  if w.slot / unitSectors s.flash.geometry ≠ u then s else
  match takeSector s w.channel with
  | none => s
  | some (s, slot) =>
    let f := s.flash
    let m := tget FlashMapEntry.zero f.map w.page
    let f := { f with dirty := f.dirty.map (fun x => if x = w then { w with slot := slot } else x) }
    if m.mapped ∧ m.slot = w.slot then
      let f := dropSector f w.page
      storeMap { s with flash := { f with map := tput f.map w.page { m with slot := slot } } } [w.page]
    else
      let k := slot / unitSectors f.geometry
      let e := flashUnit f w.channel k
      { s with flash := setFlashUnit f w.channel k { e with valid := e.valid - 1 } }

/-- Retire a unit: it leaves the spare (R253). -/
def retireUnit (s : State) (ch u : Nat) : State :=
  flashStateUpdate { s with flash := setFlashUnit s.flash ch u { flashUnit s.flash ch u with use := .retired } }

/-- The oldest write of a channel that is still to be programmed. -/
def nextProgram (f : FlashState) (ch : Nat) : Option FlashWrite := f.dirty.find? (fun w => decide (w.channel = ch))

/-- A dirty write is programmed: it leaves the dirty area, and is confirmed when it was not yet (R258). -/
def programWrite (s : State) (w : FlashWrite) : State :=
  let f := { s.flash with dirty := s.flash.dirty.erase w, sectors := tput s.flash.sectors (w.channel * 2 ^ 30 + w.slot) (writtenSector w) }
  let s := closeUnit { s with flash := f } w.channel (w.slot / unitSectors f.geometry)
  if w.confirmed then s else flashAnswer s w true

/-- A program of the channel's oldest unprogrammed write ends (R253, R258). -/
def flashProgramComplete (t ch : Nat) (ok : Bool) (s : State) : State :=
  let s := atTime t s
  match nextProgram s.flash ch with
  | none => s
  | some w =>
    if ok then
      let s := programWrite s w
      flashStateUpdate (showDirty (flashPump s.flash.waiting.length s))
    else
      let u := w.slot / unitSectors s.flash.geometry
      let s := { s with flash := modFlashHealth s.flash ch (fun h => { h with programFails := min 65535 (h.programFails + 1) }) }
      let e := flashUnit s.flash ch u
      -- the failed unit takes no further write: what was to go into it goes elsewhere, then its valid sectors move
      let s := { s with flash := setFlashUnit s.flash ch u { e with use := .closed } }
      let s := (s.flash.dirty.filter (fun w => decide (w.channel = ch))).foldl (reslot u) s
      let s := (unitPages s.flash ch u).foldl (copyPage ch) s
      retireUnit s ch u

/-- score(e) of R252 as a fraction (numerator, denominator). -/
def reclaimScore (s : State) (e : EraseUnit) : Int × Nat :=
  let v := unitSectors s.flash.geometry
  -- local time starts anew at a reset, so a unit may have closed later than now
  let age : Int := min ((s.now / 10 ^ 9 : Nat) - (e.closeS : Int)) 86400
  let en := s.flash.geometry.endurance
  let weight := getF s 0x7010 0x05
  -- (V − v) × (age + 60) × rated ÷ ((V + v) × (rated + weight × ERASES))
  ((v - e.valid : Nat) * (age + 60) * en, (v + e.valid) * (en + weight * e.erases))

/-- choose(ch) of R252: wear levelling first, then the greatest score; the lowest number on a tie. -/
def chooseReclaim (s : State) (ch : Nat) : Option Nat :=
  let us := listedUnits s ch
  let cand := us.filter (fun e => decide (e.2.use = .closed) && decide (e.2.valid < unitSectors s.flash.geometry))
  let er := (s.flash.units.filter (fun e => decide (e.1 / 2 ^ 24 = ch))).map (fun e => e.2.erases)
  let maxE := er.foldl max 0
  -- a unit that is not listed has never been erased
  let minE := if er.length < channelUnits s.flash.geometry then 0 else er.foldl min maxE
  let pick (better : EraseUnit → EraseUnit → Bool) : Option Nat :=
    (cand.foldl (fun (b : Option (Nat × EraseUnit)) e => match b with
      | none => some e
      | some x => if better e.2 x.2 then some e else b) none).map (fun e => e.1)
  if getF s 0x7010 0x06 < maxE - minE then pick (fun a b => decide (a.erases < b.erases))
  else pick (fun a b =>
    let x := reclaimScore s a
    let y := reclaimScore s b
    decide (y.1 * x.2 < x.1 * y.2))

/-- Reclaim is wanted in a channel: below the low mark, or running and below the high mark (R252). -/
def reclaimWanted (s : State) (ch : Nat) : Bool :=
  let n := freeUnits s ch
  decide (n < getF s 0x7010 0x01) || (s.flash.reclaiming.contains ch && decide (n < getF s 0x7010 0x02))

/-- A sector was read only after retries: counted in its channel's health record, a correctable error (R245, R257). -/
def countCorrected (s : State) (page : Nat) : State :=
  let ch := flashChannel s.flash page
  memError { s with flash := modFlashHealth s.flash ch (fun h => { h with corrected := (h.corrected + 1) % 2 ^ 32 }) }
    (0x20 + ch) (0x900000000000 + page * 4096) true

/-- An erase ends (R252, R253): the unit is free, or is retired. -/
def flashEraseComplete (t ch u : Nat) (ok : Bool) (s : State) : State :=
  let s := atTime t s
  let e := flashUnit s.flash ch u
  if e.use = .erasing then
    if ok then
      let s := { s with flash := setFlashUnit s.flash ch u { e with use := .free, erases := e.erases + 1, valid := 0, next := 0 } }
      let s := incF s 0x7011 ch
      showDirty (flashPump s.flash.waiting.length (flashStateUpdate s))
    else
      retireUnit { s with flash := modFlashHealth s.flash ch (fun h => { h with eraseFails := min 65535 (h.eraseFails + 1) }) } ch u
  else s

/-- The temperature bin of a reading (Table 11-5). -/
def tempBin (c : Int) : Nat := if c < 0 then 0 else min 19 (c.toNat / 5)

/-- One second's temperature sample of a channel's highest reading (R257). -/
def sampleHealth (c : Int) (h : FlashHealth) : FlashHealth :=
  { h with tempNow := c, tempMax := if h.seconds = [] then c else max h.tempMax c, seconds := tmod 0 h.seconds (tempBin c) (· + 1) }

/-- A map checkpoint stores the health records (R257); whether one falls on this second is the part's choice. [DESIGN CHOICE: log 146] -/
def checkpoint (s : State) : State :=
  draw (if freshOf s % 2 = 1 then { s with flash := { s.flash with healthSaved := s.flash.health } } else s)

/-- Every second, the temperatures of the trained channels are read (R257). [DESIGN CHOICE: log 146] -/
def flashTempSample (t : Nat) (temps : List Int) (s : State) : State :=
  let s := atTime t s
  if flashState s = 0 ∨ flashState s = 1 then s else
  checkpoint { s with flash := (s.flash.channels.zip temps).foldl (fun f e => modFlashHealth f e.1 (sampleHealth e.2)) s.flash }

/-- FLASH_TEMP_SAMPLE (R257): the highest reading of each trained channel, channels ascending. -/
def execFlashTempSample (t : Nat) (temps : List Int) (s : State) : Outcome State Fault Refusal :=
  .next (flashTempSample t temps s)

/-- One entry of the journal is replayed: while the map still names its slot, the sector's data go from the flush reserve there. [DEDUCED: log 163] -/
def replayPage (f : FlashState) (e : FlushEntry) : FlashState :=
  let m := tget FlashMapEntry.zero f.map e.page
  match tfind f.sectors (e.channel * 2 ^ 30 + e.reserveSlot) with
  | some x => if m.mapped ∧ m.slot = e.slot then { f with sectors := tput f.sectors (e.channel * 2 ^ 30 + e.slot) x } else f
  | none => f

/-- A unit of the flush reserve is erased again, and holds no sector; a unit that failed stays retired. [DEDUCED: log 163] -/
def freeReserve (f : FlashState) (e : FlushEntry) : FlashState :=
  let v := unitSectors f.geometry
  let u := e.reserveSlot / v
  let f := { f with sectors := tdel f.sectors (e.channel * 2 ^ 30 + e.reserveSlot) }
  let x := flashUnit f e.channel u
  if x.use = .closed then setFlashUnit f e.channel u { x with use := .free, erases := x.erases + 1, valid := 0, next := 0 } else f

/-- The rebuild replays the journal and the flush reserve (R260), and the reserve is erased for the next flush. -/
def replayFlush (f : FlashState) : FlashState :=
  let g := f.journal.foldl replayPage f
  { f.journal.foldl freeReserve g with journal := [] }

/-- The rebuild after a reset ends (R260): the window is answered again, the maps lie in LPDDR6, and the health records and LAST_FLUSH
are restored. [DEDUCED: log 25; DESIGN CHOICE: log 146] -/
def flashRebuildComplete (t : Nat) (s : State) : State :=
  let s := atTime t s
  if flashState s = 1 then
    let s := { s with flash := replayFlush s.flash }
    let s := (s.flash.units.filter (fun e => decide (e.2.use = .opened))).foldl (fun s e => closeUnit s (e.1 / 2 ^ 24) (e.1 % 2 ^ 24)) s
    let s := setF s 0x7000 0x01 2
    let s := storeMap { s with flash := { s.flash with health := s.flash.healthSaved } } (s.flash.map.map (fun e => e.1))
    let s := match s.flash.lastFlush with
      | some d => setF s 0x7020 0x04 (2 ^ 31 + min d (2 ^ 24 - 1))
      | none => if s.flash.map = [] then s else draw (logErr s (freshOf s % 256) 0 0 none 0 0)
    initStage 10 (flashStateUpdate s)
  else s

/-- FLASH_REBUILD_COMPLETE (R260). -/
def execFlashRebuildComplete (t : Nat) (s : State) : Outcome State Fault Refusal :=
  .next (flashRebuildComplete t s)

/-- First page of the extents, after the bookmark store (Table 11-2). -/
def extentBase (s : State) : Nat := getF s 0x7030 0x01 * 2 ^ 18

/-- Action of a write to folio 0x7000.08: discard of a page range within the extents (R250). -/
def discardAction (v : Nat) (s : State) : State :=
  let first := max (nfld v 63 32) (extentBase s)
  let last := min (nfld v 63 32 + nfld v 31 0) (flashPages s)
  discardAt s first (last - first)

/-- Pages of one bookmark slot (R255, folio 0x7030.02 in MiB). -/
def slotPages (s : State) : Nat := getF s 0x7030 0x02 * 256

/-- Slots of the bookmark store (R255). -/
def slotCount (s : State) : Nat := if slotPages s = 0 then 0 else extentBase s / slotPages s

/-- First page of generation `g` of a slot (R255). -/
def genPage (s : State) (slot g : Nat) : Nat := slot * slotPages s + g * (slotPages s / 2)

/-- Discard of one generation of a bookmark slot (R250, R256). -/
def discardGen (slot g : Nat) (s : State) : State := discardAt s (genPage s slot g) (slotPages s / 2)

/-- Action of a write to folio 0x7030.05: discard of both generations of a slot (R250, R251); a slot beyond the store is refused. -/
def bookmarkDiscardAction (slot : Nat) (s : State) : State :=
  if slotCount s ≤ slot then s else discardGen slot 1 (discardGen slot 0 s)

/-- The commit record of a generation (Table 11-4): the first 64 bytes of its first page, as a number. -/
def commitRecord (s : State) (slot g : Nat) : Nat := ofBytesLE ((flashPageData s.flash (genPage s slot g)).take 64)

/-- RECORD_CHECK holds (Table 11-4). -/
def recordGood (r : Nat) : Bool := decide (nfld r 63 0 = crc64 (toBytesLE 56 (r / 2 ^ 64)))

/-- Pages of a generation's body, BODY_PAGES of them. -/
def bodyPages (s : State) (slot g : Nat) : List Nat :=
  (List.range (nfld (commitRecord s slot g) 383 352)).map (fun k => genPage s slot g + 1 + k)

/-- The body of a generation, its BODY_PAGES pages in order. -/
def bookmarkBody (s : State) (slot g : Nat) : List Byte :=
  (bodyPages s slot g).flatMap (flashPageData s.flash)

/-- Every page of the body can be read (R250), and BODY_CHECK holds (Table 11-4). -/
def bodyGood (s : State) (slot g : Nat) : Bool :=
  !((bodyPages s slot g).any (poisonedPage s.flash)) && decide (nfld (commitRecord s slot g) 319 256 = crc64 (bookmarkBody s slot g))

/-- SEQ of a generation's record when it can be read (R250) and its RECORD_CHECK holds. -/
def genSeq (s : State) (slot g : Nat) : Option Nat :=
  let r := commitRecord s slot g
  if recordGood r ∧ poisonedPage s.flash (genPage s slot g) = false then some (nfld r 511 448) else none

/-- The committed bookmark of a slot (R256): the generation of higher SEQ whose checks hold; generation 0 on a tie. -/
def committedGen (s : State) (slot : Nat) : Option Nat :=
  let q (g : Nat) : Option Nat := if bodyGood s slot g then genSeq s slot g else none
  match q 0, q 1 with
  | some a, some b => some (if a < b then 1 else 0)
  | some _, none => some 0
  | none, some _ => some 1
  | none, none => none

/-- The write of a commit record is confirmed in this package's store (R256, Table 11-7). -/
def bookmarkCommit (t slot g : Nat) (s : State) : State :=
  let s := atTime t s
  if flashState s = 0 ∨ flashState s = 1 ∨ slotCount s ≤ slot ∨ 2 ≤ g then s else
  match genSeq s slot g with
  | none => incF (discardGen slot g s) 0x7030 0x04
  | some q => match genSeq s slot (1 - g) with
    | none => incF (discardGen slot (1 - g) s) 0x7030 0x03
    | some o => if o < q then incF (discardGen slot (1 - g) s) 0x7030 0x03
        else if o = q then incF s 0x7030 0x04 else s

/-- Health word bits of a channel (Table 11-5), restored when the rebuild completes. -/
def healthBits (s : State) (ch : Nat) : Nat :=
  let f := s.flash
  let h := flashHealth f ch
  let n := channelUnits f.geometry
  let er := (listedUnits s ch).map (fun e => e.2.erases)
  let wear := if f.geometry.endurance = 0 ∨ n = 0 then 0 else min 255 (er.foldl (· + ·) 0 * 100 / (n * f.geometry.endurance))
  let bin (i : Nat) : Nat := min 65535 (tget 0 h.seconds i / 3600)
  let i8 (x : Int) : Nat := (x % 256).toNat
  if f.channels.contains ch ∧ flashState s ≠ 1 then
    place (sparePct n (retiredIn f ch)) 511 504 + place wear 503 496 + place (er.foldl max 0) 495 472 + place (retiredIn f ch) 471 448
    + place h.corrected 447 416 + place h.uncorrectable 415 384 + place h.programFails 383 368 + place h.eraseFails 367 352
    + place (i8 h.tempNow) 351 344 + place (i8 h.tempMax) 343 336
    + ((List.range 20).map (fun i => bin i <<< (16 * i))).foldl (· + ·) 0
  else 0

end Sys2Proof.Machine
end

