-- ==== Sys2Proof/Machine/Rings.lean ====
section
/-! DEFINITION. Rings of queue pairs in device or host memory (R296, R299): send and receive descriptors, completion
entries, and the placing of notices in the receive buffers of a host queue (R455). -/

namespace Sys2Proof.Machine

open Host

/-- A queue pair. -/
def qp (s : State) (q : Nat) : QueuePair := tget QueuePair.zero s.queue.qps q

/-- Replace a queue pair. -/
def setQp (s : State) (q : Nat) (x : QueuePair) : State :=
  { s with queue := { s.queue with qps := tset QueuePair.zero s.queue.qps q x } }

/-- Change a queue pair. -/
def modQp (s : State) (q : Nat) (f : QueuePair → QueuePair) : State := setQp s q (f (qp s q))

/-- The send descriptor at ring index `i` (Table 13-4). -/
def sendDesc (s : State) (x : QueuePair) (i : Nat) : BitVec 512 :=
  BitVec.ofNat 512 (readNat s (x.sqBase * 4096 + i % 2 ^ x.sqLog * 64) 64)

/-- The receive descriptor at ring index `i` (Table 13-5): address, length, WR_ID. -/
def recvDesc (s : State) (x : QueuePair) (i : Nat) : Nat × Nat × Nat :=
  let d := readNat s (x.rqBase * 4096 + i % 2 ^ x.rqLog * 16) 16
  (nfld d 127 80, nfld d 79 48, nfld d 47 0)

/-- Receive descriptor `m` has been posted. -/
def recvPosted (x : QueuePair) (m : Nat) : Bool := decide (m < x.rqProd)

/-- The completion ring has room. -/
def cqRoom (x : QueuePair) : Bool := decide (x.cqProd - x.cqCons < 2 ^ x.cqLog)

/-- Write one completion entry in the ring, PHASE flipping at each wrap (R296), with its interrupt vector (R453). -/
def writeCompletion (s : State) (q : Nat) (e : BitVec 256) : State :=
  let x := qp s q
  let phase := (x.cqProd / 2 ^ x.cqLog + 1) % 2
  let v := setFld e.toNat phase 78 78
  let s := writeNat s (x.cqBase * 4096 + x.cqProd % 2 ^ x.cqLog * 32) 32 v
  let s := modQp s q (fun x => { x with cqProd := x.cqProd + 1 })
  let vec := q % 2047 + 1
  if s.boot.unmasked.contains vec then emit s (.msix vec) else s

/-- Completions held for want of room are written in order while there is room. -/
def pumpCompletions : Nat → State → Nat → State
  | 0, s, _ => s
  | n + 1, s, q =>
    let x := qp s q
    match x.held with
    | [] => s
    | e :: r => if cqRoom x then pumpCompletions n (writeCompletion (setQp s q { x with held := r }) q e) q else s

/-- Post a completion entry: written at once, or held while the ring is full. -/
def postCompletion (s : State) (q : Nat) (e : BitVec 256) : State :=
  let s := modQp s q (fun x => { x with held := x.held ++ [e] })
  pumpCompletions (qp s q).held.length s q

/-- The fields of a completion entry (Table 13-6) as one word, PHASE left zero. -/
def completionWord (wrId bytes imm source q opcode status : Nat) (recv : Bool) : BitVec 256 :=
  BitVec.ofNat 256 (place wrId 255 192 + place bytes 191 160 + place imm 159 128 + place source 127 112 + place q 111 99
    + place opcode 95 88 + place status 87 80 + place (b2n recv) 79 79)

/-- Notices waiting at a host queue are written to its receive buffers in order, each with its receive completion, while the
queue pair is READY and buffers are posted (R455). [DEDUCED: log 100] -/
def pumpNotices : Nat → State → Nat → State
  | 0, s, _ => s
  | n + 1, s, q =>
    let x := qp s q
    match x.notices with
    | [] => s
    | bytes :: rest =>
      if x.mode = .ready ∧ recvPosted x x.recvDone = true then
        let (addr, len, wr) := recvDesc s x x.recvDone
        let s := writeBytes s addr (bytes.take len)
        let s := emit s (.hostWrite addr (bytes.take len))
        let s := modQp s q (fun x => { x with recvDone := x.recvDone + 1, notices := rest })
        pumpNotices n (postCompletion s q (completionWord wr (min bytes.length len) 0 (ownEndpoint s) q 3 0 true)) q
      else s

/-- A message of the control plane joins the notices of a host queue (R455). -/
def hostDeliver (s : State) (q : Nat) (bytes : List Byte) : State :=
  let s := modQp s q (fun x => { x with notices := x.notices ++ [bytes] })
  pumpNotices (qp s q).notices.length s q

end Sys2Proof.Machine
end

