-- ==== Sys2Proof/Machine/Sig.lean ====
section
/-! DEFINITION. Signatures (chapter 2): entries, states, remaining budgets, estimates, token logs, and the notices that a
home endpoint receives. -/

namespace Sys2Proof.Machine

open Host

/-- Entry `n` of the signature table. -/
def sigE (s : State) (n : Nat) : SigEntry := tget SigEntry.zero s.sig.entries n

/-- What the control plane keeps beside entry `n`. -/
def sigA (s : State) (n : Nat) : SigAux := tget SigAux.zero s.sig.aux n

/-- Change entry `n`. -/
def modE (s : State) (n : Nat) (f : SigEntry → SigEntry) : State :=
  { s with sig := { s.sig with entries := tmod SigEntry.zero s.sig.entries n f } }

/-- Change what stands beside entry `n`. -/
def modA (s : State) (n : Nat) (f : SigAux → SigAux) : State :=
  { s with sig := { s.sig with aux := tmod SigAux.zero s.sig.aux n f } }

/-- Number of the state code in Table 2-2. -/
def sigCode : SigState → Nat
  | .free => 0
  | .admitting => 1
  | .queued => 2
  | .prefilling => 3
  | .away => 4
  | .handoffOut => 5
  | .handoffIn => 6
  | .rebuilding => 7
  | .decoding => 8
  | .swappingOut => 9
  | .preempted => 10
  | .swappingIn => 11
  | .draining => 12
  | .ended => 13
  | .replaying => 14

/-- The state of a code; the reserved code 0xF is never written and reads as FREE. -/
def sigStateOf : Nat → SigState
  | 1 => .admitting
  | 2 => .queued
  | 3 => .prefilling
  | 4 => .away
  | 5 => .handoffOut
  | 6 => .handoffIn
  | 7 => .rebuilding
  | 8 => .decoding
  | 9 => .swappingOut
  | 10 => .preempted
  | 11 => .swappingIn
  | 12 => .draining
  | 13 => .ended
  | 14 => .replaying
  | _ => .free

/-- Entries not FREE, ascending. -/
def liveSigs (s : State) : List Nat := tkeys s.sig.entries (fun _ e => decide (e.state ≠ .free))

/-- Entries of a job not FREE, ascending. -/
def jobSigs (s : State) (j : Nat) : List Nat :=
  tkeys s.sig.entries (fun _ e => decide (e.state ≠ .free) && decide (e.job.toNat = j))

/-- Entries of a job in one state. -/
def jobSigsIn (s : State) (j : Nat) (st : SigState) : List Nat :=
  (jobSigs s j).filter (fun n => decide ((sigE s n).state = st))

/-- Folio 0x2000.02 SIG_IN_USE. -/
def sigInUse (s : State) : Nat := (liveSigs s).length

/-- STATE takes a new value by a transition of Table 2-3; an entry that becomes FREE keeps every other field (R30). -/
def setSigState (s : State) (n : Nat) (st : SigState) : State :=
  let s := modE s n (fun e => { e with state := st })
  if st = .free then
    { s with sig := { s.sig with aux := tdel s.sig.aux n },
             handoff := { s.handoff with incoming := s.handoff.incoming.filter (fun r => decide (r.sig ≠ n)) } }
  else maxF s 0x2000 0x03 (sigInUse s)

/-- A trigger without a row for the entry's state (R33). -/
def badTrigger (s : State) : State := incF s 0x2050 0x01

/-- Signatures of a composition. -/
def planSigs (c : Composition) : List Nat := c.batch.map (fun m => m.sig) ++ c.chunks.map (fun k => k.sig)

/-- Compositions of a part that have not run. -/
def frozenPlans (p : PartState) : List Composition := p.frozen.toList ++ p.ahead

/-- Compositions of a part that are frozen or in flight. -/
def openPlans (p : PartState) : List Composition := frozenPlans p ++ p.run.toList.map (fun r => r.plan)

/-- Compositions of a part that are frozen, in flight or committed and not read. -/
def partPlans (p : PartState) : List Composition := openPlans p ++ p.committed.toList.map (fun r => r.plan)

/-- A part of a job names the signature in a step that is frozen, in flight or committed and not read. -/
def partNames (p : PartState) (n : Nat) : Bool := (partPlans p).any (fun c => (planSigs c).contains n)

/-- A FREE entry; which one is the part's choice, and it chooses one that no step names while there is one. -/
def freeSig (s : State) : Option Nat :=
  let isFree (n : Nat) : Bool := decide ((sigE s n).state = .free)
  let idle (n : Nat) : Bool := isFree n && !(s.jobs.any (fun x => partNames x.2.gen n || partNames x.2.prompt n))
  match pickFree idle 32768 (freshOf s) with
  | some n => some n
  | none => pickFree isFree 32768 (freshOf s)

/-- Leaf size L of a job; 1 without an image. -/
def leafSize (s : State) (j : Nat) : Nat := match jobImage s j with
  | some i => max i.leafSize 1
  | none => 1

/-- Layers of a job. -/
def layerCount (s : State) (j : Nat) : Nat := match jobImage s j with
  | some i => i.layers
  | none => 0

/-- Step window w of a job in µs. -/
def windowUs (s : State) (j : Nat) : Nat := match jobImage s j with
  | some i => i.w
  | none => 0

/-! ### Remaining budgets and estimates (R35 to R40) -/

/-- remaining(s) of R35; none stands for infinite. [DEDUCED: log 114] -/
def remaining (s : State) (n : Nat) : Option Nat :=
  let e := sigE s n
  if e.budgetUs.toNat = 0xFFFFFFFF then none
  else some (e.budgetUs.toNat - ((nowUs s + 2 ^ 40 - e.arrivalUs.toNat) % 2 ^ 40))

/-- A remaining budget as a 32-bit field. [DEDUCED: log 114] -/
def budgetField (b : Option Nat) : Nat := match b with
  | none => 0xFFFFFFFF
  | some x => min x 0xFFFFFFFE

/-- R36: a budget received, less the path delay in whole µs. -/
def lessDelay (b delayUs : Nat) : Nat := if b = 0xFFFFFFFF then b else b - delayUs

/-- The path delay from an endpoint, rounded up to whole µs. -/
def delayUs (s : State) (e : Nat) : Nat := ceilDiv (pathDelay s e) 1000

/-- Positions of the token log that prefill covers: to PROMPT_LEN − 1, or for REBUILDING and REPLAYING to
PROMPT_LEN + max(GEN_LEN, 1) − 2 (R85). -/
def prefillEnd (e : SigEntry) : Nat :=
  if e.state = .rebuilding ∨ e.state = .replaying then e.promptLen.toNat + max e.genLen.toNat 1 - 1 else e.promptLen.toNat

/-- pending(s) of R40. -/
def pendingTokens (s : State) (n : Nat) : Nat :=
  let e := sigE s n
  let a := sigA s n
  match e.state with
  | .admitting => e.promptLen.toNat - e.prefixLen.toNat
  | .queued => e.promptLen.toNat - e.prefixLen.toNat
  | .prefilling => prefillEnd e - a.kv
  | .rebuilding => prefillEnd e - a.kv
  | .replaying => prefillEnd e - a.kv
  | _ => 0

/-- The cost of an offer for `p` tokens: QUEUE_US + ceil(p × 1000 ÷ RATE). -/
def offerCost (o : PrefillOffer) (p : Nat) : Nat := o.queueUs + ceilDiv (p * 1000) o.rate

/-- best_offer(s) of R40. [DESIGN CHOICE: log 127] -/
def bestOffer (s : State) (n : Nat) : Option PrefillOffer :=
  let p := pendingTokens s n
  let j := (sigE s n).job.toNat
  let maxAge := getF s 0x2010 0x06 * 1000
  let q := s.sig.offers.filter (fun o => decide (o.job = j) && decide (s.now - o.receivedNs ≤ maxAge) && decide (0 < o.rate))
  q.foldl (fun (b : Option PrefillOffer) o => match b with
    | none => some o
    | some x =>
      if offerCost o p < offerCost x p ∨ (offerCost o p = offerCost x p ∧ o.endpoint < x.endpoint) then some o else b) none

/-- An offer is used for a signature in ADMITTING or QUEUED whose unmatched tokens exceed folio 0x2010.07. -/
def offerFor (s : State) (n : Nat) : Option PrefillOffer :=
  let e := sigE s n
  if (e.state = .admitting ∨ e.state = .queued) ∧ getF s 0x2010 0x07 < pendingTokens s n then bestOffer s n else none

/-- estimate(s) of R40. -/
def estimate (s : State) (n : Nat) : Nat :=
  let e := sigE s n
  let j := e.job.toNat
  let p := pendingTokens s n
  let w := windowUs s j
  let chunk := match jobImage s j with
    | some i => i.chunk
    | none => 1
  let t := if p = 0 then 0 else match offerFor s n with
    | some o => offerCost o p + 2 * getF s 0x2024 j
    | none => ceilDiv p chunk * w
  let t := t + (e.maxOutput.toNat - e.genLen.toNat + 1) * w + getF s 0x2023 j
  ceilDiv (t * (100 + getF s 0x2010 0x03)) 100

/-- The device writes the last estimate it computed into ESTIMATE_US (R40). [DESIGN CHOICE: log 152] -/
def noteEstimate (s : State) (n : Nat) : State :=
  let v := estimate s n
  modE s n (fun e => { e with estimateUs := BitVec.ofNat 32 (min v 0xFFFFFFFF) })

/-- slack(s) of R40; none stands for infinite. -/
def slack (s : State) (n : Nat) : Option Int :=
  if (sigE s n).bestEffort then none else match remaining s n with
  | none => none
  | some r => some ((r : Int) - (estimate s n : Int))

/-- The estimates from which the slack of some signatures is computed are written too (R40); no estimate enters a best-effort slack. [DESIGN CHOICE: log 153] -/
def noteSlacks (s : State) (l : List Nat) : State :=
  l.foldl (fun s n => if (sigE s n).bestEffort then s else noteEstimate s n) s

/-- `a` is at most `b`, none being infinite. -/
def slackLe (a b : Option Int) : Bool := match a, b with
  | _, none => true
  | none, some _ => false
  | some x, some y => decide (x ≤ y)

/-- Rank (R32) as a number: the greater ranks higher. -/
def rankOf (e : SigEntry) : Nat := (if e.bestEffort then 0 else 16) + e.priority.toNat

/-- Composition order (R65, R84): rank, higher first, then slack, least first, then signature number. -/
def composeBefore (s : State) (a b : Nat) : Bool :=
  let ra := rankOf (sigE s a)
  let rb := rankOf (sigE s b)
  if ra ≠ rb then decide (rb < ra)
  else if slackLe (slack s a) (slack s b) && slackLe (slack s b) (slack s a) then decide (a ≤ b)
  else slackLe (slack s a) (slack s b)

/-- Insert into a list ordered by `le`. -/
def insertBy {α : Type} (le : α → α → Bool) (x : α) : List α → List α
  | [] => [x]
  | y :: r => if le x y then x :: y :: r else y :: insertBy le x r

/-- Sort a list by `le`. -/
def sortBy {α : Type} (le : α → α → Bool) (l : List α) : List α := l.foldr (insertBy le) []

/-! ### Tip-in pins (R99) -/

/-- Signatures not FREE that name a slot and version. -/
def pinCount (s : State) (slot ver : Nat) : Nat :=
  (liveSigs s).countP (fun n => decide ((sigE s n).tipinVersion.toNat = ver) && decide ((sigE s n).tipinSlot.toNat = slot))

/-- A version is resident in a slot (folio 0x2822.ss). -/
def residentIn (s : State) (slot ver : Nat) : Bool :=
  let r := getF s 0x2822 slot
  decide (ver ≠ 0) && ((List.range 4).any (fun i => decide (nfld r (16 * i + 15) (16 * i) = ver)))

/-- The distinct slot–version pairs of a list of signatures, in order of first appearance; version 0 names none. -/
def tipinPairs (s : State) (ns : List Nat) : List (Nat × Nat) :=
  ns.foldl (fun l n =>
    let e := sigE s n
    let p := (e.tipinSlot.toNat, e.tipinVersion.toNat)
    if p.2 = 0 ∨ l.contains p = true then l else l ++ [p]) []

/-! ### Token logs (R44 to R46) -/

/-- Bytes of the token log of an entry, a multiple of 4 KiB (R44). -/
def logBytes (e : SigEntry) : Nat := roundUp (4 * (e.promptLen.toNat + e.maxOutput.toNat + e.draftLen.toNat)) 4096

/-- Pages in ranges of memory. -/
def memoryPages (mem : List (Nat × Nat)) : Nat := (mem.map (fun m => m.2 / 4096)).foldl (· + ·) 0

/-- The address of page `k` of ranges of memory, counted in order. -/
def memoryPage : List (Nat × Nat) → Nat → Nat
  | [], _ => 0
  | (b, n) :: r, k => if k < n / 4096 then b + k * 4096 else memoryPage r (k - n / 4096)

/-- Ranges of a job's memory in use by token logs and run records. -/
def usedMemory (s : State) (j : Nat) : List (Nat × Nat) :=
  (jobSigs s j).map (fun n => ((sigE s n).tlogBase.toNat * 4096, logBytes (sigE s n)))
  ++ (s.cw.nodes.filter (fun x => x.2.valid && decide (x.2.job = j))).map (fun x => (x.2.runAddr, roundUp (4 * x.2.run.length) 64))

/-- Ranges of a job's memory that its image has filled: weights by device address. -/
def weightRanges (i : JobImage) : List (Nat × Nat) := i.weights.map (fun w => (w.1, w.2.length))

/-- The first address of shared SRAM. -/
def sharedSramBase : Nat := 0xF00000000000

/-- The pages of a job's memory that may hold its token logs and run records: LPDDR6 where the job has some, else what lies below
shared SRAM. [DEDUCED: log 92] -/
def logMemory (i : JobImage) : List (Nat × Nat) :=
  let low := i.memory.filter (fun m => decide (m.1 + m.2 ≤ sharedSramBase))
  let dram := low.filter (fun m => decide (0x200000000000 ≤ m.1) && decide (m.1 < 0x208000000000))
  if dram = [] then low else dram

/-- A page-aligned place of `n` bytes in a job's memory, free of logs, run records and weights; where it lies is the part's
choice, and address 0 stands for a job without memory of its own. [DEDUCED: log 92] -/
def placeInMemory (s : State) (j n : Nat) : Nat :=
  match jobImage s j with
  | none => 0
  | some i =>
    let used := usedMemory s j ++ weightRanges i
    let mem := logMemory i
    let ok (k : Nat) : Bool :=
      let a := memoryPage mem k
      mem.any (fun m => decide (m.1 ≤ a) && decide (a + n ≤ m.1 + m.2)) && !(used.any (fun u => overlaps a n u.1 u.2))
    match pickFree ok (memoryPages mem) (freshOf s) with
    | some k => memoryPage mem k
    | none => 0

/-- Append tokens to the log of a signature: its content and its bytes at TLOG_BASE (R45, R46). -/
def appendLog (s : State) (n : Nat) (toks : List Nat) : State :=
  let a := sigA s n
  let base := (sigE s n).tlogBase.toNat * 4096 + 4 * a.tokens.length
  let s := writeBytes s base (toks.flatMap (fun t => toBytesLE 4 (t % 2 ^ 24)))
  modA s n (fun a => { a with tokens := a.tokens ++ toks })

/-- Place a whole token log (R31): its place, its content, GEN_LEN and STEP_SEQ. -/
def placeLog (s : State) (n : Nat) (toks : List Nat) (gen : Nat) : State :=
  let j := (sigE s n).job.toNat
  let base := placeInMemory s j (logBytes (sigE s n))
  let s := modE (draw s) n (fun e => { e with tlogBase := BitVec.ofNat 36 (base / 4096), genLen := BitVec.ofNat 24 gen, stepSeq := 0 })
  appendLog (modA s n (fun a => { a with tokens := [] })) n toks

/-! ### Notices (R47, R49) -/

/-- A notice header (Table 2-8). -/
def noticeHeader (s : State) (sig kind reason count pos time tag : Nat) (overdue : Bool) : BitVec 256 :=
  BitVec.ofNat 256 (place time 191 160 + place (ownEndpoint s) 159 144 + place sig 143 128 + place (b2n overdue) 112 112
    + place reason 111 104 + place kind 103 96 + place count 95 88 + place pos 87 64 + place tag 63 0)

/-- Send a notice to a home endpoint, through a host queue when the request came by one (R50, R455). -/
def sendNotice (s : State) (dest : Nat) (via : Option Nat) (h : BitVec 256) (toks : List Nat) : State :=
  match via with
  | some q => hostDeliver (emit s (.notice dest via h toks)) q (toBytesLE 32 h.toNat ++ toks.flatMap (fun t => toBytesLE 4 (t % 2 ^ 24)))
  | none => transmit s (.notice dest via h toks)

/-- Send a notice about entry `n`. -/
def notify (s : State) (n kind reason count pos time : Nat) (toks : List Nat) : State :=
  let e := sigE s n
  let h := noticeHeader s n kind reason count pos time e.clientTag.toNat e.overdue
  let s := sendNotice s e.homeEndpoint.toNat (sigA s n).via h toks
  modA s n (fun a => { a with noticeNs := s.now })

/-- ADMITTED, with TIME_US the estimate (R43, R49). -/
def sendAdmitted (s : State) (n : Nat) : State := notify s n 1 0 0 0 (sigE s n).estimateUs.toNat []

/-- One TOKENS notice of positions `pos` on, at most 64 (R47). -/
def sendTokensFrom (s : State) (n pos count : Nat) : State :=
  let e := sigE s n
  let toks := ((sigA s n).tokens.drop (e.promptLen.toNat + pos)).take count
  notify s n 3 0 count pos (budgetField (remaining s n)) toks

/-- TOKENS notices for positions `pos` to `upto` − 1. -/
def sendTokensRange : Nat → State → Nat → Nat → Nat → State
  | 0, s, _, _, _ => s
  | fuel + 1, s, n, pos, upto =>
    if upto ≤ pos then s else
    let c := min 64 (upto - pos)
    sendTokensRange fuel (sendTokensFrom s n pos c) n (pos + c) upto

/-- TOKENS notices due for a signature in DECODING, DRAINING or ENDED (R47): what lies beyond the last one sent, or again
from DELIVERED when an acknowledgement asked for it, at most once in folio 0x6400.05 ms. [DEDUCED: log 59; DESIGN CHOICE: log 128] -/
def sendTokens (s : State) (n : Nat) : State :=
  let e := sigE s n
  let a := sigA s n
  if (e.state = .decoding ∨ e.state = .draining ∨ e.state = .ended) ∧ a.superseded = none then
    let gen := e.genLen.toNat
    let resend := a.resendAsked && (decide (a.resendNs = 0) || decide (a.resendNs + getF s 0x6400 0x05 * 1000000 ≤ s.now))
    let pos := if resend then e.delivered.toNat else max a.sentTo e.delivered.toNat
    let s := sendTokensRange (gen / 64 + 1) s n pos gen
    modA s n (fun a => { a with sentTo := max gen e.delivered.toNat,
                                resendAsked := a.resendAsked && !resend,
                                resendNs := if resend then s.now else a.resendNs })
  else s

/-- END: POSITION is GEN_LEN, REASON the END_REASON (R49). -/
def sendEnd (s : State) (n : Nat) : State :=
  let e := sigE s n
  notify s n 4 e.endReason.toNat 0 e.genLen.toNat (budgetField (remaining s n)) []

/-- DRAINING enters ENDED once DELIVERED reaches GEN_LEN, with the END notice (Table 2-3). -/
def checkEnded (s : State) (n : Nat) : State :=
  let e := sigE s n
  if e.state = .draining ∧ e.genLen.toNat ≤ e.delivered.toNat then sendEnd (setSigState s n .ended) n else s

/-- The distinct state of a refusal before an entry is taken: REFUSED to the home endpoint, SIGNATURE 0xFFFF. [DESIGN CHOICE: log 154] -/
def refuseRequest (s : State) (q : AdmitRequest) (code : Nat) : State :=
  let w := q.request
  let b := lessDelay (fld w 223 192) q.delayUs
  let left := if b = 0xFFFFFFFF ∨ (job s (fld w 365 360)).bestEffort = true then 0xFFFFFFFF else b - (s.now - q.arrivedNs) / 1000
  let h := noticeHeader s 0xFFFF 2 code 0 0 left (fld w 63 0) false
  incF (sendNotice s (fld w 391 376) q.via h []) 0x2030 code

/-- Admission is closed whatever the request (R42, first check). -/
def admissionClosed (s : State) : Bool :=
  decide (getF s 0x7C10 0x02 ≠ 1) || decide (getF s 0x2010 0x01 = 0) || s.kettle.applying

/-- Requests of a job that has left RUNNING are decided in arrival order (R42): each is refused with CLOSED or JOB. -/
def refuseWaiting (s : State) (j : Nat) : State :=
  let mine (q : AdmitRequest) : Bool := decide (fld q.request 365 360 = j)
  let qs := s.sig.waiting.filter mine
  let s := { s with sig := { s.sig with waiting := s.sig.waiting.filter (fun q => !(mine q)) } }
  qs.foldl (fun s q => refuseRequest s q (if admissionClosed s then 1 else 2)) s

/-! ### Entries as words -/

/-- The 1024 bits of an entry (Table 2-1), as a snapshot shows them (R18, R51) and a bookmark copies them (R396). -/
def entryWord (e : SigEntry) : Nat :=
  place e.holderEndpoint.toNat 815 800 + place e.stepSeq.toNat 799 768 + place e.clientTag.toNat 767 704
  + place e.seed.toNat 703 640 + place e.prefixLen.toNat 639 616 + place e.preemptCount.toNat 615 608
  + place e.stallCount.toNat 607 592 + place e.draftLen.toNat 578 576 + place e.stopToken.toNat 575 552
  + place e.topK.toNat 550 544 + place e.topP.toNat 543 528 + place e.temperature.toNat 527 512
  + place e.tlogBase.toNat 483 448 + place e.arrivalUs.toNat 423 384 + place e.estimateUs.toNat 383 352
  + place e.budgetUs.toNat 351 320 + place e.leavesReserved.toNat 311 288 + place e.leafRoot.toNat 287 256
  + place e.delivered.toNat 239 216 + place e.genLen.toNat 215 192 + place e.maxOutput.toNat 175 152
  + place e.promptLen.toNat 151 128 + place (b2n e.cancelPending) 121 121 + place (b2n e.overdue) 120 120
  + place e.tipinVersion.toNat 119 104 + place e.tipinSlot.toNat 103 96 + place e.peerEndpoint.toNat 95 80
  + place e.homeEndpoint.toNat 79 64 + place e.ownerEpoch.toNat 63 32 + place e.endReason.toNat 31 24
  + place e.priority.toNat 19 16 + place (b2n e.bestEffort) 14 14 + place e.job.toNat 13 8
  + place (sigCode e.resumeState) 7 4 + place (sigCode e.state) 3 0

/-- The entry that 1024 bits spell. -/
def entryOf (w : Nat) : SigEntry :=
  { holderEndpoint := BitVec.ofNat 16 (nfld w 815 800), stepSeq := BitVec.ofNat 32 (nfld w 799 768),
    clientTag := BitVec.ofNat 64 (nfld w 767 704), seed := BitVec.ofNat 64 (nfld w 703 640),
    prefixLen := BitVec.ofNat 24 (nfld w 639 616), preemptCount := BitVec.ofNat 8 (nfld w 615 608),
    stallCount := BitVec.ofNat 16 (nfld w 607 592), draftLen := BitVec.ofNat 3 (nfld w 578 576),
    stopToken := BitVec.ofNat 24 (nfld w 575 552), topK := BitVec.ofNat 7 (nfld w 550 544),
    topP := BitVec.ofNat 16 (nfld w 543 528), temperature := BitVec.ofNat 16 (nfld w 527 512),
    tlogBase := BitVec.ofNat 36 (nfld w 483 448), arrivalUs := BitVec.ofNat 40 (nfld w 423 384),
    estimateUs := BitVec.ofNat 32 (nfld w 383 352), budgetUs := BitVec.ofNat 32 (nfld w 351 320),
    leavesReserved := BitVec.ofNat 24 (nfld w 311 288), leafRoot := BitVec.ofNat 32 (nfld w 287 256),
    delivered := BitVec.ofNat 24 (nfld w 239 216), genLen := BitVec.ofNat 24 (nfld w 215 192),
    maxOutput := BitVec.ofNat 24 (nfld w 175 152), promptLen := BitVec.ofNat 24 (nfld w 151 128),
    cancelPending := nbit w 121, overdue := nbit w 120, tipinVersion := BitVec.ofNat 16 (nfld w 119 104),
    tipinSlot := BitVec.ofNat 8 (nfld w 103 96), peerEndpoint := BitVec.ofNat 16 (nfld w 95 80),
    homeEndpoint := BitVec.ofNat 16 (nfld w 79 64), ownerEpoch := BitVec.ofNat 32 (nfld w 63 32),
    endReason := BitVec.ofNat 8 (nfld w 31 24), priority := BitVec.ofNat 4 (nfld w 19 16), bestEffort := nbit w 14,
    job := BitVec.ofNat 6 (nfld w 13 8), resumeState := sigStateOf (nfld w 7 4), state := sigStateOf (nfld w 3 0) }

end Sys2Proof.Machine
end

