-- ==== Sys2Proof/Machine/Leaf.lean ====
section
/-! DEFINITION. Leaves and prefixes (chapter 3): leaf geometry, groups and their placement, reservations, reference counts,
rollback, and the catchword index. -/

namespace Sys2Proof.Machine

open Host

/-! ### Geometry (R52 to R57) -/

/-- Element bits w of a KV format code (Table 3-1). -/
def kvBits : Nat → Nat
  | 0 => 16
  | 1 => 8
  | 2 => 8
  | 3 => 8
  | 4 => 6
  | 5 => 4
  | _ => 4

/-- Scale bytes s per 32-element block of a KV format code (Table 3-1). -/
def kvScale : Nat → Nat
  | 3 => 1
  | 4 => 1
  | 5 => 1
  | 6 => 2
  | _ => 0

/-- Payload bytes of a leaf (R52). -/
def payloadBytes (i : JobImage) : Nat := roundUp (i.leafSize * i.heads * 2 * i.headDim * kvBits i.fmt / 8) 4096

/-- Scale-record bytes of a leaf (R52). -/
def scaleBytesOf (i : JobImage) : Nat := roundUp (i.leafSize * i.heads * 2 * (i.headDim / 32) * kvScale i.fmt) 64

/-- The settings of R52 break no limit. -/
def leafSettingsOk (i : JobImage) : Bool :=
  (decide (i.leafSize = 16) || decide (i.leafSize = 32) || decide (i.leafSize = 64)) && decide (i.fmt ≤ 6)
    && decide (1 ≤ i.layers) && decide (i.layers ≤ 255) && decide (1 ≤ i.heads) && decide (0 < i.headDim)
    && decide (i.headDim % 32 = 0)

/-- Bit at which element d of key (k = 0) or value (k = 1) of head h at slot t starts (R54). -/
def leafBit (i : JobImage) (h k t d : Nat) : Nat := (((h * 2 + k) * i.leafSize + t) * i.headDim + d) * kvBits i.fmt

/-- Byte at which the scales of block b begin (R55). -/
def leafScaleByte (i : JobImage) (h k t b : Nat) : Nat :=
  ((h * 2 + k) * i.leafSize + t) * (i.headDim / 32) * kvScale i.fmt + b * kvScale i.fmt

/-! ### Groups and leaves -/

/-- A range lies in the job's staging units: memory that its image names in banks 13 to 31 of shared SRAM, in units that no job started
before it holds (R125, R126). -/
def inStaging (s : State) (j a n : Nat) : Bool :=
  decide (0xF00080000000 ≤ a) && decide (a + n ≤ 0xF000A0000000) && decide (0x6800000 ≤ a % 0x10000000)
    && decide ((a - 0xF00080000000) / 0x10000000 = (a + (n - 1) - 0xF00080000000) / 0x10000000)
    && (imageOf s j).memory.any (fun m => decide (m.1 ≤ a) && decide (a + n ≤ m.1 + m.2))
    && !((List.range 64).any (fun k => decide (k ≠ j) && (decide ((job s k).mode = .running) || decide ((job s k).mode = .ending))
        && decide ((job s k).startOrder < (job s j).startOrder)
        && (imageOf s k).memory.any (fun m => decide (m.1 / 2 ^ 20 ≤ (a + (n - 1)) / 2 ^ 20) && decide (a / 2 ^ 20 ≤ (m.1 + (m.2 - 1)) / 2 ^ 20))))

/-- Write a group descriptor. -/
def setGroup (s : State) (j g : Nat) (d : GroupDesc) : State :=
  modJob s j (fun x => { x with groups := tput x.groups g d })

/-- Change a group descriptor. -/
def modGroup (s : State) (j g : Nat) (f : GroupDesc → GroupDesc) : State := setGroup s j g (f (groupOf s j g))

/-- Leaf (g, l). -/
def leafOf (s : State) (j g l : Nat) : LeafDesc := tget LeafDesc.zero (job s j).leaves (leafIndex s j g l)

/-- Write leaf (g, l). -/
def setLeaf (s : State) (j g l : Nat) (d : LeafDesc) : State :=
  let k := leafIndex s j g l
  modJob s j (fun x => { x with leaves := tset LeafDesc.zero x.leaves k d })

/-- Layers of a job as a list. -/
def layersOf (s : State) (j : Nat) : List Nat := List.range (imageOf s j).layers

/-- Tier of a group: that of its leaf of layer 0. -/
def groupTier (s : State) (j g : Nat) : Tier := (leafOf s j g 0).tier

/-- Bytes of a group, payloads and scale records. -/
def groupBytes (s : State) (j : Nat) : Nat :=
  let i := imageOf s j
  i.layers * (payloadBytes i + scaleBytesOf i)

/-! ### Space in columns (Table 7-2) -/

/-- Bytes of a column pool. -/
def poolBytes (s : State) : Nat := columnBytes s - 4 * 2 ^ 20 - shareBytes s

/-- Ranges (address, bytes) of the column pool of column `c` in use by job `j`: its leaves and list pages, copies of remote leaves,
the targets of promotions that have started, and what moves of jobs torn down still hold. [DESIGN CHOICE: log 73] -/
def usedIn (s : State) (j c : Nat) : List (Nat × Nat) :=
  let i := imageOf s j
  let pb := payloadBytes i
  let sb := scaleBytesOf i
  let lo := columnAddr c 0
  let hi := columnAddr (c + 1) 0
  let here (a : Nat) : Bool := decide (lo ≤ a) && decide (a < hi)
  let leaves := ((job s j).leaves.filter (fun e => decide (e.2.tier = .stacked) && decide (e.2.column = c))).flatMap
    (fun e => [(e.2.page, pb), (e.2.scaleAddr, sb)])
  let moves := (s.tier.moves.filter (fun m => decide (m.job = j) && m.promotion)).flatMap
    (fun m => (m.addrs.filter (fun a => here a.1)).flatMap (fun a => [(a.1, pb), (a.2, sb)]))
  let copies := (s.span.copied.filter (fun x => decide (x.1 = j) && decide (x.2.2.1 = c))).map (fun x => (x.2.2.2.1, pb + sb))
  let ending := s.tier.ending.flatMap (fun e => e.ranges.filter (fun r => here r.1))
  leaves ++ ((job s j).pageAddrs.filter here).map (fun a => (a, 4096)) ++ moves ++ copies ++ ending

/-- Free leaf space of a column. -/
def freeIn (s : State) (j c : Nat) : Nat := poolBytes s - ((usedIn s j c).map (fun u => u.2)).foldl (· + ·) 0

/-- A place of `n` bytes, aligned to `al`, free of the ranges given, in the pool of column `c`; which one is the part's. [DESIGN CHOICE: log 84] -/
def placeIn (s : State) (c n al : Nat) (used : List (Nat × Nat)) : Option Nat :=
  let base := columnAddr c (shareBytes s)
  let ok (k : Nat) : Bool := decide (k * al + n ≤ poolBytes s) && !(used.any (fun u => overlaps (base + k * al) n u.1 u.2))
  (pickFree ok (poolBytes s / al) (freshOf s)).map (fun k => base + k * al)

/-- Places (payload, scale record) of one leaf in column `c`. -/
def placeLeaf (s : State) (j c : Nat) (more : List (Nat × Nat)) : Option (Nat × Nat) :=
  let i := imageOf s j
  let used := usedIn s j c ++ more
  match placeIn s c (payloadBytes i) 4096 used with
  | none => none
  | some p =>
    if scaleBytesOf i = 0 then some (p, 0) else
    match placeIn s c (scaleBytesOf i) 64 (used ++ [(p, payloadBytes i)]) with
    | none => none
    | some q => some (p, q)

/-- Places of the leaves of one group in the columns given, layer by layer; none when a column lacks room (R159). -/
def placeLeaves (s : State) (j : Nat) : List Nat → List (Nat × Nat) → Option (List (Nat × Nat))
  | [], _ => some []
  | c :: r, more => match placeLeaf s j c more with
    | none => none
    | some (p, q) =>
      match placeLeaves s j r (more ++ [(p, payloadBytes (imageOf s j)), (q, scaleBytesOf (imageOf s j))]) with
      | none => none
      | some l => some ((p, q) :: l)

/-- Bundle ranks of a job. -/
def bundleCount (s : State) (j : Nat) : Nat := (job s j).columns.length / 16

/-- The columns of the leaves at group position `p`, layer by layer, for an anchor (R159). [DESIGN CHOICE: log 73] -/
def eligible (s : State) (j anchor p : Nat) : List Nat :=
  (layersOf s j).map (fun l => (job s j).columns.getD (16 * ((anchor + l) % bundleCount s j) + p % 16) 0)

/-- The anchor of a leaf list: the bundle rank of the column of its layer-0 leaf at position 0 (R159); of a list whose first
positions are held elsewhere, that of its first group, whose layer-0 leaf lies in the anchor's bundle too. -/
def anchorOf (s : State) (j : Nat) (groups : List (Option Nat)) : Option Nat :=
  match groups.filterMap (fun g => g) with
  | g :: _ => ((job s j).columns.findIdx? (fun c => decide (c = (leafOf s j g 0).column))).map (fun r => r / 16)
  | [] => none

/-- The bundle chosen for a first group: the place-0 column with room and the most free leaf space, the lowest column on
a tie (R60, R159). -/
def chooseAnchor (s : State) (j : Nat) : Nat :=
  let cand := (List.range (bundleCount s j)).filter (fun b => (placeLeaf s j ((job s j).columns.getD (16 * b) 0) []).isSome)
  (cand.foldl (fun (best : Option Nat) b => match best with
    | none => some b
    | some x =>
      if freeIn s j ((job s j).columns.getD (16 * x) 0) < freeIn s j ((job s j).columns.getD (16 * b) 0) then some b else some x)
    none).getD 0

/-- Groups in a job's pool (folio 0x2403.jj): as many as its column pools hold, and no more than R57 allows. [DEDUCED: log 90] -/
def groupsTotal (s : State) (j : Nat) : Nat :=
  let i := imageOf s j
  if i.layers = 0 then 0 else
  min (maxGroups i) (((job s j).columns.map (fun c => freeIn s j c / (payloadBytes i + scaleBytesOf i))).foldl (· + ·) 0 / i.layers)

/-- Groups of a job that take space in stacked DRAM. -/
def stackedGroups (s : State) (j : Nat) : Nat :=
  (job s j).groups.countP (fun e => decide (groupTier s j e.1 = .stacked))

/-- GROUPS_FREE, folio 0x2404.jj. -/
def groupsFree (s : State) (j : Nat) : Nat := getF s 0x2403 j - stackedGroups s j

/-- Take the head of the free list with its leaves at the places given, in the columns given (R58, R63); payload bytes beyond the last
element become zero (R54). -/
def takeGroupAt (s : State) (j writer : Nat) (cols : List Nat) (places : List (Nat × Nat)) : Option (State × Nat) :=
  match (job s j).freeHead with
  | none => none
  | some g =>
    let next := (groupOf s j g).nextFree
    let s := modJob s j (fun x => { x with freeHead := next })
    let s := setGroup (draw s) j g { GroupDesc.zero with refcount := 1, live := true, lastWriter := writer }
    let i := imageOf s j
    let used := i.leafSize * i.heads * 2 * i.headDim * kvBits i.fmt / 8
    let s := ((layersOf s j).zip (cols.zip places)).foldl (fun s e =>
      let s := writeBytes s (e.2.2.1 + used) (List.replicate (payloadBytes i - used) 0)
      setLeaf s j g e.1 { tier := .stacked, column := e.2.1, scaleAddr := e.2.2.2, page := e.2.2.1 }) s
    some (s, g)

/-- Take a free group whose leaves find room in the columns given. [DESIGN CHOICE: log 156] -/
def takeGroup (s : State) (j writer : Nat) (cols : List Nat) : Option (State × Nat) :=
  match placeLeaves s j cols [] with
  | none => none
  | some ps => takeGroupAt s j writer cols ps

/-- A group returns to the free list, its leaves no longer placed. -/
def returnGroup (s : State) (j g : Nat) : State :=
  let s := (layersOf s j).foldl (fun s l => setLeaf s j g l LeafDesc.zero) s
  let s := setGroup s j g { GroupDesc.zero with nextFree := (job s j).freeHead }
  modJob s j (fun x => { x with freeHead := some g })

/-- REFCOUNT − 1 (R63): at 0, LIVE is cleared and the group returned, after its move when MOVING = 1. -/
def decRef (s : State) (j g : Nat) : State :=
  let d := groupOf s j g
  let s := setGroup s j g { d with refcount := d.refcount - 1 }
  if d.refcount ≤ 1 then
    if d.moving then modGroup s j g (fun d => { d with live := false }) else returnGroup s j g
  else s

/-- REFCOUNT + 1 (R63). -/
def incRef (s : State) (j g : Nat) : State := modGroup s j g (fun d => { d with refcount := d.refcount + 1 })

/-- Set one entry of a leaf list, extending it with nulls. -/
def setListEntry (l : List (Option Nat)) (p : Nat) (g : Option Nat) : List (Option Nat) :=
  (if l.length ≤ p then l ++ List.replicate (p + 1 - l.length) none else l).set p g

/-- The group at group position p of signature n. -/
def listAt (s : State) (n p : Nat) : Option Nat := ((sigA s n).groups.getD p none)

/-- LEAF_ROOT of a first list page (Table 3-2). -/
def pageId (j k : Nat) : Nat := j * 2 ^ 26 + 2 ^ 25 + k

/-- The header of list page `k` of signature n (Table 3-5). -/
def pageHeader (s : State) (n k : Nat) : Nat :=
  let a := sigA s n
  let next := match a.pages[k + 1]? with
    | some p => pageId (sigE s n).job.toNat p
    | none => nullLeaf
  let used := ((a.groups.drop (1020 * k)).take 1020).countP (fun g => g.isSome)
  place next 127 96 + place (1020 * k) 95 72 + place used 71 62 + place n 15 0

/-- Entry i of list page `k` of signature n (R61). -/
def pageEntry (s : State) (n k i : Nat) : Nat := match (sigA s n).groups.getD (1020 * k + i) none with
  | some g => leafId s (sigE s n).job.toNat g 0
  | none => nullLeaf

/-- The bytes of list page `k` of signature n: header and 1,020 entries (R61). -/
def pageBytes (s : State) (n k : Nat) : List Byte :=
  toBytesLE 16 (pageHeader s n k) ++ (List.range 1020).flatMap (fun i => toBytesLE 4 (pageEntry s n k i))

/-- Write list page `k` of signature n in its place in stacked DRAM (R61). [DESIGN CHOICE: log 121] -/
def storePage (n : Nat) (s : State) (k : Nat) : State :=
  match (sigA s n).pages[k]?.bind (fun p => (job s (sigE s n).job.toNat).pageAddrs[p]?) with
  | some a => writeBytes s a (pageBytes s n k)
  | none => s

/-- Write every list page of signature n. -/
def storePages (s : State) (n : Nat) : State := (List.range (sigA s n).pages.length).foldl (storePage n) s

/-- Write an entry of a leaf list. -/
def setList (s : State) (n p : Nat) (g : Option Nat) : State :=
  storePage n (modA s n (fun a => { a with groups := setListEntry a.groups p g })) (p / 1020)

/-- Clear the entry at p and drop its reference. -/
def clearEntry (s : State) (n p : Nat) : State :=
  match listAt s n p with
  | none => s
  | some g => decRef (setList s n p none) (sigE s n).job.toNat g

/-! ### Reservations (R42, R62) -/

/-- List pages that a signature needs (R62). -/
def pagesNeeded (s : State) (e : SigEntry) : Nat :=
  ceilDiv (ceilDiv (e.promptLen.toNat + e.maxOutput.toNat + e.draftLen.toNat) (leafSize s e.job.toNat)) 1020

/-- Leaves against which reservations are made: pool leaves × folio 0x2010.04 ÷ 100. -/
def reservable (s : State) (j : Nat) : Nat := getF s 0x2403 j * layerCount s j * getF s 0x2010 0x04 / 100

/-- List pages of a job not in use, lowest first. -/
def freePages (s : State) (j : Nat) : List Nat :=
  let used := (jobSigs s j).flatMap (fun n => (sigA s n).pages) ++ (job s j).orphans.flatMap (fun o => o.2.2.2)
  (List.range (imageOf s j).listPages).filter (fun k => !(used.contains k))

/-- reserve() for signature n: `need` KV leaves and its list pages; none when either part cannot be had (R62). LEAVES_RESERVED
holds the need, or 0 for a working reservation (R208). -/
def reserve (s : State) (n need : Nat) (working : Bool) : Option State :=
  let e := sigE s n
  let j := e.job.toNat
  let k := pagesNeeded s e
  let free := freePages s j
  if (job s j).reserved + need ≤ reservable s j ∧ k ≤ free.length then
    let start := freshOf s % (free.length - k + 1)
    let pages := (free.drop start).take k
    let s := modJob (draw s) j (fun x => { x with reserved := x.reserved + need, pagesReserved := x.pagesReserved + k })
    let s := storePages (modA s n (fun a => { a with pages := pages, reservedLeaves := need })) n
    some (modE s n (fun e => { e with leavesReserved := BitVec.ofNat 24 (if working then 0 else need),
                                      leafRoot := BitVec.ofNat 32 (pageId j (pages.headD 0)) }))
  else none

/-- The reservation of a signature is returned. [DEDUCED: log 111] -/
def unreserve (s : State) (n : Nat) : State :=
  let a := sigA s n
  let s := modJob s (sigE s n).job.toNat (fun x => { x with reserved := x.reserved - a.reservedLeaves,
                                                             pagesReserved := x.pagesReserved - a.pages.length })
  let s := modA s n (fun a => { a with pages := [], reservedLeaves := 0 })
  modE s n (fun e => { e with leavesReserved := 0 })

/-- Every group of a signature's list is dropped and its list emptied. -/
def dropList (s : State) (n : Nat) : State :=
  let j := (sigE s n).job.toNat
  let gs := (sigA s n).groups.filterMap (fun g => g)
  let s := storePages (modA s n (fun a => { a with groups := [], kv := 0 })) n
  gs.foldl (fun s g => decRef s j g) s

/-- Leaves released and the reservation returned (R31). [DEDUCED: log 111] -/
def releaseLeaves (s : State) (n : Nat) : State := unreserve (dropList s n) n

/-! ### Copy and rollback (R64, R66) -/

/-- Copy slots 0 to q − 1 of payload and scale record of one leaf to another. -/
def copySlots (s : State) (j q : Nat) (a b : LeafDesc) : State :=
  let i := imageOf s j
  (List.range (i.heads * 2)).foldl (fun s k =>
    let off := leafBit i 0 k 0 0 / 8
    let soff := leafScaleByte i 0 k 0 0
    let s := doMove s { src := a.page + off, dst := b.page + off, len := q * i.headDim * kvBits i.fmt / 8 }
    doMove s { src := a.scaleAddr + soff, dst := b.scaleAddr + soff, len := q * (i.headDim / 32) * kvScale i.fmt }) s

/-- The copy of R64: group g at position p is replaced by g2 with slots below q copied. -/
def copyGroup (s : State) (n p q g g2 : Nat) : State :=
  let j := (sigE s n).job.toNat
  let s := (layersOf s j).foldl (fun s l => copySlots s j q (leafOf s j g l) (leafOf s j g2 l)) s
  let s := modGroup s j g2 (fun d => { d with fill := q, lastWriter := n })
  let s := setList s n p (some g2)
  incF (decRef s j g) 0x2405 j

/-- The columns that a copy of group g keeps (R159). -/
def columnsOf (s : State) (j g : Nat) : List Nat := (layersOf s j).map (fun l => (leafOf s j g l).column)

/-- Move back the fill pointer of position p of signature n to `kv` committed positions (R66). -/
def rollbackAt (n kv : Nat) (s : State) (p : Nat) : State :=
  let j := (sigE s n).job.toNat
  let len := leafSize s j
  match listAt s n p with
  | none => s
  | some g =>
    let d := groupOf s j g
    let f := min len (kv - p * len)
    if f < d.fill ∧ d.refcount = 1 then
      let s := addF s 0x2406 j (d.fill - f)
      let s := modGroup s j g (fun d => { d with fill := f })
      if f = 0 then clearEntry s n p else s
    else s

/-- R66 for the group positions that a step of `count` positions from `base` touched. -/
def rollback (s : State) (n base count kv : Nat) : State :=
  let len := leafSize s (sigE s n).job.toNat
  ((List.range (count + 1)).map (fun i => (base + i) / len)).eraseDups.foldl (rollbackAt n kv) s

/-! ### The catchword index (R67 to R73) -/

/-- A node of the index. -/
def cwNode (s : State) (id : Nat) : CwNode := tget CwNode.zero s.cw.nodes id

/-- Change a node. -/
def modNode (s : State) (id : Nat) (f : CwNode → CwNode) : State :=
  { s with cw := { s.cw with nodes := tmod CwNode.zero s.cw.nodes id f } }

/-- The key of R67 over a parent's key and tokens. -/
def cwKey (j slot ver parent : Nat) (toks : List Nat) : Nat :=
  let h := toBytesLE 1 toks.length ++ toBytesLE 1 j ++ toBytesLE 1 slot ++ toBytesLE 2 ver ++ toBytesLE 3 0 ++ toBytesLE 8 parent
    ++ toBytesLE 16 0
  ofBytesLE (shake256 (h ++ toks.flatMap (fun t => toBytesLE 4 (t % 2 ^ 24))) 8)

/-- The bucket of a key: eight slots. -/
def bucketOf (s : State) (key : Nat) : List CwSlot := tget [] s.cw.buckets (key % 2 ^ 21)

/-- Nodes in the bucket of a key that carry exactly that key. -/
def keyNodes (s : State) (key : Nat) : List Nat :=
  ((bucketOf s key).filter (fun x => x.valid && decide (x.tag = key / 2 ^ 32) && decide ((cwNode s x.node).key = key))).map (fun x => x.node)

/-- find of R70 for a full key: a node whose run record equals the L tokens of the run. -/
def cwFindFull (s : State) (key : Nat) (run : List Nat) : Option Nat := (keyNodes s key).find? (fun id => decide ((cwNode s id).run = run))

/-- Nodes with a full key whose run records differ from the L tokens compared (collisions). -/
def cwCollisionsFull (s : State) (key : Nat) (run : List Nat) : Nat := (keyNodes s key).countP (fun id => !decide ((cwNode s id).run = run))

/-- find of R70 for a partial key over the tokens left: a node whose run record equals its RUN_LEN tokens. A node longer than the tokens
left is not compared. -/
def cwFind (s : State) (key : Nat) (toks : List Nat) : Option Nat :=
  (keyNodes s key).find? (fun id =>
    let r := (cwNode s id).run
    decide (r.length ≤ toks.length) && decide (toks.take r.length = r))

/-- Nodes with a partial key whose run records were compared and differed (collisions). -/
def cwCollisions (s : State) (key : Nat) (toks : List Nat) : Nat :=
  (keyNodes s key).countP (fun id =>
    let r := (cwNode s id).run
    decide (r.length ≤ toks.length) && !decide (toks.take r.length = r))

/-- The walk of R70: nodes taken in order, tokens matched, collisions met. -/
def matchWalk (s : State) (j slot ver len : Nat) : Nat → Nat → List Nat → List Nat × Nat × Nat
  | 0, _, _ => ([], 0, 0)
  | fuel + 1, parent, toks =>
    let full := cwKey j slot ver parent (toks.take len)
    let hit := if len ≤ toks.length then cwFindFull s full (toks.take len) else none
    let c := if len ≤ toks.length then cwCollisionsFull s full (toks.take len) else 0
    match hit with
    | some id =>
      let (l, m, c2) := matchWalk s j slot ver len fuel (cwNode s id).key (toks.drop len)
      (id :: l, len + m, c + c2)
    | none =>
      let part := cwKey j slot ver parent []
      let c := c + cwCollisions s part toks
      match cwFind s part toks with
      | some id => ([id], (cwNode s id).run.length, c)
      | none => ([], 0, c)

/-- match(s, tok) of R70: the nodes to take, the match length before the cap, the collisions. -/
def cwMatch (s : State) (j slot ver : Nat) (toks : List Nat) : List Nat × Nat × Nat :=
  matchWalk s j slot ver (leafSize s j) (toks.length + 1) 0 toks

/-- take(s, nd) of R70. -/
def takeNode (n : Nat) (s : State) (id : Nat) : State :=
  let x := cwNode s id
  let s := setList s n (sigA s n).groups.length (some x.group)
  modNode (incRef s x.job x.group) id (fun x => { x with ageMs := nowMs s })

/-- Nodes of an index in use (folio 0x2400.03). -/
def cwUsed (s : State) : Nat := s.cw.nodes.countP (fun x => x.2.valid)

/-- Clear the slot that holds a node. -/
def clearSlot (s : State) (id : Nat) : State :=
  let b := (cwNode s id).key % 2 ^ 21
  let l := (tget [] s.cw.buckets b).filter (fun x => !decide (x.node = id))
  { s with cw := { s.cw with buckets := tset [] s.cw.buckets b l } }

/-- Evict a node (R72). -/
def evictNode (s : State) (id : Nat) : State :=
  let x := cwNode s id
  if !x.valid then s else
  let s := clearSlot s id
  let s := modNode s id (fun _ => CwNode.zero)
  let s := if x.rootChild then s else modNode s x.parent (fun p => { p with children := p.children - 1 })
  let s := modGroup s x.job x.group (fun d => { d with indexed := false })
  decRef s x.job x.group

/-- Age of a stamp in ms, modulo 2^32. -/
def ageOf (s : State) (stamp : Nat) : Nat := (nowMs s + 2 ^ 32 - stamp) % 2 ^ 32

/-- The oldest of a list of nodes by AGE_MS; on a tie the lower group index. [DESIGN CHOICE: log 155] -/
def oldestNode (s : State) (ids : List Nat) : Option Nat :=
  ids.foldl (fun (b : Option Nat) id => match b with
    | none => some id
    | some x =>
      let ax := ageOf s (cwNode s x).ageMs
      let ai := ageOf s (cwNode s id).ageMs
      if ax < ai ∨ (ax = ai ∧ (cwNode s id).group < (cwNode s x).group) then some id else some x) none

/-- Make a slot free in a full bucket by evicting the oldest childless node that is not on the walk's path (R71). -/
def makeSlot (s : State) (key : Nat) (path : List Nat) : Option State :=
  let b := bucketOf s key
  if b.length < 8 then some s else
  match oldestNode s ((b.map (fun x => x.node)).filter (fun id => decide ((cwNode s id).children = 0) && !(path.contains id))) with
  | some id => some (evictNode s id)
  | none => none

/-- Insert a node for group g under a parent (R71); none when it finds no place. [DESIGN CHOICE: log 130] -/
def insertNode (s : State) (j slot ver key g : Nat) (run : List Nat) (parent : Option Nat) (path : List Nat) : Option (State × Nat) :=
  match makeSlot s key path with
  | none => none
  | some s =>
    let half := key / 2 ^ 20 % 2
    match pickFree (fun k => !(cwNode s (half * 2 ^ 20 + k)).valid) (2 ^ 20) (freshOf s) with
    | none => none
    | some k =>
      let id := half * 2 ^ 20 + k
      let addr := placeInMemory s j (roundUp (4 * run.length) 64)
      let s := writeBytes (draw s) addr (run.flatMap (fun t => toBytesLE 4 (t % 2 ^ 24)))
      let nd : CwNode := { key := key, group := g, ageMs := nowMs s, parent := parent.getD 0, children := 0, run := run,
                            valid := true, job := j, tipinSlot := slot, tipinVersion := ver, rootChild := parent.isNone, runAddr := addr }
      let s := modNode s id (fun _ => nd)
      let b := key % 2 ^ 21
      let slotEntry : CwSlot := { tag := key / 2 ^ 32, valid := true, node := id }
      let bs := tput s.cw.buckets b (bucketOf s key ++ [slotEntry])
      let s : State := { s with cw := { s.cw with buckets := bs } }
      let s := match parent with
        | some p => modNode s p (fun p => { p with children := p.children + 1 })
        | none => s
      some (modGroup (incRef s j g) j g (fun d => { d with indexed := true }), id)

/-- The insertion walk of R71 over the groups of a list: `toks` are the tokens of the scope not yet walked. [DESIGN CHOICE: log 131] -/
def insertWalk (j slot ver len : Nat) (partials : Bool) : List (Option Nat) → List Nat → Option Nat → List Nat → State → State
  | [], _, _, _, s => s
  | none :: _, _, _, _, s => s
  | some g :: r, toks, parent, path, s =>
    if toks = [] then s else
    let pk := match parent with
      | some p => (cwNode s p).key
      | none => 0
    let skip (s : State) : State := incF s 0x2400 0x07
    if len ≤ toks.length then
      let run := toks.take len
      let key := cwKey j slot ver pk run
      match cwFindFull s key run with
      | some id => insertWalk j slot ver len partials r (toks.drop len) (some id) (path ++ [id]) s
      | none =>
        if (groupOf s j g).indexed then skip s else
        match insertNode s j slot ver key g run parent path with
        | some (s, id) => insertWalk j slot ver len partials r (toks.drop len) (some id) (path ++ [id]) s
        | none => skip s
    else if !partials then s
    else
      let key := cwKey j slot ver pk []
      let held := (keyNodes s key).filter (fun id => decide ((cwNode s id).job = j))
      if held.any (fun id => decide ((cwNode s id).run = toks)) then s
      else if (groupOf s j g).indexed then skip s
      else
        let s := held.foldl evictNode s
        match insertNode s j slot ver key g toks parent path with
        | some (s, _) => s
        | none => skip s

/-- INDEX_POLICY, folio 0x2402.jj: scope and partial runs. -/
def indexScope (s : State) (j : Nat) : Nat := nfld (getF s 0x2402 j) 1 0

/-- Insert the nodes of a signature for the tokens of the scope whose KV is written (R71). -/
def insertSig (s : State) (n : Nat) : State :=
  let e := sigE s n
  let j := e.job.toNat
  let a := sigA s n
  let scope := indexScope s j
  let upto := if scope = 1 then min e.promptLen.toNat a.kv else if scope = 2 then a.kv else 0
  if upto = 0 ∨ (jobImage s j).isNone = true then s
  else insertWalk j e.tipinSlot.toNat e.tipinVersion.toNat (leafSize s j) (nbit (getF s 0x2402 j) 2) a.groups (a.tokens.take upto) none [] s

/-- Areas of `sizes` bytes in turn for the tables of a job, page-aligned in the interleaved pool of either half (Table 7-2), clear of
every image's memory and of every job's tables; where they lie is the part's choice, and without room there is none. [DESIGN CHOICE: log 121] -/
def placeTables (s : State) : List Nat → List (Nat × Nat) → List (Nat × Nat)
  | [], done => done
  | n :: r, done =>
    let used := done ++ (List.range 64).flatMap (fun k => (job s k).tables ++ (imageOf s k).memory)
    let half := 512 * shareBytes s
    let fits (a : Nat) : Bool := decide (a % half + n ≤ 512 * (shareBytes s - 0x400000))
    let ok (k : Nat) : Bool := fits (k * 4096) && !(used.any (fun u => overlaps (k * 4096) n u.1 u.2))
    match pickFree ok (2 * half / 4096) (freshOf s + done.length) with
    | some k => placeTables s r (done ++ [(k * 4096, n)])
    | none => done

/-- Places for `k` list pages of a job, each in the column pool of one of its columns (Table 7-2); which is the part's choice. [DESIGN CHOICE: log 121] -/
def placePages (s : State) (j : Nat) : Nat → List Nat → List Nat
  | 0, done => done
  | k + 1, done =>
    let c := (job s j).columns.getD (k % (job s j).columns.length) 0
    match placeIn s c 4096 4096 (usedIn s j c ++ done.map (fun a => (a, 4096))) with
    | some a => placePages s j k (done ++ [a])
    | none => placePages s j k done

/-- Evict the subtree of a node, children before parents (R237, R240). -/
def evictSubtree : Nat → State → Nat → State
  | 0, s, id => evictNode s id
  | fuel + 1, s, id =>
    let kids := tkeys s.cw.nodes (fun _ x => x.valid && !x.rootChild && decide (x.parent = id))
    evictNode (kids.foldl (evictSubtree fuel) s) id

/-- The node that holds an indexed group. -/
def nodeOfGroup (s : State) (j g : Nat) : Option Nat :=
  (s.cw.nodes.find? (fun x => x.2.valid && decide (x.2.job = j) && decide (x.2.group = g))).map (fun x => x.1)

/-- Evict the subtree below and including the node of a group. -/
def evictGroup (s : State) (j g : Nat) : State := match nodeOfGroup s j g with
  | some id => evictSubtree (cwUsed s) s id
  | none => s

/-- Nodes of a job. -/
def jobNodes (s : State) (j : Nat) : List Nat := tkeys s.cw.nodes (fun _ x => x.valid && decide (x.job = j))

/-- Take every node of a list out of the index without touching groups: the sweep of a job whose groups are gone (R73). -/
def sweepNodes (s : State) (ids : List Nat) : State :=
  ids.foldl (fun s id => modNode (clearSlot s id) id (fun _ => CwNode.zero)) s

/-- A sweep of a job's nodes begins (R73). -/
def startSweep (s : State) (j : Nat) : State :=
  { s with cw := { s.cw with sweeping := if s.cw.sweeping.contains j then s.cw.sweeping else s.cw.sweeping ++ [j] } }

/-- Groups of a job private to it and indexed, whose node has no children: what step 2 of grow() may evict (R74). [DESIGN CHOICE: log 129] -/
def evictable (s : State) (j : Nat) : List Nat :=
  (jobNodes s j).filter (fun id =>
    let x := cwNode s id
    let d := groupOf s j x.group
    decide (x.children = 0) && decide (d.refcount = 1) && d.indexed && !d.moving && decide (groupTier s j x.group = .stacked))

end Sys2Proof.Machine
end

