-- ==== Sys2Proof/Machine/Net.lean ====
section
/-! DEFINITION. What every family sends through: transaction headers (Table 12-3), the link check and control words
(R310, R311, R314), the transmit path of a link (R313, R315), egress queues and shapers (R350, R351), and the issue of a
fabric transaction (R269, R284, R285). -/

namespace Sys2Proof.Machine

open Host

/-! ### Transaction headers (Table 12-3) -/

/-- A transaction header. -/
def mkHeader (type dest src srcJob master vn tag off lenM1 op status : Nat) (ordered : Bool) (epoch : Nat) : BitVec 256 :=
  BitVec.ofNat 256 (place type 255 248 + place dest 247 232 + place src 231 216 + place srcJob 215 210
    + place master 209 194 + place vn 193 192 + place tag 191 176 + place off 175 128 + place lenM1 127 116
    + place op 115 112 + place status 111 108 + place (b2n ordered) 107 107 + place epoch 103 72)

/-- TYPE. -/
def hType (h : BitVec 256) : Nat := fld h 255 248
/-- DEST. -/
def hDest (h : BitVec 256) : Nat := fld h 247 232
/-- SOURCE. -/
def hSource (h : BitVec 256) : Nat := fld h 231 216
/-- SRC_JOB. -/
def hSrcJob (h : BitVec 256) : Nat := fld h 215 210
/-- MASTER. -/
def hMaster (h : BitVec 256) : Nat := fld h 209 194
/-- VN. -/
def hVn (h : BitVec 256) : Nat := fld h 193 192
/-- TAG. -/
def hTag (h : BitVec 256) : Nat := fld h 191 176
/-- OFFSET. -/
def hOffset (h : BitVec 256) : Nat := fld h 175 128
/-- LEN_M1. -/
def hLenM1 (h : BitVec 256) : Nat := fld h 127 116
/-- OP. -/
def hOp (h : BitVec 256) : Nat := fld h 115 112
/-- STATUS. -/
def hStatus (h : BitVec 256) : Nat := fld h 111 108
/-- ORDERED. -/
def hOrdered (h : BitVec 256) : Bool := nbit h.toNat 107
/-- HOPS. -/
def hHops (h : BitVec 256) : Nat := fld h 71 64

/-- A header with one field replaced. -/
def hSet (h : BitVec 256) (v hi lo : Nat) : BitVec 256 := BitVec.ofNat 256 (setFld h.toNat v hi lo)

/-- Master class and index packed (Table 12-5). -/
def masterOf (cls idx : Nat) : Nat := cls * 2 ^ 13 + idx % 2 ^ 13

/-- Bytes of a payload padded to 32 (R308). -/
def padded (payload : List Byte) : Nat := roundUp payload.length 32

/-- Header plus padded payload, bytes (R351). -/
def wireBytes (payload : List Byte) : Nat := 32 + padded payload

/-! ### The link check (R311) -/

/-- Parity of the 64 bits of a word. -/
def parity64 (w : Nat) : Nat := popCount 64 w % 2

/-- 64-bit words of a byte string, in address order, `n` of them. -/
def words64 : Nat → List Byte → List Nat
  | 0, _ => []
  | n + 1, bs => ofBytesLE (bs.take 8) :: words64 n (bs.drop 8)

/-- The check over words, the first given having number `k`. -/
def checkFrom (k c : Nat) : List Nat → Nat
  | [] => c
  | w :: r => checkFrom (k + 1) (c ^^^ (parity64 w * 2 ^ (k % 32))) r

/-- The check of a transaction: header bits [63:0] taken as zero, payload padded with zero bytes (R311). -/
def linkCheck (h : BitVec 256) (payload : List Byte) : BitVec 32 :=
  let x := h.toNat
  let hw := [0, nfld x 127 64, nfld x 191 128, nfld x 255 192]
  BitVec.ofNat 32 (checkFrom 0 0 (hw ++ words64 (padded payload / 8) payload))

/-- OWN_CHECK of a control word: R311 with bits [95:0] taken as zero. -/
def ownCheck (w : BitVec 256) : BitVec 32 := linkCheck (hSet (hSet w 0 95 64) 0 63 0) []

/-! ### Links -/

/-- A link. -/
def linkOf (s : State) (l : Nat) : Link := tget Link.zero s.link.links l

/-- Replace a link. -/
def setLink (s : State) (l : Nat) (x : Link) : State :=
  { s with link := { s.link with links := tset Link.zero s.link.links l x } }

/-- Change a link. -/
def modLink (s : State) (l : Nat) (f : Link → Link) : State := setLink s l (f (linkOf s l))

/-- Code of a link state (Table 14-5). -/
def linkCode : LinkMode → Nat
  | .disabled => 0
  | .down => 1
  | .training => 2
  | .testing => 3
  | .measuring => 4
  | .up => 5
  | .active => 6
  | .retrain => 7
  | .fenced => 8

/-- LINK_STATE, folio 0x4801.ll. -/
def linkStateWord (s : State) (l : Nat) : Nat :=
  let x := linkOf s l
  let other := decide (x.peerEndpoint ≠ 0) && decide (volumeOf x.peerEndpoint ≠ volumeOf (ownEndpoint s))
  place (linkCode x.mode) 31 28 + place (b2n x.rsOn) 27 27 + place (b2n other) 26 26 + place x.peerLink 23 16
    + place x.peerEndpoint 15 0

/-- Links in UP or ACTIVE carry control words. -/
def linkLive (m : LinkMode) : Bool := decide (m = .up) || decide (m = .active)

/-- Links of the package that satisfy a test of their state. -/
def linksIn (s : State) (p : LinkMode → Bool) : List Nat := tkeys s.link.links (fun _ x => p x.mode)

/-- Lane of the unit after `n` bytes: 32-byte units go to the two lanes alternately (R308). -/
def nextLane (lane n : Nat) : Nat := (lane + n / 32) % 2

/-- A payload padded with zero bytes to a multiple of 32 (R308). -/
def padTo32 (payload : List Byte) : List Byte := payload ++ List.replicate (padded payload - payload.length) 0

/-- Send a control word of Table 14-3 on a link: BODY given at its place in the word. -/
def sendWord (s : State) (l kind body : Nat) : State :=
  let x := linkOf s l
  let w : Nat := place 0xF0 255 248 + place kind 247 240 + body
  let w := w + place (ownCheck (BitVec.ofNat 256 w)).toNat 95 64
  let sent := BitVec.ofNat 256 (w + place x.rxSeq 47 32 + place x.lastCheck.toNat 31 0)
  if s.link.dark then s else
  let s := setLink s l { x with lastCheck := linkCheck sent [], ackSinceNs := none, lane := nextLane x.lane 32 }
  emit s (.word l x.lane sent)

/-- IDLE (R314). -/
def sendIdle (s : State) (l : Nat) : State := sendWord s l 0 0

/-- NAK naming the SEQ wanted. -/
def sendLinkNak (s : State) (l : Nat) : State :=
  let s := sendWord s l 1 (place (linkOf s l).rxSeq 239 224)
  modLink s l (fun x => { x with nakOut := true })

/-- Bytes of one plane in the replay buffer. -/
def replayBytes (x : Link) (plane : Nat) : Nat :=
  ((x.replay.filter (fun r => decide (r.item.plane = plane))).map (fun r => wireBytes r.item.payload)).foldl (· + ·) 0

/-- Capacity of a plane's replay buffer (R313). -/
def replayCap (plane : Nat) : Nat := if plane = 0 then 256 * 1024 else 32 * 1024

/-- Units of 256 bytes that a transaction takes. [DEDUCED: log 99] -/
def creditUnits (payload : List Byte) : Nat := ceilDiv (wireBytes payload) 256

/-- A transaction may be sent: the link is ACTIVE, credit is held and the replay buffer has room (R313, R315). -/
def canSend (x : Link) (i : LinkItem) : Bool :=
  decide (x.mode = .active) && decide (creditUnits i.payload ≤ x.credit.getD i.plane 0)
    && decide (replayBytes x i.plane + wireBytes i.payload ≤ replayCap i.plane)

/-- Put a transaction on the wire with the link fields of Table 14-2; the check that follows it is inverted when it is a
stomp (R312). A dark transmitter sends nothing (R308). -/
def putOnWire (s : State) (l seq : Nat) (i : LinkItem) (stomped : Bool) : State :=
  if s.link.dark then s else
  let x := linkOf s l
  let h := hSet (hSet (hSet i.header seq 63 48) x.rxSeq 47 32) x.lastCheck.toNat 31 0
  let c := linkCheck i.header i.payload
  let s := setLink s l { x with lastCheck := if stomped then ~~~c else c, ackSinceNs := none, lane := nextLane x.lane (wireBytes i.payload) }
  emit s (.sent l x.lane h (padTo32 i.payload))

/-- The packets of a queue pair that a packet on the wire stands for: itself, or the responses that a READ_REQ asks for. -/
def standsFor (h : BitVec 256) (qh : Nat) (p : TxPacket) : Bool :=
  let o := fld p.qheader 194 163
  decide (p.msn = nfld qh 218 195) &&
    (if hType h = 0x42 then decide (nfld qh 194 163 ≤ o) && decide (o < nfld qh 194 163 + nfld qh 162 131) else decide (p.psn = nfld qh 242 219))

/-- A queue packet departs: its repeat is due some time after its last departure (R302). -/
def noteDeparture (s : State) (h : BitVec 256) (payload : List Byte) : State :=
  if hSource h = ownEndpoint s ∧ (0x40 ≤ hType h ∧ hType h ≤ 0x42 ∨ hType h = 0x44) then
    let q := hMaster h % 2 ^ 13
    let x := tget QueuePair.zero s.queue.qps q
    let qh := ofBytesLE (payload.take 32)
    let tx := x.tx.map (fun p => if standsFor h qh p then { p with departNs := some s.now } else p)
    { s with queue := { s.queue with qps := tset QueuePair.zero s.queue.qps q { x with tx := tx } } }
  else s

/-- Send a transaction for the first time: SEQ, replay buffer, credit, and the high-water mark of its wait (R356). -/
def sendItem (s : State) (l : Nat) (i : LinkItem) (stomped : Bool) : State :=
  let x := linkOf s l
  let seq := x.txSeq
  let s := putOnWire (noteDeparture s i.header i.payload) l seq i stomped
  let s := modLink s l (fun x => { x with txSeq := (seq + 1) % 65536, replay := x.replay ++ [{ seq := seq, item := i, stomped := stomped }],
                                          credit := x.credit.set i.plane (x.credit.getD i.plane 0 - creditUnits i.payload) })
  let f := 0x5440 + i.plane
  let v := getF s f l
  let w := min (s.now - i.atNs) (2 ^ 32 - 1)
  if nfld v 31 0 < w then setF s f l (setFld v w 31 0) else s

/-! ### Shapers (R351) -/

/-- Shaper of an egress queue: job n, or class queue 64 + cc; the two live in folios 0x5420.jj and 0x5421.cc. -/
def shaperWord (s : State) (q : Nat) : Nat := if q < 64 then getF s 0x5420 q else getF s 0x5421 (q - 64)

/-- BURST in thousandths of a byte. -/
def shaperBurst (w : Nat) : Nat := nfld w 55 32 * 1024 * 1000

/-- The token count of a shaper now, in thousandths of a byte: RATE MB/s is RATE thousandths of a byte per ns. -/
def shaperTokens (s : State) (q : Nat) : Nat :=
  let w := shaperWord s q
  if nbit w 63 then match tfind s.traffic.shapers q with
    | some b => min (shaperBurst w) (b.tokens + (s.now - b.atNs) * nfld w 31 0)
    | none => shaperBurst w
  else shaperBurst w

/-- The shaper permits a cost in bytes. -/
def shaperPermits (s : State) (q cost : Nat) : Bool :=
  !(nbit (shaperWord s q) 63) || decide (cost * 1000 ≤ shaperTokens s q)

/-- The shaper is lowered by a cost; with ENABLE = 0 it stays at BURST. -/
def shaperTake (s : State) (q cost : Nat) : State :=
  if nbit (shaperWord s q) 63 then
    let b : Bucket := { tokens := shaperTokens s q - cost * 1000, atNs := s.now }
    { s with traffic := { s.traffic with shapers := tput s.traffic.shapers q b } }
  else s

/-- Class queue of an egress queue. -/
def queueClass (s : State) (q : Nat) : Nat := if q < 64 then 64 + b2n (job s q).bestEffort else q

/-- Both shapers of a queue permit its head. -/
def headPermitted (s : State) (i : EgressItem) : Bool :=
  let c := wireBytes i.payload
  (if i.queue < 64 then shaperPermits s i.queue c else true) && shaperPermits s (queueClass s i.queue) c

/-- Local time from which a shaper permits a cost, as it stands (R351); 0 where it permits at once. -/
def shaperWhen (s : State) (q cost : Nat) : Nat :=
  let w := shaperWord s q
  if nbit w 63 then match tfind s.traffic.shapers q with
    | some b => b.atNs + ceilDiv (cost * 1000 - b.tokens) (nfld w 31 0)
    | none => 0
  else 0

/-- Local time from which both shapers of a head permit it. -/
def headWhen (s : State) (i : EgressItem) : Nat :=
  let c := wireBytes i.payload
  max (if i.queue < 64 then shaperWhen s i.queue c else 0) (shaperWhen s (queueClass s i.queue) c)

/-- A head that leaves has waited on its shapers from when it was found held until both permitted it: added to folio 0x5424.jj. [DEDUCED: log 166] -/
def countHeld (s : State) (i : EgressItem) : State := match tfind s.traffic.headSince i.queue with
  | none => s
  | some t =>
    let n := tget 0 s.traffic.heldNs i.queue + (min s.now (headWhen s i) - t)
    let s : State := { s with traffic := { s.traffic with heldNs := tput s.traffic.heldNs i.queue n,
                                                          headSince := tdel s.traffic.headSince i.queue } }
    if i.queue < 64 then setF s 0x5424 i.queue (n / 1000 % 2 ^ 32) else s

/-- Heads of the egress queues, oldest item of each. -/
def queueHeads (s : State) : List EgressItem :=
  s.traffic.egress.foldl (fun (acc : List EgressItem) i => if acc.any (fun h => decide (h.queue = i.queue)) then acc else acc ++ [i]) []

/-- The link of the ordered path to an endpoint. -/
def routeLink (s : State) (dest : Nat) : Option Nat := (tfind s.fabric.routes dest).map (fun r => r.link)

/-- Round robin: the queue after the one served last comes first. -/
def rrBefore (last a b : Nat) : Bool := decide ((a + 128 - last - 1) % 128 ≤ (b + 128 - last - 1) % 128)

/-- The head of the egress queues that link `l` takes next (R350): a latency-critical queue before any best-effort one, one
class round robin, queues whose head is held by a shaper passed over. [DEDUCED: log 109] -/
def pickEgress (s : State) (l : Nat) : Option EgressItem :=
  let ok := (queueHeads s).filter (fun i => decide (routeLink s (hDest i.header) = some l) && headPermitted s i
              && canSend (linkOf s l) { plane := 0, header := i.header, payload := i.payload, atNs := 0 })
  let best (c : Nat) : Option EgressItem :=
    (ok.filter (fun i => decide (queueClass s i.queue = 64 + c))).foldl (fun (b : Option EgressItem) i => match b with
      | none => some i
      | some x => if rrBefore (tget 127 s.traffic.lastServed c) i.queue x.queue then some i else some x) none
  match best 0 with
  | some i => some i
  | none => best 1

/-- A job's egress wait (R356): the mark, and one log entry when it first passes the alarm. -/
def egressWait (s : State) (q wait : Nat) : State :=
  if q < 64 then
    let s := maxF s 0x5425 q (min wait (2 ^ 32 - 1))
    if getF s 0x5402 0x02 < wait ∧ s.traffic.alarmed.contains q = false then
      logErr { s with traffic := { s.traffic with alarmed := s.traffic.alarmed ++ [q] } } 0x3B 0 0 (some q) (wait / 1000) 0
    else s
  else s

/-- The head leaves its egress queue (R351): tokens taken, marks updated. -/
def departEgress (s : State) (i : EgressItem) : State :=
  let c := wireBytes i.payload
  let s := countHeld s i
  let s := if i.queue < 64 then shaperTake s i.queue c else s
  let s := shaperTake s (queueClass s i.queue) c
  let s := { s with traffic := { s.traffic with
              egress := s.traffic.egress.erase i,
              lastServed := tput s.traffic.lastServed (queueClass s i.queue - 64) i.queue } }
  egressWait s i.queue (s.now - i.issuedNs)

/-- The next transaction of a plane in a link's transmit path, if it may be sent. [DEDUCED: log 109] -/
def planeReady (x : Link) (plane : Nat) : Option LinkItem :=
  match x.egress.find? (fun i => decide (i.plane = plane)) with
  | some i => if canSend x i then some i else none
  | none => none

/-- The link sends one transaction when one may go, chosen as R315 and R350 give; none when nothing is ready. -/
def sendNext (s : State) (l : Nat) : Option State :=
  let x := linkOf s l
  let v0 := planeReady x 0
  let e0 := if v0.isSome then none else pickEgress s l
  let busy := v0.isSome || e0.isSome
  let turn1 := !busy || decide (15 ≤ x.sinceVn1)
  let turn2 := !busy || decide (15 ≤ x.sinceVn2)
  let took (n1 n2 : Nat) (s : State) : State := modLink s l (fun x => { x with sinceVn1 := n1, sinceVn2 := n2 })
  let drop (i : LinkItem) (s : State) : State := modLink s l (fun x => { x with egress := x.egress.erase i })
  match (if turn1 then planeReady x 1 else none) with
  | some i => some (sendItem (took 0 (x.sinceVn2 + 1) (drop i s)) l i false)
  | none => match (if turn2 then planeReady x 2 else none) with
    | some i => some (sendItem (took (x.sinceVn1 + 1) 0 (drop i s)) l i false)
    | none => match v0 with
      | some i => some (sendItem (took (x.sinceVn1 + 1) (x.sinceVn2 + 1) (drop i s)) l i false)
      | none => match e0 with
        | some i => some (sendItem (took (x.sinceVn1 + 1) (x.sinceVn2 + 1) (departEgress s i)) l
                            { plane := 0, header := i.header, payload := i.payload, atNs := s.now } false)
        | none => none

/-- Send while anything may go; an IDLE follows the last transaction so that its check travels (R314). -/
def pumpLink : Nat → State → Nat → Bool → State
  | 0, s, _, _ => s
  | n + 1, s, l, sent => match sendNext s l with
    | some s => pumpLink n s l true
    | none => if sent then sendIdle s l else s

/-- Transactions that could at most leave on a link now. -/
def pumpFuel (s : State) (l : Nat) : Nat := (linkOf s l).egress.length + s.traffic.egress.length + 1

/-- Run a link's transmit path; a dark transmitter sends nothing (R15, R439). -/
def runLink (s : State) (l : Nat) : State := if s.link.dark then s else pumpLink (pumpFuel s l) s l false

/-- Heads that wait on a shaper begin to be timed (folio 0x5424.jj). -/
def noteHeld (s : State) : State :=
  let waiting := (queueHeads s).filter (fun i => !headPermitted s i)
  waiting.foldl (fun s i => match tfind s.traffic.headSince i.queue with
    | some _ => s
    | none => { s with traffic := { s.traffic with headSince := tput s.traffic.headSince i.queue s.now } }) s

/-- Run every ACTIVE link's transmit path. -/
def runLinks (s : State) : State := noteHeld ((linksIn s (fun m => decide (m = .active))).foldl runLink s)

/-- Bytes queued in the transmit path of one plane (R356). -/
def queuedBytes (x : Link) (plane : Nat) : Nat :=
  ((x.egress.filter (fun i => decide (i.plane = plane))).map (fun i => wireBytes i.payload)).foldl (· + ·) 0

/-- A transaction joins a link's transmit path: transit traffic, responses, and traffic of VN1 and VN2. -/
def enqueueLink (s : State) (l plane : Nat) (h : BitVec 256) (payload : List Byte) : State :=
  let s := modLink s l (fun x => { x with egress := x.egress ++ [{ plane := plane, header := h, payload := payload, atNs := s.now }] })
  let f := 0x5440 + plane
  let v := getF s f l
  let b := min (queuedBytes (linkOf s l) plane) (2 ^ 32 - 1)
  let s := if nfld v 63 32 < b then setF s f l (setFld v b 63 32) else s
  runLink s l

/-- Send a transaction towards its destination over the ordered path; without a route nothing leaves. -/
def routeOut (s : State) (plane : Nat) (h : BitVec 256) (payload : List Byte) : State :=
  match routeLink s (hDest h) with
  | some l => enqueueLink s l plane h payload
  | none => noteDeparture s h payload

/-- A response of this package to a request: DEST the source, TAG and VN kept (Table 12-3). -/
def respond (s : State) (q : BitVec 256) (type status : Nat) (payload : List Byte) : State :=
  let h := mkHeader type (hSource q) (ownEndpoint s) (hSrcJob q) (hMaster q) (hVn q) (hTag q) (hOffset q)
    (if payload = [] then hLenM1 q else payload.length - 1) (if type = 6 then hOp q else 0) status (hOrdered q) (getF s 0x4000 0x04)
  routeOut (transmit s (.fabric h payload)) (hVn q) h payload

/-! ### Issue -/

/-- Why a request cannot leave at all: the destination is dead (R285) or has no route. -/
def issueBar (s : State) (dest : Nat) : Option Nat :=
  if s.fabric.deadEndpoints.contains dest then some 0xB
  else if (tfind s.fabric.routes dest).isNone then some 0xC else none

/-- A tag not outstanding; which one is the issuer's choice. -/
def freeTag (s : State) : Nat :=
  (pickFree (fun t => !(s.fabric.outstanding.any (fun o => decide (o.tag = t)))) 65536 (freshOf s)).getD 0

/-- Ordered requests outstanding to a destination. [DEDUCED: log 41] -/
def orderedOut (s : State) (dest : Nat) : Bool :=
  s.fabric.outstanding.any (fun o => decide (o.dest = dest) && hOrdered o.header)

/-- A request leaves: outstanding until its response, in its egress queue (VN0) or in the transmit path. -/
def launch (s : State) (queue : Option Nat) (h : BitVec 256) (payload : List Byte) (dst : Option Nat) : State :=
  let o : Outstanding := { tag := hTag h, dest := hDest h, job := hSrcJob h, master := hMaster h, header := h, payload := payload,
                           issuedNs := s.now, dst := dst }
  let s := { s with fabric := { s.fabric with outstanding := s.fabric.outstanding ++ [o] } }
  let s := transmit s (.fabric h payload)
  match queue with
  | some q =>
    let i : EgressItem := { queue := q, issuedNs := s.now, header := h, payload := payload }
    runLinks { s with traffic := { s.traffic with egress := s.traffic.egress ++ [i] } }
  | none => routeOut s (hVn h) h payload

/-- Egress queue of a master: the job's for classes 0, 2 and 3 on VN0, the class pool's for the tier engine (R350). -/
def egressQueueOf (s : State) (cls srcJob vn : Nat) : Option Nat :=
  if vn ≠ 0 then none
  else if cls = 1 then some (64 + b2n (job s srcJob).bestEffort)
  else if cls = 0 ∨ cls = 2 ∨ cls = 3 then some srcJob else none

/-- A STORE or ATOMIC of a master to bytes that a range meets. -/
def storeMeets (h : BitVec 256) (srcJob master off len : Nat) : Bool :=
  (decide (hType h = 2) || decide (hType h = 3)) && decide (hSrcJob h = srcJob) && decide (hMaster h = master)
    && overlaps (hOffset h) (hLenM1 h + 1) off len

/-- A request stays behind what it must not overtake: an ordered one behind ordered requests on an old path or withheld (R275, R284), a
LOAD or ATOMIC behind its master's earlier STORE or ATOMIC to overlapping bytes that is withheld or was issued in an earlier epoch (R275).
`held` are the requests withheld before it. -/
def staysBehind (s : State) (held : List Withheld) (h : BitVec 256) : Bool :=
  (hOrdered h && (s.fabric.holding.contains (hDest h) || held.any (fun w => hOrdered w.header)))
    || ((decide (hType h = 1) || decide (hType h = 3)) &&
      (held.any (fun w => storeMeets w.header (hSrcJob h) (hMaster h) (hOffset h) (hLenM1 h + 1))
        || s.fabric.outstanding.any (fun o => decide (o.dest = hDest h) && decide (fld o.header 103 72 ≠ getF s 0x4000 0x04)
          && storeMeets o.header (hSrcJob h) (hMaster h) (hOffset h) (hLenM1 h + 1))))

/-- Issue a request (R269): its status when it cannot leave; otherwise it is outstanding, or withheld behind what it must not overtake
(R275, R284). -/
def issue (s : State) (type dest srcJob cls idx vn off len op : Nat) (ordered : Bool) (payload : List Byte)
    (dst : Option Nat) : State × Option Nat :=
  match issueBar s dest with
  | some st => (s, some st)
  | none =>
    let h := mkHeader type dest (ownEndpoint s) srcJob (masterOf cls idx) vn (freeTag s) off (len - 1) op 0 ordered
      (getF s 0x4000 0x04)
    let s := draw s
    if staysBehind s (s.fabric.withheld.filter (fun w => decide (w.dest = dest))) h then
      ({ s with fabric := { s.fabric with withheld := s.fabric.withheld ++ [{ dest := dest, header := h, payload := payload, dst := dst }] } },
        none)
    else (launch s (egressQueueOf s cls srcJob vn) h payload dst, none)

end Sys2Proof.Machine
end

