-- ==== Sys2Proof/Machine/Access.lean ====
section
/-! DEFINITION. Receiver-side checks of the fabric (R272 to R274), accesses to a target, freezing of masters (R368) and
their release (R274, R369). -/

namespace Sys2Proof.Machine

open Host

/-! ### Freezing -/

/-- A frozen master. -/
def frozenOf (s : State) (cls idx : Nat) : Option FrozenMaster :=
  s.fabric.frozen.find? (fun m => decide (m.cls = cls) && decide (m.index = idx))

/-- Mark the frozen state where the master's own registers show it. -/
def markFrozen (s : State) (cls idx : Nat) (on : Bool) : State :=
  if cls = 0 then modSeq s idx (fun q => { q with frozen := on, running := q.running && !on })
  else if cls = 3 then { s with queue := { s.queue with qps := tmod QueuePair.zero s.queue.qps idx (fun q => { q with frozen := on }) } }
  else s

/-- Freeze a master (R368): classes 1, 2 and 4 never freeze; freezing twice is one freeze. -/
def freezeQuiet (s : State) (cls idx jb : Nat) : State :=
  if (cls = 0 ∨ cls = 3 ∨ cls = 5) ∧ (frozenOf s cls idx).isNone = true then
    let m : FrozenMaster := { cls := cls, index := idx, job := jb, thaw := [], releasing := none }
    let s := markFrozen s cls idx true
    { s with fabric := { s.fabric with frozen := s.fabric.frozen ++ [m] } }
  else s

/-- Unit charged with a master: a quire sequencer's quire, otherwise none. [DEDUCED: log 94] -/
def masterUnit (cls idx : Nat) : Nat := if cls = 0 then unitQuire idx else 0

/-- Freeze a master by a rule, other than by trap 0x12: logged with cause 0x22 and the rule in DETAIL. -/
def freezeMaster (s : State) (cls idx jb rule : Nat) : State :=
  if (cls = 0 ∨ cls = 3 ∨ cls = 5) ∧ (frozenOf s cls idx).isNone = true then
    logMaster (freezeQuiet s cls idx jb) 0x22 (masterUnit cls idx) (masterPlane cls) (if cls = 5 then none else some jb) rule (masterOf cls idx)
  else s



/-- An entry loses VALID, and nothing else (R273). -/
def dropXlate (e : XlateEntry) : XlateEntry := { e with valid := false }

/-- a − b modulo 2^24. -/
def sub24 (a b : Nat) : Nat := (a + 2 ^ 24 - b % 2 ^ 24) % 2 ^ 24

/-- a is below b modulo 2^24. -/
def lt24 (a b : Nat) : Bool := decide (a ≠ b) && decide (sub24 b a < 2 ^ 23)

/-- A region entry. -/
def regionOf (s : State) (r : Nat) : Region := tget Region.zero s.queue.regions r

/-- Replace a region entry. -/
def setRegion (s : State) (r : Nat) (x : Region) : State :=
  { s with queue := { s.queue with regions := tset Region.zero s.queue.regions r x } }

/-- The region key of an entry. -/
def regionKey (r : Nat) (x : Region) : Nat := 2 ^ 31 + place r 30 18 + place x.generation 17 10 + place x.tag 9 0

/-- Report of the last region command, folio 0x4102.04. -/
def regionResult (s : State) (code key : Nat) : State := setF s 0x4102 0x04 (place code 63 56 + place key 31 0)

/-- A message of the region, stamped, is still arriving at a READY queue pair. -/
def stampBusy (s : State) (r : Nat) (x : Region) : Bool :=
  x.stamps.any (fun p =>
    let y := qp s p.1
    decide (y.mode = .ready) && y.rx.any (fun m => !m.complete && decide (m.key = regionKey r x) && (decide (m.msn = p.2) || lt24 m.msn p.2)))

/-- Revocation completes (R304): the translation entry ends, STATE becomes REVOKED, the completion is reported. -/
def finishRevoke (s : State) (r : Nat) : State :=
  let x := regionOf s r
  let s := if x.host then s else { s with fabric := { s.fabric with xlate := s.fabric.xlate.map (fun e => if e.1 = x.xlate then (e.1, dropXlate e.2) else e) } }
  let s := setRegion s r { x with mode := .revoked, stamps := [] }
  incF (regionResult s 2 (regionKey r x)) 0x4110 0x07

/-- Revocations that no stamped message holds back complete. -/
def checkDrains (s : State) : State :=
  (tkeys s.queue.regions (fun _ x => decide (x.mode = .draining))).foldl (fun s r =>
    if stampBusy s r (regionOf s r) then s else finishRevoke s r) s

/-- The receive descriptors below index `upto` that no completion has ended complete with FLUSHED, in order (R296). -/
def flushReceives (s : State) (q upto : Nat) : State :=
  let x := qp s q
  let s := (List.range (upto - x.recvDone)).foldl (fun s k =>
    postCompletion s q (completionWord (recvDesc s x (x.recvDone + k)).2.2 0 0 0 q 0 0x22 true)) s
  modQp s q (fun x => { x with recvDone := max x.recvDone upto })

/-- Remaining send descriptors and messages of a queue pair complete, and it enters ERROR: messages on the list with the
status that `f` gives, or FLUSHED; descriptors never run with FLUSHED (R296). -/
def qpFlush (s : State) (q : Nat) (f : SendMsg → Nat) : State :=
  let x := qp s q
  let msgs := x.msgs.map (fun m => if m.ended.isSome then m else { m with ended := some (f m) })
  let left : Nat := x.sqProd - x.sqCons
  let done := msgs.map (fun m => (m.desc, m.ended.getD 0x22))
    ++ (List.range left).map (fun k => (sendDesc s x (x.sqCons + k), (0x22 : Nat)))
  let s := setQp s q { x with mode := .error, msgs := [], tx := [], sqCons := x.sqProd }
  let s := done.foldl (fun s d =>
    if nbit d.1.toNat 499 ∨ d.2 ≠ 0 then
      postCompletion s q (completionWord (fld d.1 63 0) (if d.2 = 0 then fld d.1 479 448 else 0) 0 0 q (fld d.1 511 504) d.2 false)
    else s) s
  let s := flushReceives s q (qp s q).rqProd
  checkDrains (modQp s q (fun x => { x with rx := [] }))

/-- The queue pair enters ERROR with every remaining descriptor FLUSHED. -/
def qpError (s : State) (q : Nat) : State := qpFlush s q (fun _ => 0x22)

/-- The release of a master takes effect (R369): logged with cause 0x26 and the number of endpoints sent THAW. [DESIGN CHOICE: log 125] -/
def released (s : State) (m : FrozenMaster) : State :=
  let s := { s with fabric := { s.fabric with frozen := s.fabric.frozen.filter (fun x => !(decide (x.cls = m.cls) && decide (x.index = m.index))) } }
  let s := markFrozen s m.cls m.index false
  let s := if m.cls = 3 then qpError s m.index else s
  logMaster s 0x26 (masterUnit m.cls m.index) 2 (if m.cls = 5 then none else some m.job) m.thaw.length (masterOf m.cls m.index)

/-- Send THAW naming a master to one endpoint (R274); its STORE_ACK is awaited. -/
def sendThaw (m : FrozenMaster) (s : State) (e : Nat) : State :=
  match issueBar s e with
  | some _ => s
  | none =>
    let h := mkHeader 8 e (ownEndpoint s) m.job (masterOf m.cls m.index) 1 (freeTag s) 0 0 0 0 false (getF s 0x4000 0x04)
    launch (draw s) none h [] none

/-- The refusing endpoint joins the master's thaw list of 16 entries (R274); while the master's release waits, it is sent THAW too. -/
def addThaw (s : State) (cls idx e : Nat) : State := match frozenOf s cls idx with
  | none => s
  | some m =>
    if m.thaw.contains e ∨ 16 ≤ m.thaw.length then s else
    let s := if m.releasing.isSome then sendThaw m s e else s
    let n : FrozenMaster := { m with thaw := m.thaw ++ [e], releasing := m.releasing.map (fun r => (r.1 ++ [e], r.2)) }
    { s with fabric := { s.fabric with frozen := s.fabric.frozen.map (fun x => if x.cls = cls ∧ x.index = idx then n else x) } }

/-- Begin the release of a frozen master: THAW to every endpoint of its list, at once when the list is empty. -/
def startRelease (s : State) (m : FrozenMaster) : State :=
  if m.releasing.isSome then s
  else if m.thaw = [] then released s m
  else
    let s := m.thaw.foldl (sendThaw m) s
    { s with fabric := { s.fabric with frozen := s.fabric.frozen.map (fun x =>
        if x.cls = m.cls ∧ x.index = m.index then { x with releasing := some (m.thaw, s.now) } else x) } }

/-- A STORE_ACK answering a THAW arrived from an endpoint: the master is released when none is awaited. -/
def thawAcked (s : State) (master e : Nat) : State :=
  match s.fabric.frozen.find? (fun m => decide (masterOf m.cls m.index = master)) with
  | none => s
  | some m => match m.releasing with
    | none => s
    | some (l, at0) =>
      let l := l.filter (fun x => decide (x ≠ e))
      if l = [] then released s m
      else { s with fabric := { s.fabric with frozen := s.fabric.frozen.map (fun x => if x = m then { m with releasing := some (l, at0) } else x) } }

/-! ### Quarantine (R274) -/

/-- The master of a request is quarantined. -/
def quarantined (s : State) (h : BitVec 256) : Bool :=
  s.fabric.quarantine.any (fun e => decide (e.2.source = hSource h) && decide (e.2.srcJob = hSrcJob h) && decide (e.2.master = hMaster h))

/-- Enter the master of a refused request; a full quarantine is counted. Which free entry is the part's choice. -/
def quarantine (s : State) (h : BitVec 256) : State :=
  if quarantined s h then s else
  match pickFree (fun k => (tfind s.fabric.quarantine k).isNone) 64 (freshOf s) with
  | none => incF s 0x4021 0x02
  | some k =>
    let e : QuarantineEntry := { source := hSource h, srcJob := hSrcJob h, master := hMaster h }
    draw { s with fabric := { s.fabric with quarantine := tput s.fabric.quarantine k e } }

/-- A refusal by the receiver: REFUSE with the status, and on a freezing one the quarantine entry. -/
def refuseTx (s : State) (h : BitVec 256) (status : Nat) : State :=
  let s := if status = 1 ∨ status = 2 ∨ status = 3 then quarantine s h else s
  respond (incF s 0x4030 status) h 7 status []

/-! ### Checks (R269, R270, R273) -/

/-- Payload bytes that an atomic request carries (Table 12-4). -/
def atomicPayloadOk (op n : Nat) : Bool :=
  if op = 5 then decide (n = 8) || decide (n = 16) else decide (n = 4) || decide (n = 8)

/-- Operand width of an atomic: half the payload for CAS (R270). -/
def atomicWidth (op n : Nat) : Nat := if op = 5 then n / 2 else n

/-- A memory-semantic request keeps R269 and R270. -/
def wellFormedReq (h : BitVec 256) (payload : List Byte) : Bool :=
  let n := hLenM1 h + 1
  let ty := hType h
  let off := hOffset h
  decide (fld h 106 104 = 0) && decide (fld h 63 0 = 0) && decide (hVn h ≠ 3) && decide (hStatus h = 0) &&
  (if ty = 1 then decide (payload = []) && decide (hOp h = 0) && decide (off % 4096 + n ≤ 4096)
   else if ty = 2 then decide (payload.length = n) && decide (hOp h = 0) && decide (off % 4096 + n ≤ 4096)
   else if ty = 3 then
     decide (hOp h ≤ 9) && decide (payload.length = n) && atomicPayloadOk (hOp h) n && decide (off % atomicWidth (hOp h) n = 0)
   else false)

/-- The valid translation entry that covers an offset, among those that `p` admits. -/
def xlateFor (s : State) (off : Nat) (p : XlateEntry → Bool) : Option (Nat × XlateEntry) :=
  s.fabric.xlate.find? (fun e => e.2.valid && decide (e.2.base * 4096 ≤ off)
    && decide (off ≤ (e.2.base + e.2.pagesM1 + 1) * 4096 - 1) && p e.2)

/-- The tier that holds a target refuses an access (R254, R260): status 0x9. -/
def tierRefuses (s : State) (addr : Nat) (write : Bool) : Bool :=
  if 0x900000000000 ≤ addr ∧ addr < 0xD00000000000 then
    let st := getF s 0x7000 0x01
    if write then decide (st ≠ 2) && decide (st ≠ 3) || s.flash.flushing
    else decide (st ≠ 2) && decide (st ≠ 3) && decide (st ≠ 4)
  else false

/-- One refusal more by a translation entry. -/
def countRefusal (s : State) (k : Nat) : State :=
  { s with fabric := { s.fabric with xlate := s.fabric.xlate.map (fun e =>
      if e.1 = k then (e.1, { e.2 with refusals := (e.2.refusals + 1) % 2 ^ 32 }) else e) } }

/-- Bytes that a request reaches: those of its operand for an atomic. -/
def reachBytes (h : BitVec 256) : Nat :=
  if hType h = 3 then atomicWidth (hOp h) (hLenM1 h + 1) else hLenM1 h + 1

/-- The checks of R273 from the translation entry on, for `n` bytes at `off`; kind 0 LOAD, 1 STORE, 2 ATOMIC. The answer is a
status and the entry that refuses, or the device physical address. -/
def translate (s : State) (h : BitVec 256) (off n kind : Nat) (stamped : Bool) (p : XlateEntry → Bool) :
    Except (Nat × Option Nat) Nat :=
  match xlateFor s off p with
  | none => .error (1, none)
  | some (k, e) =>
    if (e.base + e.pagesM1 + 1) * 4096 < off + n then .error (2, some k)
    else if e.state = .ending then .error (5, some k)
    else if (hSource h ^^^ e.srcEndpoint) &&& e.srcMask ≠ 0 ∨ (e.anyJob = false ∧ hSrcJob h ≠ e.srcJob)
      ∨ nbit e.masters (hMaster h / 2 ^ 13) = false
      ∨ (if kind = 0 then !e.read else if kind = 1 then !e.write else !e.atomic) = true then .error (3, some k)
    else if e.state = .draining ∧ stamped = false then .error (6, some k)
    else
      let a := e.target * 4096 + (off - e.base * 4096)
      if tierRefuses s a (decide (kind ≠ 0)) then .error (9, some k) else .ok a

/-! ### Access to a target -/

/-- Whether an address lies in the local flash window. -/
def inFlash (a : Nat) : Bool := decide (0x900000000000 ≤ a) && decide (a < 0xD00000000000)

/-- Bytes of a target: flash pages or device memory; none when a flash page is poisoned (R250). -/
def targetRead (s : State) (a n : Nat) : Option (List Byte) :=
  if inFlash a then
    let page := (a - 0x900000000000) / 4096
    if (tget FlashMapEntry.zero s.flash.map page).poisoned then none
    else some (((flashPageData s.flash page).drop (a % 4096)).take n)
  else some (readBytes s a n)

/-- Replace bytes of a list from an offset. -/
def spliceBytes (l : List Byte) (off : Nat) (bs : List Byte) : List Byte := l.take off ++ bs ++ l.drop (off + bs.length)

/-- A write of bytes within one flash page: the page is read, changed and written whole (R249); the answer goes to `o`. -/
def flashBytes (s : State) (o : FlashFor) (a : Nat) (bs : List Byte) : State :=
  let page := (a - 0x900000000000) / 4096
  queueWrite s (newWrite s o page (spliceBytes (latestPage s.flash page) (a % 4096) bs))

/-- Store bytes at a target; in flash, page by page. -/
def targetWrite (s : State) (a : Nat) (bs : List Byte) : State :=
  if inFlash a then
    let cuts := (List.range (bs.length / 4096 + 2)).map (fun k => if k = 0 then 0 else k * 4096 - a % 4096)
    (cuts.zip (cuts.drop 1)).foldl (fun s c =>
      let piece := (bs.drop c.1).take (c.2 - c.1)
      if piece = [] then s else flashBytes s (.engine none) (a + c.1) piece) s
  else writeBytes s a bs

/-- A word as a signed number of `w` bytes. -/
def signedOf (w v : Nat) : Int := if 2 ^ (8 * w - 1) ≤ v then (v : Int) - (2 ^ (8 * w) : Nat) else v

/-- The new value of an atomic (Table 12-6) of width `w` bytes: value, operand, compare value. -/
def atomicNew (op w v x cmp : Nat) : Nat :=
  match op with
  | 0 => (v + x) % 2 ^ (8 * w)
  | 1 => v &&& x
  | 2 => v ||| x
  | 3 => v ^^^ x
  | 4 => x
  | 5 => if v = cmp then x else v
  | 6 => if signedOf w v ≤ signedOf w x then v else x
  | 7 => if signedOf w x ≤ signedOf w v then v else x
  | 8 => min v x
  | 9 => max v x
  | _ => v

/-- What an atomic on the bytes at an address (R271) leaves there, and the prior value's bytes. -/
def atomicBytes (s : State) (a op : Nat) (payload : List Byte) : List Byte × List Byte :=
  let w := atomicWidth op payload.length
  let bytes := if inFlash a then ((latestPage s.flash ((a - 0x900000000000) / 4096)).drop (a % 4096)).take w else readBytes s a w
  let old := ofBytesLE bytes
  let (cmp, x) := if op = 5 then (ofBytesLE (payload.take w), ofBytesLE (payload.drop w)) else (0, ofBytesLE payload)
  (toBytesLE w (atomicNew op w old x cmp), toBytesLE w old)

/-- Perform an atomic on the bytes at an address: the state after and the prior value's bytes. -/
def doAtomic (s : State) (a op : Nat) (payload : List Byte) : State × List Byte :=
  let (new, old) := atomicBytes s a op payload
  (targetWrite s a new, old)

/-! ### Coherence at the home (R277 to R281) -/

/-- Lines of 64 bytes that a range touches. -/
def linesOf (a n : Nat) : List Nat := (List.range ((a + n - 1) / 64 + 1 - a / 64)).map (fun k => a / 64 + k)

/-- A line is poisoned. -/
def poisonedRange (s : State) (a n : Nat) : Bool := (linesOf a n).any (fun l => s.fabric.poisoned.contains l)

/-- An invalidation or recall goes to a member (type 0x09 invalidate, 0x0A recall). -/
def sendCoherence (s : State) (type member line : Nat) : State :=
  let h := mkHeader type member (ownEndpoint s) 0 (masterOf 4 0) 0 0 (line * 64) 63 0 0 true (getF s 0x4000 0x04)
  routeOut (transmit s (.fabric h [])) 0 h []

/-- A line becomes poisoned (R281), counted in folio 0x4033.02. [DEDUCED: log 98] -/
def poisonLine (s : State) (line : Nat) : State :=
  if s.fabric.poisoned.contains line then s
  else incF { s with fabric := { s.fabric with poisoned := s.fabric.poisoned ++ [line] } } 0x4033 0x02

/-- A recall of a modified line: the contents that the member returned are written back (R279); a member that died before it
returned them leaves the line poisoned (R281, Table 12-11). [DEDUCED: log 98] -/
def recallLine (s : State) (back : List (Nat × List Byte)) (m line : Nat) : State :=
  let s := incF (sendCoherence s 0x0A m line) 0x4033 0x01
  match back.find? (fun b => decide (b.1 = line)) with
  | some b => targetWrite s (line * 64) (b.2.take 64)
  | none => poisonLine s line

/-- Before a store or atomic the home invalidates every shared copy and recalls a modified one; before a load it recalls a
modified one (R279). `back` holds the contents that recalls returned. -/
def settleLine (back : List (Nat × List Byte)) (store : Bool) (s : State) (line : Nat) : State :=
  match s.fabric.directory.find? (fun d => decide (d.line = line)) with
  | none => s
  | some d =>
    let s := match d.modified with
      | some m => recallLine s back m line
      | none => s
    let keep := if store then [] else d.sharers ++ d.modified.toList
    let s := if store then d.sharers.foldl (fun s m => sendCoherence s 0x09 m line) s else s
    let dir := if keep = [] then s.fabric.directory.filter (fun x => !decide (x.line = line))
      else s.fabric.directory.map (fun x => if x.line = line then { x with sharers := keep, modified := none } else x)
    { s with fabric := { s.fabric with directory := dir } }

/-- The directory settled for a range. -/
def settleRange (s : State) (a n : Nat) (store : Bool) (back : List (Nat × List Byte)) : State :=
  (linesOf a n).foldl (settleLine back store) s

/-- The directory settled for an access of this package's own DMA (R279): what a recall returns is a free value. [DEDUCED: log 149] -/
def settleOwn (s : State) (a n : Nat) (store : Bool) : State :=
  if (linesOf a n).any (fun l => s.fabric.directory.any (fun d => decide (d.line = l))) then
    settleRange (draw s) a n store ((linesOf a n).map (fun l => (l, (List.range 64).map (fun i => Config.recalledByte s.freeCtr (l * 64 + i)))))
  else s

/-- A store that covers a whole line clears its poison (R281). -/
def clearPoison (s : State) (a n : Nat) : State :=
  { s with fabric := { s.fabric with poisoned := s.fabric.poisoned.filter (fun l => !(decide (a ≤ l * 64) && decide (l * 64 + 64 ≤ a + n))) } }

/-- Bytes reach device memory from a unit of this package: lines that members of the binding hold are settled first (R279), and a whole
line written is no longer poisoned (R281). -/
def ownWrite (s : State) (a : Nat) (bs : List Byte) : State := clearPoison (targetWrite (settleOwn s a bs.length true) a bs) a bs.length

/-! ### Translation entries of jobs -/

/-- Firmware registers a translation entry in a free place; which one is the part's choice. -/
def addXlate (s : State) (e : XlateEntry) : State × Option Nat :=
  match pickFree (fun k => !((tget XlateEntry.zero s.fabric.xlate k).valid)) 4096 (freshOf s) with
  | none => (s, none)
  | some k => (draw { s with fabric := { s.fabric with xlate := tput s.fabric.xlate k e } }, some k)

/-- TARGET lies wholly in one of the windows that R272 allows. -/
def targetAllowed (s : State) (t pages : Nat) : Bool :=
  let a := t * 4096
  let n := pages * 4096
  decide (a + n ≤ 1024 * shareBytes s) && decide (a < 0x100000000000)
  || (decide (0x100000000000 ≤ a) && decide (a + n ≤ 0x101000000000) && decide ((a - 0x100000000000) % 0x4000000 + n ≤ columnBytes s))
  || (decide (0x200000000000 ≤ a) && decide (a + n ≤ 0x200000000000 + lpddrBytes s))
  || (decide (0x900000000000 ≤ a) && decide (a + n ≤ 0x900000000000 + flashPages s * 4096))

/-- A translation entry breaks no limit of R272. -/
def xlateAllowed (s : State) (e : XlateEntry) : Bool :=
  targetAllowed s e.target (e.pagesM1 + 1)
    && decide ((e.base + e.pagesM1 + 1) * 4096 ≤ 0xFF0000000000)
    && !(s.fabric.xlate.any (fun x => x.2.valid && overlaps (e.base * 4096) ((e.pagesM1 + 1) * 4096) (x.2.base * 4096) ((x.2.pagesM1 + 1) * 4096)))

/-- Write a translation entry, or refuse and log one that breaks R272 (cause 0x29). -/
def writeXlate (s : State) (e : XlateEntry) : State × Option Nat :=
  if xlateAllowed s e then addXlate s e else (logErr s 0x29 0 1 none (s.fabric.xlate.length) 0, none)

/-- Every translation entry of a job enters ENDING (R273). -/
def endXlates (s : State) (j : Nat) : State :=
  { s with fabric := { s.fabric with xlate := s.fabric.xlate.map (fun e =>
      if !e.2.firmware && decide (e.2.ownerJob = j) then (e.1, { e.2 with state := .ending }) else e) } }

/-- Entries of a job in ENDING lose VALID once the accesses through them have completed (R273). -/
def clearXlates (s : State) (j : Nat) : State :=
  { s with fabric := { s.fabric with xlate := s.fabric.xlate.map (fun e =>
      if e.2.firmware || !decide (e.2.ownerJob = j) || !decide (e.2.state = .ending) then e else (e.1, dropXlate e.2)) } }

end Sys2Proof.Machine
end

