-- ==== Sys2Proof/Machine/Tiers.lean ====
section
/-! DEFINITION. Space and moves in the tiers (R227 to R231), and exhaustion: grow() and victim() of R74, resolve() of R64. -/

namespace Sys2Proof.Machine

open Host

/-- Number of a tier. -/
def tierNum : Tier → Nat
  | .stacked => 0
  | .lpddr6 => 1
  | .neighbour => 2
  | .host => 3
  | .flash => 4
  | .notPlaced => 7

/-- Class pool of a job: 0 latency-critical, 1 best-effort. -/
def jobClass (s : State) (j : Nat) : Nat := b2n (job s j).bestEffort

/-- Bytes that a leaf takes as an object in tiers 2 to 4 (R227): uncompressed, with header, tag and CHECK, to 4 KiB. -/
def objectBytes (i : JobImage) : Nat := roundUp (payloadBytes i + scaleBytesOf i + 96) 4096

/-- A group is referenced (R228). -/
def referenced (d : GroupDesc) : Bool := if d.indexed then decide (1 < d.refcount) else decide (0 < d.refcount)

/-- Index-only groups are the others that are LIVE. -/
def indexOnly (d : GroupDesc) : Bool := d.live && !referenced d

/-- Live groups of a job, ascending. -/
def liveGroups (s : State) (j : Nat) : List Nat := tkeys (job s j).groups (fun _ d => d.live)

/-- Jobs of a class that hold groups. -/
def classJobs (s : State) (c : Nat) : List Nat := (jobNumbers s).filter (fun j => decide (jobClass s j = c))

/-! ### Used space -/

/-- Leaves of a job in a tier other than 0, as (address, bytes). -/
def tierRanges (s : State) (j : Nat) (t : Tier) : List (Nat × Nat) :=
  let i := imageOf s j
  ((job s j).leaves.filter (fun e => decide (e.2.tier = t))).flatMap (fun e =>
    if t = .lpddr6 then [(e.2.page, payloadBytes i), (e.2.scaleAddr, scaleBytesOf i)] else [(e.2.page, objectBytes i)])

/-- Targets of moves that have started, as (address, bytes). -/
def moveRanges (s : State) (t : Tier) : List (Nat × Nat) :=
  (s.tier.moves.filter (fun m => decide (m.target.tier = t))).flatMap (fun m =>
    let i := imageOf s m.job
    m.addrs.flatMap (fun a => if t = .lpddr6 then [(a.1, payloadBytes i), (a.2, scaleBytesOf i)] else [(a.1, objectBytes i)]))

/-- An address lies in a loan window (Table 10-1). -/
def inLoan (a : Nat) : Bool := decide (0x300000000000 ≤ a) && decide (a < 0x340000000000)

/-- The tier whose space an address outside stacked DRAM belongs to: 1 LPDDR6, 2 a loan window, 4 the local flash. -/
def spaceOf (a : Nat) : Tier := if inLoan a then .neighbour else if 0x900000000000 ≤ a then .flash else if 0x200000000000 ≤ a then .lpddr6 else .stacked

/-- Ranges of a tier's space that moves of jobs torn down still hold (Table 10-7). -/
def endingRanges (s : State) (t : Tier) : List (Nat × Nat) := s.tier.ending.flatMap (fun e => e.ranges.filter (fun r => decide (spaceOf r.1 = t)))

/-- Every used range of a tier. -/
def usedTier (s : State) (t : Tier) : List (Nat × Nat) :=
  (jobNumbers s).flatMap (fun j => tierRanges s j t) ++ moveRanges s t ++ endingRanges s t

/-- Ranges that a class holds in a tier of this package's own, targets of moves under way included. -/
def classRanges (s : State) (c : Nat) (t : Tier) : List (Nat × Nat) :=
  let js := classJobs s c
  let s1 : State := { s with tier := { s.tier with moves := s.tier.moves.filter (fun m => js.contains m.job) } }
  let s2 : State := { s with tier := { s.tier with ending := s.tier.ending.filter (fun e => decide (e.pool = c)) } }
  (js.flatMap (fun j => tierRanges s j t) ++ moveRanges s1 t ++ endingRanges s2 t).filter (fun r => !(inLoan r.1))

/-- Bytes of a list of ranges. -/
def rangeBytes (l : List (Nat × Nat)) : Nat := (l.map (fun r => r.2)).foldl (· + ·) 0

/-- Bytes that a class holds in a tier of this package's own, moves under way included. -/
def classUsed (s : State) (c : Nat) (t : Tier) : Nat := rangeBytes (classRanges s c t)

/-- USED_PAGES of a loan entry (Table 10-4). -/
def loanUsedPages (s : State) (e : Nat) : Nat :=
  let lo := 0x300000000000 + e * 0x10000000000
  (((usedTier s .neighbour ++ usedTier s .flash).filter (fun r => decide (lo ≤ r.1) && decide (r.1 < lo + 0x10000000000))).map (fun r => ceilDiv r.2 4096)).foldl (· + ·) 0

/-! ### Room -/

/-- A place of `n` bytes aligned to `al` in [base, base + size), free of the ranges; which one is the part's choice. [DESIGN CHOICE: log 84] -/
def placeRange (s : State) (base size n al : Nat) (used : List (Nat × Nat)) : Option Nat :=
  let ok (k : Nat) : Bool := decide (k * al + n ≤ size) && !(used.any (fun u => overlaps (base + k * al) n u.1 u.2))
  (pickFree ok (size / al) (freshOf s)).map (fun k => base + k * al)

/-- Places of `k` leaves in LPDDR6. -/
def placeLpddr (s : State) (i : JobImage) : Nat → List (Nat × Nat) → Option (List (Nat × Nat))
  | 0, _ => some []
  | k + 1, used =>
    match placeRange s 0x200000000000 (lpddrBytes s) (payloadBytes i) 4096 used with
    | none => none
    | some p =>
      let used := used ++ [(p, payloadBytes i)]
      match (if scaleBytesOf i = 0 then some 0 else placeRange s 0x200000000000 (lpddrBytes s) (scaleBytesOf i) 64 used) with
      | none => none
      | some q => match placeLpddr s i k (used ++ [(q, scaleBytesOf i)]) with
        | none => none
        | some l => some ((p, q) :: l)

/-- Places of `k` objects in a window. -/
def placeObjects (s : State) (base size n : Nat) : Nat → List (Nat × Nat) → Option (List (Nat × Nat))
  | 0, _ => some []
  | k + 1, used => match placeRange s base size n 4096 used with
    | none => none
    | some p => match placeObjects s base size n k (used ++ [(p, n)]) with
      | none => none
      | some l => some ((p, p) :: l)

/-- LPDDR6 that groups cannot use: flash maps, job memory and lent ranges. -/
def lpddrTaken (s : State) : List (Nat × Nat) :=
  mapRange s ::
  (jobNumbers s).flatMap (fun j => (imageOf s j).memory)
  ++ (s.tier.lent.filter (fun r => decide (r.kind = 0))).map (fun r => (r.base, r.sizeGib * 2 ^ 30))

/-- Loan entries of a class and kind in which groups may be placed, ascending. -/
def openLoans (s : State) (c kind : Nat) : List Nat :=
  tkeys s.tier.loans (fun _ e => !e.recalled && !e.dead && decide (b2n e.bestEffort = c) && decide (e.kind = kind))

/-- Room for the leaves of a group of job `j` in the loans of a class and kind. -/
def loanRoom (s : State) (j c kind : Nat) : Option (Nat × List (Nat × Nat)) :=
  let i := imageOf s j
  (openLoans s c kind).findSome? (fun e =>
    match tfind s.tier.loans e with
    | none => none
    | some x => (placeObjects s (0x300000000000 + e * 0x10000000000) (x.sizeGib * 2 ^ 30) (objectBytes i) i.layers
        (usedTier s .neighbour ++ usedTier s .flash)).map (fun l => (e, l)))

/-! ### Extents of the local flash (Table 11-2) -/

/-- 1 GiB extents of the local flash behind the bookmark store. -/
def extentCount (s : State) : Nat := getF s 0x7000 0x03 - getF s 0x7030 0x01

/-- Device physical address of an extent. -/
def extentAt (s : State) (k : Nat) : Nat := 0x900000000000 + extentBase s * 4096 + k * 2 ^ 30

/-- Extents that a range touches. -/
def extentsOf (s : State) (a n : Nat) : List Nat :=
  let first := (a - extentAt s 0) / 2 ^ 30
  (List.range ((a + n - 1 - extentAt s 0) / 2 ^ 30 + 1 - first)).map (fun k => first + k)

/-- Extents that hold objects of the ranges. -/
def extentsUsed (s : State) (l : List (Nat × Nat)) : List Nat := (l.flatMap (fun r => extentsOf s r.1 r.2)).eraseDups

/-- An extent is free: not lent, and holding no object of a class pool. [DEDUCED: log 147] -/
def extentFree (s : State) (k : Nat) : Bool :=
  !(s.flash.lentExtents.any (fun x => decide (x.2.1 ≤ k) && decide (k < x.2.1 + x.2.2)))
    && !((usedTier s .flash).any (fun r => overlaps (extentAt s k) (2 ^ 30) r.1 r.2))

/-- Places of `k` objects of `n` bytes in the local flash, for a class pool that holds the ranges `own`: in extents that it owns, and in
free ones as long as it then owns at most `share`; an extent is owned by the pool whose objects it holds. [DEDUCED: log 147] -/
def placeFlash (s : State) (n share : Nat) : Nat → List (Nat × Nat) → Option (List (Nat × Nat))
  | 0, _ => some []
  | k + 1, own =>
    let mine := extentsUsed s own
    let ok (p : Nat) : Bool :=
      let a := extentAt s 0 + p * 4096
      let more := (extentsOf s a n).filter (fun e => !(mine.contains e))
      decide (p * 4096 + n ≤ extentCount s * 2 ^ 30) && !(own.any (fun u => overlaps a n u.1 u.2))
        && more.all (extentFree s) && decide (mine.length + more.length ≤ share)
    match pickFree ok (extentCount s * 2 ^ 18) (freshOf s) with
    | none => none
    | some p =>
      let a := extentAt s 0 + p * 4096
      match placeFlash s n share k (own ++ [(a, n)]) with
      | none => none
      | some l => some ((a, a) :: l)

/-- Room for one group of job `j` in tier `t`: the loan entry (tiers 2 and 4) and the places of its leaves. -/
def roomIn (s : State) (j : Nat) (t : Tier) : Option (Nat × List (Nat × Nat)) :=
  let i := imageOf s j
  let c := jobClass s j
  match t with
  | .lpddr6 =>
    if classUsed s c .lpddr6 + i.layers * (payloadBytes i + scaleBytesOf i) ≤ getF s 0x2420 (c + 1) * 2 ^ 30 then
      (placeLpddr s i i.layers (usedTier s .lpddr6 ++ lpddrTaken s)).map (fun l => (0, l))
    else none
  | .neighbour => loanRoom s j c 0
  | .flash =>
    if flashState s = 3 then none else
    match (if flashState s = 2 then placeFlash s (objectBytes i) (getF s 0x7031 (c + 1)) i.layers (classRanges s c .flash) else none) with
    | some l => some (0, l)
    | none => loanRoom s j c 1
  | _ => none

/-! ### Moves (R227) -/

/-- Half whose tier engine moves a group: that of its layer-0 column. -/
def groupHalf (s : State) (j g : Nat) : Nat := (leafOf s j g 0).column / 512

/-- Moves running in a half; each half runs up to 16 at once (R241). -/
def movesRunning (s : State) (h : Nat) : Nat :=
  s.tier.moves.countP (fun m => m.started && decide (groupHalf s m.job m.group = h))

/-- The places for a move's target, if there is room. -/
def targetPlaces (s : State) (m : TierMove) : Option (List (Nat × Nat)) :=
  if m.target.tier = .stacked then placeLeaves s m.job (columnsOf s m.job m.group) []
  else (roomIn s m.job m.target.tier).map (fun r => r.2)

/-- Fabric address of a place in a loan (R235): lender and fabric offset. -/
def loanAddr (s : State) (a : Nat) : Option (Nat × Nat) :=
  (tfind s.tier.loans ((a - 0x300000000000) / 0x10000000000)).map (fun e => (e.lender, e.remoteBase * 4096 + (a - 0x300000000000) % 0x10000000000))

/-- The tier engine reads an object that lies in a loan; elsewhere nothing leaves the package. [DESIGN CHOICE: log 143] -/
def readLoan (s : State) (a n : Nat) : State :=
  if inLoan a then match loanAddr s a with
    | some (e, o) => emit s (.loanRead e o n)
    | none => s
  else s

/-- The tier engine writes an object into a loan. [DESIGN CHOICE: log 143] -/
def writeLoan (s : State) (a : Nat) (obj : List Byte) : State := match loanAddr s a with
  | some (e, o) => emit s (.loanWrite e o obj)
  | none => s


/-- A group is being moved. -/
def moveOf (s : State) (j g : Nat) : Option TierMove := s.tier.moves.find? (fun m => decide (m.job = j) && decide (m.group = g))

/-- Raw bytes of a leaf in tier 0 or 1: payload then scale record. -/
def leafBytes (s : State) (j : Nat) (d : LeafDesc) : List Byte :=
  let i := imageOf s j
  readBytes s d.page (payloadBytes i) ++ readBytes s d.scaleAddr (scaleBytesOf i)

/-- Store raw leaf bytes at a place of tier 0 or 1. -/
def storeLeaf (s : State) (j : Nat) (p : Nat × Nat) (bs : List Byte) : State :=
  let n := payloadBytes (imageOf s j)
  writeBytes (writeBytes s p.1 (bs.take n)) p.2 (bs.drop n)

/-- STRIDE of a KV format's objects (R331): the element size for formats of whole bytes. -/
def kvStride (i : JobImage) : Nat := if i.fmt = 0 then 1 else 0

/-- Why the leaves of a group could not be moved: a source cannot be read, or a target does not take the write. -/
inductive MoveStop where
  | unread
  | unwritten
  deriving DecidableEq, Repr

/-- A byte string in pages of 4 KiB, the last padded with zero. -/
def pagesOf (bs : List Byte) : List (List Byte) :=
  (List.range (ceilDiv bs.length 4096)).map (fun k => ((bs.drop (k * 4096)).take 4096 ++ List.replicate 4096 0).take 4096)

/-- An object that the tier engine writes to the local flash for the move of a group (R248): its pages only as far as the casing output
reaches, each a write that is confirmed in its turn (R249, R258), and the remaining pages of its allocation of `n` bytes discarded. -/
def flashStore (s : State) (j g addr n : Nat) (bs : List Byte) : Except MoveStop State :=
  let first := (addr - 0x900000000000) / 4096
  let used := ceilDiv bs.length 4096
  if flashTakes s = false then .error .unwritten
  else
    let s := (pagesOf bs).zipIdx.foldl (fun s x => queueWrite s (newWrite s (.engine (some (j, g))) (first + x.2) x.1)) s
    .ok (discardAt s (first + used) (ceilDiv n 4096 - used))

/-- A page of the object that the tier engine writes for the move of a group is not confirmed yet. -/
def writesWait (s : State) (j g : Nat) : Bool :=
  let mine (w : FlashWrite) : Bool := decide (w.origin = .engine (some (j, g)))
  s.flash.waiting.any mine || s.flash.dirty.any (fun w => mine w && !w.confirmed)

/-- The writes of a group's move that have not been taken yet are not made. -/
def stopWrites (s : State) (j g : Nat) : State :=
  { s with flash := { s.flash with waiting := s.flash.waiting.filter (fun w => !decide (w.origin = .engine (some (j, g)))) } }

/-- Pages of an object at an address of the local flash window. -/
def objectPages (addr n : Nat) : List Nat := (List.range (ceilDiv n 4096)).map (fun k => (addr - 0x900000000000) / 4096 + k)

/-- Object bytes at an address of the local flash window; none when one of its pages is poisoned (R250). -/
def flashObject (s : State) (addr n : Nat) : Option (List Byte) :=
  let ps := objectPages addr n
  if ps.any (poisonedPage s.flash) then none else some ((ps.flatMap (fun k => flashPageData s.flash k)).take n)

/-- A source object in the local flash is discarded (R250). -/
def flashDiscard (s : State) (addr n : Nat) : State :=
  if inLoan addr then s else discardAt s ((addr - 0x900000000000) / 4096) (ceilDiv n 4096)

/-- The bytes of one leaf go to the target: raw in tiers 0 and 1, cased in tiers 2 and 4 (R227); the cased object of a loan leaves for its
lender. -/
def writeLeafTo (s : State) (j g half : Nat) (t : Tier) (p : Nat × Nat) (bs : List Byte) : Except MoveStop State :=
  if t = .stacked ∨ t = .lpddr6 then .ok (storeLeaf s j p bs)
  else match caseObject s j (kvStride (imageOf s j)) half bs with
    | (_, none) => .error .unwritten
    | (s, some o) => if inLoan p.1 then .ok (writeLoan s p.1 o) else flashStore s j g p.1 (objectBytes (imageOf s j)) o

/-- The raw bytes of a leaf wherever it lies: `obj` is the object read from a loan; none when it does not open. -/
def readLeafFrom (s : State) (j half : Nat) (d : LeafDesc) (obj : List Byte) : State × Option (List Byte) :=
  let opened (o : List Byte) : State × Option (List Byte) := match openObject s half o with
    | (s, .ok r) => (s, some r)
    | (s, .error _) => (s, none)
  match d.tier with
  | .stacked => (s, some (leafBytes s j d))
  | .lpddr6 => (s, some (leafBytes s j d))
  | .flash =>
    if inLoan d.page then opened obj else match flashObject s d.page (objectBytes (imageOf s j)) with
      | some o => opened o
      | none => (s, none)
  | .neighbour => opened obj
  | _ => (s, none)

/-- The leaves of a group are read and written to the target, layer by layer (R227), each through a pair of the half of its column; what
was written before a leaf that stops the move stays written. -/
def sendLeaves (j g : Nat) (t : Tier) : List (Nat × (Nat × Nat) × List Byte) → State → State × Option MoveStop
  | [], s => (s, none)
  | (l, p, o) :: r, s =>
    let d := leafOf s j g l
    match readLeafFrom s j (d.column / 512) d o with
    | (s, none) => (s, some .unread)
    | (s, some bs) => match writeLeafTo s j g (d.column / 512) t p bs with
      | .error e => (s, some e)
      | .ok s => sendLeaves j g t r s

/-- A group lies in a loan. -/
def groupLent (s : State) (j g : Nat) : Bool := inLoan (leafOf s j g 0).page && decide (groupTier s j g = .neighbour ∨ groupTier s j g = .flash)

/-- Replace a move of the queue. -/
def setMove (s : State) (m m2 : TierMove) : State :=
  { s with tier := { s.tier with moves := s.tier.moves.map (fun x => if x = m then m2 else x) } }

/-- Every leaf of a started move is written to its target; `objs` are the objects read from a loan. A target that does not take a write
leaves the move marked refused, a source that cannot be read leaves it unsent. [DESIGN CHOICE: log 143] -/
def sendMove (s : State) (m : TierMove) (objs : List (List Byte)) : State × Option MoveStop :=
  let ls := (layersOf s m.job).map (fun l => (l, m.addrs.getD l (0, 0), objs.getD l []))
  let s := setMove s m { m with sent := true }
  sendLeaves m.job m.group m.target.tier ls s

/-- Begin the move at position `k` of the queue when its half has a free place and its target has room: a source in a loan is read, another
is written to the target at once. -/
def startMoveAt (s : State) (m : TierMove) : State :=
  if m.started ∨ 16 ≤ movesRunning s (groupHalf s m.job m.group) then s else
  let go (s : State) (m2 : TierMove) : State :=
    let s := draw (setMove s m m2)
    if groupLent s m.job m.group then
      (layersOf s m.job).foldl (fun s k => readLoan s (leafOf s m.job m.group k).page (objectBytes (imageOf s m.job))) s
    else match sendMove s m2 [] with
      | (s, none) => s
      | (s, some .unread) => setMove s { m2 with sent := true } m2
      | (s, some .unwritten) => setMove s { m2 with sent := true } { m2 with sent := true, refused := true }
  if m.target.tier ≠ .stacked then go s { m with started := true }
  else match targetPlaces s m with
    | none => s
    | some l => go s { m with started := true, addrs := l }

/-- Start queued moves, urgent promotions ahead of background ones (R231). -/
def startMoves (s : State) : State :=
  let q := s.tier.moves.filter (fun m => !m.started)
  (q.filter (fun m => m.urgent) ++ q.filter (fun m => !m.urgent)).foldl startMoveAt s

/-- Queue a move of a group: MOVING is set while it waits or runs. A demotion's places are taken at once. -/
def queueMove (s : State) (m : TierMove) : State :=
  let s := modGroup s m.job m.group (fun d => { d with moving := true })
  startMoves { s with tier := { s.tier with moves := s.tier.moves ++ [m] } }

/-- Drop a move from the queue. -/
def dropMove (s : State) (m : TierMove) : State := { s with tier := { s.tier with moves := s.tier.moves.filter (fun x => !decide (x = m)) } }

/-- MOVING is cleared; a group whose count reached 0 meanwhile is returned (R63). -/
def endMoving (s : State) (j g : Nat) : State :=
  let s := modGroup s j g (fun d => { d with moving := false })
  if (groupOf s j g).live then s else returnGroup s j g

/-- One leaf's descriptor names its place in the target, and a source object in the local flash is discarded (R227, R250). -/
def placeLeafAt (j g : Nat) (t : Tier) (s : State) (e : Nat × (Nat × Nat)) : State :=
  let d := leafOf s j g e.1
  let s := setLeaf s j g e.1 { d with tier := t, page := e.2.1, scaleAddr := e.2.2 }
  if d.tier = .flash then flashDiscard s d.page (objectBytes (imageOf s j)) else s

/-- The target has confirmed the last write: descriptors rewritten, source freed, MOVING cleared (R227). Until then the source stays the
only valid copy. -/
def finishMove (s : State) (m : TierMove) : State :=
  let j := m.job
  let s := ((layersOf s j).map (fun l => (l, m.addrs.getD l (0, 0)))).foldl (placeLeafAt j m.group m.target.tier) s
  let s := endMoving (dropMove s m) j m.group
  startMoves (if m.promotion then incF s 0x243A j else if m.target.tier = .stacked then s else incF s 0x2439 j)

/-! ### Demotion (R230) -/

/-- Signatures of a job named by frozen or running steps. -/
def stepSigs (s : State) (j : Nat) : List Nat :=
  (partPlans (job s j).gen ++ partPlans (job s j).prompt).flatMap planSigs

/-- Groups named by frozen or running steps of a job, with those of more signatures. -/
def namedGroups (s : State) (j : Nat) (more : List Nat) : List Nat :=
  (stepSigs s j ++ more).flatMap (fun n => (sigA s n).groups.filterMap (fun g => g))

/-- candidate(g) of R230. -/
def isCandidate (s : State) (j : Nat) (named : List Nat) (g : Nat) : Bool :=
  let d := groupOf s j g
  d.live && !d.moving && decide (groupTier s j g = .stacked) && !(named.contains g)
    && decide (getF s 0x2420 0x03 ≤ ageOf s d.ageMs)

/-- The oldest of a list of groups of a job by AGE_MS, the lower group index on a tie. -/
def oldestGroup (s : State) (j : Nat) (gs : List Nat) : Option Nat :=
  gs.foldl (fun (b : Option Nat) g => match b with
    | none => some g
    | some x =>
      let ax := ageOf s (groupOf s j x).ageMs
      let ag := ageOf s (groupOf s j g).ageMs
      if ax < ag ∨ (ax = ag ∧ g < x) then some g else some x) none

/-- The candidate of a job with the oldest AGE_MS. -/
def oldestCandidate (s : State) (j : Nat) (named : List Nat) : Option Nat :=
  oldestGroup s j ((liveGroups s j).filter (isCandidate s j named))

/-- Index-only groups of a class in a tier, not moving, as (job, group). -/
def idleGroups (s : State) (c : Nat) (t : Tier) : List (Nat × Nat) :=
  (classJobs s c).flatMap (fun j =>
    ((liveGroups s j).filter (fun g => decide (groupTier s j g = t) && indexOnly (groupOf s j g) && !(groupOf s j g).moving)).map (fun g => (j, g)))

/-- The oldest of (job, group) pairs; on a tie the lower job, then the lower group index. -/
def oldestPair (s : State) (l : List (Nat × Nat)) : Option (Nat × Nat) :=
  l.foldl (fun (b : Option (Nat × Nat)) p => match b with
    | none => some p
    | some x =>
      if ageOf s (groupOf s x.1 x.2).ageMs < ageOf s (groupOf s p.1 p.2).ageMs then some p else some x) none

/-- Tiers that place() may use for a group, ascending. [DEDUCED: log 81] -/
def placeTiers (s : State) (j g : Nat) : List Tier :=
  if referenced (groupOf s j g) then [.lpddr6]
  else
    let e := getF s 0x2421 (jobClass s j)
    (if nbit e 1 then [.lpddr6] else []) ++ (if nbit e 2 then [.neighbour] else []) ++ (if nbit e 4 then [Tier.flash] else [])

/-- What place() answers. -/
inductive Placing where
  | at (p : TierPlace)
  /-- A group is leaving the tier; the place is free when it has left. -/
  | later
  | nowhere
  deriving DecidableEq, Repr

/-- The first tier of a list with room for a group of job `j`. -/
def firstRoom (s : State) (j : Nat) (ts : List Tier) : Option TierPlace :=
  ts.findSome? (fun t => (roomIn s j t).map (fun r => { tier := t, loan := r.1 }))

/-- A group that could leave a tier of the list for a greater one with room: (job, group, its new place). -/
def pushDown (s : State) (c : Nat) (ts : List Tier) : Option (Nat × Nat × TierPlace) :=
  ts.findSome? (fun t => match oldestPair s (idleGroups s c t) with
    | none => none
    | some (j, g) => (firstRoom s j (ts.filter (fun u => decide (tierNum t < tierNum u)))).map (fun p => (j, g, p)))

/-- A move of a group out of tier 0 or between lower tiers, its places taken at once. [DEDUCED: log 81] -/
def demoteTo (s : State) (j g : Nat) (p : TierPlace) : State :=
  match roomIn s j p.tier with
  | none => s
  | some (e, l) =>
    queueMove (draw s) { job := j, group := g, target := { tier := p.tier, loan := e }, promotion := false, urgent := false,
                         started := false, sent := false, refused := false, addrs := l, follow := none }

/-- place(g) of R230. -/
def placeGroup (s : State) (j g : Nat) : State × Placing :=
  let c := jobClass s j
  let ts := placeTiers s j g
  match firstRoom s j ts with
  | some p => (s, .at p)
  | none => match pushDown s c ts with
    | some (j2, g2, p) => (demoteTo s j2 g2 p, .later)
    | none =>
      let childless := (ts.flatMap (fun t => idleGroups s c t)).filter (fun x => match nodeOfGroup s x.1 x.2 with
        | some id => decide ((cwNode s id).children = 0)
        | none => false)
      match oldestPair s childless with
      | none => (s, .nowhere)
      | some (j2, g2) => match nodeOfGroup s j2 g2 with
        | none => (s, .nowhere)
        | some id =>
          let t := groupTier s j2 g2
          let s := evictNode s id
          match roomIn s j t with
          | some r => (s, .at { tier := t, loan := r.1 })
          | none => (s, .later)

/-! ### Requests for loans (R234) -/

/-- Header of a loan message (Table 10-5). -/
def loanHeader (s : State) (type loan kind size base : Nat) : BitVec 1024 :=
  BitVec.ofNat 1024 (place type 511 504 + place (ownEndpoint s) 503 488 + place loan 487 472 + place kind 471 470 + place size 469 453
    + place base 452 417)

/-- Send a loan message. [DESIGN CHOICE: log 141] -/
def sendLoan (s : State) (dest type loan kind size base : Nat) : State := transmit s (.message 1 dest (loanHeader s type loan kind size base) [])

/-- The lender list, folios 0x2453.00 to 0x2453.03. -/
def lenderList (s : State) : List Nat :=
  ((List.range 4).flatMap (fun k => (List.range 4).map (fun i => nfld (getF s 0x2453 k) (16 * i + 15) (16 * i)))).filter (fun e => decide (e ≠ 0))

/-- One advertisement goes before another (R234). -/
def advertBefore (s : State) (a b : AdvertSeen) : Bool :=
  let ba := (bindingPeers s).contains a.lender
  let bb := (bindingPeers s).contains b.lender
  if ba ≠ bb then ba else if a.freeGib ≠ b.freeGib then decide (b.freeGib < a.freeGib) else decide (a.lender ≤ b.lender)

/-- The lender to ask for a loan of a kind: of the binding, or of the lender list. -/
def lenderFor (s : State) (kind : Nat) : Option Nat :=
  let known := bindingPeers s ++ lenderList s
  let l := s.tier.adverts.filter (fun a => decide (a.kind = kind) && decide (0 < a.freeGib) && decide (s.now - a.receivedNs ≤ 30000000)
    && known.contains a.lender)
  ((sortBy (advertBefore s) l).head?).map (fun a => a.lender)

/-- Ask for a loan for a class pool: of LPDDR6 when tier 2 is enabled and someone offers it, else of flash when tier 4 is (R230, R234).
A request that has not been answered within 1 ms no longer keeps another from being sent. [DEDUCED: log 81] -/
def requestLoan (s : State) (c : Nat) : State :=
  if 64 ≤ s.tier.loans.length then s else
  let e := getF s 0x2421 c
  let kinds := (if nbit e 2 then [0] else []) ++ (if nbit e 4 then [1] else [])
  match kinds.findSome? (fun k => (lenderFor s k).map (fun l => (k, l))) with
  | none => s
  | some (k, l) =>
    if s.tier.asked.any (fun a => decide (a.kind = k) && decide (b2n a.bestEffort = c) && decide (s.now - a.sentNs ≤ 1000000)) then s else
    let a : LoanAsked := { lender := l, kind := k, bestEffort := decide (c = 1), sentNs := s.now }
    sendLoan { s with tier := { s.tier with asked := s.tier.asked ++ [a] } } l 0x31 0 k (min (getF s 0x2450 0x05) 1024) 0

/-! ### The demotion pass (R230) -/

/-- Groups of a job moving out of tier 0. -/
def movingOut (s : State) (j : Nat) : Nat := s.tier.moves.countP (fun m => decide (m.job = j) && !m.promotion && decide (groupTier s j m.group = .stacked))

/-- place() found no tier: with tier 2 or 4 enabled a loan is asked for (R230). -/
def askForLoan (s : State) (c : Nat) : State :=
  if nbit (getF s 0x2421 c) 2 ∨ nbit (getF s 0x2421 c) 4 then requestLoan s c else s

/-- The loop of R230 for one job; a group whose space grow() has handed on still counts once. [DEDUCED: log 83] -/
def demoteLoop (j : Nat) (named : List Nat) : Nat → State → State
  | 0, s => s
  | fuel + 1, s =>
    if getF s 0x2403 j - (stackedGroups s j - movingOut s j) < getF s 0x2423 j then
      match oldestCandidate s j (namedGroups s j [] ++ named) with
      | none => s
      | some g => match placeGroup s j g with
        | (s, .at p) => demoteLoop j named fuel (demoteTo s j g p)
        | (s, .later) => s
        | (s, .nowhere) => askForLoan s (jobClass s j)
    else s

/-- Demotion of one running job. -/
def demoteJob (s : State) (j : Nat) (named : List Nat) : State :=
  let on (s : State) (b : Bool) : State :=
    { s with tier := { s.tier with active := if b then (if s.tier.active.contains j then s.tier.active else s.tier.active ++ [j])
                                             else s.tier.active.filter (fun k => decide (k ≠ j)) } }
  let s := if groupsFree s j < getF s 0x2422 j then on s true else s
  let s := if s.tier.active.contains j then demoteLoop j named (liveGroups s j).length s else s
  if getF s 0x2423 j ≤ groupsFree s j then on s false else s

/-- The pass of R230 over the running jobs; `named` are groups of job `j` that a composition in progress names. -/
def demotionPass (s : State) (j : Nat) (named : List Nat) : State :=
  (runningJobs s).foldl (fun s k => demoteJob s k (if k = j then named else [])) s

/-- Greatest time, ns, of a demotion by Table 10-6 to places of a tier: LPDDR6, or a loan of a lender, whose flash access time this package
is not told. The table has no row for the local flash. [DESIGN CHOICE: log 84] -/
def demoteNs (s : State) (j : Nat) (p : TierPlace) (places : List (Nat × Nat)) : Option Nat :=
  let b := groupBytes s j
  let lent (more : Nat → Nat) : Option Nat := (tfind s.tier.loans p.loan).map (fun e => 5000 + pathDelay s e.lender + ceilDiv b 56 + more e.lender)
  match p.tier with
  | .lpddr6 => some (2000 + ceilDiv b 200)
  | .neighbour => lent (fun _ => 0)
  | .flash => if places.any (fun a => inLoan a.1) then lent (fun e => Config.flashAccessNs e b) else none
  | _ => none

/-- A demotion to a place ends by local time `startNs` (Table 10-6). -/
def endsBy (s : State) (j startNs : Nat) (p : TierPlace) (places : List (Nat × Nat)) : Bool :=
  (demoteNs s j p places).any (fun d => decide (s.now + d ≤ startNs))

/-- Groups of a job that are leaving tier 0: their moves have started. -/
def leaving (s : State) (j : Nat) : List TierMove :=
  s.tier.moves.filter (fun m => decide (m.job = j) && m.started && !m.promotion && decide (groupTier s j m.group = .stacked))

/-- The state as placement sees it once some groups of a job have left their columns. -/
def withoutLeaves (s : State) (j : Nat) (gs : List Nat) : State :=
  gs.foldl (fun t g => (layersOf t j).foldl (fun t l => setLeaf t j g l LeafDesc.zero) t) s

/-- grow()'s demotion: when Table 10-6 shows that the move of the job's oldest candidate to its place ends before the step starts at local
time `startNs`, the pass of R230 runs, and the new group takes places that demotions leave by then. Without a place a loan is asked for
(R230). [DEDUCED: log 83] -/
def growDemote (s : State) (j n startNs : Nat) (cols : State → List Nat) (named : List Nat) : State × Option Nat :=
  match oldestCandidate s j named with
  | none => (s, none)
  | some g => match placeGroup s j g with
    | (t, .at p) =>
      if endsBy t j startNs p (((roomIn t j p.tier).map (fun r => r.2)).getD []) then
        let s := demotionPass s j named
        let out := ((leaving s j).filter (fun m => endsBy s j startNs m.target m.addrs)).map (fun m => m.group)
        let t := withoutLeaves s j out
        match (if out = [] then none else placeLeaves t j (cols t) []) with
        | none => (s, none)
        | some ps => match takeGroupAt s j n (cols t) ps with
          | some (s, g) => (s, some g)
          | none => (s, none)
      else (s, none)
    | (t, .later) => (t, none)
    | (t, .nowhere) => (askForLoan t (jobClass t j), none)

/-! ### Promotion (R231, R232) -/

/-- Ranges that the leaves of groups waiting to be promoted will take, as far as they find room. -/
def promisedRanges (s : State) (j : Nat) : List Nat → List (Nat × Nat) → List (Nat × Nat)
  | [], done => done
  | g :: r, done => match placeLeaves s j (columnsOf s j g) done with
    | some ps => promisedRanges s j r (done ++ ps.flatMap (fun p => [(p.1, payloadBytes (imageOf s j)), (p.2, scaleBytesOf (imageOf s j))]))
    | none => promisedRanges s j r done

/-- Room for the leaves of a group in its columns once the groups that are moving out have left, and those promotions that wait before it
have come. -/
def columnRoom (s : State) (j g : Nat) : Bool :=
  let out := (s.tier.moves.filter (fun m => decide (m.job = j) && !m.promotion && decide (groupTier s j m.group = .stacked))).map (fun m => m.group)
  let ahead := (s.tier.moves.filter (fun m => decide (m.job = j) && m.promotion && !m.started && decide (m.group ≠ g))).map (fun m => m.group)
  let t := withoutLeaves s j out
  (placeLeaves t j (columnsOf s j g) (promisedRanges t j ahead [])).isSome

/-- Room is made in the columns of a group by moving candidates of the job that lie there, by place(); false when room is still
lacking. [DESIGN CHOICE: log 161] -/
def makeColumnRoom (j g : Nat) (named : List Nat) : Nat → State → State × Bool
  | 0, s => (s, columnRoom s j g)
  | fuel + 1, s =>
    if columnRoom s j g then (s, true) else
    let cols := columnsOf s j g
    let cand := (liveGroups s j).filter (fun k => isCandidate s j named k && (columnsOf s j k).any (fun c => cols.contains c))
    match oldestGroup s j cand with
    | none => (s, false)
    | some k => match placeGroup s j k with
      | (s, .at p) => makeColumnRoom j g named fuel (demoteTo s j k p)
      | (s, .later) => (s, false)
      | (s, .nowhere) => (askForLoan s (jobClass s j), false)

/-- A promotion is queued at its priority; one at step priority that finds no room is not, and stalls. -/
def queuePromotion (s : State) (j g : Nat) (urgent : Bool) (named : List Nat) : State × Bool :=
  let (s, ok) := makeColumnRoom j g named (liveGroups s j).length s
  if urgent && !ok then (s, false) else
  (queueMove s { job := j, group := g, target := { tier := .stacked, loan := 0 }, promotion := true, urgent := urgent,
                 started := false, sent := false, refused := false, addrs := [], follow := none }, true)

/-- promote(g) of R231; false is a stall. A promotion under way is raised to step priority, one that still waits for room makes it anew; a
demotion that has not started is given up, one that has completes and is followed by the promotion (Table 10-7). -/
def promoteWith (s : State) (j g : Nat) (urgent : Bool) (named : List Nat) : State × Bool :=
  let fresh (s : State) : State × Bool := if groupTier s j g = .stacked then (s, true) else queuePromotion s j g urgent named
  match moveOf s j g with
  | none => fresh s
  | some m =>
    if m.promotion then
      let s := setMove s m { m with urgent := m.urgent || urgent }
      let (s, ok) := if urgent && !m.started then makeColumnRoom j g named (liveGroups s j).length s else (s, true)
      (startMoves s, ok)
    else if m.started then (setMove s m { m with follow := some (urgent || m.follow.getD false) }, true)
    else fresh (endMoving (dropMove s m) j g)

/-- Queue the promotion of a group outside stacked DRAM. -/
def promote (s : State) (j g : Nat) (urgent : Bool) : State := (promoteWith s j g urgent (namedGroups s j [])).1

/-- Span of a token position. -/
def spanOf (i : JobImage) (pos : Nat) : Nat := pos / max i.spanLen 1

/-- A lender is a cache package: it has advertised flash, or lends it (R233). [DEDUCED: log 148] -/
def cacheLender (s : State) (e : Nat) : Bool :=
  s.tier.adverts.any (fun a => decide (a.lender = e) && decide (a.kind = 1)) || s.tier.loans.any (fun x => decide (x.2.lender = e) && decide (x.2.kind = 1))

/-- The cache package at which every leaf of a group rests, if it is one (R193). -/
def restsAt (s : State) (j g : Nat) : Option Nat :=
  if inLoan (leafOf s j g 0).page then
    ((tfind s.tier.loans (((leafOf s j g 0).page - 0x300000000000) / 0x10000000000)).map (fun e => e.lender)).filter (cacheLender s)
  else none

/-- A span rests at one cache package: each of its groups up to position `last` does (R193). -/
def spanRests (s : State) (n span last : Nat) : Option Nat :=
  let j := (sigE s n).job.toNat
  let i := imageOf s j
  let per := i.spanLen / max i.leafSize 1
  let ps := (List.range per).filter (fun k => decide ((span * per + k) * i.leafSize ≤ last))
  let hosts := ps.map (fun k => match listAt s n (span * per + k) with
    | some g => restsAt s j g
    | none => none)
  match hosts with
  | some e :: r => if i.spanMode && r.all (fun x => decide (x = some e)) then some e else none
  | _ => none

/-- The groups that a match has taken, positions ascending, are promoted in the background, but for those whose span rests at a cache
package (R231, R232). -/
def promoteTaken (n : Nat) (nodes : List Nat) (s : State) : State :=
  let e := sigE s n
  let j := e.job.toNat
  nodes.zipIdx.foldl (fun s x =>
    if (spanRests s n (spanOf (imageOf s j) (x.2 * leafSize s j)) (e.promptLen.toNat - 1)).isSome then s
    else promote s j (cwNode s x.1).group false) s

/-! ### Exhaustion (R74) -/

/-- Private groups of a signature in stacked DRAM, with their positions. -/
def privateGroups (s : State) (n : Nat) : List (Nat × Nat) :=
  let j := (sigE s n).job.toNat
  let gs := (sigA s n).groups
  (List.range gs.length).filterMap (fun p => match gs.getD p none with
    | some g => if (groupOf s j g).refcount = 1 ∧ groupTier s j g = .stacked ∧ (groupOf s j g).moving = false then some (p, g) else none
    | none => none)

/-- The swap region of a job: the lowest host region that is valid and marked for it (folio 0x2443.rr). [DEDUCED: log 91] -/
def swapRegion (s : State) (j : Nat) : Option Nat :=
  (List.range 16).find? (fun r => decide (getF s 0x2443 r = 0x80 + 0x40 + j))

/-- Bytes of a job's swap region. -/
def swapSize (s : State) (j : Nat) : Nat := match swapRegion s j with
  | some r => getF s 0x2441 r * 2 ^ 20
  | none => 0

/-- Bytes of the swap region in use. -/
def swapUsed (s : State) (j : Nat) : Nat := ((job s j).swapped.map (fun x => x.2.2.2)).foldl (· + ·) 0

/-- Bytes that a group takes in the swap region (R227, tier 3). -/
def swapGroupBytes (s : State) (j : Nat) : Nat := (imageOf s j).layers * objectBytes (imageOf s j)

/-- Victims chosen but whose objects are not yet placed: space already promised. -/
def swapPromised (s : State) (j : Nat) : Nat :=
  ((jobSigsIn s j .swappingOut).map (fun n =>
    if (job s j).swapped.any (fun x => decide (x.1 = n)) then 0 else (privateGroups s n).length * swapGroupBytes s j)).foldl (· + ·) 0

/-- C before a member of victim(s) (R74): rank ascending, slack ascending, private groups descending, number descending. -/
def victimBefore (s : State) (a b : Nat) : Bool :=
  let ra := rankOf (sigE s a)
  let rb := rankOf (sigE s b)
  if ra ≠ rb then decide (ra < rb)
  else
    let ab := slackLe (slack s a) (slack s b)
    let ba := slackLe (slack s b) (slack s a)
    if !(ab && ba) then ab
    else
      let pa := (privateGroups s a).length
      let pb := (privateGroups s b).length
      if pa ≠ pb then decide (pb < pa) else decide (b ≤ a)

/-- C of victim(s) (R74): the signatures that it may choose from. -/
def victims (s : State) (n : Nat) : List Nat :=
  let e := sigE s n
  let j := e.job.toNat
  (jobSigsIn s j .decoding).filter (fun v =>
    decide (rankOf (sigE s v) ≤ rankOf e) && !((job s j).victims.contains v) && decide (privateGroups s v ≠ [])
      && decide (swapUsed s j + swapPromised s j + (privateGroups s v).length * swapGroupBytes s j ≤ swapSize s j))

/-- victim(s) of R74. -/
def victim (s : State) (n : Nat) : Option Nat := (sortBy (victimBefore s) (victims s n)).head?

/-- The swap-out of a victim starts: DECODING to SWAPPING_OUT (Table 2-3). -/
def startSwapOut (s : State) (v n : Nat) : State :=
  let j := (sigE s v).job.toNat
  let s := setSigState s v .swappingOut
  let s := modE s v (fun e => { e with preemptCount := satInc e.preemptCount })
  let s := modA s v (fun a => { a with owedBy := some n })
  incF (modJob s j (fun x => { x with victims := x.victims ++ [v] })) 0x2408 j

/-- A stall of grow() is counted (R74). -/
def countStall (s : State) (n : Nat) : State :=
  incF (modE s n (fun e => { e with stallCount := satInc e.stallCount })) 0x2407 (sigE s n).job.toNat

/-- The eligible columns for position p of signature n: its anchor's, that of its transit groups, or the anchor that R60 chooses. -/
def growColumns (n p : Nat) (s : State) : List Nat :=
  let j := (sigE s n).job.toNat
  let transit := (s.span.transit.filter (fun x => decide (x.job = j) && decide (x.sig = n))).flatMap (fun x => x.groups.map (fun e => some e.2))
  match anchorOf s j ((sigA s n).groups ++ transit) with
  | some b => eligible s j b p
  | none => eligible s j (chooseAnchor s j) p

/-- Signatures whose stalls have swapped a victim out and that have not grown since (R74). [DEDUCED: log 91] -/
def owedSigs (s : State) (j : Nat) : List Nat :=
  ((jobSigsIn s j .preempted).filterMap (fun v => (sigA s v).owedBy)).eraseDups.filter (fun n =>
    let st := (sigE s n).state
    decide ((sigE s n).job.toNat = j) && (decide (st = .decoding) || decide (st = .prefilling) || decide (st = .rebuilding)
      || decide (st = .replaying)))

/-- The groups freed by a swap-out go first to the signature whose stall caused it: another leaves one for each (R74). -/
def owedOther (s : State) (j n : Nat) : Bool :=
  let o := (owedSigs s j).filter (fun m => decide (m ≠ n))
  decide (o ≠ []) && decide (groupsFree s j ≤ o.length)

/-- The first two steps of grow(): a free group that is not owed to another signature, or an index-held one evicted. The eligible columns
follow the state: room that an eviction makes may settle the anchor of a first group (R159). -/
def growFree (s : State) (j n : Nat) (cols : State → List Nat) : State × Option Nat :=
  match (if owedOther s j n then none else takeGroup s j n (cols s)) with
  | some (s, g) => (s, some g)
  | none => match oldestNode s (evictable s j) with
    | none => (s, none)
    | some id =>
      let s := evictNode s id
      match takeGroup s j n (cols s) with
      | some (s, g) => (s, some g)
      | none => (s, none)

/-- Signature n has grown: nothing is owed to it any more. -/
def settleOwed (s : State) (n : Nat) : State :=
  (jobSigsIn s (sigE s n).job.toNat .preempted).foldl (fun s v =>
    if (sigA s v).owedBy = some n then modA s v (fun a => { a with owedBy := none }) else s) s

/-- grow(s) of R74 for signature n and eligible columns; `startNs` is when the step starts, `named` the groups that the
composition in progress names. None is a stall. -/
def grow (s : State) (n : Nat) (cols : State → List Nat) (startNs : Nat) (named : List Nat) : State × Option Nat :=
  let j := (sigE s n).job.toNat
  match growFree s j n cols with
  | (s, some g) => (s, some g)
  | (s, none) => match growDemote s j n startNs cols named with
    | (s, some g) => (s, some g)
    | (s, none) =>
      let s := noteSlacks s (victims s n)
      let v := victim s n
      let s := countStall s n
      match v with
      | some v => (startSwapOut s v n, none)
      | none => (s, none)

/-- resolve(s, pos) of R64: the group that takes position `pos`, or none for a stall. A shared group that lies where slots cannot be copied
from is promoted first, and its signature stalls for this step. [DEDUCED: log 162] -/
def resolve (s : State) (n pos startNs : Nat) (named : List Nat) : State × Option Nat :=
  let j := (sigE s n).job.toNat
  let len := leafSize s j
  let p := pos / len
  let q := pos % len
  match listAt s n p with
  | none => match grow s n (growColumns n p) startNs named with
    | (s, none) => (s, none)
    | (s, some g) =>
      let s := modGroup s j g (fun d => { d with fill := 0 })
      (settleOwed (setList s n p (some g)) n, some g)
  | some g =>
    if 1 < (groupOf s j g).refcount then
      if groupTier s j g ≠ .stacked ∧ groupTier s j g ≠ .lpddr6 then
        let (s, ok) := promoteWith s j g true named
        (if ok then countStall s n else incF (countStall s n) 0x2438 j, none)
      else match grow s n (fun _ => columnsOf s j g) startNs named with
      | (s, none) => (s, none)
      | (s, some g2) => (settleOwed (copyGroup s n p q g g2) n, some g2)
    else (s, some g)

end Sys2Proof.Machine
end

