-- ==== Sys2Proof/Machine/BookBase.lean ====
section
/-! DEFINITION. A bookmark on its way to its target (R256, R397): stores of the body, then of the commit record, and what follows
when they are confirmed or fail. -/

namespace Sys2Proof.Machine

open Host

/-- BOOKMARK_STATUS, folio 0x6414.jj: last committed SEQ, records, status. -/
def bookStatus (s : State) (j : Nat) (seq : Option Nat) (records status : Nat) : State :=
  let v := getF s 0x6414 j
  setF s 0x6414 j (place (seq.getD (nfld v 63 32)) 63 32 + place records 31 8 + place status 7 0)


/-- The commit record of a bookmark (Table 11-4), 64 bytes in a page of its own. -/
def commitPage (s : State) (j : Nat) (w : BookmarkWrite) (image : Nat) : List Byte :=
  let pages := pagesOf w.body
  let top := place w.seq 511 448 + place image 447 416 + place (ownEndpoint s) 415 400 + place j 399 394 + place pages.length 383 352
    + place (crc64 (pages.flatMap (fun p => p))) 319 256
  let rec0 := top + crc64 (toBytesLE 56 (top / 2 ^ 64))
  toBytesLE 64 rec0 ++ List.replicate 4032 0

/-- An outbound entry reaches a loan. [DEDUCED: log 106] -/
def reachesLoan (e : LoanEntry) (o : OutEntry) : Bool :=
  o.firmware && decide (o.endpoint = e.lender) && decide (e.remoteBase * 4096 ≤ o.offsetBase)
    && decide (o.offsetBase < e.remoteBase * 4096 + e.sizeGib * 2 ^ 30)

/-- The FIRMWARE outbound entry through which a target's bookmark store is reached (R397). [DEDUCED: log 106] -/
def bookWindow (s : State) (target : Nat) : Option OutEntry :=
  (s.fabric.outbound.find? (fun e => e.2.valid && e.2.firmware && decide (e.2.endpoint = target)
    && !(s.tier.loans.any (fun l => reachesLoan l.2 e.2)))).map (fun e => e.2)

/-- Store pages of job `j` from page `first` of the target's bookmark store; the tags of the stores, or none when one cannot leave or is
refused (R254). -/
def bookStore (s : State) (j target first : Nat) : List (List Byte) → State × Option (List Nat)
  | [] => (s, some [])
  | p :: r =>
    if target = ownEndpoint s then
      if flashTakes s then bookStore (queueWrite s (newWrite s (.bookmark j) first p)) j target (first + 1) r else (s, none)
    else match bookWindow s target with
      | none => (s, none)
      | some e =>
        let tag := freeTag s
        match issue s 2 target 0 4 0 0 (e.offsetBase + first * 4096) 4096 0 e.ordered p none with
        | (s, some _) => (s, none)
        | (s, none) => match bookStore s j target (first + 1) r with
          | (s, some l) => (s, some (tag :: l))
          | (s, none) => (s, none)

/-- Change the bookmark being written of a job. -/
def modWrite (s : State) (j : Nat) (w : Option BookmarkWrite) : State :=
  modJob s j (fun x => { x with bookmark := { x.bookmark with writing := w } })

/-- The write is abandoned; the earlier bookmark stays in force (Table 18-5). -/
def abandonBook (s : State) (j records : Nat) : State := bookStatus (modWrite s j none) j none records 3

/-- A store with a tag is still outstanding, or withheld. -/
def tagOut (s : State) (tag : Nat) : Bool :=
  s.fabric.outstanding.any (fun o => decide (o.tag = tag)) || s.fabric.withheld.any (fun w => decide (hTag w.header = tag))

/-- A bookmark page of a job in this package's own store is not yet confirmed. -/
def pageOut (s : State) (j : Nat) : Bool :=
  (s.flash.waiting ++ s.flash.dirty.filter (fun w => !w.confirmed)).any (fun w => decide (w.origin = .bookmark j))

/-- A bookmark goes on: every body write confirmed, the commit record is written; the record confirmed, the bookmark is
committed (R256, R397). At the own store the record's confirmation is BOOKMARK_COMMIT. -/
def bookPump (s : State) (j : Nat) : State :=
  match (job s j).bookmark.writing with
  | none => s
  | some w =>
    if w.failed then abandonBook s j w.records
    else if w.tags.any (tagOut s) ∨ pageOut s j = true then s
    else if w.recordSent then
      if w.target = ownEndpoint s then s else bookStatus (modWrite s j none) j (some w.seq) w.records 2
    else match bookStore s j w.target (genPage s w.slot w.gen) [commitPage s j w ((imageOf s j).info.imageId)] with
      | (s, some tags) => modWrite s j (some { w with tags := tags, recordSent := true })
      | (s, none) => abandonBook s j w.records

/-- The answers that the flash tier owes: STORE_ACK or ATOMIC_RESP to a fabric request, a refusal with 0x9, and to a bookmark that a page
of it is refused (R249, R254). -/
def answerFlash (s : State) : State :=
  s.flash.answers.foldl (fun s x => match x.1 with
    | .fabric h prior => if x.2 then respond s h (if hType h = 2 then 5 else 6) 0 prior else refuseTx s h 9
    | .bookmark j => if x.2 then s else match (job s j).bookmark.writing with
      | some w => modWrite s j (some { w with failed := true })
      | none => s
    | _ => s) { s with flash := { s.flash with answers := [] } }

/-- Every bookmark goes on as far as it can, and the flash tier's answers leave. -/
def bookPumps (s : State) : State := answerFlash ((jobNumbers s).foldl bookPump (answerFlash s))

/-- A store of a bookmark completed with another status than 0. -/
def bookFail (s : State) (tag : Nat) : State :=
  (jobNumbers s).foldl (fun s j => match (job s j).bookmark.writing with
    | some w => if w.tags.contains tag then modWrite s j (some { w with failed := true }) else s
    | none => s) s

end Sys2Proof.Machine
end

