-- ==== Sys2Proof/Machine/Queue.lean ====
section
/-! DEFINITION. Queues, keys and reliable delivery (chapter 13) and the ingress policers (R353 to R355): what queue pairs
send, what they do with each arriving packet, and regions. -/

namespace Sys2Proof.Machine

open Host

/-! ### Memory of a job -/

/-- A range lies in a host region window that names the job (folio 0x2443.rr). -/
def inHostRegion (s : State) (j a n : Nat) : Bool :=
  if 0x800000000000 ≤ a ∧ a < 0x900000000000 then
    let r := (a - 0x800000000000) / 2 ^ 40
    let o := (a - 0x800000000000) % 2 ^ 40
    let u := getF s 0x2443 r
    nbit u 7 && decide (nfld u 5 0 = j) && decide (o + n ≤ getF s 0x2441 r * 2 ^ 20)
  else false

/-- A range of the interleaved window lies in exchange areas of the job's columns (Tables 7-1, 7-2). -/
def inExchange (s : State) (j a n : Nat) : Bool :=
  decide (0 < n) && decide (a + n ≤ 1024 * shareBytes s) && (List.range (n / 256 + 2)).all (fun k =>
    match stackedLoc s (min (a + 256 * k) (a + (n - 1))) with
    | some (c, o) => (job s j).columns.contains c && decide (shareBytes s - 0x400000 ≤ o)
    | none => false)

/-- A range lies wholly within device memory of a job: memory its image names, quire SRAM and the banks of the control plane excepted
(R123, R126), or what its own columns hold above the interleaved pool (R154). -/
def inDeviceMemory (s : State) (j a n : Nat) : Bool :=
  if 0xF00000000000 ≤ a ∧ a < 0xF00040000000 then false
  else if 0xF00080000000 ≤ a ∧ a < 0xF000A0000000 then inStaging s j a n
  else (imageOf s j).memory.any (fun m => decide (m.1 ≤ a) && decide (a + n ≤ m.1 + m.2)) || inExchange s j a n
  || (if 0x100000000000 ≤ a ∧ a < 0x101000000000 then
        let c := (a - 0x100000000000) / 0x4000000
        let o := (a - 0x100000000000) % 0x4000000
        (job s j).columns.contains c && decide (shareBytes s - 0x400000 ≤ o) && decide (o + n ≤ columnBytes s)
      else false)

/-- Memory of a job, host windows that name it included. -/
def inJobMemory (s : State) (j a n : Nat) : Bool := inDeviceMemory s j a n || inHostRegion s j a n

/-- The source was declared dead and its traffic is discarded (R386). [DEDUCED: log 38] -/
def deadSource (s : State) (e : Nat) : Bool := s.kettle.discard.any (fun d => decide (d.1 = e))

/-- Kinds of fabric transaction (Table 12-4, Table 13-9). -/
def knownType (ty : Nat) : Bool := (decide (1 ≤ ty) && decide (ty ≤ 0x0F)) || (decide (0x40 ≤ ty) && decide (ty ≤ 0x47))

/-- A transaction of any other TYPE is refused with status 0x7 (R269, R297). -/
def refuseUnknown (s : State) (h : BitVec 256) : State :=
  if knownType (hType h) = true ∨ hDest h ≠ ownEndpoint s then s
  else if deadSource s (hSource h) then incF s 0x6401 0x05
  else refuseTx s h (if quarantined s h then 4 else 7)

/-- Job to which a protection domain is assigned (R290). -/
def domainJob (s : State) (pd : Nat) : Option Nat :=
  if pd < 64 then (if (job s pd).mode = .free ∨ (job s pd).mode = .tornDown then none else some pd)
  else
    let v := getF s 0x4104 pd
    if nbit v 7 then some (nfld v 5 0) else none

/-! ### Sequence arithmetic -/

/-- The ATOMIC sequence `q` lies at or below `a`, within a window of 16 (R303). -/
def ackedSeq (a q : Nat) : Bool := decide ((a + 65536 - q) % 65536 < 16)

/-! ### Packets (R297) -/

/-- A queue header (Table 13-8). -/
def mkQHeader (destQp psn msn msgOff msgLen key aseq acked : Nat) (first last : Bool) (nak ackPsn imm : Nat) : BitVec 256 :=
  BitVec.ofNat 256 (place destQp 255 243 + place psn 242 219 + place msn 218 195 + place msgOff 194 163 + place msgLen 162 131
    + place key 130 99 + place aseq 98 83 + place acked 82 67 + place (b2n first) 66 66 + place (b2n last) 65 65
    + place nak 64 57 + place ackPsn 56 33 + place imm 32 1)

/-- DEST_QP. -/
def qDest (h : BitVec 256) : Nat := fld h 255 243
/-- PSN. -/
def qPsn (h : BitVec 256) : Nat := fld h 242 219
/-- MSN. -/
def qMsn (h : BitVec 256) : Nat := fld h 218 195
/-- MSG_OFFSET. -/
def qMsgOff (h : BitVec 256) : Nat := fld h 194 163
/-- MSG_LEN. -/
def qMsgLen (h : BitVec 256) : Nat := fld h 162 131
/-- KEY. -/
def qKey (h : BitVec 256) : Nat := fld h 130 99
/-- ATOMIC_SEQ. -/
def qAtomicSeq (h : BitVec 256) : Nat := fld h 98 83
/-- ATOMIC_ACKED. -/
def qAtomicAcked (h : BitVec 256) : Nat := fld h 82 67
/-- NAK_CODE. -/
def qNak (h : BitVec 256) : Nat := fld h 64 57
/-- ACK_PSN. -/
def qAckPsn (h : BitVec 256) : Nat := fld h 56 33
/-- IMMEDIATE. -/
def qImm (h : BitVec 256) : Nat := fld h 32 1

/-- A queue packet leaves on its plane: through the job's egress queue on VN0 (R350). -/
def sendQueuePacket (s : State) (jb vn : Nat) (h qh : BitVec 256) (payload : List Byte) : State :=
  let body := toBytesLE 32 qh.toNat ++ payload
  let s := transmit s (.fabric h body)
  if vn = 0 then
    let i : EgressItem := { queue := jb, issuedNs := s.now, header := h, payload := body }
    runLinks { s with traffic := { s.traffic with egress := s.traffic.egress ++ [i] } }
  else routeOut s vn h body

/-- Transaction header of a packet of queue pair q. -/
def packetHeader (s : State) (q type psn off len op : Nat) : BitVec 256 :=
  let x := qp s q
  mkHeader type x.peerEndpoint (ownEndpoint s) x.job (masterOf 3 q) x.vn (psn % 65536) off (len - 1) op 0 false (getF s 0x4000 0x04)

/-- Pieces (offset in the message, bytes) of `n` bytes whose remote offset begins at `off`: at most 4,096 bytes each, none
crossing a 4 KiB boundary of the remote offset (R297). -/
def pieces : Nat → Nat → Nat → Nat → List (Nat × Nat)
  | 0, _, _, _ => []
  | fuel + 1, off, at0, n =>
    if n = 0 then [] else
    let k := min n (4096 - off % 4096)
    (at0, k) :: pieces fuel (off + k) (at0 + k) (n - k)

/-- The pieces of a whole message. -/
def msgPieces (off n : Nat) : List (Nat × Nat) := pieces (n / 4096 + 2) off 0 n

/-! ### Send descriptors -/

/-- OPCODE. -/
def dOp (d : BitVec 512) : Nat := fld d 511 504
/-- LENGTH. -/
def dLen (d : BitVec 512) : Nat := fld d 479 448
/-- OFFSET of REMOTE_ADDR. -/
def dOff (d : BitVec 512) : Nat := fld d 399 352
/-- LOCAL_ADDR. -/
def dLocal (d : BitVec 512) : Nat := fld d 351 304

/-- Remote offset from which a message's packets are cut: none for SEND. -/
def dCut (d : BitVec 512) : Nat := if dOp d = 3 ∨ dOp d = 4 then 0 else dOff d

/-- SEND or SEND_IMM. -/
def isSend (d : BitVec 512) : Bool := decide (dOp d = 3) || decide (dOp d = 4)

/-- Status with which a descriptor fails before it runs: BAD_DESCRIPTOR or LOCAL_PROTECTION (Table 13-7). -/
def descFault (s : State) (x : QueuePair) (d : BitVec 512) : Option Nat :=
  let op := dOp d
  let n := dLen d
  if fld d 497 480 ≠ 0 ∨ fld d 143 64 ≠ 0 ∨ op = 0 ∨ 6 < op then some 0x25
  else if fld d 415 400 ≠ x.peerEndpoint then some 0x25
  else if op = 6 ∧ ((n ≠ 4 ∧ n ≠ 8) ∨ x.atomics = false ∨ 9 < fld d 503 500) then some 0x25
  else if n = 0 ∨ 67108864 < n then some 0x25
  else if inJobMemory s x.job (dLocal d) n = false then some 0x23
  else none

/-- Completions of the send side are written in MSN order (R296). -/
def reportMsgs : Nat → State → Nat → State
  | 0, s, _ => s
  | n + 1, s, q =>
    let x := qp s q
    match x.msgs with
    | [] => s
    | m :: r => match m.ended with
      | none => s
      | some st =>
        let s := setQp s q { x with msgs := r }
        let s := if nbit m.desc.toNat 499 ∨ st ≠ 0 then
            postCompletion s q (completionWord (fld m.desc 63 0) (if st = 0 then dLen m.desc else 0) 0 0 q (dOp m.desc) st false)
          else s
        reportMsgs n s q

/-- Report every message that has ended at the front. -/
def report (s : State) (q : Nat) : State := reportMsgs (qp s q).msgs.length s q

/-- A message ends with a status other than OK: the queue pair enters ERROR and the rest is FLUSHED; 0x01 to 0x03 freeze it
too (Table 13-7). -/
def failMsg (s : State) (q msn status : Nat) : State :=
  let x := qp s q
  let s := if status = 1 ∨ status = 2 ∨ status = 3 then freezeMaster s 3 q x.job 272
    else if status = 0x23 then freezeMaster s 3 q x.job 293 else s
  qpFlush s q (fun m => if m.msn = msn then status else 0x22)

/-- The peer of a queue pair that its job's end destroyed still sends to it (Table 13-11). -/
def peerLeft (s : State) (h qh : BitVec 256) : Bool :=
  let x := qp s (qDest qh)
  !x.made && decide (x.peerEndpoint ≠ 0) && decide (x.peerEndpoint = hSource h) && decide (masterOf 3 x.peerQp = hMaster h)

/-- Read one send descriptor: it becomes a message with the next MSN (R296). -/
def readDescriptor (s : State) (q : Nat) : State :=
  let x := qp s q
  let d := sendDesc s x x.sqCons
  let packets := if dOp d = 6 then 1 else (msgPieces (dCut d) (dLen d)).length
  let m : SendMsg := { msn := x.msn, desc := d, firstPsn := x.sendPsn, packets := packets, issued := 0, recvIndex := x.sends,
                       atomicSeq := x.atomicSeq, readDone := [], ended := none, rnrAtNs := none, rnrTries := 0 }
  match descFault s x d with
  | some st =>
    let s := setQp s q { x with sqCons := x.sqCons + 1, msn := (x.msn + 1) % 2 ^ 24, msgs := x.msgs ++ [m] }
    failMsg s q m.msn st
  | none =>
    setQp s q { x with sqCons := x.sqCons + 1, msn := (x.msn + 1) % 2 ^ 24, msgs := x.msgs ++ [m],
                       sendPsn := (x.sendPsn + packets) % 2 ^ 24, sends := x.sends + b2n (isSend d),
                       atomicSeq := if dOp d = 6 then (x.atomicSeq + 1) % 65536 else x.atomicSeq }

/-- Read descriptors while the queue pair is READY and not frozen. -/
def readDescriptors : Nat → State → Nat → State
  | 0, s, _ => s
  | n + 1, s, q =>
    let x := qp s q
    if x.mode = .ready ∧ x.frozen = false ∧ x.sqCons < x.sqProd then readDescriptors n (readDescriptor s q) q else s

/-- The header, queue header and payload of packet `k` of a message. -/
def messagePacket (s : State) (q : Nat) (m : SendMsg) (k : Nat) : TxPacket :=
  let x := qp s q
  let d := m.desc
  let psn := (m.firstPsn + k) % 2 ^ 24
  let n := dLen d
  let op := dOp d
  let t0 : TxPacket := { psn := psn, msn := m.msn, header := 0, qheader := 0, payload := [], departNs := none, repeats := 0, fastDone := false }
  if op = 6 then
    let a := fld d 503 500
    let v := toBytesLE n (fld d 271 208)
    let pl := if a = 5 then toBytesLE n (fld d 207 144) ++ v else v
    { t0 with header := packetHeader s q 0x44 psn (dOff d) pl.length a,
              qheader := mkQHeader x.peerQp psn m.msn 0 n (fld d 447 416) m.atomicSeq x.ackedAtomic true true 0 0 0, payload := pl }
  else
    let (o, len) := (msgPieces (dCut d) n).getD k (0, 0)
    let first := decide (k = 0)
    let last := decide (k + 1 = m.packets)
    let imm := if last ∧ (op = 2 ∨ op = 4) then fld d 303 272 else 0
    if op = 5 then
      { t0 with header := packetHeader s q 0x42 psn (dOff d + o) 1 0,
                qheader := mkQHeader x.peerQp psn m.msn o len (fld d 447 416) 0 x.ackedAtomic first last 0 0 0 }
    else
      let key := if isSend d then m.recvIndex % 2 ^ 32 else fld d 447 416
      { t0 with header := packetHeader s q (if isSend d then 0x41 else 0x40) psn (if isSend d then 0 else dOff d + o) len 0,
                qheader := mkQHeader x.peerQp psn m.msn o n key 0 x.ackedAtomic first last 0 0 imm,
                payload := readBytes s (dLocal d + o) len }

/-- Send a packet. -/
def sendTx (s : State) (q : Nat) (p : TxPacket) : State :=
  sendQueuePacket s (qp s q).job (qp s q).vn p.header p.qheader p.payload

/-- Change one message of a queue pair. -/
def modMsg (s : State) (q msn : Nat) (f : SendMsg → SendMsg) : State :=
  modQp s q (fun x => { x with msgs := x.msgs.map (fun m => if m.msn = msn then f m else m) })

/-- The message that has packets still to send, of those that are read. -/
def nextSend (x : QueuePair) : Option SendMsg := x.msgs.find? (fun m => m.ended.isNone && decide (m.issued < m.packets))

/-- The message that may issue a packet next, in ring order: after earlier READs and ATOMICs under FENCE, with fewer than 16
atomics unanswered (R296, R303). -/
def nextIssue (x : QueuePair) : Option SendMsg :=
  match nextSend x with
  | none => none
  | some m =>
    let before := x.msgs.filter (fun y => lt24 y.msn m.msn && y.ended.isNone && (decide (dOp y.desc = 5) || decide (dOp y.desc = 6)))
    let atomics := x.msgs.countP (fun y => y.ended.isNone && decide (dOp y.desc = 6) && decide (0 < y.issued))
    if nbit m.desc.toNat 498 ∧ before ≠ [] then none
    else if dOp m.desc = 6 ∧ 16 ≤ atomics then none
    else some m

/-- A READ_REQ asks for the next `k` pieces of its message and reserves a PSN for each response. [DEDUCED: log 164] -/
def issueRead (s : State) (q : Nat) (m : SendMsg) (k : Nat) : State :=
  let x := qp s q
  let ps := (List.range k).map (fun i => messagePacket s q m (m.issued + i))
  let cuts := ((msgPieces (dCut m.desc) (dLen m.desc)).drop m.issued).take k
  let o := (cuts.map (fun c => c.1)).headD 0
  let psn := (m.firstPsn + m.issued) % 2 ^ 24
  let qh := mkQHeader x.peerQp psn m.msn o (cuts.map (fun c => c.2)).sum (fld m.desc 447 416) 0 x.ackedAtomic (decide (m.issued = 0))
    (decide (m.issued + k = m.packets)) 0 0 0
  let s := modQp s q (fun x => { x with tx := x.tx ++ ps })
  let s := modMsg s q m.msn (fun y => { y with issued := y.issued + k })
  sendQueuePacket s x.job x.vn (packetHeader s q 0x42 psn (dOff m.desc + o) 1 0) qh []

/-- Issue packets while the window is open (R300). A READ of more packets than the window holds is asked for in parts. -/
def issuePackets : Nat → State → Nat → State
  | 0, s, _ => s
  | fuel + 1, s, q =>
    let x := qp s q
    if x.mode ≠ .ready ∨ x.frozen = true then s else
    match nextIssue x with
    | none => s
    | some m =>
      let w := getF s 0x4100 0x07
      if w ≤ x.tx.length then s
      else if dOp m.desc = 5 then
        let left := m.packets - m.issued
        if left ≤ w - x.tx.length ∨ w < m.packets then issuePackets fuel (issueRead s q m (min left (w - x.tx.length))) q else s
      else
        let p := messagePacket s q m m.issued
        let s := modQp s q (fun x => { x with tx := x.tx ++ [p] })
        let s := modMsg s q m.msn (fun y => { y with issued := y.issued + 1 })
        issuePackets fuel (sendTx s q p) q

/-- Packets still to be issued by a queue pair. -/
def packetsLeft (x : QueuePair) : Nat := (x.msgs.map (fun m => m.packets - m.issued)).foldl (· + ·) 0

/-- Run the send side: read descriptors, issue packets, report. -/
def runSend (s : State) (q : Nat) : State :=
  let s := readDescriptors ((qp s q).sqProd - (qp s q).sqCons) s q
  report (issuePackets (packetsLeft (qp s q) + 1) s q) q

/-! ### Acknowledgement (R300 to R302) -/

/-- SACK of the PSNs placed beyond EXPECT_PSN. -/
def sackOf (x : QueuePair) : Nat :=
  (List.range 64).foldl (fun v i => if x.beyond.contains ((x.expectPsn + 1 + i) % 2 ^ 24) then v + 2 ^ i else v) 0

/-- Send an ACK, or a NAK with a code (R299, R301). -/
def sendAckNak (s : State) (q : Nat) (nak : Option Nat) (msn : Nat) : State :=
  let x := qp s q
  let h := packetHeader s q (if nak.isSome then 0x47 else 0x46) 0 0 8 0
  let qh := mkQHeader x.peerQp 0 msn 0 0 0 0 x.ackedAtomic false false (nak.getD 0) x.expectPsn 0
  let s := modQp s q (fun x => { x with sinceAck := 0, ackOldestNs := none })
  sendQueuePacket s x.job x.vn h qh (toBytesLE 8 (sackOf x))

/-- EXPECT_PSN passes the PSNs placed beyond it. -/
def advanceExpect : Nat → QueuePair → QueuePair
  | 0, x => x
  | n + 1, x =>
    if x.beyond.contains x.expectPsn then
      advanceExpect n { x with beyond := x.beyond.filter (fun p => decide (p ≠ x.expectPsn)), expectPsn := (x.expectPsn + 1) % 2 ^ 24 }
    else x

/-- PSNs `psn` on, `n` of them, count as placed. -/
def placePsns (s : State) (q psn n : Nat) : State :=
  let fresh := ((List.range n).map (fun i => (psn + i) % 2 ^ 24)).filter (fun p => !(lt24 p (qp s q).expectPsn) && !((qp s q).beyond.contains p))
  modQp s q (fun x =>
    let x := { x with beyond := x.beyond ++ fresh, sinceAck := x.sinceAck + 1,
                      ackOldestNs := if x.ackOldestNs.isSome then x.ackOldestNs else some s.now }
    advanceExpect x.beyond.length x)

/-- How R300 takes an arriving PSN. -/
inductive PsnClass where
  | fresh | duplicate | outside
  deriving DecidableEq, Repr

/-- Class of a PSN against the window. -/
def classifyPsn (s : State) (x : QueuePair) (psn : Nat) : PsnClass :=
  if lt24 psn x.expectPsn ∨ x.beyond.contains psn = true then .duplicate
  else if sub24 psn x.expectPsn < getF s 0x4100 0x07 then .fresh else .outside

/-- The packets of a SACK: PSNs placed beyond ACK_PSN. -/
def sacked (ack sack psn : Nat) : Bool :=
  let d := sub24 psn ack
  decide (1 ≤ d) && decide (d ≤ 64) && nbit sack (d - 1)

/-- Later PSNs that a SACK shows placed. -/
def laterPlaced (ack sack psn : Nat) : Nat :=
  (List.range 64).countP (fun i => nbit sack i && lt24 psn ((ack + 1 + i) % 2 ^ 24))

/-- Packet waits for a response of its own rather than an ACK. -/
def answered (p : TxPacket) : Bool := decide (hType p.header = 0x42) || decide (hType p.header = 0x44)

/-- Messages below ACK_PSN complete: WRITE and SEND whose last PSN it passes (R301). -/
def ackMsgs (ack : Nat) (m : SendMsg) : SendMsg :=
  if m.ended.isNone ∧ m.issued = m.packets ∧ dOp m.desc ≤ 4 ∧ lt24 ((m.firstPsn + m.packets + 2 ^ 24 - 1) % 2 ^ 24) ack = true then
    { m with ended := some 0 } else m

/-- Repeat packets fast whose later PSNs are placed (R302). -/
def fastRepeat (q ack sack : Nat) (s : State) (p : TxPacket) : State :=
  if p.fastDone = false ∧ lt24 p.psn ack = false ∧ sacked ack sack p.psn = false ∧ 3 ≤ laterPlaced ack sack p.psn then
    let p2 := { p with fastDone := true, repeats := p.repeats + 1, departNs := none }
    let s := modQp s q (fun x => { x with tx := x.tx.map (fun y => if y = p then p2 else y) })
    sendTx (incF s 0x4110 0x02) q p2
  else s

/-- ACK_PSN and SACK of an ACK or NAK (R301, R302). -/
def takeAck (s : State) (q ack sack : Nat) : State :=
  let s := modQp s q (fun x => { x with tx := x.tx.filter (fun p => answered p || !(lt24 p.psn ack || sacked ack sack p.psn)),
                                        msgs := x.msgs.map (ackMsgs ack) })
  let s := (qp s q).tx.foldl (fastRepeat q ack sack) s
  runSend (report s q) q

/-- A packet is repeated at timeout, or its message fails at the limit and the destination is a suspect path (R302). -/
def repeatPacket (s : State) (q : Nat) (p : TxPacket) : State :=
  if getF s 0x4100 0x05 ≤ p.repeats then
    failMsg (emit s (.suspectPath (qp s q).peerEndpoint)) q p.msn 0x20
  else
    let p2 := { p with repeats := p.repeats + 1, departNs := none }
    let s := modQp s q (fun x => { x with tx := x.tx.map (fun y => if y = p then p2 else y) })
    sendTx (incF s 0x4110 0x01) q p2

/-! ### Keys (R291 to R293) -/

/-- The space key of a job. -/
def spaceKey (j : Nat) (k : SpaceKey) : Nat := place j 30 25 + place k.generation 24 16 + place k.tag 15 0

/-- What a key names for a queue pair's domain: a job's space, or a region; none is refusal 0x3. -/
def keySpace (s : State) (pd key : Nat) : Option Nat :=
  if nbit key 31 then none else
  let j := nfld key 30 25
  let k := tget SpaceKey.zero s.queue.spaces j
  if k.live ∧ spaceKey j k = key ∧ domainJob s pd = some j then some j else none

/-- The region a key names. -/
def keyRegion (s : State) (pd key : Nat) : Option Nat :=
  if nbit key 31 = false then none else
  let r := nfld key 30 18
  let x := regionOf s r
  if x.mode ≠ .free ∧ x.generation = nfld key 17 10 ∧ x.tag = nfld key 9 0 ∧ x.pd = pd then some r else none

/-- A message is stamped for a draining region (R304). -/
def stampedFor (x : Region) (q msn : Nat) : Bool :=
  x.stamps.any (fun p => decide (p.1 = q) && (decide (msn = p.2) || lt24 msn p.2))

/-- Checks 3 to 5 of R298 for `n` bytes at `off` under a key; kind 0 read, 1 write, 2 atomic: a status, or the address and
whether the packet is placed while its region drains. -/
def keyCheck (s : State) (q : Nat) (h qh : BitVec 256) (off n kind : Nat) : Except (Nat × Option Nat) (Nat × Bool) :=
  let x := qp s q
  let key := qKey qh
  match keySpace s x.pd key with
  | some j => match translate s h off n kind false (fun e => !e.firmware && decide (e.ownerJob = j)) with
    | .ok a => .ok (a, false)
    | .error e => .error e
  | none => match keyRegion s x.pd key with
    | none => .error (3, none)
    | some r =>
      let g := regionOf s r
      let st := stampedFor g q (qMsn qh)
      if g.mode = .revoked ∨ (g.mode = .draining ∧ st = false) then .error (6, none)
      else if (g.pagesM1 + 1) * 4096 < off + n then .error (2, none)
      else if (if kind = 0 then !g.read else if kind = 1 then !g.write else !g.atomic) then .error (3, none)
      else
        let a := g.base * 4096 + off
        if tierRefuses s a (decide (kind ≠ 0)) ∨ (g.host = true ∧ s.boot.pcieL0 = false) then .error (9, none)
        else .ok (a, decide (g.mode = .draining))

/-! ### Regions (R293, R304) -/

/-- Revoke an ACTIVE region: DRAINING with its stamps; a second revoke is ignored (R304, Table 13-11). -/
def revokeRegion (s : State) (r : Nat) : State :=
  let x := regionOf s r
  if x.mode ≠ .active then s else
  let stamps := (s.queue.qps.filter (fun e => e.2.made && decide (e.2.pd = x.pd))).filterMap (fun e => e.2.topMsn.map (fun m => (e.1, m)))
  let s := setRegion s r { x with mode := .draining, stamps := stamps, drainNs := s.now }
  let s := if x.host then s else
    { s with fabric := { s.fabric with xlate := s.fabric.xlate.map (fun e => if e.1 = x.xlate then (e.1, { e.2 with state := .draining }) else e) } }
  checkDrains s

/-- The translation entry that a registration writes: the region's range and rights, open to every source (R293). -/
def regionXlate (s : State) (x : Region) (j : Nat) : Option XlateEntry :=
  let e : XlateEntry := { XlateEntry.zero with pagesM1 := x.pagesM1, target := x.base, anyJob := true, ownerJob := j, masters := 0x3F,
                                                read := x.read, write := x.write, atomic := x.atomic, valid := true }
  (pickFree (fun b => xlateAllowed s { e with base := b }) (2 ^ 28) (freshOf s)).map (fun b => { e with base := b })

/-- Register the range staged in folios 0x4102.01 and 0x4102.02 in the selected entry (R293); a refusal is reported. [DEDUCED: log 52] -/
def registerRegion (s : State) (r lo hi : Nat) : State :=
  let old := regionOf s r
  let w := lo + hi * 2 ^ 64
  let x : Region := { old with base := nfld w 127 92, pagesM1 := nfld w 91 64, pd := nfld w 63 57, read := nbit w 54,
                                           write := nbit w 53, atomic := nbit w 52, generation := (old.generation + 1) % 256,
                                           tag := freshOf s % 1024, mode := .active, stamps := [] }
  let refuse := regionResult s 0x80 0
  if 8192 ≤ r ∨ (old.mode ≠ .free ∧ old.mode ≠ .revoked) then refuse else
  match domainJob s x.pd with
  | none => refuse
  | some j =>
    let a := x.base * 4096
    let n := (x.pagesM1 + 1) * 4096
    if inHostRegion s j a n then
      let x := { x with host := true, xlate := 0xFFFF }
      regionResult (setRegion (draw s) r x) 1 (regionKey r x)
    else if inDeviceMemory s j a n then
      match regionXlate s x j with
      | none => refuse
      | some e => match writeXlate (draw s) e with
        | (_, none) => refuse
        | (s, some k) =>
          let x := { x with host := false, xlate := k }
          regionResult (setRegion s r x) 1 (regionKey r x)
    else refuse

/-! ### Queue pair commands (R294) -/

/-- Queue pairs that reserve result cache entries. -/
def atomicQps (s : State) : Nat := s.queue.qps.countP (fun e => e.2.made && e.2.atomics)

/-- Result cache entries free (folio 0x4100.02). -/
def resultsFree (s : State) : Nat := 65536 - 16 * atomicQps s

/-- The context that four words spell. -/
def contextOf (w : Nat) : QueuePair :=
  { QueuePair.zero with peerQp := nfld w 255 243, peerEndpoint := nfld w 242 227, pd := nfld w 226 220, job := nfld w 219 214,
                        atomics := nbit w 210, multipath := nbit w 209, vn := nfld w 208 208, sqBase := nfld w 207 172,
                        sqLog := nfld w 171 168, rqBase := nfld w 167 132, rqLog := nfld w 131 128, cqBase := nfld w 127 92,
                        cqLog := nfld w 91 88 }

/-- Code of STATE of a queue pair. -/
def qpModeCode : QpMode → Nat
  | .reset => 0
  | .ready => 1
  | .error => 2

/-- SEND_PSN: the next packet sequence number to send (Table 13-3). -/
def sendPsnOf (x : QueuePair) : Nat := match nextSend x with
  | some m => (m.firstPsn + m.issued) % 2 ^ 24
  | none => x.sendPsn

/-- MSN: the number of the next message to send (Table 13-3). -/
def msnOf (x : QueuePair) : Nat := match x.msgs.find? (fun m => m.ended.isNone && decide (m.issued = 0)) with
  | some m => m.msn
  | none => x.msn

/-- ATOMIC_SEQ: the number of the next atomic to send (Table 13-3). -/
def atomicSeqOf (x : QueuePair) : Nat := match x.msgs.find? (fun m => m.ended.isNone && decide (m.issued = 0) && decide (dOp m.desc = 6)) with
  | some m => m.atomicSeq
  | none => x.atomicSeq

/-- The context of a queue pair as Table 13-3 shows it. -/
def contextWord (x : QueuePair) : Nat :=
  place x.peerQp 255 243 + place x.peerEndpoint 242 227 + place x.pd 226 220 + place x.job 219 214
  + place (qpModeCode x.mode) 213 212 + place (b2n x.frozen) 211 211 + place (b2n x.atomics) 210 210
  + place (b2n x.multipath) 209 209 + place x.vn 208 208 + place x.sqBase 207 172 + place x.sqLog 171 168
  + place x.rqBase 167 132 + place x.rqLog 131 128 + place x.cqBase 127 92 + place x.cqLog 91 88 + place (sendPsnOf x) 87 64
  + place x.expectPsn 63 40 + place (msnOf x) 39 16 + place (atomicSeqOf x) 15 0

/-- A ring lies in memory of the job, or in a host region window that names it, and holds 2^6 to 2^15 entries. -/
def ringOk (s : State) (j base log entry : Nat) : Bool := decide (6 ≤ log) && inJobMemory s j (base * 4096) (2 ^ log * entry)

/-- Creation of queue pair `q` from a context is refused (R294); one that was reset may be created anew. -/
def createRefused (s : State) (q : Nat) (x : QueuePair) : Bool :=
  let y := qp s q
  decide (8192 ≤ q) || (y.made && (decide (y.mode ≠ .reset) || y.frozen)) || !decide (domainJob s x.pd = some x.job)
    || (x.atomics && decide (resultsFree s + (if y.made && y.atomics then 16 else 0) < 16))
    || !(ringOk s x.job x.sqBase x.sqLog 64) || !(ringOk s x.job x.rqBase x.rqLog 16) || !(ringOk s x.job x.cqBase x.cqLog 32)

/-- Create and enter READY. -/
def createQp (s : State) (q : Nat) (x : QueuePair) : State := setQp s q { x with made := true, mode := .ready }

/-- Return to RESET (R296): the context stays, the rings' indices, packets and results go. -/
def resetQp (s : State) (q : Nat) : State :=
  let x := qp s q
  checkDrains (setQp s q { QueuePair.zero with peerQp := x.peerQp, peerEndpoint := x.peerEndpoint, pd := x.pd, job := x.job,
                                               frozen := x.frozen, atomics := x.atomics, multipath := x.multipath, vn := x.vn,
                                               sqBase := x.sqBase, sqLog := x.sqLog, rqBase := x.rqBase, rqLog := x.rqLog,
                                               cqBase := x.cqBase, cqLog := x.cqLog, made := x.made })

/-- Destroy a queue pair: its result cache entries are freed, and a freeze of it is released (R303, R369). -/
def destroyQp (s : State) (q : Nat) : State :=
  let s := match frozenOf s 3 q with
    | some m => startRelease s m
    | none => s
  checkDrains (setQp s q QueuePair.zero)

/-- Queue pairs of a job. -/
def jobQps (s : State) (j : Nat) : List Nat := tkeys s.queue.qps (fun _ x => x.made && decide (x.job = j))

/-- Protection domains of a job (R290). -/
def jobDomains (s : State) (j : Nat) : List Nat :=
  j :: ((List.range 64).map (· + 64)).filter (fun pd => decide (getF s 0x4104 pd = 0x80 + j))

/-- A job end or teardown: regions revoked, queue pairs destroyed, extra domains given back, the space key ends. -/
def endQueues (s : State) (j : Nat) : State :=
  let ds := jobDomains s j
  let s := (tkeys s.queue.regions (fun _ x => decide (x.mode = .active) && ds.contains x.pd)).foldl revokeRegion s
  let s := (jobQps s j).foldl (fun s q =>
    let x := qp s q
    setQp (destroyQp s q) q { QueuePair.zero with peerQp := x.peerQp, peerEndpoint := x.peerEndpoint }) s
  let s := (ds.filter (fun d => decide (64 ≤ d))).foldl (fun s d => devSetF s 0x4104 d 0) s
  { s with queue := { s.queue with spaces := tmod SpaceKey.zero s.queue.spaces j (fun k => { k with live := false }) } }

/-- The space key is drawn at job start (R291). -/
def drawSpaceKey (s : State) (j : Nat) : State :=
  let k := tget SpaceKey.zero s.queue.spaces j
  let n : SpaceKey := { generation := (k.generation + 1) % 512, tag := freshOf s % 65536, live := true }
  draw { s with queue := { s.queue with spaces := tput s.queue.spaces j n } }

/-! ### Policers (R353 to R355) -/

/-- A policer is enabled. -/
def policerOn (s : State) (p : Nat) : Bool := decide (nfld (getF s 0x5430 p) 63 62 ≠ 0)

/-- An enabled policer names `p` as NEXT. -/
def namedNext (s : State) (p : Nat) : Bool :=
  (List.range 32).any (fun k => policerOn s k && nbit (getF s 0x5430 k) 57 && decide (nfld (getF s 0x5430 k) 56 52 = p))

/-- The match fields admit a packet. -/
def policerMatch (w src srcJob destJob : Nat) : Bool :=
  (nbit w 51 || decide (nfld w 50 45 = srcJob)) && (nbit w 44 || decide (nfld w 43 38 = destJob))
    && decide ((src ^^^ nfld w 31 16) &&& nfld w 15 0 = 0)

/-- The buckets of a policer now, in thousandths of a byte: MB/s are thousandths of a byte per ns. -/
def policerNow (s : State) (p : Nat) : Policer :=
  let sizes := getF s 0x5432 p
  let rates := getF s 0x5431 p
  let cbs := nfld sizes 31 0 * 1000
  let ebs := nfld sizes 63 32 * 1000
  match tfind s.traffic.policers p with
  | none => { c := cbs, e := ebs, atNs := s.now }
  | some b =>
    let dt := s.now - b.atNs
    let c := b.c + dt * nfld rates 31 0
    if nfld (getF s 0x5430 p) 63 62 = 1 then { c := min cbs c, e := min ebs (b.e + (c - min cbs c)), atNs := s.now }
    else { c := min cbs c, e := min ebs (b.e + dt * nfld rates 63 32), atNs := s.now }

/-- The colour of a packet of `n` bytes at one policer from its input colour (R354): 0 green, 1 yellow, 2 red. -/
def colour (mode n k : Nat) (b : Policer) : Nat × Policer :=
  let t := n * 1000
  if mode = 1 then
    if k = 0 ∧ t ≤ b.c then (0, { b with c := b.c - t })
    else if k ≠ 2 ∧ t ≤ b.e then (1, { b with e := b.e - t })
    else (2, b)
  else if k = 2 ∨ b.e < t then (2, b)
  else if k = 1 ∨ b.c < t then (1, { b with e := b.e - t })
  else (0, { b with e := b.e - t, c := b.c - t })

/-- Walk a chain from policer `p`: the state after, the worst colour, YELLOW_DROP met, the policers met. [DEDUCED: log 166] -/
def runChain (n : Nat) : Nat → State → Nat → Nat → State × Nat × Bool × List Nat
  | 0, s, _, _ => (s, 0, false, [])
  | fuel + 1, s, p, k =>
    let w := getF s 0x5430 p
    let (c, b) := colour (nfld w 63 62) n (if nbit w 61 then k else 0) (policerNow s p)
    let s := { s with traffic := { s.traffic with policers := tput s.traffic.policers p b } }
    if c = 2 ∨ nbit w 57 = false ∨ policerOn s (nfld w 56 52) = false then (s, c, nbit w 60, [p])
    else
      let (s, c2, d, ps) := runChain n fuel s (nfld w 56 52) c
      (s, max c c2, nbit w 60 || d, p :: ps)

/-- Police an arriving request packet: false when it is dropped (R355). [DEDUCED: log 166] -/
def police (s : State) (h : BitVec 256) (destJob bytes : Nat) : State × Bool :=
  if hVn h ≠ 0 then (s, true) else
  match (List.range 32).find? (fun p => policerOn s p && policerMatch (getF s 0x5430 p) (hSource h) (hSrcJob h) destJob && !(namedNext s p)) with
  | none => (s, true)
  | some p =>
    let (s, c, yd, ps) := runChain (64 + bytes) 4 s p (nfld (getF s 0x5430 p) 59 58)
    let drop := decide (c = 2) || (decide (c = 1) && yd)
    let f := if drop then 0x5435 else if c = 1 then 0x5434 else 0x5433
    (ps.foldl (fun s p => incF s f p) s, !drop)

/-! ### Arriving request packets (R298, R299) -/

/-- FIRST and LAST of a packet that carries `n` bytes of its message. -/
def endsOk (qh : BitVec 256) (n : Nat) : Bool :=
  decide (qMsgOff qh + n ≤ qMsgLen qh) && decide (nbit qh.toNat 66 = decide (qMsgOff qh = 0))
    && decide (nbit qh.toNat 65 = decide (qMsgOff qh + n = qMsgLen qh))

/-- R297 for a request packet. -/
def queueFormOk (s : State) (h qh : BitVec 256) (payload : List Byte) : Bool :=
  let ty := hType h
  let n := payload.length
  let x := qp s (qDest qh)
  decide (fld h 106 104 = 0) && decide (fld h 63 0 = 0) && decide (hVn h ≤ 1) && (!x.made || decide (hVn h = x.vn)) && !(hOrdered h)
  && decide (hMaster h / 2 ^ 13 = 3) && !(nbit qh.toNat 0) && decide (hStatus h = 0) && (decide (ty = 0x44) || decide (hOp h = 0)) &&
  (if ty = 0x40 then decide (1 ≤ n) && decide (hLenM1 h + 1 = n) && decide (hOffset h % 4096 + n ≤ 4096) && endsOk qh n
   else if ty = 0x41 then decide (1 ≤ n) && decide (n ≤ 4096) && decide (hLenM1 h + 1 = n) && endsOk qh n
   else if ty = 0x42 then decide (n = 0) && decide (1 ≤ qMsgLen qh) && decide (nbit qh.toNat 66 = decide (qMsgOff qh = 0))
   else if ty = 0x44 then
     decide (hLenM1 h + 1 = n) && decide (hOp h ≤ 9) && atomicPayloadOk (hOp h) n && decide (hOffset h % atomicWidth (hOp h) n = 0)
       && decide (qMsgOff qh = 0) && nbit qh.toNat 66 && nbit qh.toNat 65
   else false)

/-- DEST_QP is READY and joined to the sender (R298). -/
def peerOk (s : State) (h qh : BitVec 256) : Bool :=
  let x := qp s (qDest qh)
  decide (x.mode = .ready) && decide (x.peerEndpoint = hSource h) && decide (masterOf 3 x.peerQp = hMaster h)

/-- An arriving packet's ATOMIC_ACKED frees result cache entries (R303). -/
def notePacket (s : State) (q : Nat) (qh : BitVec 256) : State :=
  modQp s q (fun x => { x with results := x.results.filter (fun r => !(ackedSeq (qAtomicAcked qh) r.1)) })

/-- The MSN of an arriving request packet may be the highest of which any has arrived (R304). -/
def noteMsn (s : State) (q : Nat) (qh : BitVec 256) : State :=
  modQp s q (fun x => { x with topMsn := match x.topMsn with
                                 | none => some (qMsn qh)
                                 | some m => some (if lt24 m (qMsn qh) then qMsn qh else m) })

/-- Receive completions are written in MSN order once each message is complete (R299). -/
def reportRecv : Nat → State → Nat → State
  | 0, s, _ => s
  | n + 1, s, q =>
    let x := qp s q
    match x.rx.find? (fun m => decide (m.msn = x.recvMsn) && m.complete) with
    | none => s
    | some m =>
      let s := setQp s q { x with rx := x.rx.filter (fun y => decide (y.msn ≠ m.msn)), recvMsn := (x.recvMsn + 1) % 2 ^ 24 }
      let s :=
        if m.opcode = 3 ∨ m.opcode = 4 then
          let s := modQp s q (fun x => { x with recvDone := max x.recvDone (m.recvIndex + 1) })
          postCompletion s q (completionWord (recvDesc s x m.recvIndex).2.2 m.len m.immediate m.source q m.opcode 0 true)
        else if m.opcode = 2 then postCompletion s q (completionWord 0 0 m.immediate m.source q 2 0 true)
        else s
      reportRecv n s q

/-- Record what a packet placed of a message; the message completes when its bitmap is full. -/
def recordRecv (s : State) (q opcode : Nat) (h qh : BitVec 256) (off n len key : Nat) : State :=
  let x := qp s q
  let old := x.rx.find? (fun m => decide (m.msn = qMsn qh))
  let m : RecvMsg := old.getD { msn := qMsn qh, opcode := opcode, len := len, placed := [], recvIndex := qKey qh, immediate := 0,
                                key := key, source := hSource h, complete := false }
  let placed := if m.placed.contains (off, n) then m.placed else m.placed ++ [(off, n)]
  let full := decide (min m.len len ≤ (placed.map (fun p => p.2)).foldl (· + ·) 0)
  let m2 := { m with len := min m.len len, placed := placed, complete := full, opcode := max m.opcode opcode,
                     immediate := if nbit qh.toNat 65 then qImm qh else m.immediate }
  setQp s q { x with rx := x.rx.filter (fun y => decide (y.msn ≠ m.msn)) ++ [m2] }

/-- After a placement: ACK at once when it completes a message or fills a hole, or after 16 packets (R301). -/
def afterPlace (s : State) (q psn n msn : Nat) : State :=
  let before := (qp s q).expectPsn
  let hole := (qp s q).beyond.any (fun p => lt24 psn p)
  let s := placePsns s q psn n
  let x := qp s q
  let done := x.rx.any (fun m => decide (m.msn = msn) && m.complete)
  let s := reportRecv x.rx.length s q
  let s := checkDrains s
  if done ∨ (hole = true ∧ lt24 psn before = false) ∨ 16 ≤ x.sinceAck then sendAckNak s q none 0 else s

/-- A duplicate is dropped and acknowledged again; a PSN beyond the window is dropped (R300). -/
def dropPsn (s : State) (q : Nat) (c : PsnClass) : State :=
  if c = .duplicate then sendAckNak (incF s 0x4110 0x03) q none 0 else incF s 0x4110 0x04

/-- Checks of every arriving request packet: policing, R297, R298 steps 1 and 2. The packet goes on with its queue pair, or
is done with. A frozen queue pair discards it. -/
def admitPacket (s : State) (h qh : BitVec 256) (payload : List Byte) : State × Option Nat :=
  if deadSource s (hSource h) then (incF s 0x6401 0x05, none) else
  let q := qDest qh
  match police s h (qp s q).job payload.length with
  | (s, false) => (s, none)
  | (s, true) =>
    if quarantined s h then (refuseTx s h 4, none)
    else if queueFormOk s h qh payload = false then (refuseTx s h 7, none)
    else if peerLeft s h qh then (refuseTx s h 5, none)
    else if peerOk s h qh = false then (refuseTx s h 1, none)
    else if (qp s q).frozen then (s, none)
    else (noteMsn (notePacket s q qh) q qh, some q)

/-- A refusal by a check of R298, counted at the translation entry that refuses (R272). -/
def refuseBy (s : State) (h : BitVec 256) (e : Nat × Option Nat) : State :=
  refuseTx (match e.2 with
    | some k => countRefusal s k
    | none => s) h e.1

/-- WRITE (R299). -/
def recvWrite (s : State) (h qh : BitVec 256) (payload : List Byte) (imm : Bool) : State :=
  match admitPacket s h qh payload with
  | (s, none) => s
  | (s, some q) => match keyCheck s q h qh (hOffset h) payload.length 1 with
    | .error e => refuseBy s h e
    | .ok (a, draining) =>
      match classifyPsn s (qp s q) (qPsn qh) with
      | .fresh =>
        let s := ownWrite s a payload
        let s := if draining then incF s 0x4110 0x06 else s
        let s := recordRecv s q (if imm then 2 else 1) h qh (qMsgOff qh) payload.length (qMsgLen qh) (qKey qh)
        afterPlace s q (qPsn qh) 1 (qMsn qh)
      | c => dropPsn s q c

/-- The receive of index `m` ends in error and its queue pair with it: what was due before it is FLUSHED first (R296, Table 13-7). -/
def recvFails (s : State) (q m opcode status wr source : Nat) : State :=
  let s := flushReceives s q m
  let s := modQp s q (fun x => { x with recvDone := max x.recvDone (m + 1) })
  qpError (postCompletion s q (completionWord wr 0 0 source q opcode status true)) q

/-- SEND (R299). -/
def recvSend (s : State) (h qh : BitVec 256) (payload : List Byte) (imm : Bool) : State :=
  match admitPacket s h qh payload with
  | (s, none) => s
  | (s, some q) =>
    let x := qp s q
    match classifyPsn s x (qPsn qh) with
    | .fresh =>
      let m := qKey qh
      if recvPosted x m = false then sendAckNak s q (some 0x21) (qMsn qh) else
      let (addr, len, wr) := recvDesc s x m
      if len < qMsgLen qh then
        recvFails (sendAckNak s q (some 0x24) (qMsn qh)) q m (if imm then 4 else 3) 0x24 wr (hSource h)
      else if inJobMemory s x.job addr (qMsgLen qh) = false then
        recvFails (freezeMaster s 3 q x.job 293) q m (if imm then 4 else 3) 0x23 wr (hSource h)
      else
        let s := ownWrite s (addr + qMsgOff qh) payload
        let s := recordRecv s q (if imm then 4 else 3) h qh (qMsgOff qh) payload.length (qMsgLen qh) 0
        afterPlace s q (qPsn qh) 1 (qMsn qh)
    | c => dropPsn s q c

/-- Send one READ_RESP packet: the first or last of its message when its request says so of the range. -/
def sendReadResp (q : Nat) (req : BitVec 256) (s : State) (p : Nat × (Nat × Nat) × List Byte) : State :=
  let x := qp s q
  let psn := (qPsn req + p.1) % 2 ^ 24
  let h := packetHeader s q 0x43 psn 0 p.2.2.length 0
  let qh := mkQHeader x.peerQp psn (qMsn req) (qMsgOff req + p.2.1.1) (qMsgLen req) 0 0 x.ackedAtomic
    (nbit req.toNat 66 && decide (p.2.1.1 = 0)) (nbit req.toNat 65 && decide (p.2.1.1 + p.2.1.2 = qMsgLen req)) 0 0 0
  sendQueuePacket s x.job x.vn h qh p.2.2

/-- The pieces that a READ_REQ asks for, as (offset, bytes, address), or the refusal. -/
def readPieces (s : State) (q : Nat) (h qh : BitVec 256) : Except (Nat × Option Nat) (List (Nat × Nat × Nat)) :=
  (msgPieces (hOffset h) (qMsgLen qh)).mapM (fun p => match keyCheck s q h qh (hOffset h + p.1) p.2 0 with
    | .ok (a, _) => .ok (p.1, p.2, a)
    | .error e => .error e)

/-- The address at which a READ_REQ or ATOMIC_REQ that passes every check reads first. -/
def readTarget (s : State) (h qh : BitVec 256) (payload : List Byte) : Option Nat := match admitPacket s h qh payload with
  | (s, some q) =>
    if hType h = 0x44 then match keyCheck s q h qh (hOffset h) (atomicWidth (hOp h) payload.length) 2 with
      | .ok (a, _) => if (qp s q).results.any (fun r => decide (r.1 = qAtomicSeq qh)) then none else some a
      | .error _ => none
    else match readPieces s q h qh with
      | .ok (p :: _) => some p.2.2
      | _ => none
  | _ => none

/-- READ_REQ (R299, R302): memory is read afresh; `bad` when the target read is uncorrectable. -/
def recvReadReq (s : State) (h qh : BitVec 256) (bad : Bool) : State :=
  match admitPacket s h qh [] with
  | (s, none) => s
  | (s, some q) =>
    let n := qMsgLen qh
    match readPieces s q h qh with
    | .error e => refuseBy s h e
    | .ok ps =>
      let s := ps.foldl (fun s p => settleOwn s p.2.2 p.2.1 false) s
      let data := ps.map (fun p => if poisonedRange s p.2.2 p.2.1 then none else targetRead s p.2.2 p.2.1)
      if bad ∨ data.any (fun d => d.isNone) = true then refuseTx s h 8
      else
        match classifyPsn s (qp s q) (qPsn qh) with
        | .outside => incF s 0x4110 0x04
        | c =>
          let bytes := data.map (fun d => d.getD [])
          let cuts := (ps.map (fun p => (p.1, p.2.1))).zip bytes
          let s := ((List.range ps.length).zip cuts).foldl (sendReadResp q qh) s
          let news := c = .fresh ∨ (List.range ps.length).any (fun i => decide (classifyPsn s (qp s q) ((qPsn qh + i) % 2 ^ 24) = .fresh)) = true
          if news then
            let whole := if nbit qh.toNat 65 then qMsgOff qh + n else 2 ^ 32
            let s := ps.foldl (fun s p => recordRecv s q 5 h qh (qMsgOff qh + p.1) p.2.1 whole (qKey qh)) s
            afterPlace s q (qPsn qh) ps.length (qMsn qh)
          else s

/-- ATOMIC_REQ (R303); `bad` when the target read is uncorrectable. -/
def recvAtomicReq (s : State) (h qh : BitVec 256) (payload : List Byte) (bad : Bool) : State :=
  let answer (s : State) (q : Nat) (v w : Nat) : State :=
    let x := qp s q
    let rh := packetHeader s q 0x45 (qPsn qh) 0 w 0
    sendQueuePacket s x.job x.vn rh (mkQHeader x.peerQp (qPsn qh) (qMsn qh) 0 w 0 (qAtomicSeq qh) x.ackedAtomic true true 0 0 0) (toBytesLE w v)
  match admitPacket s h qh payload with
  | (s, none) => s
  | (s, some q) =>
    match (qp s q).results.find? (fun r => decide (r.1 = qAtomicSeq qh)) with
    | some (_, v, w) => answer (incF s 0x4110 0x05) q v w
    | none =>
      let w := atomicWidth (hOp h) payload.length
      match keyCheck s q h qh (hOffset h) w 2 with
      | .error e => refuseBy s h e
      | .ok (a, draining) =>
        if (qp s q).atomics = false then refuseTx s h 3 else
        match classifyPsn s (qp s q) (qPsn qh) with
        | .outside => incF s 0x4110 0x04
        | _ =>
          let s := settleOwn s a w true
          if bad ∨ poisonedRange s a w = true ∨ (targetRead s a w).isNone = true then refuseTx s h 8 else
          let (s, old) := doAtomic s a (hOp h) payload
          let s := if draining then incF s 0x4110 0x06 else s
          let s := modQp s q (fun x => { x with results := x.results ++ [(qAtomicSeq qh, ofBytesLE old, w)] })
          let s := recordRecv s q 6 h qh 0 w w (qKey qh)
          answer (afterPlace s q (qPsn qh) 1 (qMsn qh)) q (ofBytesLE old) w

/-! ### Arriving responses -/

/-- READ_RESP: the payload is placed at LOCAL_ADDR plus its message offset; the READ completes when all is placed. -/
def recvReadResp (s : State) (h qh : BitVec 256) (payload : List Byte) : State :=
  let q := qDest qh
  if deadSource s (hSource h) then incF s 0x6401 0x05 else
  if peerOk s h qh = false ∨ (qp s q).frozen = true then s else
  let s := notePacket s q qh
  match (qp s q).tx.find? (fun p => decide (p.psn = qPsn qh) && decide (hType p.header = 0x42)) with
  | none => incF s 0x4110 0x03
  | some p =>
    match (qp s q).msgs.find? (fun m => decide (m.msn = p.msn)) with
    | none => s
    | some m =>
      let s := ownWrite s (dLocal m.desc + qMsgOff qh) payload
      let s := modQp s q (fun x => { x with tx := x.tx.filter (fun y => decide (y ≠ p)) })
      let done := m.readDone ++ [qMsgOff qh]
      let s := modMsg s q m.msn (fun y => { y with readDone := done, ended := if done.length = y.packets then some 0 else y.ended })
      runSend (report s q) q

/-- Highest atomic sequence below which every response is held. -/
def advanceAcked : Nat → QueuePair → QueuePair
  | 0, x => x
  | n + 1, x =>
    let k := (x.ackedAtomic + 1) % 65536
    if x.gotAtomics.contains k then advanceAcked n { x with ackedAtomic := k, gotAtomics := x.gotAtomics.filter (fun g => decide (g ≠ k)) }
    else x

/-- ATOMIC_RESP: the prior value is stored at LOCAL_ADDR and the atomic completes (R303). -/
def recvAtomicResp (s : State) (h qh : BitVec 256) (payload : List Byte) : State :=
  let q := qDest qh
  if deadSource s (hSource h) then incF s 0x6401 0x05 else
  if peerOk s h qh = false ∨ (qp s q).frozen = true then s else
  let s := notePacket s q qh
  match (qp s q).msgs.find? (fun m => decide (dOp m.desc = 6) && decide (m.atomicSeq = qAtomicSeq qh) && m.ended.isNone) with
  | none => incF s 0x4110 0x03
  | some m =>
    let s := ownWrite s (dLocal m.desc) (payload.take (dLen m.desc))
    let s := modQp s q (fun x =>
      let x := { x with tx := x.tx.filter (fun p => decide (p.msn ≠ m.msn)), gotAtomics := x.gotAtomics ++ [m.atomicSeq] }
      advanceAcked x.gotAtomics.length x)
    let s := modMsg s q m.msn (fun y => { y with ended := some 0 })
    runSend (report s q) q

/-- ACK or NAK at the sender (R299, R301, R302). -/
def recvAck (s : State) (h qh : BitVec 256) (payload : List Byte) : State :=
  let q := qDest qh
  if deadSource s (hSource h) then incF s 0x6401 0x05 else
  if peerOk s h qh = false ∨ (qp s q).frozen = true then s else
  takeAck (notePacket s q qh) q (qAckPsn qh) (ofBytesLE (payload.take 8))

/-- NAK 0x21: the SEND is repeated after folio 0x4100.06 µs, within the retry limit; any other code ends the message. -/
def recvNak (s : State) (h qh : BitVec 256) (payload : List Byte) : State :=
  let q := qDest qh
  if deadSource s (hSource h) then incF s 0x6401 0x05 else
  if peerOk s h qh = false ∨ (qp s q).frozen = true then s else
  let s := takeAck (notePacket s q qh) q (qAckPsn qh) (ofBytesLE (payload.take 8))
  match (qp s q).msgs.find? (fun m => decide (m.msn = qMsn qh) && m.ended.isNone) with
  | none => s
  | some m =>
    if qNak qh ≠ 0x21 then failMsg s q m.msn (qNak qh)
    else if getF s 0x4100 0x05 ≤ m.rnrTries then failMsg s q m.msn 0x21
    else modMsg s q m.msn (fun y => { y with rnrAtNs := some (s.now + getF s 0x4100 0x06 * 1000) })

/-- The delayed repeat of a SEND (R299). -/
def rnrRepeat (s : State) (q msn : Nat) : State :=
  match (qp s q).msgs.find? (fun m => decide (m.msn = msn)) with
  | none => s
  | some m => match m.rnrAtNs with
    | none => s
    | some due =>
      if s.now < due ∨ (qp s q).mode ≠ .ready ∨ (qp s q).frozen = true then s else
      let s := modMsg s q msn (fun y => { y with rnrAtNs := none, rnrTries := y.rnrTries + 1 })
      ((qp s q).tx.filter (fun p => decide (p.msn = msn))).foldl (fun s p =>
        let p2 := { p with departNs := none }
        sendTx (modQp s q (fun x => { x with tx := x.tx.map (fun y => if y = p then p2 else y) })) q p2) s

/-- A REFUSE answering a queue packet: its TAG names the packet, whose message completes with the status; a freezing one adds
the refuser to the thaw list (R274). -/
def queueRefused (s : State) (h : BitVec 256) : State :=
  let q := hMaster h % 2 ^ 13
  match (qp s q).tx.find? (fun p => decide (p.psn % 65536 = hTag h) && decide (hDest p.header = hSource h)) with
  | none => s
  | some p =>
    let s := failMsg s q p.msn (hStatus h)
    if hStatus h = 1 ∨ hStatus h = 2 ∨ hStatus h = 3 then addThaw s 3 q (hSource h) else s

/-- A verdict declares an endpoint dead: queue pairs joined to it complete their messages with 0xB, and results kept for it are
freed (R285, R303, Table 13-11). -/
def queuesDead (s : State) (e : Nat) : State :=
  (tkeys s.queue.qps (fun _ x => x.made && decide (x.peerEndpoint = e))).foldl (fun s q =>
    let s := if (qp s q).mode = .ready then qpFlush s q (fun _ => 0xB) else s
    checkDrains (modQp s q (fun x => { x with results := [] }))) s

end Sys2Proof.Machine
end

