-- ==== Sys2Proof/Machine/Jobs.lean ====
section
/-! DEFINITION. Jobs (chapter 16): their states, the free units, what ends with a job, teardown and restart (R346, R349, R393,
R394), and the flooding of kettle notes (R379, R381). -/

namespace Sys2Proof.Machine

open Host

/-! ### Kettle notes (Table 18-1) -/

/-- BODY of a kettle control word, at its place in the word. -/
def noteBody (note origin subject id inc image jb : Nat) : Nat :=
  place note 239 236 + place origin 235 220 + place subject 219 204 + place id 203 188 + place inc 187 156 + place image 155 124
    + place jb 123 118

/-- Links in UP or ACTIVE whose peer lies in this volume: notes go out and are accepted on them (R381). -/
def noteLinks (s : State) : List Nat :=
  (linksIn s linkLive).filter (fun l => decide (volumeOf (linkOf s l).peerEndpoint = volumeOf (ownEndpoint s)))

/-- Notes older than 16 ms are forgotten (R381). -/
def freshNotes (s : State) : List (Nat × Nat × Nat) := s.kettle.notes.filter (fun n => decide (s.now - n.2.2 ≤ 16000000))

/-- Flood a note of this package's own (R381). -/
def floodNote (s : State) (note subject inc image jb : Nat) : State :=
  let id := s.kettle.noteId
  let own := ownEndpoint s
  let k := { s.kettle with noteId := (id + 1) % 65536, notes := freshNotes s ++ [(own, id, s.now)] }
  (noteLinks s).foldl (fun s l => sendWord s l 4 (noteBody note own subject id inc image jb)) { s with kettle := k }

/-! ### States of a job number (Table 16-1) -/

/-- Code of a job state. -/
def jobCode : JobMode → Nat
  | .free => 0
  | .starting => 1
  | .running => 2
  | .ending => 3
  | .tornDown => 4

/-- A job number takes a state, shown in folio 0x5410.jj. -/
def setJobMode (s : State) (j : Nat) (m : JobMode) : State :=
  setF (modJob s j (fun x => { x with mode := m })) 0x5410 j (jobCode m)

/-- ROLE_ACTIVE, folio 0x7C10.02. -/
def roleActive (s : State) : Nat := getF s 0x7C10 0x02

/-- IMAGE_ID of the image a job runs (R202, folio 0x2060.09); zero without one. -/
def imageIdOf (s : State) (j : Nat) : Nat := match (job s j).image with
  | some i => i.info.imageId
  | none => 0

/-! ### Free units -/

/-- A unit may be assigned: proved at start-up and not fenced. -/
def unitFit (s : State) (u : Nat) : Bool := (unitOf s u).proved && !(fencedU s u) && !((unitOf s u).selfTest)

/-- A quire is free (R128). -/
def quireFree (s : State) (q : Nat) : Bool := (quire s q).job.isNone && unitFit s (unitQuire q)

/-- Free quires, ascending. -/
def freeQuires (s : State) : List Nat := (List.range 128).filter (quireFree s)

/-- A bundle is free: all its columns are assigned to no job and none is fenced (R157). -/
def bundleFree (s : State) (k : Nat) : Bool :=
  (List.range 16).all (fun i => (gutter s (16 * k + i)).seq.job.isNone && unitFit s (unitColumn (16 * k + i)))

/-- Free bundles, ascending. -/
def freeBundles (s : State) : List Nat := (List.range 64).filter (bundleFree s)

/-! ### What ends with a job -/

/-- Handling of a unit ends (R370): IDLE, a fence staying. -/
def endHandling (s : State) (u : Nat) : State := modUnit s u (fun x => { x with slot := .idle })

/-- A quire sequencer whose job is gone: nothing is left of it but what folio 0x3110.qq shows of its last trap (R146). -/
def releasedSeq (q : Sequencer) : Sequencer :=
  match q.trap with
  | some _ => { Sequencer.zero with trap := q.trap, sp := q.sp, frozen := q.frozen }
  | none => Sequencer.zero

/-- The sets of a job return to the pool, or become fenced and unassigned; freezes of its sequencers are released, and the
handling of its units ends (R349, R369, Table 17-9). -/
def releaseSets (s : State) (j : Nat) : State :=
  let x := job s j
  let units := x.quires.map unitQuire ++ x.columns.map unitColumn
  let s := units.foldl endHandling s
  let s := (s.fabric.frozen.filter (fun m => decide (m.cls = 0) && x.quires.contains m.index)).foldl startRelease s
  let s := x.quires.foldl (fun s q => setSeq s q (releasedSeq (quire s q))) s
  x.columns.foldl (fun s c => modGutter s c (fun g => { GutterUnit.zero with held := g.held, refreshPause := g.refreshPause })) s

/-- Flash pages of a job's tier-4 objects are discarded (R251). -/
def discardJobFlash (s : State) (j : Nat) : State :=
  (tierRanges s j .flash).foldl (fun s r => flashDiscard s r.1 r.2) s

/-- The 64-byte header of a span message (Table 8-3). -/
def spanHeader (s : State) (type owner sig epoch jb layer hi lo qpos qp0 kv nkv anchor ring : Nat) (ringed : Bool)
    (code step len : Nat) : BitVec 512 :=
  BitVec.ofNat 512 (place type 511 504 + place (ownEndpoint s) 503 488 + place owner 487 472 + place sig 471 456 + place epoch 455 424
    + place jb 421 416 + place layer 415 408 + place hi 407 392 + place lo 391 376 + place qpos 375 363 + place qp0 362 339
    + place kv 338 315 + place nkv 314 302 + place anchor 301 296 + place ring 295 294 + place (b2n ringed) 293 293 + place code 292 285
    + place step 284 253 + place len 252 221)

/-- REFUSE an ATTEND (R194): the header of the ATTEND with the code, and the holder's own job number (Table 8-3). -/
def attendRefuse (code : Nat) (s : State) (a : AttendWork) : State :=
  let h := a.header
  let r := spanHeader s 0x29 (fld h 487 472) (fld h 471 456) (fld h 455 424) a.srcJob (fld h 415 408) (fld h 407 392) (fld h 391 376)
    (fld h 375 363) (fld h 362 339) (fld h 338 315) 0 (fld h 301 296) 0 false code (fld h 284 253) 0
  incF (transmit s (.message 1 a.src (BitVec.ofNat 1024 r.toNat) [])) 0x3821 a.job

/-- Spans, shards, passes and ring of a job end (R185); ATTENDs queued at a host job are refused (R197). -/
def endSpans (s : State) (j : Nat) : State :=
  let s := (s.span.attends.filter (fun a => decide (a.job = j))).foldl (attendRefuse 1) s
  let s := s.span.ringJob.zipIdx.foldl (fun s r => if r.1 = some j then setF s 0x3803 r.2 0 else s) s
  { s with span := { s.span with shards := s.span.shards.filter (fun x => decide (x.job ≠ j)),
                                 passes := s.span.passes.filter (fun x => decide (x.job ≠ j)),
                                 copied := s.span.copied.filter (fun x => decide (x.1 ≠ j)),
                                 transit := s.span.transit.filter (fun x => decide (x.job ≠ j)),
                                 attends := s.span.attends.filter (fun a => decide (a.job ≠ j)),
                                 ringJob := s.span.ringJob.map (fun r => if r = some j then none else r) } }

/-- Handoffs of a job's signatures end. -/
def endHandoffs (s : State) (j : Nat) : State :=
  let mine (n : Nat) : Bool := decide ((sigE s n).job.toNat = j)
  let s : State := { s with handoff := { s.handoff with records := s.handoff.records.filter (fun r => !(mine r.sig)),
                                                        incoming := s.handoff.incoming.filter (fun r => !(mine r.sig)) } }
  setF s 0x2060 0x06 s.handoff.records.length

/-- Signatures of a job in a swap when it ends: their region is not reused before the transfers are done (R78). -/
def swapsOpen (s : State) (j : Nat) : List Nat := jobSigsIn s j .swappingOut ++ jobSigsIn s j .swappingIn

/-- Transactions of a job's sequencers that are outstanding store nothing any more. -/
def dropTargets (s : State) (j : Nat) : State :=
  { s with fabric := { s.fabric with outstanding := s.fabric.outstanding.map (fun o =>
      if o.job = j ∧ o.master / 2 ^ 13 = 0 then { o with dst := none } else o) } }

/-- Prefill offers for a job are dropped, and its outbound entries lose VALID. -/
def dropJobWork (s : State) (j : Nat) : State :=
  let s := { s with sig := { s.sig with offers := s.sig.offers.filter (fun o => decide (o.job ≠ j)) } }
  { s with fabric := { s.fabric with outbound := s.fabric.outbound.filter (fun e => e.2.firmware || !decide (e.2.ownerJob = j)) } }

/-- What a started move of a job torn down goes on holding until its outstanding writes end (Table 10-7): the places of its source and of
its target. -/
def endingOf (s : State) (m : TierMove) : EndingMove :=
  let i := imageOf s m.job
  let raw (a b : Nat) : List (Nat × Nat) := [(a, payloadBytes i), (b, scaleBytesOf i)]
  let parts (t : Tier) (p : Nat × Nat) : List (Nat × Nat) := if t = .stacked ∨ t = .lpddr6 then raw p.1 p.2 else [(p.1, objectBytes i)]
  { job := m.job, group := m.group, pool := jobClass s m.job,
    ranges := (layersOf s m.job).flatMap (fun l =>
      let d := leafOf s m.job m.group l
      parts d.tier (d.page, d.scaleAddr)) ++ m.addrs.flatMap (parts m.target.tier) }

/-- A job releases its sets, domains, memory and groups in every tier; the sweep of its nodes begins (R349 steps 3 to 7, R393).
What remains of the record is given by `keep`, with the signatures `open0` that were in a swap. -/
def releaseJob (s : State) (j : Nat) (open0 : List Nat) (keep : JobSt → JobSt) : State :=
  let s := endXlates s j
  let s := endQueues s j
  let s := discardJobFlash s j
  let held := (s.tier.moves.filter (fun m => decide (m.job = j) && m.started)).map (endingOf s)
  let s := (s.tier.moves.filter (fun m => decide (m.job = j))).foldl (fun s m => stopWrites s j m.group) s
  let s := { s with tier := { s.tier with moves := s.tier.moves.filter (fun m => decide (m.job ≠ j)), ending := s.tier.ending ++ held,
                                          active := s.tier.active.filter (fun k => decide (k ≠ j)) } }
  let s := startSweep s j
  let s := endHandoffs (endSpans s j) j
  let s := releaseSets s j
  let s := dropTargets (dropJobWork s j) j
  let s := modJob s j (fun x => { keep x with swapLeft := open0, swapped := [] })
  setF (setF s 0x2403 j 0) 0x3104 j 0

/-- The record of a job number that keeps only its state, class and restart data. -/
def bareJob (x : JobSt) : JobSt :=
  { JobSt.zero with mode := x.mode, bestEffort := x.bestEffort, startOrder := x.startOrder, isRestart := x.isRestart, wait := x.wait,
                    joint := x.joint, swapLeft := x.swapLeft,
                    bookmark := { BookmarkState.zero with lastNs := x.bookmark.lastNs, taken := x.bookmark.taken } }

/-- Every signature of the job becomes FREE without notice (Table 2-3, teardown row). -/
def freeSigs (s : State) (j : Nat) : State := (jobSigs s j).foldl (fun s n => setSigState s n .free) s

/-! ### The management window (R415) -/

/-- STORE of a folio at another package through its management window, by the control plane. -/
def writeRemoteFolio (s : State) (dest idx sub width v : Nat) : State :=
  (issue s 2 dest 0 4 0 2 (0xFF0000000000 + idx * 65536 + sub * 256) (width / 8) 0 false (toBytesLE (width / 8) v) none).1

/-- The bookmark slot of a job is discarded at both its targets (R251). -/
def discardBookmarks (s : State) (j : Nat) : State :=
  let t := getF s 0x6410 j
  let slot := nfld t 31 16
  [nfld t 63 48, nfld t 47 32].foldl (fun s e =>
    if e = 0 then s
    else if e = ownEndpoint s then bookmarkDiscardAction slot s
    else writeRemoteFolio s e 0x7030 0x05 16 slot) s

/-- The last step of an end: the key is zeroed, and only then is the job number FREE (Table 16-2). -/
def endKey (s : State) (j : Nat) : State :=
  let s := startZeroing s j
  if (keySlot s j).key.isNone then setF (setJobMode s j .free) 0x5414 j 0 else s

/-- The steps of R349 after the signatures: everything released, the bookmark slot discarded, the key zeroed; nothing is left to do when
only the key remains. [DEDUCED: log 88, 110] -/
def finishEnd (s : State) (j : Nat) : State :=
  if (keySlot s j).zeroing then s else
  let open0 := swapsOpen s j
  let s := releaseJob (freeSigs s j) j open0 (fun x => { JobSt.zero with mode := x.mode })
  endKey (discardBookmarks s j) j

/-! ### Teardown and restart (R393, R394) -/

/-- A start command is accepted, or a restart begins: STARTING, in the order of acceptance (R347). -/
def acceptStart (s : State) (j : Nat) (restart : Bool) : State :=
  let s := setJobMode s j .starting
  let s := modJob s j (fun x => { x with isRestart := restart, wait := .none })
  setF (setF (setF { s with starts := s.starts ++ [j] } 0x5413 j 1) 0x3102 j 1) 0x3103 j 0

/-- Restart of a torn-down job: none while the role is UNASSIGNED (R394). -/
def restartJob (s : State) (j : Nat) : State :=
  if (job s j).mode = .tornDown ∧ roleActive s ≠ 0xFF then incF (acceptStart s j true) 0x6423 j else s

/-- How a torn-down job comes back. -/
inductive Teardown where
  /-- Restart at once (local), at a route epoch (joint). -/
  | restart
  /-- Torn down by a yield: restarts when room returns (R348). -/
  | yield (order : Nat)
  /-- No restart (Table 18-2, program traps; R370 kind 0x5, 0x6). -/
  | stay
  /-- Waits for the PCIe port (R457). -/
  | port
  deriving DecidableEq, Repr

/-- The transition of Table 16-2 for a teardown cause; one that meets TORN_DOWN or FREE changes nothing (R346). `flood` is
false when the cause is a TEARDOWN note, which is forwarded instead. -/
def tearDown (s : State) (j : Nat) (how : Teardown) (flood : Bool) : State :=
  let x := job s j
  match x.mode with
  | .free => s
  | .tornDown => s
  | .ending => incF (finishEnd s j) 0x6422 j
  | _ =>
    let id := imageIdOf s j
    let s0 := s
    let s := releaseJob (freeSigs s j) j (swapsOpen s0 j) bareJob
    let s := refuseWaiting (setJobMode (incF s 0x6422 j) j .tornDown) j
    let s := { s with starts := s.starts.filter (fun k => decide (k ≠ j)) }
    let s := if x.joint ∧ flood then floodNote s 4 0 0 id j else s
    let wait := match how with
      | .yield n => RestartWait.room n (imageOf s0 j).qMin (imageOf s0 j).cMin
      | .port => .port
      | .stay => .none
      | .restart => if x.joint then .epoch else .none
    let s := modJob s j (fun x => { x with wait := wait })
    if how = .restart ∧ x.joint = false then restartJob s j else s

/-- Local or joint teardown with restart: the response to most errors. -/
def tearDownJob (s : State) (j : Nat) : State := tearDown s j .restart true

/-- Jobs whose image has an identifier. -/
def runsImage (s : State) (j id : Nat) : Bool := match (job s j).image with
  | some i => decide (i.info.imageId = id) && decide ((job s j).mode = .running ∨ (job s j).mode = .starting)
  | none => false

/-! ### Lost groups (R240) -/

/-- A group is lost: counted by tier, its node's subtree evicted when index-only, its job torn down when referenced. -/
def loseGroup (s : State) (j g : Nat) (t : Tier) : State :=
  let s := if 1 ≤ tierNum t ∧ tierNum t ≤ 4 then incF s (0x243C + (tierNum t - 1)) j else s
  if indexOnly (groupOf s j g) then evictGroup s j g
  else tearDownJob (logErr s 0x38 0 0 (some j) g 0) j

end Sys2Proof.Machine
end

