-- ==== Sys2Proof/Machine/LinkBase.lean ====
section
/-! DEFINITION. State changes of links that other rules call for: entering DOWN, DISABLED and FENCED, and the opening of a
route epoch (R282, R318, Table 14-6). -/

namespace Sys2Proof.Machine

open Host

/-- A change of link state or a verdict: the route epoch opens 1 ms after the last one (R282). [DEDUCED: log 165] -/
def noteChange (s : State) : State := { s with fabric := { s.fabric with epochDueNs := some (s.now + 1000000) } }

/-- TRAIN_FAILS, folio 0x480A.ll: the last cause, and one failure more when `count`. -/
def trainFail (s : State) (l cause : Nat) (count : Bool) : State :=
  let v := getF s 0x480A l
  let n := nfld v 23 0
  setF s 0x480A l (place cause 31 24 + (if count then min (n + 1) (2 ^ 24 - 1) else n))

/-- The link's own registers when it leaves service: replay buffer lost, credit and SEQ state void. -/
def outOfService (x : Link) (m : LinkMode) (now : Nat) : Link :=
  { Link.zero with mode := m, sinceNs := now, rsOn := x.rsOn, peerEndpoint := x.peerEndpoint, peerLink := x.peerLink,
                   egress := x.egress, limitNs := x.limitNs, holdoffNs := x.holdoffNs, lastCheck := x.lastCheck, light := x.light }

/-- Ring jobs whose plan uses link 2n or 2n + 1 towards a neighbour (R192). -/
def ringJobsOn (s : State) (l : Nat) : List Nat :=
  if 8 ≤ l then [] else
  match s.span.ringJob.getD (l / 2) none with
  | some j => if (match (job s j).plan with
      | some p =>
        let r := p.members.length
        let k := if l % 2 = 0 then (p.position + 1) % r else (p.position + r - 1) % r
        decide (1 < r) && decide (p.members.getD k 0 = (linkOf s l).peerEndpoint)
      | none => false) then [j] else []
  | none => []

/-- The link enters a state out of service. An entry into DOWN opens a route epoch (R318), as leaving service for another state does, and
one that leaves ACTIVE for DOWN between members of a ring job tears that job down on every member (R192). -/
def leaveService (s : State) (l : Nat) (m : LinkMode) : State :=
  let x := linkOf s l
  let live := decide (x.mode = .up) || decide (x.mode = .active) || decide (x.mode = .retrain)
  let s := setLink s l (outOfService x m s.now)
  let s := if live ∨ m = .down then noteChange s else s
  if (x.mode = .active ∨ x.mode = .retrain) ∧ m = .down then (ringJobsOn s l).foldl tearDownJob s else s

/-- The link enters DOWN; a failed training step is counted with its cause (Table 14-6). [DEDUCED: log 165] -/
def enterDown (s : State) (l : Nat) : State := leaveService s l .down

/-- A training step fails: DOWN, counted in folio 0x480A.ll. -/
def failTraining (s : State) (l cause : Nat) : State := trainFail (enterDown s l) l cause true

/-- Folio 0x4802.ll bit [1] set: any state but FENCED goes to DISABLED. -/
def disableLink (s : State) (l : Nat) : State := if (linkOf s l).mode = .fenced then s else leaveService s l .disabled

/-- The laser source of a link's engine is ready (R309). -/
def laserReady (s : State) (l : Nat) : Bool :=
  let x := tget LaserSource.zero s.link.lasers (l / 8)
  x.present && x.ready && !x.fault

/-- Links 0–7 with their switch closed receive no light of their own (R324). [DEDUCED: log 105] -/
def fibreOpen (s : State) (l : Nat) : Bool := decide (8 ≤ l) || !(tget Bypass.zero s.link.bypass (l / 2)).closed

/-- Send this end's PARAM (Table 14-4): endpoint, link, Reed–Solomon request, next SEQ expected. The request sent is the one in force in
this training (R316). -/
def sendParam (s : State) (l : Nat) : State :=
  let s := modLink s l (fun x => { x with rsAsked := nbit (getF s 0x4802 l) 0 })
  sendWord s l 6 (place (ownEndpoint s) 239 224 + place l 223 216 + place (getF s 0x4802 l) 215 215 + place (linkOf s l).rxSeq 214 199)

/-- DOWN enters TRAINING with light on both receive lanes, the hold-off elapsed and the laser source ready (Table 14-6). [DEDUCED: log 165] -/
def tryTrain (s : State) (l : Nat) : State :=
  let x := linkOf s l
  if x.mode = .down ∧ x.light = true ∧ x.holdoffNs ≤ s.now ∧ laserReady s l = true ∧ fibreOpen s l = true ∧ s.link.dark = false then
    sendParam (setLink s l { x with mode := .training, sinceNs := s.now, paramSeen := false }) l
  else s

/-- Bit [1] cleared: DISABLED goes to DOWN, and trains where light is on. [DEDUCED: log 50] -/
def enableLink (s : State) (l : Nat) : State := if (linkOf s l).mode = .disabled then tryTrain (enterDown s l) l else s

/-- Kettle fencing (R388, R389). -/
def fenceLink (s : State) (l : Nat) : State := leaveService s l .fenced

/-- The device sets bit [1] of folio 0x4802.ll itself. -/
def setDisableBit (s : State) (l : Nat) (on : Bool) : State := devSetF s 0x4802 l (setFld (getF s 0x4802 l) (b2n on) 1 1)

end Sys2Proof.Machine
end

