-- ==== Sys2Proof/Machine/Errors.lean ====
section
/-! DEFINITION. Local errors (chapter 17) and the response to detectors and traps (R391, R392): handling slots, fencing,
correctable errors, voided steps, self-test and injection. -/

namespace Sys2Proof.Machine

open Host

/-! ### Package failed (R15) -/

/-- Every sequencer stops. -/
def stopSequencers (s : State) : State :=
  let halt (q : Sequencer) : Sequencer := { q with running := false }
  { s with quires := s.quires.map (fun e => (e.1, halt e.2)), gutters := s.gutters.map (fun e => (e.1, { e.2 with seq := halt e.2.seq })) }

/-- Every transmitter goes dark. -/
def goDark (s : State) : State := if s.link.dark then s else emit { s with link := { s.link with dark := true } } .dark

/-- The package is treated as failed (R15): sequencers stopped, transmitters dark. -/
def packageFailed (s : State) : State :=
  let s := goDark (stopSequencers s)
  if s.err.failed then s else { s with err := { s.err with failed := true, failedNs := s.now } }

/-! ### Fencing (R370, R371) -/

/-- The entry that records a fence. [DESIGN CHOICE: log 125] -/
def logFence (s : State) (u reason : Nat) : State :=
  logEntry s { timeNs := 0, unit := u, cause := 0x23, plane := 0, nested := false, fence := true, job := unitJob s u, address := 0,
               master := 0, detail := reason, seq := 0 }

/-- The role is withdrawn (R370, kinds 0x5 and 0x6). [DESIGN CHOICE: log 126] -/
def withdrawRole (s : State) (reason : Nat) : State :=
  let s := (jobNumbers s).foldl (fun s j => tearDown s j .stay true) s
  setF (setF s 0x7C10 0x02 0xFF) 0x7C10 0x03 reason

/-- Half-to-half modules in service. -/
def ucieAlive (s : State) : Nat := (List.range 8).countP (fun n => !(fencedU s (unitUcie n)))

/-- Steps in flight of a job do not commit any more (Tables 5-10 and 7-11: a quire or column fenced during a step). [DEDUCED: log 62] -/
def barSteps (s : State) (j : Nat) : State :=
  let bar (p : PartState) : PartState := { p with run := p.run.map (fun r => { r with barred := true }) }
  modJob s j (fun x => { x with gen := bar x.gen, prompt := bar x.prompt })

/-- How a fence takes effect by the unit's kind (Table 17-5). -/
def fenceEffect (s : State) (u : Nat) : State :=
  let n := u % 4096
  match u / 4096 with
  | 1 => match unitJob s u with
    | some j => barSteps s j
    | none => s
  | 2 => match unitJob s u with
    | some j => barSteps s j
    | none => s
  | 3 => disableLink (setDisableBit s n true) n
  | 5 => withdrawRole s 2
  | 6 => withdrawRole s 4
  | 7 => if 8 ≤ n ∨ ucieAlive s = 0 then packageFailed s else s
  | 8 => packageFailed s
  | 9 => packageFailed s
  | _ => s

/-- A unit stands fenced: of a link, bit [1] of folio 0x4802.ll still holds it. -/
def heldFenced (s : State) (u : Nat) : Bool := fencedU s u && (decide (u / 4096 ≠ 3) || nbit (getF s 0x4802 (u % 4096)) 1)

/-- Fence a unit for a reason of Table 17-6. -/
def fence (s : State) (u reason : Nat) : State :=
  if heldFenced s u then s else
  fenceEffect (logFence (modUnit s u (fun x => { x with fenced := true, reason := reason })) u reason) u

/-! ### Errors (R361, R362, R370, R372) -/

/-- Causes 0x01 to 0x04 of Table 17-3 are detector mismatches. [DEDUCED: log 95] -/
def isMismatch (cause : Nat) : Bool := decide (1 ≤ cause) && decide (cause ≤ 4)

/-- An error meets a unit under self-test: the test fails (Table 17-9). -/
def failSelfTest (s : State) (u : Nat) : State :=
  { s with err := { s.err with reinstating := s.err.reinstating.map (fun r => if r.unit = u then { r with hurt := true } else r) } }

/-- The handling of a unit's first error is over before an error that arrives now: 10 ms have passed since (R370), or its end waits in the
queue at this same local time (Table 17-9). [DEDUCED: log 168] -/
def handlingOver (s : State) (u : Nat) : Bool :=
  decide ((unitOf s u).sinceNs + 10000000 ≤ s.now) || s.pending.any (fun c => match c with
    | .handlingEnd t v => decide (t = s.now) && decide (v = u)
    | _ => false)

/-- An uncorrectable error or a detector mismatch of a unit enters its handling slot (R370). A mismatch is no uncorrectable error: of a
unit not fenced it is not counted in folio 0x6020.03. An error that finds the slot PENDING is counted in folio 0x6041.02 beside it.
`master` names the master whose transfer it stopped. -/
def uncorrectableBy (s : State) (u cause plane : Nat) (jb : Option Nat) (detail addr master : Nat) : State :=
  let entry (nested : Bool) : ErrEntry :=
    { timeNs := 0, unit := u, cause := cause, plane := plane, nested := nested, fence := false, job := jb,
      address := addr % 2 ^ 48, master := master, detail := detail % 2 ^ 32, seq := 0 }
  if u = 0 then logEntry s (entry false) else
  let s := if (unitOf s u).slot ≠ .idle ∧ handlingOver s u = true then endHandling s u else s
  let x := unitOf s u
  let s := if isMismatch cause && !x.fenced then s else modUnit s u (fun x => { x with uncorrectable := (x.uncorrectable + 1) % 2 ^ 32 })
  let s := failSelfTest s u
  match x.slot with
  | .pending => incF s 0x6041 0x02
  | .idle => if x.fenced then s else logEntry (modUnit s u (fun x => { x with slot := .handling, sinceNs := s.now })) (entry false)
  | .handling => if x.fenced then s else
    let s := modUnit (logEntry s (entry true)) u (fun x => { x with slot := .pending })
    incF (fence s u 1) 0x6041 0x01

/-- An error that stopped no master's transfer. [DEDUCED: log 95] -/
def uncorrectable (s : State) (u cause plane : Nat) (jb : Option Nat) (detail addr : Nat) : State :=
  uncorrectableBy s u cause plane jb detail addr 0

/-- A correctable error of a unit: counted, with the threshold of R372. [DEDUCED: log 117; DESIGN CHOICE: log 125] -/
def correctable (s : State) (u : Nat) : State :=
  let x := unitOf s u
  let s := failSelfTest (modUnit s u (fun x => { x with corrected := (x.corrected + 1) % 2 ^ 32, hour := x.hour + 1 })) u
  if x.alarmed = false ∧ x.fenced = false ∧ getF s 0x6022 0x01 < x.hour + 1 then
    let s := modUnit s u (fun x => { x with alarmed := true })
    let s := logErr s 0x27 u 0 (unitJob s u) (x.hour + 1) 0
    if 1 ≤ u / 4096 ∧ u / 4096 ≤ 4 then fence s u 2 else s
  else s

/-- A correctable error of a unit in a memory, with its address. -/
def correctableAt (s : State) (u mem addr : Nat) : State := correctable (memError s mem addr true) u

/-- An uncorrectable error of a unit in a memory, with its address. -/
def uncorrectableAt (s : State) (u cause plane : Nat) (jb : Option Nat) (detail mem addr : Nat) : State :=
  uncorrectable (memError s mem addr false) u cause plane jb detail addr

/-- A channel halt (R364): `master`'s transfer stops at `beat` on an uncorrectable error of unit `u`, whose address is logged. -/
def channelHalt (s : State) (u plane : Nat) (jb : Option Nat) (beat mem addr master : Nat) : State :=
  uncorrectableBy (memError s mem addr false) u 0x20 plane jb (place (master / 2 ^ 13) 31 24 + place beat 23 0) addr master

/-! ### Voided steps (R391, R392) -/

/-- A step of the job is in flight in a part. -/
def partBusy (p : PartState) : Bool := p.run.isSome

/-- A step of the job is in flight. -/
def stepInFlight (s : State) (j : Nat) : Bool := partBusy (job s j).gen || partBusy (job s j).prompt

/-- The context of a sequencer is discarded (R391); transfers already issued run to completion (R144). -/
def discardContext (q : Sequencer) : Sequencer :=
  { q with running := false, stopped := false, loops := [], waiting := .none, waitSteps := 0, calls := [] }

/-- A sequencer waits at a barrier. -/
def waitsBar (q : Sequencer) : Bool := match q.waiting with
  | .bar _ _ => q.running
  | _ => false

/-- A sequencer of a voided step stops at its next preemption point; one that waits at a barrier stops at the window end (Table 6-10). [DEDUCED: log 135] -/
def voidContext (q : Sequencer) : Sequencer := if waitsBar q then q else discardContext q

/-- The window end stops what still waits at a barrier of a voided step (Table 6-10). [DEDUCED: log 135] -/
def endBars (s : State) (j : Nat) : State :=
  if stepInFlight s j then s else
  ((jobSeqs s j).filter (fun i => waitsBar (seqOf s i))).foldl (fun s i => modSeq s i discardContext) s

/-- The wait of a step for a late tier is charged to it once (R239), and is a stall of each of its signatures (R39). [DEDUCED: log 75] -/
def settleLate (s : State) (j : Nat) (r : Option StepRun) : State := match r with
  | some r =>
      if r.lateTier = 0 then s else
      let ns := r.lateNs + (match r.lateSince with
        | some t => s.now - t
        | none => 0)
      let s := ((planSigs r.plan).filter (fun n => decide ((sigE s n).state ≠ .free))).foldl (fun s n =>
        modE s n (fun e => { e with stallCount := satInc e.stallCount })) s
      addF (incF s (0x2430 + (r.lateTier - 1)) j) (0x2434 + (r.lateTier - 1)) j (ns / 1000)
  | none => s

/-- Passes at distance of a job's own signatures end with the step (R191). -/
def dropOwnPasses (s : State) (j : Nat) (p : Nat → Bool) : State :=
  { s with span := { s.span with passes := s.span.passes.filter (fun x =>
      !(decide (x.job = j) && decide (x.owner = ownEndpoint s) && p x.sig)) } }

/-- Every step in flight of a job is voided (R391): a composition frozen before the void was decided is void too. [DEDUCED: log 63, 135] -/
def voidStep (s : State) (j : Nat) : State :=
  if stepInFlight s j then
    let x := job s j
    let n := b2n (partBusy x.gen) + b2n (partBusy x.prompt)
    let clear (p : PartState) : PartState := { p with run := none, frozen := none, ahead := [] }
    let s := settleLate (settleLate s j x.gen.run) j x.prompt.run
    let s := dropOwnPasses s j (fun _ => true)
    let s := modJob s j (fun x => { x with gen := clear x.gen, prompt := clear x.prompt, barriers := [], trapVoids := 0, voidNs := some s.now })
    let s := (jobSeqs s j).foldl (fun s i => modSeq s i voidContext) s
    addF s 0x6420 j n
  else s

/-- First row of Table 18-2 for a unit of a job: the step is voided, a canary is due, and a second event within folio
0x6400.07 ms escalates. -/
def unitEvent (s : State) (j u : Nat) : State :=
  let last := tfind (job s j).unitEvents u
  let s := voidStep s j
  let s := modJob s j (fun x => { x with unitEvents := tput x.unitEvents u s.now,
                                         canaries := if x.canaries.contains u then x.canaries else x.canaries ++ [u] })
  match last with
  | some t => if s.now - t ≤ getF s 0x6400 0x07 * 1000000 then tearDownJob (fence s u 6) j else s
  | none => s

/-- A program trap (Table 18-2): voided; after three successive steps voided by such traps the job is torn down without restart. A trap
that voids no step counts for none. [DEDUCED: log 63] -/
def programTrap (s : State) (j : Nat) : State :=
  if stepInFlight s j = false then s else
  let n := (job s j).trapVoids + 1
  let s := modJob (voidStep s j) j (fun x => { x with trapVoids := n })
  if 3 ≤ n then tearDown s j .stay true else s

/-- A freeze of a sequencer of a job: the step is voided and the job torn down, which releases the freeze. -/
def sequencerFrozen (s : State) (j : Nat) : State := tearDownJob (voidStep s j) j

/-- Freeze a master by a rule, with the response of its job when it is a sequencer. -/
def freezeBy (s : State) (cls idx jb rule : Nat) : State :=
  let was := (frozenOf s cls idx).isSome
  let s := freezeMaster s cls idx jb rule
  if cls = 0 ∧ was = false then sequencerFrozen s jb else s

/-- A sequencer traps (R146, R175): it stops, counts the trap and logs its cause with SP, and the address of a memory error; the
response is Table 18-2's. -/
def trapAt (s : State) (i cause a : Nat) : State :=
  let q := seqOf s i
  let u := seqUnit i
  match q.job with
  | none => s
  | some j =>
    let s := setSeq s i { q with trap := some cause, running := false }
    let s := if i < 128 then incF s 0x3112 i else incF s (0x3428 + (i - 128) / 256) ((i - 128) % 256)
    let sp := q.sp % 4096
    if cause = 0x10 ∨ cause = 0x18 ∨ cause = 0x1B then unitEvent (uncorrectable s u cause 0 (some j) sp a) j u
    else if cause = 0x12 then
      sequencerFrozen (logErr (if i < 128 then freezeQuiet s 0 i j else s) 0x12 u 0 (some j) sp a) j
    else programTrap (logErr s cause u 0 (some j) sp a) j

/-- A trap for which no address is known. -/
def trapSeq (s : State) (i cause : Nat) : State := trapAt s i cause 0

/-- A trap on an uncorrectable error of a memory, whose address both logs show (R362, R366, R367). -/
def trapMemory (s : State) (i cause mem a : Nat) : State := trapAt (memError s mem a false) i cause a

/-! ### Handling, reinstatement, proofs -/

/-- HANDLING_END (R370): the outcome of a unit's first error has completed. -/
def execHandlingEnd (t unit : Nat) (s : State) : Outcome State Fault Refusal := .next (endHandling (atTime t s) unit)

/-- HANDLING_LIMIT_EXPIRY (R370): 10 ms after the first error. [DEDUCED: log 6] -/
def execHandlingLimitExpiry (t unit : Nat) (s : State) : Outcome State Fault Refusal :=
  let s := atTime t s
  .next (if (unitOf s unit).slot ≠ .idle ∧ (unitOf s unit).sinceNs + 10000000 ≤ s.now then endHandling s unit else s)

/-- CE_HOUR_ROLLOVER (R372): the counts of the hour start again. [DEDUCED: log 117] -/
def execCeHourRollover (t : Nat) (s : State) : Outcome State Fault Refusal :=
  let s := atTime t s
  .next { s with err := { s.err with units := s.err.units.map (fun e => (e.1, { e.2 with hour := 0, alarmed := false })) } }

/-- NOC_HOP_RETRAIN_DONE (R360): a hop of half `half` that failed eight times in a row has retrained and its traffic resumes; a
second such failure of the hop within 1 s is an uncorrectable path error of the half. -/
def execNocHopRetrainDone (t half hop : Nat) (s : State) : Outcome State Fault Refusal :=
  let s := atTime t s
  let k := half * 65536 + hop
  let again := match tfind s.err.hopRetrains k with
    | some t0 => decide (s.now - t0 ≤ 1000000000)
    | none => false
  let e := { s.err with hopRetrains := tput s.err.hopRetrains k s.now, hopsWaiting := s.err.hopsWaiting.filter (fun x => decide (x ≠ k)) }
  let s := { s with err := e }
  .next (if again then uncorrectable s (unitHalf half) 0x21 0 none hop 0 else correctable s (unitHalf half))

/-- Decision of a write to REINSTATE (R375): the result code that refuses it, or none. -/
def reinstateRefusal (s : State) (u : Nat) : Option Nat :=
  if u / 4096 < 1 ∨ 4 < u / 4096 then some 5
  else if (unitJob s u).isSome then some 4
  else if fencedU s u = false then some 6
  else none

/-- A reinstatement begins its self-test: a link's control bit is cleared, and its own training is its test (R375). A write that names a unit under
self-test starts nothing new. [DEDUCED: log 96] -/
def reinstateAction (u : Nat) (s : State) : State :=
  if (unitOf s u).selfTest then s else
  let s := modUnit (setF s 0x6021 0x02 1) u (fun x => { x with selfTest := true })
  let s := { s with err := { s.err with reinstating := s.err.reinstating ++ [{ unit := u, sinceNs := s.now, hurt := false }] } }
  if u / 4096 = 3 then enableLink (setDisableBit s (u % 4096) false) (u % 4096) else s

/-- A unit that fails its test stays fenced: a link is disabled again. [DEDUCED: log 96] -/
def stayFenced (s : State) (u : Nat) : State :=
  if u / 4096 = 3 then disableLink (setDisableBit s (u % 4096) true) (u % 4096) else s

/-- REINSTATE_SELF_TEST_DONE (R375): `checker` names the one that failed. A link has passed when it has been through TESTING. [DEDUCED: log 96; DESIGN CHOICE: log 125] -/
def execReinstateSelfTestDone (t unit : Nat) (ok : Bool) (checker : Nat) (s : State) : Outcome State Fault Refusal :=
  let s := atTime t s
  match s.err.reinstating.find? (fun r => decide (r.unit = unit)) with
  | none => .next s
  | some r =>
    let s := { s with err := { s.err with reinstating := s.err.reinstating.filter (fun x => decide (x.unit ≠ unit)) } }
    if ok ∧ r.hurt = false then
      let s := modUnit s unit (fun x => { x with selfTest := false, fenced := false, reason := 0, slot := .idle, proved := true, backNs := some s.now })
      .next (setF (logErr s 0x24 unit 1 none ((s.now - r.sinceNs) / 1000) 0) 0x6021 0x02 2)
    else
      let s := modUnit s unit (fun x => { x with selfTest := false })
      .next (stayFenced (setF (logErr s 0x25 unit 1 none checker 0) 0x6021 0x02 3) unit)

/-- One unit's start-up proof (R374): it joins the free pool, or is fenced with reason 0x03. [DESIGN CHOICE: log 125] -/
def proveUnit (s : State) (u : Nat) (ok : Bool) (checker : Nat) : State :=
  if ok then modUnit s u (fun x => { x with proved := true })
  else if fencedU s u then s
  else
    let s := fence (logErr s 0x25 u 1 none checker 0) u 3
    let v := getF s 0x6040 0x01
    setF s 0x6040 0x01 (setFld v (nfld v 15 0 + 1) 15 0)

/-- STARTUP_CHECKERS_PROVED (R374): the checkers outside quires and columns are proved; `failed` names units and checkers that
are not. -/
def execStartupCheckersProved (t : Nat) (failed : List (Nat × Nat)) (s : State) : Outcome State Fault Refusal :=
  let s := failed.foldl (fun s f => proveUnit s f.1 false f.2) (atTime t s)
  let others := (List.range 128).map unitPress ++ (List.range 10).map unitUcie ++ [unitHalf 0, unitHalf 1, unitControl]
  let s := others.foldl (fun s u => if fencedU s u then s else modUnit s u (fun x => { x with proved := true })) s
  let s := { s with err := { s.err with checkersDone := true } }
  .next (initStage 4 (setF s 0x6040 0x01 (setFld (getF s 0x6040 0x01) 1 31 31)))

/-! ### The error log and address logs -/

/-- A write of TAIL is refused when `v` is neither HEAD nor among the used entries (R365). -/
def tailRefused (s : State) (v : Nat) : Bool :=
  let head := getF s 0x6000 0x02
  let tail := getF s 0x6000 0x03
  let used := getF s 0x6000 0x0A
  decide (4096 ≤ v) || (decide (v ≠ head) && !decide ((v + 4096 - tail) % 4096 < used))

/-- Free entries from TAIL up to `v` (R365): every one when `v` is HEAD. -/
def tailAction (v : Nat) (s : State) : State :=
  let head := getF s 0x6000 0x02
  let tail := getF s 0x6000 0x03
  let used := getF s 0x6000 0x0A
  let n := if v = head then used else (v + 4096 - tail) % 4096
  setF (setF s 0x6000 0x03 v) 0x6000 0x0A (used - n)

/-- Clear the address log of a memory (R366). -/
def addrlogClearAction (mm : Nat) (s : State) : State := { s with err := { s.err with addrLogs := tdel s.err.addrLogs mm } }

/-- Memory code of Table 17-4. -/
def isMemoryCode (mm : Nat) : Bool := decide (mm ≤ 8) || (decide (0x10 ≤ mm) && decide (mm ≤ 0x2F))

/-! ### Release and injection -/

/-- A release write is refused (R369): not frozen, another class, or from the frozen interface itself. -/
def releaseRefused (s : State) (v iface : Nat) : Bool :=
  let cls := nfld v 31 29
  let idx := nfld v 12 0
  (decide (cls ≠ 0) && decide (cls ≠ 3) && decide (cls ≠ 5)) || (frozenOf s cls idx).isNone || (decide (cls = 5) && decide (idx = iface))

/-- FREEZE_RELEASE: the THAW procedure begins; a release already under way is not started again (Table 17-9). -/
def releaseAction (v : Nat) (s : State) : State := match frozenOf s (nfld v 31 29) (nfld v 12 0) with
  | some m => startRelease s m
  | none => s

/-- THAW_WAIT_END (R274): 1 ms has passed since THAW was sent, or no acknowledgement is awaited. -/
def execThawWaitEnd (t cls index : Nat) (s : State) : Outcome State Fault Refusal :=
  let s := atTime t s
  match frozenOf s cls index with
  | none => .next s
  | some m => match m.releasing with
    | none => .next s
    | some (l, at0) => .next (if l = [] ∨ at0 + 1000000 ≤ s.now then released s m else s)

/-- An injection is refused (R373): unit assigned, fenced, under self-test or handling an error; kinds 0x5 to 0x9; a stored error
into a link. -/
def injectRefused (s : State) (u kind : Nat) : Bool :=
  let k := u / 4096
  let n := u % 4096
  let exists_ := (decide (k = 1) && decide (n < 128)) || (decide (k = 2) && decide (n < 1024)) || (decide (k = 3) && decide (n < 64))
    || (decide (k = 4) && decide (n < 128))
  !exists_ || (unitJob s u).isSome || fencedU s u || (unitOf s u).selfTest || !decide ((unitOf s u).slot = .idle)
    || (decide (k = 3) && decide (kind = 2))

/-- Memory of Table 17-4 in which an error injected into a unit lies. -/
def injectMemory (u : Nat) : Nat :=
  let n := u % 4096
  if u / 4096 = 1 then (if n < 64 then 4 else 5) else if u / 4096 = 2 then (if n < 512 then 6 else 7) else (if n < 64 then 2 else 3)

/-- Cause with which an uncorrectable error of a unit is logged by its reader (Table 17-1). [DEDUCED: log 97] -/
def injectCause (u : Nat) : Nat := if u / 4096 = 1 then 0x1B else if u / 4096 = 2 then 0x18 else 0x20

/-- INJECT kind 0x01: one correctable error; the address is the part's. A link corrupts the check of its next transaction. [DEDUCED: log 97] -/
def injectCorrectableAction (u : Nat) (s : State) : State :=
  if u / 4096 = 3 then { s with err := { s.err with corruptNext := s.err.corruptNext ++ [u % 4096] } }
  else correctableAt (draw s) u (injectMemory u) (u * 2 ^ 32 + freshOf s % 2 ^ 32)

/-- INJECT kind 0x02: one uncorrectable stored error. [DEDUCED: log 97] -/
def injectUncorrectableAction (u : Nat) (s : State) : State :=
  let a := u * 2 ^ 32 + freshOf s % 2 ^ 32
  uncorrectableAt (draw s) u (injectCause u) 0 none 0 (injectMemory u) a

/-- INJECT kind 0x03: one path error: a bus of a quire or gutter unit cannot repeat it (R360). -/
def injectPathAction (u : Nat) (s : State) : State :=
  if u / 4096 = 3 then { s with err := { s.err with corruptNext := s.err.corruptNext ++ [u % 4096] } }
  else uncorrectable s u (injectCause u) 0 none 0 0

/-- UCIE_MODULE_FAIL (R14): a module fails training or exceeds its replay limit and is fenced. -/
def execUcieModuleFail (t module : Nat) (s : State) : Outcome State Fault Refusal :=
  .next (fence (atTime t s) (unitUcie module) 5)

end Sys2Proof.Machine
end

