-- ==== Sys2Proof/Machine/Fabric.lean ====
section
/-! DEFINITION. The fabric (chapter 12): issue through outbound windows, service of memory-semantic requests, completions and
refusals, quarantine, coherence at the home, and dead targets. -/

namespace Sys2Proof.Machine

open Host

/-! ### Moves that end without moving (R240, R242) -/

/-- Another group has been given the places that a group's move is to leave (R74). [DEDUCED: log 83] -/
def sourceTaken (s : State) (j g : Nat) : Bool :=
  decide (groupTier s j g = .stacked) && (layersOf s j).any (fun l =>
    let d := leafOf s j g l
    (usedIn (withoutLeaves s j [g]) j d.column).any (fun u => overlaps d.page (payloadBytes (imageOf s j)) u.1 u.2))

/-- A move ends without moving: the writes stop and the source stays valid, and a promotion that was to follow begins (Table 10-7, R228).
A group whose places were handed on is evicted. -/
def abandonMove (s : State) (m : TierMove) : State :=
  let s := startMoves (endMoving (dropMove (stopWrites s m.job m.group) m) m.job m.group)
  if (groupOf s m.job m.group).live = false then s
  else if sourceTaken s m.job m.group then evictGroup s m.job m.group
  else match m.follow with
    | some u => promote s m.job m.group u
    | none => s

/-- A group that a move could not read is lost. -/
def moveLost (s : State) (m : TierMove) : State :=
  let t := groupTier s m.job m.group
  let s := startMoves (endMoving (dropMove (stopWrites s m.job m.group) m) m.job m.group)
  if (groupOf s m.job m.group).live then loseGroup s m.job m.group t else s

/-! ### Completion of own transactions (R274, R276, R285, R286) -/

/-- A withheld request goes out, or stays behind those kept before it. -/
def releaseOne (st : State × List Withheld) (w : Withheld) : State × List Withheld :=
  let (s, kept) := st
  if staysBehind s kept w.header then (s, kept ++ [w]) else
  let h := hSet w.header (getF s 0x4000 0x04) 103 72
  (launch s (egressQueueOf s (hMaster h / 2 ^ 13) (hSrcJob h) (hVn h)) h w.payload w.dst, kept)

/-- Requests withheld for a destination go out once what they stayed behind has completed (R275, R284). -/
def releaseHeld (s : State) (dest : Nat) : State :=
  let free := if orderedOut s dest then s.fabric.holding else s.fabric.holding.filter (fun d => decide (d ≠ dest))
  let held := s.fabric.withheld.filter (fun w => decide (w.dest = dest))
  let f := { s.fabric with holding := free, withheld := s.fabric.withheld.filter (fun w => decide (w.dest ≠ dest)) }
  let (s, kept) := held.foldl releaseOne ({ s with fabric := f }, [])
  { s with fabric := { s.fabric with withheld := s.fabric.withheld ++ kept } }

/-- The statuses that freeze (Table 12-8). [DEDUCED: log 94] -/
def freezing (status : Nat) : Bool := decide (status = 1) || decide (status = 2) || decide (status = 3)

/-- The move of a job that reads or writes the bytes of a loan which a fabric request names (R227, R235). -/
def loanMove (s : State) (jb : Nat) (h : BitVec 256) : Option TierMove :=
  let names (a : Nat) : Bool := inLoan a && (match tfind s.tier.loans ((a - 0x300000000000) / 2 ^ 40) with
    | some e =>
      let o := e.remoteBase * 4096 + (a - 0x300000000000) % 2 ^ 40
      decide (e.lender = hDest h) && decide (o ≤ hOffset h) && decide (hOffset h < o + objectBytes (imageOf s jb))
    | none => false)
  s.tier.moves.find? (fun m => decide (m.job = jb) && m.started &&
    (m.addrs.any (fun p => names p.1) || (layersOf s jb).any (fun l => names (leafOf s jb m.group l).page)))

/-- A tier engine's transaction fails (Table 12-9): after a read the group is lost, after a write the move is abandoned; with status 0x9
the tier is late, and the move is tried again at the next demotion pass or freeze. -/
def failTier (s : State) (jb status : Nat) (h : BitVec 256) : State := match loanMove s jb h with
  | none => s
  | some m =>
    if status = 9 then abandonMove s { m with follow := none }
    else if hType h = 1 then moveLost s m
    else abandonMove s m

/-- A span engine's transaction fails (Table 12-9): on a ring as R192 says, and otherwise, as R195 says, what was asked of the cache host
is late. -/
def failSpan (s : State) (jb status : Nat) (h : BitVec 256) : State :=
  if (imageOf s jb).ring.isSome ∧ status ≠ 9 then tearDownJob s jb else
  let mine (p : SpanPass) (a : HostAsk) : Bool := decide (p.job = jb) && decide (a.host = hDest h) && !a.late
  let n := (s.span.passes.map (fun p => p.asks.countP (mine p))).foldl (· + ·) 0
  let late (p : SpanPass) : SpanPass := { p with asks := p.asks.map (fun a => if mine p a then { a with late := true } else a) }
  addF { s with span := { s.span with passes := s.span.passes.map late } } 0x3817 jb n

/-- A refusal of a master that is no longer held: the endpoint that quarantined it is sent THAW at once (R274). -/
def thawLate (s : State) (cls idx jb : Nat) (refuser : Option Nat) : State := match refuser with
  | some e => sendThaw { cls := cls, index := idx, job := jb, thaw := [], releasing := none } s e
  | none => s

/-- Response by the master to an unsuccessful completion of a transaction with header `h` (R274, Table 12-9). Status 0x4 takes no further
action. A quire's transfer that ends with any other status stores nothing and its job is torn down on every package. -/
def failMaster (s : State) (master jb status : Nat) (refuser : Option Nat) (h : BitVec 256) : State :=
  let cls := master / 2 ^ 13
  let idx := master % 2 ^ 13
  let thaw (s : State) : State := match refuser with
    | some e => addThaw s cls idx e
    | none => s
  if status = 4 then s
  else if freezing status = true ∧ (frozenOf s cls idx).isSome = true then thaw s
  else if cls = 0 then
    if (quire s idx).job = some jb then
      if freezing status then trapSeq (thaw (freezeQuiet s 0 idx jb)) idx 0x12
      else tearDownJob (voidStep s jb) jb
    else if freezing status then thawLate s cls idx jb refuser
    else s
  else if cls = 1 ∨ cls = 2 then
    if freezing status then tearDownJob (logMaster s 0x20 0 0 (some jb) (cls * 2 ^ 24) master) jb
    else if cls = 1 then failTier s jb status h
    else failSpan s jb status h
  else if cls = 4 then
    if freezing status then logMaster s 0x20 0 (masterPlane cls) none (cls * 2 ^ 24) master else s
  else if cls = 5 then
    if freezing status then thaw (freezeMaster s 5 idx jb 272) else s
  else s

/-- A transaction completes: with status 0 its data is stored where it was asked for, otherwise its master responds. -/
def completeTx (s : State) (o : Outstanding) (status : Nat) (payload : List Byte) (refuser : Option Nat) : State :=
  let s := { s with fabric := { s.fabric with outstanding := s.fabric.outstanding.erase o } }
  let s := emit s (.completion o.tag status payload)
  let s := if status = 0 then (match o.dst with
      | some a => ownWrite s a payload
      | none => s)
    else bookFail (failMaster (incF s 0x4031 status) o.master o.job status refuser o.header) o.tag
  bookPumps (releaseHeld s o.dest)

/-- The outstanding transaction that a response answers: its TAG, from the destination, or from a forwarder that found no way
(status 0xC, Table 12-8). -/
def answers (s : State) (h : BitVec 256) : Option Outstanding :=
  s.fabric.outstanding.find? (fun o => decide (o.tag = hTag h) && (decide (o.dest = hSource h) || decide (hStatus h = 0xC)))

/-- A response arrives: it completes its transaction, or is late and counted (R285). A STORE_ACK of a THAW counts towards the
release of its master. -/
def takeResponse (s : State) (h : BitVec 256) (type : Nat) (payload : List Byte) : State :=
  if hType h ≠ type ∨ hDest h ≠ ownEndpoint s then s
  else if deadSource s (hSource h) then incF (incF s 0x6401 0x05) 0x4032 0x01 else
  match answers s h with
  | none => incF s 0x4032 0x01
  | some o =>
    let ack := decide (hType o.header = 8)
    let s := completeTx s o (hStatus h) (if hStatus h = 0 then payload else []) (some (hSource h))
    if ack then thawAcked s o.master (hSource h) else s

/-! ### Dead targets (R285, R274, R281, Table 12-11) -/

/-- The lines that a member held modified are poisoned, and the member leaves the directory (R281). -/
def dropMember (s : State) (e : Nat) : State :=
  let lost := (s.fabric.directory.filter (fun d => decide (d.modified = some e))).map (fun d => d.line)
  let dir := (s.fabric.directory.map (fun d =>
      { d with sharers := d.sharers.filter (fun m => decide (m ≠ e)), modified := if d.modified = some e then none else d.modified })).filter
    (fun d => decide (d.sharers ≠ []) || d.modified.isSome)
  lost.foldl poisonLine { s with fabric := { s.fabric with directory := dir } }

/-- A verdict declares an endpoint dead: transactions outstanding to it complete with 0xB, its quarantine entries are cleared,
and its cached lines are dropped or poisoned. -/
def fabricDead (s : State) (e : Nat) : State :=
  let held := s.fabric.withheld.filter (fun w => decide (w.dest = e))
  let f := { s.fabric with deadEndpoints := if s.fabric.deadEndpoints.contains e then s.fabric.deadEndpoints else s.fabric.deadEndpoints ++ [e],
                           quarantine := s.fabric.quarantine.filter (fun q => decide (q.2.source ≠ e)),
                           withheld := s.fabric.withheld.filter (fun w => decide (w.dest ≠ e)) }
  let s := { s with fabric := f }
  let s := (s.fabric.outstanding.filter (fun o => decide (o.dest = e))).foldl (fun s o => completeTx s o 0xB [] none) s
  let s := held.foldl (fun s w =>
    bookFail (failMaster (emit (incF s 0x4031 0xB) (.completion (hTag w.header) 0xB [])) (hMaster w.header) (hSrcJob w.header) 0xB none w.header)
      (hTag w.header)) s
  let s := bookPumps s
  queuesDead (dropMember s e) e

/-! ### Issue through outbound windows (R267, R268) -/

/-- The outbound entry of a window. -/
def outboundOf (s : State) (w : Nat) : OutEntry := tget OutEntry.zero s.fabric.outbound w

/-- An access through a window is refused locally (R268). The control plane may use every valid window; every other master
acts for the job that it names. -/
def outboundRefused (e : OutEntry) (cls jb : Nat) : Bool :=
  !e.valid || (decide (cls ≠ 4) && (e.firmware || decide (e.ownerJob ≠ jb)))

/-- A local refusal: a sequencer traps with cause 0x12 and is frozen; a queue pair is frozen and its message fails with
LOCAL_PROTECTION (R268, R293). -/
def localRefuse (s : State) (cls idx jb : Nat) : State :=
  let s := emit s (.localRefusal cls idx 3)
  if cls = 0 then trapSeq s idx 0x12
  else if cls = 3 then match (qp s idx).msgs with
    | m :: _ => failMsg s idx m.msn 0x23
    | [] => freezeMaster s 3 idx jb 266
  else s

/-- A request that cannot leave, of a type, to a destination and offset, completes at once with 0xB or 0xC (R285, Table 12-8). -/
def failAtOnce (s : State) (cls idx jb status type dest off : Nat) : State :=
  failMaster (emit (incF s 0x4031 status) (.completion 0 status [])) (masterOf cls idx) jb status none
    (mkHeader type dest (ownEndpoint s) jb (masterOf cls idx) 0 0 off 0 0 status false 0)

/-! ### Addresses of DMA (R123, R126, R135, R152, R267) -/

/-- A range of quire-local addresses that a job may use (R122). [DEDUCED: log 69] -/
def localOk (a : Int) (n : Nat) : Bool := decide (0 ≤ a) && decide (a + n ≤ 0x7F0000)

/-- A byte of device memory exists at an address, flash included. [DEDUCED: log 64] -/
def byteExists (s : State) (a : Nat) : Bool :=
  (canon s a).isSome || (inFlash a && decide (a - 0x900000000000 < flashPages s * 4096))

/-- A range lies in quire SRAM of the job's set, below the reserved area. -/
def inQuireSram (s : State) (j a n : Nat) : Bool :=
  decide (0xF00000000000 ≤ a) && decide (a < 0xF00040000000)
    && (job s j).quires.contains ((a - 0xF00000000000) / 0x800000) && localOk (((a - 0xF00000000000) % 0x800000 : Nat) : Int) n

/-- The broadcast window (Table 7-1). -/
def inBroadcast (a : Nat) : Bool := decide (0x180000000000 ≤ a) && decide (a < 0x180010000000)

/-- The outbound windows (R267). -/
def inOutbound (a : Nat) : Bool := decide (0xD00000000000 ≤ a) && decide (a < 0xE00000000000)

/-- The bundle whose broadcast window an address lies in belongs to a job. -/
def bundleOf (s : State) (j a : Nat) : Bool := (job s j).columns.contains ((a - 0x180000000000) / 0x400000 * 16)

/-- The window of an outbound range admits masters of a job. -/
def outboundOk (s : State) (j a n : Nat) : Bool :=
  let w (x : Nat) : Nat := (x - 0xD00000000000) / 0x400000000
  inOutbound (a + n - 1) && !(outboundRefused (outboundOf s (w a)) 0 j) && !(outboundRefused (outboundOf s (w (a + n - 1))) 0 j)

/-- DMA of a job may reach a range of device addresses; a range of no bytes reaches none. [DEDUCED: log 69] -/
def dmaOk (s : State) (j : Nat) (write : Bool) (a : Int) (n : Nat) : Bool :=
  if n = 0 then true else
  if a < 0 then false else
  let a := a.toNat
  if inOutbound a then outboundOk s j a n
  else if inBroadcast a then write && decide ((a - 0x180000000000) % 0x400000 + n ≤ 0x400000) && bundleOf s j a
  else (inJobMemory s j a n || inQuireSram s j a n) && byteExists s a && byteExists s (a + n - 1)

/-- A master may not have a load's data at a place (R123, R126): what is no firmware reaches no SRAM but its job's quire SRAM and staging. -/
def dstRefused (s : State) (cls jb : Nat) (dst : Option Nat) (len : Nat) : Bool := match dst with
  | none => false
  | some a => if cls = 4 then false
    else if cls = 0 then !(dmaOk s jb true (a : Int) len)
    else decide (0xF00000000000 < a + len) && decide (a < 0xF000A0000000) && !(inStaging s jb a len)

/-- A master refused at SRAM is logged and frozen as R123 and R126 say. -/
def sramRefuse (s : State) (cls idx jb : Nat) (a : Nat) : State :=
  if cls = 0 then trapSeq s idx 0x12 else freezeMaster s cls idx jb (if a < 0xF00040000000 then 121 else 124)

/-- An atomic keeps R270: an operation of Table 12-6, its operand's bytes, naturally aligned. -/
def atomicKept (op off n : Nat) : Bool := decide (op ≤ 9) && atomicPayloadOk op n && decide (off % atomicWidth op n = 0)

/-- One request of an access (R270): `p` is its place in the access, and its bytes. -/
def issuePiece (e : OutEntry) (cls index jb op aop off : Nat) (data : List Byte) (dst : Option Nat) (s : State) (p : Nat × Nat) : State :=
  let a := (off + p.1) % 2 ^ 48
  match issue s op e.endpoint (if cls = 4 ∨ cls = 5 then 0 else jb) cls index (if 0xFF0000000000 ≤ a then 2 else 0) a p.2
      (if op = 3 then aop else 0) e.ordered (if op = 1 then [] else (data.drop p.1).take p.2)
      (if op = 1 then dst.map (fun d => d + p.1) else none) with
  | (s, none) => s
  | (s, some st) => failAtOnce s cls index jb st op e.endpoint a

/-- OUTBOUND_ACCESS (R267 to R270): master `index` of class `cls`, acting for job `jb`, loads (`op` 1), stores (2) or performs
atomic `aop` (3) at device physical address `addr`; a load's data goes to `dst`. -/
def execOutboundAccess (t cls index jb op aop addr len : Nat) (data : List Byte) (dst : Option Nat) (s : State) :
    Outcome State Fault Refusal :=
  let s := atTime t s
  if addr < 0xD00000000000 ∨ 0xE00000000000 ≤ addr ∨ (frozenOf s cls index).isSome = true then .next s else
  let w := (addr - 0xD00000000000) / 0x400000000
  let o := (addr - 0xD00000000000) % 0x400000000
  let e := outboundOf s w
  if outboundRefused e cls jb then .next (localRefuse s cls index jb)
  else if op = 1 ∧ dstRefused s cls jb dst len = true then .next (sramRefuse s cls index jb (dst.getD 0))
  else
    let off := (e.offsetBase + o) % 2 ^ 48
    let n := if op = 1 then len else data.length
    let pieces := if op = 3 then (if atomicKept aop off n then [(0, n)] else []) else msgPieces (off % 4096) n
    .next (pieces.foldl (issuePiece e cls index jb op aop off data dst) s)

/-! ### Service of requests (R269 to R273, R277 to R281) -/

/-- An uncorrectable error at the target of a request is logged as a channel halt of the fabric service (R364): DETAIL names
the master class and the failing beat. -/
def serviceError (s : State) (h : BitVec 256) (a beat : Nat) : State :=
  if inFlash a then
    let page := (a - 0x900000000000) / 4096
    let ch := flashChannel s.flash page
    channelHalt (countUncorrectable s page) (unitFlash ch) (hVn h) none beat (0x20 + ch) (a / 4096 * 4096) (hMaster h)
  else channelHalt s (unitAt s a) (hVn h) none beat (memoryOf s a) a (hMaster h)

/-- A page of the local flash decodes only after retries: a correctable error of its channel's unit (R245, R361). -/
def flashRetried (s : State) (page : Nat) : State :=
  correctable (countCorrected s page) (unitFlash (flashChannel s.flash page))

/-- A read of an address failed once, and a correction or a retry gave its data: a correctable error (R223, R245). A loan's errors are its
lender's. -/
def engineRepeat (s : State) (a : Nat) : State :=
  if inLoan a then s
  else if inFlash a then flashRetried s ((a - 0x900000000000) / 4096)
  else correctableAt s (unitAt s a) (memoryOf s a) a

/-- A store or atomic whose target lies in flash: it is answered once the tier has confirmed the write (R249). A part of a page that is
POISONED cannot be changed. [DEDUCED: log 145] -/
def performFlash (s : State) (h : BitVec 256) (a : Nat) (payload : List Byte) : State :=
  let store := decide (hType h = 2)
  if poisonedPage s.flash ((a - 0x900000000000) / 4096) ∧ (store = false ∨ payload.length < 4096) then respond s h (if store then 5 else 6) 8 []
  else if store = false ∧ poisonedRange s a (reachBytes h) = true then respond s h 6 8 []
  else if store then bookPumps (flashBytes (clearPoison s a payload.length) (.fabric h []) a payload)
  else
    let (new, old) := atomicBytes s a (hOp h) payload
    bookPumps (flashBytes s (.fabric h old) a new)

/-- A line of a range is held modified by a member that died before it returned the contents (Table 12-11). -/
def recallLost (s : State) (back : List (Nat × List Byte)) (a n : Nat) : Bool :=
  (linesOf a n).any (fun l => s.fabric.directory.any (fun d => decide (d.line = l) && d.modified.isSome) && !(back.any (fun b => decide (b.1 = l))))

/-- Perform an admitted request at its device physical address. `read` says what the read of the target meets;
`back` holds the contents that recalled lines returned. -/
def perform (s : State) (h : BitVec 256) (a : Nat) (payload : List Byte) (read : TargetRead) (back : List (Nat × List Byte)) : State :=
  let ty := hType h
  let n := reachBytes h
  let resp := if ty = 1 then 4 else if ty = 2 then 5 else 6
  let lost := recallLost s back a n
  let s := settleRange s a n (decide (ty ≠ 1)) back
  let s := read.retried.foldl engineRepeat s
  match read.bad with
  | some beat => respond (serviceError s h a beat) h resp 8 []
  | none =>
    if lost then respond s h resp 8 []
    else if inFlash a ∧ ty ≠ 1 then performFlash s h a payload
    else if ty = 2 then respond (clearPoison (targetWrite s a payload) a n) h 5 0 []
    else if poisonedRange s a n then respond s h resp 8 []
    else match targetRead s a n with
      | none => respond s h resp 8 []
      | some d =>
        if ty = 1 then respond s h 4 0 d
        else
          let (s, prior) := doAtomic s a (hOp h) payload
          respond s h 6 0 prior

/-- check(q) of R273 from the quarantine on, then service. -/
def serveRequest (s : State) (h : BitVec 256) (payload : List Byte) (read : TargetRead) (back : List (Nat × List Byte)) : State :=
  if quarantined s h then refuseTx s h 4
  else if wellFormedReq h payload = false then refuseTx s h 7
  else
    let kind := hType h - 1
    match translate s h (hOffset h) (hLenM1 h + 1) kind false (fun _ => true) with
    | .error (st, k) => refuseTx (match k with
        | some k => countRefusal s k
        | none => s) h st
    | .ok a => perform s h a payload read back

/-! ### The flash tier's commands (chapter 11) -/

/-- A page of the local flash decodes at no offset (R245): its channel's unit has an uncorrectable error with cause 0x20 (R361, R364).
`cls` is the master class that read it, 0 where none is named. [DEDUCED: log 170] -/
def flashFault (s : State) (page cls : Nat) : State :=
  let ch := flashChannel s.flash page
  channelHalt (countUncorrectable s page) (unitFlash ch) 0 none 0 (0x20 + ch) (0x900000000000 + page * 4096) (masterOf cls 0)

/-- FLASH_READ, a read of one page of the local flash window (R250); `effort` is 0 for a clean codeword, 1 for one decoded after
retries, 2 for one that decodes at no offset (R245). [DEDUCED: log 170] -/
def execFlashRead (t id page effort : Nat) (s : State) : Outcome State Fault Refusal :=
  let s := atTime t s
  let st := flashState s
  .next (if st = 0 ∨ st = 1 ∨ flashPages s ≤ page then emit s (.flashData id 2 [])
    else
      let m := tget FlashMapEntry.zero s.flash.map page
      if m.mapped = false ∨ discardQueued s t page = true then emit s (.flashData id 0 (List.replicate 4096 0))
      else if m.poisoned then emit s (.flashData id 1 [])
      else
        let d := flashPageData s.flash page
        if flashEffort effort = 0 then emit s (.flashData id 0 d)
        else if flashEffort effort = 1 then emit (flashRetried s page) (.flashData id 0 d)
        else emit (flashFault s page 0) (.flashData id 1 []))

/-- FLASH_WRITE (R249): `id` names the write to its requester. -/
def execFlashWrite (t id page : Nat) (data : List Byte) (s : State) : Outcome State Fault Refusal :=
  .next (bookPumps (flashWrite t id page data s))

/-- FLASH_PROGRAM_COMPLETE (R258, R253). -/
def execFlashProgramComplete (t ch : Nat) (ok : Bool) (s : State) : Outcome State Fault Refusal :=
  .next (bookPumps (flashProgramComplete t ch ok s))

/-- Move one page out of the unit being reclaimed; a page that is uncorrectable is poisoned instead, which is the outcome of its error
(R253, R370). A page that an error's response dropped from the map has nothing to move. [DEDUCED: log 170] -/
def reclaimPage (ch : Nat) (read : ReclaimRead) (s : State) (page : Nat) : State :=
  let m := tget FlashMapEntry.zero s.flash.map page
  if m.mapped = false then s
  else if read.bad.contains page then
    let f := dropSector s.flash page
    let s := storeMap { s with flash := { f with map := tput f.map page { m with poisoned := true } } } [page]
    let s := flashFault (incF s 0x7012 ch) page 1
    let x := unitOf s (unitFlash ch)
    if x.slot = .handling ∧ x.fenced = false then endHandling s (unitFlash ch) else s
  else copyPage ch (if read.retried.contains page then flashRetried s page else s) page

/-- FLASH_RECLAIM, reclaim of one unit of a channel (R252, R253): choose, copy the valid sectors, start the erase once none is left.
`read` names the pages found uncorrectable, and those read only after retries. -/
def execFlashReclaim (t ch : Nat) (read : ReclaimRead) (s : State) : Outcome State Fault Refusal :=
  let s := atTime t s
  .next (bookPumps (
    if (flashState s = 2 ∨ flashState s = 3 ∨ flashState s = 4) ∧ reclaimWanted s ch = true ∧ s.flash.flushing = false then
      let r := if s.flash.reclaiming.contains ch then s.flash.reclaiming else ch :: s.flash.reclaiming
      let s := { s with flash := { s.flash with reclaiming := r } }
      match chooseReclaim s ch with
      | none => flashStateUpdate s
      | some u =>
        let s := (unitPages s.flash ch u).foldl (reclaimPage ch read) s
        if unitPages s.flash ch u ≠ [] then s
        else { s with flash := setFlashUnit s.flash ch u { flashUnit s.flash ch u with use := .erasing } }
    else { s with flash := { s.flash with reclaiming := s.flash.reclaiming.erase ch } }))

/-- FLASH_ERASE_COMPLETE (R253). -/
def execFlashEraseComplete (t ch u : Nat) (ok : Bool) (s : State) : Outcome State Fault Refusal :=
  .next (bookPumps (flashEraseComplete t ch u ok s))

/-! ### Responses -/

/-- LOAD_RESP (R276). -/
def execLoadResp (t : Nat) (header : BitVec 256) (payload : List Byte) (s : State) : Outcome State Fault Refusal :=
  .next (takeResponse (atTime t s) header 4 payload)

/-- STORE_ACK (R276). -/
def execStoreAck (t : Nat) (header : BitVec 256) (s : State) : Outcome State Fault Refusal :=
  .next (takeResponse (atTime t s) header 5 [])

/-- ATOMIC_RESP (R276). -/
def execAtomicResp (t : Nat) (header : BitVec 256) (payload : List Byte) (s : State) : Outcome State Fault Refusal :=
  .next (takeResponse (atTime t s) header 6 payload)

/-- REFUSE (R274, R286): completes the transaction it names; a refusal of a queue packet acts on its queue pair. -/
def execRefuse (t : Nat) (header : BitVec 256) (s : State) : Outcome State Fault Refusal :=
  let s := atTime t s
  if hType header = 7 ∧ hMaster header / 2 ^ 13 = 3 ∧ hDest header = ownEndpoint s ∧ deadSource s (hSource header) = false then
    .next (queueRefused (incF s 0x4031 (hStatus header)) header)
  else .next (takeResponse s header 7 [])

/-- THAW (R274): the quarantine entry of the named master is cleared, and the THAW is acknowledged. -/
def execThaw (t : Nat) (header : BitVec 256) (s : State) : Outcome State Fault Refusal :=
  let s := atTime t s
  if hType header ≠ 8 ∨ hDest header ≠ ownEndpoint s then .next (refuseUnknown s header)
  else if deadSource s (hSource header) then .next (incF s 0x6401 0x05)
  else if fld header 106 104 ≠ 0 ∨ fld header 63 0 ≠ 0 then .next (refuseTx s header 7) else
  let keep (e : Nat × QuarantineEntry) : Bool :=
    !(decide (e.2.source = hSource header) && decide (e.2.srcJob = hSrcJob header) && decide (e.2.master = hMaster header))
  let s := { s with fabric := { s.fabric with quarantine := s.fabric.quarantine.filter keep } }
  .next (respond s header 5 0 [])

/-- QUARANTINE_CLEAR, folio 0x4021.01. -/
def quarantineClearAction (k : Nat) (s : State) : State :=
  { s with fabric := { s.fabric with quarantine := tdel s.fabric.quarantine k } }

/-- TRANSACTION_TIMEOUT (R285): no response within folio 0x4000.05 µs. -/
def execTransactionTimeout (t tag : Nat) (s : State) : Outcome State Fault Refusal :=
  let s := atTime t s
  match s.fabric.outstanding.find? (fun o => decide (o.tag = tag)) with
  | none => .next s
  | some o =>
    if o.issuedNs + getF s 0x4000 0x05 * 1000 ≤ s.now then
      .next (emit (completeTx s o 0xA [] none) (.suspectPath o.dest))
    else .next s

/-! ### Coherence at the home (R279) -/

/-- The home answers a member with a grant of a line (type 0x0B): its contents, or status 0x8 when it is poisoned. -/
def sendGrant (s : State) (member line : Nat) : State :=
  let bad := s.fabric.poisoned.contains line || (targetRead s (line * 64) 64).isNone
  let data := if bad then [] else (targetRead s (line * 64) 64).getD []
  let h := mkHeader 0x0B member (ownEndpoint s) 0 (masterOf 4 0) 0 0 (line * 64) 63 0 (if bad then 8 else 0) true (getF s 0x4000 0x04)
  routeOut (transmit s (.fabric h data)) 0 h data

/-- A full directory recalls the line granted least recently (R279). -/
def makeRoom (s : State) (line : Nat) (back : List (Nat × List Byte)) : State :=
  if s.fabric.directory.any (fun d => decide (d.line = line)) ∨ s.fabric.directory.length < 262144 then s
  else match s.fabric.directory with
    | d :: _ => settleLine back true (if d.modified.isSome then s else incF s 0x4033 0x01) d.line
    | [] => s

/-- A line is granted to a member, shared or modified; it becomes the line granted most recently. -/
def grantLine (s : State) (member line : Nat) (modified : Bool) (back : List (Nat × List Byte)) : State :=
  let s := makeRoom s line back
  let s := settleLine back modified s line
  if s.fabric.poisoned.contains line then sendGrant s member line else
  let old := ((s.fabric.directory.find? (fun d => decide (d.line = line))).map (fun d => d.sharers)).getD []
  let d : DirEntry := if modified then { line := line, sharers := [], modified := some member }
    else { line := line, sharers := if old.contains member then old else old ++ [member], modified := none }
  let dir := s.fabric.directory.filter (fun x => !decide (x.line = line)) ++ [d]
  sendGrant { s with fabric := { s.fabric with directory := dir } } member line

/-- A member gives a line up: contents of a modified one are written back. [DEDUCED: log 98] -/
def returnLine (s : State) (member line : Nat) (data : List Byte) : State :=
  match s.fabric.directory.find? (fun d => decide (d.line = line)) with
  | none => s
  | some d =>
    let s := if d.modified = some member then targetWrite s (line * 64) (data.take 64) else s
    let x := { d with sharers := d.sharers.filter (fun m => decide (m ≠ member)), modified := if d.modified = some member then none else d.modified }
    let dir := if x.sharers = [] ∧ x.modified = none then s.fabric.directory.filter (fun y => !decide (y.line = line))
      else s.fabric.directory.map (fun y => if y.line = line then x else y)
    { s with fabric := { s.fabric with directory := dir } }

/-- BINDING_COHERENCE (R279): `kind` 0 asks for the 64-byte line of number `line` shared, 1 asks for it to modify, any other
kind gives it up with its contents. Only members of this package's binding are answered. [DEDUCED: log 98] -/
def execBindingCoherence (t kind member line : Nat) (data : List Byte) (back : List (Nat × List Byte)) (s : State) :
    Outcome State Fault Refusal :=
  let s := atTime t s
  if (bindingPeers s).contains member = false ∨ s.fabric.deadEndpoints.contains member = true ∨ targetAllowed s (line / 64) 1 = false then .next s
  else if kind ≤ 1 then .next (grantLine s member line (decide (kind = 1)) back)
  else .next (returnLine s member line data)

end Sys2Proof.Machine
end

