-- ==== Sys2Proof/Machine/Drain.lean ====
section
/-! DEFINITION. The end of a signature (Table 2-3): draining, cancel, lifetime and budget expiry, home messages (chapter 2), and
the entry into the states in which a pending cancel applies (R34). -/

namespace Sys2Proof.Machine

open Host

/-- Signatures with positions in a frozen or running step of one part. -/
def partSigs (p : PartState) : List Nat := (openPlans p).flatMap planSigs

/-- A frozen or running step holds positions of the signature (R101). -/
def inSteps (s : State) (n : Nat) : Bool :=
  let x := job s (sigE s n).job.toNat
  (partSigs x.gen).contains n || (partSigs x.prompt).contains n

/-- The leaves and the reservation of a draining signature are released, once no step holds its positions (R101). [DEDUCED: log 113] -/
def releaseDrained (s : State) (n : Nat) : State :=
  if inSteps s n then modA s n (fun a => { a with releaseDue := true })
  else releaseLeaves (modA s n (fun a => { a with releaseDue := false })) n

/-- Objects of a signature in the swap region are no longer wanted. -/
def dropSwapped (s : State) (n : Nat) : State :=
  modJob s (sigE s n).job.toNat (fun x => { x with swapped := x.swapped.filter (fun o => decide (o.1 ≠ n)) })

/-- An entry enters DRAINING (Table 2-3): catchword nodes are inserted (R71), leaves and reservation released, and ENDED follows
when every token is acknowledged. -/
def drain (s : State) (n reason : Nat) : State :=
  let s := insertSig s n
  let s := modE (setSigState s n .draining) n (fun e => { e with endReason := BitVec.ofNat 8 reason })
  let s := modA s n (fun a => { a with drafts := [], moveTarget := none, swapLeft := [], owedBy := none, confirmWaiting := false })
  let s : State := { s with handoff := { s.handoff with incoming := s.handoff.incoming.filter (fun r => decide (r.sig ≠ n)) } }
  checkEnded (releaseDrained (dropSwapped s n) n) n

/-- Cancel and lifetime rows of Table 2-3. A lifetime that ends in a handoff has no row. Of two that meet a transfer the
first stands. [DEDUCED: log 56, 101] -/
def stopSig (s : State) (n reason : Nat) (cancel : Bool) : State :=
  match (sigE s n).state with
  | .queued => drain s n reason
  | .prefilling => drain s n reason
  | .rebuilding => drain s n reason
  | .replaying => drain s n reason
  | .decoding => drain s n reason
  | .preempted => drain s n reason
  | .swappingOut => modA s n (fun a => { a with drainAfterSwap := some (a.drainAfterSwap.getD reason) })
  | .swappingIn => modA s n (fun a => { a with drainAfterSwap := some (a.drainAfterSwap.getD reason) })
  | .away => if cancel then modE s n (fun e => { e with cancelPending := true }) else badTrigger s
  | .handoffOut => if cancel then modE s n (fun e => { e with cancelPending := true }) else badTrigger s
  | .handoffIn => if cancel then modE s n (fun e => { e with cancelPending := true }) else badTrigger s
  | _ => badTrigger s

/-- An entry enters QUEUED, PREFILLING, REBUILDING, DECODING or PREEMPTED: a cancel pending at the holder applies at once (R34). -/
def enterState (s : State) (n : Nat) (st : SigState) : State :=
  let s := setSigState s n st
  if (sigE s n).cancelPending ∧ (sigA s n).holder = true then drain s n 2 else s

/-- A signature becomes overdue (R38). -/
def setOverdue (s : State) (n : Nat) : State :=
  incF (modE s n (fun e => { e with overdue := true })) 0x2022 (sigE s n).job.toNat

/-- The entry has not entered DRAINING. -/
def beforeDraining (st : SigState) : Bool := !(decide (st = .free) || decide (st = .draining) || decide (st = .ended))

/-- BUDGET_EXPIRY (R38): the remaining budget of a latency-critical signature is zero. -/
def execBudgetExpiry (t sig : Nat) (s : State) : Outcome State Fault Refusal :=
  let s := atTime t s
  let e := sigE s sig
  .next (if beforeDraining e.state = true ∧ e.bestEffort = false ∧ e.overdue = false ∧ remaining s sig = some 0 then setOverdue s sig else s)

/-- LIFETIME_EXPIRY (R33): folio 0x2010.05 has passed since the entry was taken. -/
def execLifetimeExpiry (t sig : Nat) (s : State) : Outcome State Fault Refusal :=
  let s := atTime t s
  .next (if (sigE s sig).state ≠ .free ∧ (sigA s sig).bornNs + getF s 0x2010 0x05 * 1000000000 ≤ s.now then stopSig s sig 3 false else s)

/-! ### Home messages (R48, R50) -/

/-- A home message is ignored and counted. -/
def badHome (s : State) : State := incF s 0x2050 0x02

/-- A home message passes the checks of R50; what it names is a live entry of its job. -/
def homeOk (s : State) (m : BitVec 256) : Bool :=
  let n := fld m 223 208
  let e := sigE s n
  let ty := fld m 255 248
  decide (fld m 247 230 = 0) && decide (fld m 167 64 = 0) && decide (2 ≤ ty) && decide (ty ≤ 4) && decide (n < 32768)
    && decide (e.state ≠ .free) && decide (e.job.toNat = fld m 229 224) && decide (e.homeEndpoint.toNat = fld m 207 192)
    && decide (e.clientTag.toNat = fld m 63 0)

/-- ACK (R48): DELIVERED rises; an equal position may call for a resend (R47); one above MAX_OUTPUT is counted. -/
def homeAck (s : State) (m : BitVec 256) : State :=
  let n := fld m 223 208
  let pos := fld m 191 168
  let e := sigE s n
  if e.maxOutput.toNat < pos then badHome s
  else if e.delivered.toNat < pos then
    checkEnded (modE s n (fun e => { e with delivered := BitVec.ofNat 24 pos })) n
  else if e.delivered.toNat = pos ∧ pos < (sigA s n).sentTo then modA s n (fun a => { a with resendAsked := true })
  else s

/-- An entry becomes FREE: its leaves and reservation are released, after the commit of a step that holds its positions (R101). [DEDUCED: log 111, 113] -/
def freeEntry (s : State) (n : Nat) : State :=
  if inSteps s n then
    let a := sigA s n
    let o := (n, a.groups.filterMap (fun g => g), a.reservedLeaves, a.pages)
    let s := modJob s (sigE s n).job.toNat (fun x => { x with orphans := x.orphans ++ [o] })
    setSigState s n .free
  else setSigState (releaseLeaves s n) n .free

/-- Leaves that waited for a step to end are released (R101). [DEDUCED: log 113] -/
def releaseWaiting (s : State) (j : Nat) : State :=
  let x := job s j
  let busy := partSigs x.gen ++ partSigs x.prompt
  let go := x.orphans.filter (fun o => !(busy.contains o.1))
  let s := go.foldl (fun s o =>
    let s := o.2.1.foldl (fun s g => decRef s j g) s
    modJob s j (fun x => { x with reserved := x.reserved - o.2.2.1, pagesReserved := x.pagesReserved - o.2.2.2.length })) s
  let s := modJob s j (fun x => { x with orphans := x.orphans.filter (fun o => busy.contains o.1) })
  ((jobSigs s j).filter (fun n => (sigA s n).releaseDue && !(busy.contains n))).foldl releaseDrained s

/-- The token log of an entry is not placed yet: the control plane does not read its GEN_LEN (R31). -/
def unplaced (s : State) (n : Nat) : Bool :=
  (sigE s n).state ∈ [SigState.admitting, .handoffIn, .replaying] && (sigA s n).tokens.isEmpty

/-- END_ACK (R50): the entry leaves ENDED for FREE. [DEDUCED: log 110] -/
def homeEndAck (s : State) (m : BitVec 256) : State :=
  let n := fld m 223 208
  let e := sigE s n
  if unplaced s n then badTrigger s
  else if fld m 191 168 ≠ e.genLen.toNat then badHome s
  else if e.state = .ended then freeEntry s n
  else badTrigger s

/-- A 32-byte home message (R50). -/
def homeMessage (s : State) (m : BitVec 256) : State :=
  if deadSource s (fld m 207 192) then incF s 0x6401 0x05
  else if homeOk s m = false then badHome s
  else if fld m 255 248 = 3 then homeAck s m
  else if fld m 255 248 = 4 then homeEndAck s m
  else stopSig s (fld m 223 208) 2 true

/-- A home message of one kind, or one that fails the checks of R50. [DEDUCED: log 101] -/
def homeKind (s : State) (m : BitVec 256) (kind : Nat) : State := if fld m 255 248 = kind then homeMessage s m else badHome s

/-- HOME_ACK (R48). -/
def execHomeAck (t : Nat) (message : BitVec 256) (s : State) : Outcome State Fault Refusal := .next (homeKind (atTime t s) message 3)

/-- END_ACK (R50). -/
def execEndAck (t : Nat) (message : BitVec 256) (s : State) : Outcome State Fault Refusal := .next (homeKind (atTime t s) message 4)

/-- CANCEL (R34, R50). -/
def execCancel (t : Nat) (message : BitVec 256) (s : State) : Outcome State Fault Refusal := .next (homeKind (atTime t s) message 2)

/-- UNSIZED_MESSAGE (R50): neither 32 nor 64 bytes, or a home message that fails its checks. -/
def execUnsizedMessage (t : Nat) (s : State) : Outcome State Fault Refusal := .next (badHome (atTime t s))

/-- KEEPALIVE_TIMER (R401): no notice has gone out for the entry within folio 0x6400.05 ms. -/
def execKeepaliveTimer (t sig : Nat) (s : State) : Outcome State Fault Refusal :=
  let s := atTime t s
  let e := sigE s sig
  let a := sigA s sig
  .next (if a.holder = true ∧ a.superseded = none ∧ a.noticeNs + getF s 0x6400 0x05 * 1000000 ≤ s.now then
      if e.state = .ended then sendEnd s sig
      else if e.state = .free ∨ e.state = .admitting ∨ e.state = .handoffIn then s
      else notify s sig 3 0 0 e.delivered.toNat (budgetField (remaining s sig)) []
    else s)

/-! ### Counters (R51) -/

/-- COUNT_CLEAR, folio 0x2031.01. -/
def countClearAction (s : State) : State :=
  let s := (List.range 64).foldl (fun s j => setF s 0x2022 j 0) s
  let s := (List.range 12).foldl (fun s k => setF s 0x2030 (k + 1) 0) s
  setF (setF s 0x2050 0x01 0) 0x2050 0x02 0

end Sys2Proof.Machine
end

