-- ==== Sys2Proof/Machine/Offer.lean ====
section
/-! DEFINITION. Sending handoffs (R199 to R207): messages, release records, and the choice between a prompt package and local
prefill. -/

namespace Sys2Proof.Machine

open Host

/-- A job that names a spine ring makes no handoff (R199). -/
def ringJob (s : State) (j : Nat) : Bool := (imageOf s j).ring.isSome

/-- The short header of Table 9-4 about signature `n`; `sig` is 0xFFFF and `epoch` 0 when no entry is held. -/
def shortHeader (s : State) (type holder sig epoch jb state pos layer fill len tag : Nat) : BitVec 1024 :=
  BitVec.ofNat 1024 (place type 511 504 + place (ownEndpoint s) 503 488 + place holder 487 472 + place sig 471 456 + place epoch 455 424
    + place jb 423 418 + place state 417 414 + place pos 407 384 + place layer 383 376 + place fill 375 369 + place len 366 335
    + place tag 334 271)

/-- Send a short message about signature `n` with its own epoch, on the control plane (Table 9-2). [DESIGN CHOICE: log 141] -/
def sendShort (s : State) (dest type n pos layer fill : Nat) : State :=
  let e := sigE s n
  transmit s (.message 1 dest (shortHeader s type e.holderEndpoint.toNat n e.ownerEpoch.toNat e.job.toNat 0 pos layer fill 0 e.clientTag.toNat) [])

/-- Release records of a package (folio 0x2060.05). -/
def releaseRecords : Nat := 4096

/-- A release record is free (R207). -/
def recordFree (s : State) : Bool := decide (s.handoff.records.length < releaseRecords)

/-- KV_LEN of an offer (R204). -/
def offerKv (e : SigEntry) (kind : Nat) : Nat :=
  if kind = 0 then e.prefixLen.toNat else e.promptLen.toNat + e.genLen.toNat - 1

/-- The OFFER header of Table 9-3. -/
def offerHeader (s : State) (n kind lease : Nat) : BitVec 1024 :=
  let e := sigE s n
  let j := e.job.toNat
  BitVec.ofNat 1024 (place 0x10 1023 1016 + place (ownEndpoint s) 1015 1000 + place e.holderEndpoint.toNat 999 984 + place n 983 968
    + place e.homeEndpoint.toNat 967 952 + place e.ownerEpoch.toNat 951 920 + place (imageIdOf s j) 919 888
    + place (budgetField (remaining s n)) 887 856 + place lease 855 840 + place j 839 834 + place kind 833 832
    + place (if kind = 0 then 3 else 8) 831 828 + place e.priority.toNat 827 824 + place (b2n e.bestEffort) 823 823
    + place (b2n e.cancelPending) 822 822 + place (b2n e.overdue) 821 821 + place e.draftLen.toNat 820 818
    + place e.promptLen.toNat 815 792 + place e.maxOutput.toNat 791 768 + place e.genLen.toNat 767 744 + place e.delivered.toNat 743 720
    + place (if (sigA s n).holder then e.prefixLen.toNat else (sigA s n).holderPrefix) 719 696 + place (offerKv e kind) 695 672 + place e.stopToken.toNat 671 648 + place e.tipinSlot.toNat 647 640
    + place e.tipinVersion.toNat 639 624 + place e.temperature.toNat 623 608 + place e.topP.toNat 607 592 + place e.topK.toNat 591 585
    + place e.seed.toNat 575 512 + place e.clientTag.toNat 511 448 + place (4 * (e.promptLen.toNat + e.genLen.toNat)) 447 416)

/-- Folio 0x2060.06 follows the records held. -/
def showRecords (s : State) : State := setF s 0x2060 0x06 s.handoff.records.length

/-- The offer leaves (R207): record taken, PEER_ENDPOINT set, HANDOFF_OUT entered with RESUME_STATE the state left, lease begun.
The caller has checked that a record is free. -/
def sendOffer (s : State) (n kind dest : Nat) : State :=
  let e := sigE s n
  let len := leafSize s e.job.toNat
  let lease := getF s 0x2060 0x01
  let h := offerHeader s n kind lease
  let log := ((sigA s n).tokens.take (e.promptLen.toNat + e.genLen.toNat)).flatMap (fun t => toBytesLE 4 (t % 2 ^ 24))
  let r : ReleaseRecord := { leaseEndNs := s.now + lease * 1000, ownerEpoch := e.ownerEpoch.toNat, sig := n, peer := dest,
                             fromGroup := none, lastGroup := (offerKv e kind - 1) / len, groupsSent := 0, kind := kind, accepted := false }
  let s := { s with handoff := { s.handoff with records := s.handoff.records ++ [r] } }
  let s := modE s n (fun e => { e with peerEndpoint := BitVec.ofNat 16 dest, resumeState := e.state })
  let s := modA s n (fun a => { a with handoffKind := kind, moveTarget := none, drafts := [] })
  let s := setSigState s n .handoffOut
  showRecords (transmit s (.message 1 dest h log))

/-- A QUEUED signature leaves QUEUED at once (Table 2-3): to the prompt package of its best offer, or to PREFILLING here. -/
def leaveQueued (s : State) (n : Nat) : State :=
  if (sigE s n).state ≠ .queued then s else
  match offerFor s n with
  | some o =>
    if ringJob s (sigE s n).job.toNat = false ∧ (sigA s n).noOfferPeer = none ∧ recordFree s = true then sendOffer s n 0 o.endpoint
    else enterState s n .prefilling
  | none => enterState s n .prefilling

/-- PREFILL_OFFER (R40): kept in place of the sender's earlier one. -/
def execPrefillOffer (t endpoint jb queueUs rate : Nat) (s : State) : Outcome State Fault Refusal :=
  let s := atTime t s
  if deadSource s endpoint then .next (incF s 0x6401 0x05) else
  let o : PrefillOffer := { endpoint := endpoint, job := jb, queueUs := queueUs, rate := rate, receivedNs := s.now }
  let rest := s.sig.offers.filter (fun x => !(decide (x.endpoint = endpoint) && decide (x.job = jb)))
  .next { s with sig := { s.sig with offers := rest ++ [o] } }

/-- The message of a prefill offer, whose layout the spec leaves open: a record of sender, job, QUEUE_US and RATE. [DESIGN CHOICE: log 104] -/
def prefillOfferHeader (s : State) (jb queueUs rate : Nat) : BitVec 1024 :=
  BitVec.ofNat 1024 (place (ownEndpoint s) 127 112 + place jb 69 64 + place queueUs 63 32 + place rate 31 0)

/-- PREFILL_OFFER_SEND (R40): a prompt package sends its offer for job `jb` to the generation packages `dests`. How QUEUE_US and
RATE are reckoned the spec does not say: both are free values. [DESIGN CHOICE: log 104] -/
def execPrefillOfferSend (t jb : Nat) (dests : List Nat) (s : State) : Outcome State Fault Refusal :=
  let s := atTime t s
  if roleActive s ≠ 0 ∨ (job s jb).mode ≠ .running then .next s else
  let q := freshOf s % 2 ^ 32
  let s := draw s
  let r := freshOf s % 2 ^ 32
  let s := draw s
  .next (dests.foldl (fun s d => transmit s (.message 1 d (prefillOfferHeader s jb q r) [])) s)

end Sys2Proof.Machine
end

