-- ==== Sys2Proof/Machine/QueueRows.lean ====
section
/-! DEFINITION. Commands and events of queue pairs (chapter 13): doorbells, packets, timers, and the completion of
revocations. -/

namespace Sys2Proof.Machine

open Host

/-- Who may ring a doorbell (R295): masters of the queue pair's job, the control plane (class 4), host software (7). [DEDUCED: log 100] -/
def mayRing (s : State) (q cls jb : Nat) : Bool :=
  decide (cls = 4) || decide (cls = 7) || (decide (cls ≠ 5) && (qp s q).made && decide ((qp s q).job = jb))

/-- A doorbell write: refused with a freeze of its writer, or given to `f` when the queue pair is READY (R295). In ERROR the descriptors
that `post` adds complete with FLUSHED (Table 13-11). [DEDUCED: log 100] -/
def ringDoorbell (s : State) (q cls index jb : Nat) (post : QueuePair → QueuePair) (f : State → State) : State :=
  if mayRing s q cls jb = false then freezeBy s cls index jb 293
  else match (qp s q).mode with
    | .ready => f (modQp s q post)
    | .error =>
      let s := qpError (modQp s q post) q
      pumpCompletions (qp s q).held.length s q
    | .reset => s

/-- A ring index moves up to a 32-bit doorbell value; a value that would name more entries than the ring holds is ignored. [DEDUCED: log 100] -/
def indexTo (old log v low : Nat) : Nat :=
  let new := old + (v + 2 ^ 32 - old % 2 ^ 32) % 2 ^ 32
  if new - low ≤ 2 ^ log then new else old

/-- What the device finds in host memory when it reads rings and buffers there: (address in a host region window, bytes). -/
def hostFill (s : State) (host : List (Nat × List Byte)) : State :=
  host.foldl (fun s h => if (hostLoc s h.1).isSome then writeBytes s h.1 h.2 else s) s

/-- SEND_DOORBELL (R295, R296): writer class `cls`, index and job as in Table 12-5; 7 stands for the host. `host` is what host
memory holds where the device reads it. -/
def execSendDoorbell (t q cls index jb value : Nat) (host : List (Nat × List Byte)) (s : State) : Outcome State Fault Refusal :=
  let s := hostFill (atTime t s) host
  .next (ringDoorbell s q cls index jb (fun x => { x with sqProd := indexTo x.sqProd x.sqLog value x.sqCons }) (fun s =>
    if (qp s q).peerEndpoint = 0 then modQp s q (fun x => { x with bells := x.bells ++ [(x.sqProd, s.now)] })
    else runSend s q))

/-- RECEIVE_DOORBELL (R295): buffers are posted; notices waiting at a host queue use them. -/
def execReceiveDoorbell (t q cls index jb value : Nat) (host : List (Nat × List Byte)) (s : State) : Outcome State Fault Refusal :=
  let s := hostFill (atTime t s) host
  .next (ringDoorbell s q cls index jb (fun x => { x with rqProd := indexTo x.rqProd x.rqLog value x.recvDone }) (fun s =>
    pumpNotices (qp s q).notices.length s q))

/-- COMPLETION_DOORBELL (R295): room in the completion ring; held completions are written. -/
def execCompletionDoorbell (t q cls index jb value : Nat) (s : State) : Outcome State Fault Refusal :=
  let s := atTime t s
  .next (ringDoorbell s q cls index jb (fun x => { x with cqCons := indexTo x.cqCons x.cqLog value x.cqCons }) (fun s =>
    pumpCompletions (qp s q).held.length s q))

/-- A queue packet of one type reaches this package. -/
def packetHere (s : State) (h : BitVec 256) (type : Nat) : Bool := decide (hType h = type) && decide (hDest h = ownEndpoint s)

/-- `f` handles a packet of one type that reaches this package; one of no known type is refused (R297). -/
def takePacket (s : State) (h : BitVec 256) (type : Nat) (f : State → State) : State :=
  if packetHere s h type then f s else refuseUnknown s h

/-- WRITE (R299): `imm` marks a packet of a WRITE_IMM message. -/
def execWrite (t : Nat) (header qheader : BitVec 256) (payload : List Byte) (imm : Bool) (s : State) : Outcome State Fault Refusal :=
  let s := atTime t s
  .next (takePacket s header 0x40 (fun s => recvWrite s header qheader payload imm))

/-- SEND (R299): `imm` marks a packet of a SEND_IMM message. -/
def execSend (t : Nat) (header qheader : BitVec 256) (payload : List Byte) (imm : Bool) (s : State) : Outcome State Fault Refusal :=
  let s := atTime t s
  .next (takePacket s header 0x41 (fun s => recvSend s header qheader payload imm))

/-- An uncorrectable read of the target of an arriving packet is logged as one of the fabric service (R364); `bad` is the failing beat. -/
def packetError (s : State) (h qh : BitVec 256) (payload : List Byte) (bad : Option Nat) : State :=
  match bad, readTarget s h qh payload with
  | some beat, some a => serviceError s h a beat
  | _, _ => s

/-- READ_REQ (R302): `bad` is the beat at which the target read is uncorrectable. -/
def execReadReq (t : Nat) (header qheader : BitVec 256) (bad : Option Nat) (s : State) : Outcome State Fault Refusal :=
  let s := atTime t s
  .next (takePacket s header 0x42 (fun s => recvReadReq (packetError s header qheader [] bad) header qheader bad.isSome))

/-- READ_RESP (R299). -/
def execReadResp (t : Nat) (header qheader : BitVec 256) (payload : List Byte) (s : State) : Outcome State Fault Refusal :=
  let s := atTime t s
  .next (takePacket s header 0x43 (fun s => recvReadResp s header qheader payload))

/-- ATOMIC_REQ (R303): `bad` is the beat at which the target read is uncorrectable. -/
def execAtomicReq (t : Nat) (header qheader : BitVec 256) (args : AtomicIn) (s : State) : Outcome State Fault Refusal :=
  let s := atTime t s
  .next (takePacket s header 0x44 (fun s => recvAtomicReq (packetError s header qheader args.payload args.bad) header qheader args.payload args.bad.isSome))

/-- QUEUE_ATOMIC_RESP (R303). -/
def execQueueAtomicResp (t : Nat) (header qheader : BitVec 256) (payload : List Byte) (s : State) : Outcome State Fault Refusal :=
  let s := atTime t s
  .next (takePacket s header 0x45 (fun s => recvAtomicResp s header qheader payload))

/-- ACK (R301, R302). -/
def execAck (t : Nat) (header qheader : BitVec 256) (payload : List Byte) (s : State) : Outcome State Fault Refusal :=
  let s := atTime t s
  .next (takePacket s header 0x46 (fun s => recvAck s header qheader payload))

/-- NAK (R299). -/
def execNak (t : Nat) (header qheader : BitVec 256) (payload : List Byte) (s : State) : Outcome State Fault Refusal :=
  let s := atTime t s
  .next (takePacket s header 0x47 (fun s => recvNak s header qheader payload))

/-- ACK_TIMER (R301): 2 µs after the oldest packet placed and not acknowledged. -/
def execAckTimer (t q : Nat) (s : State) : Outcome State Fault Refusal :=
  let s := atTime t s
  let x := qp s q
  .next (match x.ackOldestNs with
    | some t0 => if t0 + 2000 ≤ s.now ∧ x.mode = .ready ∧ x.frozen = false then sendAckNak s q none 0 else s
    | none => s)

/-- A packet's last departure lies `limit` ns back. -/
def overdue (p : TxPacket) (limit now : Nat) : Bool := match p.departNs with
  | some d => decide (d + limit ≤ now)
  | none => false

/-- REPEAT_TIMEOUT (R302): no ACK covers a packet within folio 0x4100.04 µs. -/
def execRepeatTimeout (t q psn : Nat) (s : State) : Outcome State Fault Refusal :=
  let s := atTime t s
  let x := qp s q
  .next (match x.tx.find? (fun p => decide (p.psn = psn)) with
    | some p => if overdue p (getF s 0x4100 0x04 * 1000) s.now = true ∧ x.mode = .ready ∧ x.frozen = false then repeatPacket s q p else s
    | none => s)

/-- RNR_RETRY (R299). -/
def execRnrRetry (t q msn : Nat) (s : State) : Outcome State Fault Refusal := .next (rnrRepeat (atTime t s) q msn)

/-- REVOKE_TIMEOUT (R304): folio 0x4100.08 ms in DRAINING. -/
def execRevokeTimeout (t region : Nat) (s : State) : Outcome State Fault Refusal :=
  let s := atTime t s
  let x := regionOf s region
  .next (if x.mode = .draining ∧ x.drainNs + getF s 0x4100 0x08 * 1000000 ≤ s.now then finishRevoke s region else s)

end Sys2Proof.Machine
end

