-- ==== Sys2Proof/Machine/Admission.lean ====
section
/-! DEFINITION. Admission (R41 to R43): the checks in their order, the reading of the prompt, the reservation and estimate, and
the host queues whose send rings the control plane serves (R455). -/

namespace Sys2Proof.Machine

open Host

/-- JOB_SIG_LIVE, folio 0x2021.jj. -/
def liveCount (s : State) (j : Nat) : Nat := (jobSigs s j).length

/-- A BF16 value is positive and finite. -/
def goodTemperature (w : Nat) : Bool := !(nbit w 15) && decide (nfld w 14 7 ≠ 255) && decide (w ≠ 0)

/-- Sampling and draft parameters that check 0x04 of R42 refuses. -/
def badParams (i : JobImage) (topK temp stop draft : Nat) : Bool :=
  decide (topK = 0) || decide (64 < topK) || !(goodTemperature temp) || (decide (i.vocab ≤ stop) && decide (stop ≠ 0xFFFFFF))
    || decide (i.draftLimit < draft)

/-- Host software assigned a tip-in slot to a job (folio 0x2820.ss). -/
def slotOf (s : State) (slot j : Nat) : Bool := decide (getF s 0x2820 slot = 0x80 + j)

/-- Check 0x06 for a request without the resident test of version 0: the version that a request resolves to, or none. -/
def resolveTipin (s : State) (j slot ver : Nat) : Option Nat :=
  if ver = 0 then some 0
  else
    let v := if ver = 0xFFFF then getF s 0x2821 slot else ver
    if slotOf s slot j && residentIn s slot v then some v else none

/-- A slot–version pair would be the 17th distinct pair among the live signatures of a job (R99). -/
def seventeenth (s : State) (j slot ver : Nat) : Bool :=
  let ps := tipinPairs s (jobSigs s j)
  decide (ver ≠ 0) && !(ps.contains (slot, ver)) && decide (16 ≤ ps.length)

/-- RSVD bits of an admission request (Table 2-4). -/
def requestRsvd (w : BitVec 512) : Bool :=
  decide (fld w 503 392 ≠ 0) || nbit w.toNat 375 || decide (fld w 367 366 ≠ 0) || nbit w.toNat 359

/-- A refusal before an entry is taken, or the live signature that a repeated request names, or admission to an entry. -/
inductive Verdict where
  | refuse (code : Nat)
  | again (sig : Nat)
  | take (budget version : Nat)
  deriving DecidableEq, Repr

/-- The checks of R42 up to CAP and budget, in order. -/
def admitChecks (s : State) (q : AdmitRequest) : Verdict :=
  let w := q.request
  let j := fld w 365 360
  let x := job s j
  let i := imageOf s j
  let prompt := fld w 247 224
  let maxOut := fld w 279 256
  let draft := fld w 374 372
  let slot := fld w 255 248
  if admissionClosed s then .refuse 1
  else if x.mode ≠ .running then .refuse 2
  else if fld w 511 504 ≠ 1 ∨ requestRsvd w = true then .refuse 3
  else if badParams i (fld w 358 352) (fld w 335 320) (fld w 303 280) draft = true ∨ (x.bestEffort = false ∧ fld w 223 192 = 0xFFFFFFFF) then .refuse 4
  else if prompt = 0 ∨ maxOut = 0 ∨ i.ctxLimit < prompt + maxOut + draft then .refuse 5
  else match resolveTipin s j slot (fld w 319 304) with
    | none => .refuse 6
    | some ver =>
      if x.bestEffort = false ∧ seventeenth s j slot ver = true then .refuse 6
      else match (jobSigs s j).find? (fun n => decide ((sigE s n).clientTag.toNat = fld w 63 0)) with
        | some n => .again n
        | none =>
          if getF s 0x2020 j ≠ 0 ∧ getF s 0x2020 j ≤ liveCount s j then .refuse 7
          else
            let b := if x.bestEffort then 0xFFFFFFFF else fld w 223 192 - q.delayUs
            if b ≠ 0xFFFFFFFF ∧ b < getF s 0x2010 0x02 then .refuse 8
            else if (freeSig s).isNone then .refuse 9
            else .take b ver

/-- The fields of an entry filled from a request (Table 2-3, first row). GEN_LEN and STEP_SEQ are the data plane's (R31): it writes
them when it places the token log. -/
def requestEntry (s : State) (q : AdmitRequest) (budget ver : Nat) (old : SigEntry) : SigEntry :=
  let w := q.request
  let j := fld w 365 360
  { old with holderEndpoint := BitVec.ofNat 16 (ownEndpoint s), clientTag := BitVec.ofNat 64 (fld w 63 0),
             seed := BitVec.ofNat 64 (fld w 127 64), prefixLen := 0, preemptCount := 0, stallCount := 0,
             draftLen := BitVec.ofNat 3 (fld w 374 372), stopToken := BitVec.ofNat 24 (fld w 303 280), topK := BitVec.ofNat 7 (fld w 358 352),
             topP := BitVec.ofNat 16 (fld w 351 336), temperature := BitVec.ofNat 16 (fld w 335 320),
             arrivalUs := BitVec.ofNat 40 (q.arrivedNs / 1000), estimateUs := 0, budgetUs := BitVec.ofNat 32 budget, leavesReserved := 0,
             leafRoot := BitVec.ofNat 32 nullLeaf, delivered := 0, maxOutput := BitVec.ofNat 24 (fld w 279 256),
             promptLen := BitVec.ofNat 24 (fld w 247 224), cancelPending := false, overdue := false, tipinVersion := BitVec.ofNat 16 ver,
             tipinSlot := BitVec.ofNat 8 (fld w 255 248), peerEndpoint := 0, homeEndpoint := BitVec.ofNat 16 (fld w 391 376), ownerEpoch := 1,
             endReason := 0, priority := BitVec.ofNat 4 (fld w 371 368), bestEffort := (job s j).bestEffort, job := BitVec.ofNat 6 j,
             resumeState := .free }

/-- One request is decided: refused, answered again, or an entry enters ADMITTING and the prompt, PROMPT_LEN token-log entries, is read
from PROMPT_ADDR. -/
def decideRequest (s : State) (q : AdmitRequest) : State :=
  match admitChecks s q with
  | .refuse code => refuseRequest s q code
  | .again n => sendAdmitted s n
  | .take b ver =>
    match freeSig s with
    | none => s
    | some n =>
      let s := modE (draw s) n (requestEntry s q b ver)
      let addr := fld q.request 191 128
      let s := modA s n (fun _ => { SigAux.zero with via := q.via, bornNs := s.now, holder := true, noticeNs := s.now, promptAddr := addr })
      emit (setSigState s n .admitting) (.promptRead n addr (4 * (sigE s n).promptLen.toNat))

/-- Requests of a job are taken one at a time, in arrival order (R42). -/
def pumpAdmission : Nat → State → Nat → State
  | 0, s, _ => s
  | fuel + 1, s, j =>
    if jobSigsIn s j .admitting ≠ [] then s else
    match s.sig.waiting.find? (fun q => decide (fld q.request 365 360 = j)) with
    | none => s
    | some q => pumpAdmission fuel (decideRequest { s with sig := { s.sig with waiting := s.sig.waiting.erase q } } q) j

/-- Requests of a job that wait are decided as far as they can be. -/
def admitNext (s : State) (j : Nat) : State := pumpAdmission s.sig.waiting.length s j

/-- A 64-byte admission request arrives. -/
def admitRequest (s : State) (src : Nat) (via : Option Nat) (delay : Nat) (w : BitVec 512) : State :=
  let q : AdmitRequest := { src := src, via := via, arrivedNs := s.now, delayUs := delay, request := w }
  admitNext { s with sig := { s.sig with waiting := s.sig.waiting ++ [q] } } (fld w 365 360)

/-- ADMISSION_REQUEST (R42) from endpoint `src` over the fabric. -/
def execAdmissionRequest (t src : Nat) (request : BitVec 512) (s : State) : Outcome State Fault Refusal :=
  let s := atTime t s
  .next (if deadSource s src then incF s 0x6401 0x05 else admitRequest s src none (delayUs s src) request)

/-- A refusal after the entry is taken: REFUSED, reservation returned, entry FREE. -/
def refuseEntry (s : State) (n code : Nat) : State :=
  let s := incF (notify s n 2 code 0 0 (budgetField (remaining s n)) []) 0x2030 code
  setSigState (releaseLeaves s n) n .free

/-- The match of R70 for signature `n` over tokens: groups taken, collisions counted, PREFIX_LEN set; groups outside stacked DRAM
are promoted in the background (R231). -/
def matchSig (s : State) (n : Nat) (toks : List Nat) : State :=
  let e := sigE s n
  let j := e.job.toNat
  let (nodes, m, c) := cwMatch s j e.tipinSlot.toNat e.tipinVersion.toNat toks
  let s := nodes.foldl (takeNode n) (addF s 0x2400 0x06 c)
  let k := min m (toks.length - 1)
  let s := modE s n (fun e => { e with prefixLen := BitVec.ofNat 24 k })
  promoteTaken n nodes (modA s n (fun a => { a with kv := k }))

/-- need of R42. -/
def leavesNeeded (s : State) (n limit : Nat) : Nat :=
  let j := (sigE s n).job.toNat
  let len := leafSize s j
  layerCount s j * (ceilDiv limit len - (sigE s n).prefixLen.toNat / len)

/-- Token positions for which a whole signature reserves. -/
def wholeLen (e : SigEntry) : Nat := e.promptLen.toNat + e.maxOutput.toNat + e.draftLen.toNat

/-- The rest of admit(q) once the prompt is read. -/
def admitRead (s : State) (n : Nat) (ok : Bool) (words : List Nat) : State :=
  let j := (sigE s n).job.toNat
  let toks := words.map (fun w => w % 2 ^ 24)
  if ok = false ∨ words.length ≠ (sigE s n).promptLen.toNat ∨ toks.any (fun t => decide ((imageOf s j).vocab ≤ t)) = true then refuseEntry s n 0xA
  else
    let s := placeLog s n toks 0
    let s := matchSig (incF s 0x2400 0x04) n toks
    let s := addF s 0x2400 0x05 (sigE s n).prefixLen.toNat
    match reserve s n (leavesNeeded s n (wholeLen (sigE s n))) false with
    | none => refuseEntry s n 0xB
    | some s =>
      let s := noteEstimate s n
      if (match remaining s n with
          | none => false
          | some r => decide (r < estimate s n)) then refuseEntry s n 0xC
      else
        let s := setSigState s n .queued
        let s := incF (sendAdmitted s n) 0x2030 0x00
        if (sigE s n).cancelPending then drain s n 2 else leaveQueued s n

/-- PROMPT_READ_COMPLETE (R42): `words` are the token-log entries read; `ok` is false when the read was refused. [DESIGN CHOICE: log 7] -/
def execPromptReadComplete (t sig : Nat) (ok : Bool) (words : List Nat) (s : State) : Outcome State Fault Refusal :=
  let s := atTime t s
  if (sigE s sig).state ≠ .admitting then .next s
  else .next (admitNext (admitRead s sig ok words) (sigE s sig).job.toNat)

/-! ### Host queues (R455) -/

/-- Local time of the doorbell that made ring index `k` visible. -/
def bellOf (x : QueuePair) (k now : Nat) : Nat := match x.bells.find? (fun b => decide (k < b.1)) with
  | some b => b.2
  | none => now

/-- A message from a host queue is handled as one from the fabric whose HOME_ENDPOINT is this package's own. -/
def hostMessage (s : State) (q delay : Nat) (bytes : List Byte) : State :=
  if bytes.length = 64 then
    admitRequest s (ownEndpoint s) (some q) delay (BitVec.ofNat 512 (setFld (ofBytesLE bytes) (ownEndpoint s) 391 376))
  else if bytes.length = 32 then homeMessage s (BitVec.ofNat 256 (setFld (ofBytesLE bytes) (ownEndpoint s) 207 192))
  else badHome s

/-- The descriptor served at a host queue ends with a status. -/
def hostComplete (s : State) (q status : Nat) (d : BitVec 512) : State :=
  if nbit d.toNat 499 ∨ status ≠ 0 then
    postCompletion s q (completionWord (fld d 63 0) (if status = 0 then dLen d else 0) 0 0 q (dOp d) status false)
  else s

/-- One descriptor of a host queue's send ring is served. -/
def serveHost (s : State) (q : Nat) : State :=
  let x := qp s q
  if x.made = false ∨ x.mode ≠ .ready ∨ x.frozen = true ∨ x.peerEndpoint ≠ 0 ∨ x.sqProd ≤ x.sqCons then s else
  let d := sendDesc s x x.sqCons
  let delay := ceilDiv (s.now - bellOf x x.sqCons s.now) 1000
  let cons := x.sqCons + 1
  let s := setQp s q { x with sqCons := cons, msn := (x.msn + 1) % 2 ^ 24, bells := x.bells.filter (fun b => decide (cons < b.1)) }
  match (if isSend d then descFault s x d else some 0x25) with
  | some st =>
    let s := if st = 0x23 then freezeMaster s 3 q x.job 293 else s
    qpError (hostComplete s q st d) q
  | none => hostComplete (hostMessage s q delay (readBytes s (dLocal d) (dLen d))) q 0 d

/-- HOST_QUEUE_SEND (R455): the control plane serves the next descriptor of a host queue; `host` is what host memory holds. -/
def execHostQueueSend (t q : Nat) (host : List (Nat × List Byte)) (s : State) : Outcome State Fault Refusal :=
  .next (serveHost (hostFill (atTime t s) host) q)

end Sys2Proof.Machine
end

