-- ==== Sys2Proof/Machine/Handoff.lean ====
section
/-! DEFINITION. Handoffs (R206 to R217): offers received, the leaf stream, confirms, leases, claims, probes, and a dead peer. -/

namespace Sys2Proof.Machine

open Host

/-! ### Keys and records -/

/-- The live entry with a key (R200). -/
def keyEntry (s : State) (jb holder tag : Nat) : Option Nat :=
  (jobSigs s jb).find? (fun n => decide ((sigE s n).holderEndpoint.toNat = holder) && decide ((sigE s n).clientTag.toNat = tag))

/-- The entry that a short message names. -/
def shortEntry (s : State) (h : BitVec 1024) : Option Nat := keyEntry s (fld h 423 418) (fld h 487 472) (fld h 334 271)

/-- RSVD bits of a short message that are not zero (R203), and a message of another kind or from a dead source. -/
def shortBad (h : BitVec 1024) : Bool :=
  decide (fld h 1023 512 ≠ 0) || decide (fld h 413 408 ≠ 0) || decide (fld h 368 367 ≠ 0) || decide (fld h 270 0 ≠ 0)

/-- A short handoff message is received: one with RSVD bits set is counted under code 0x03, one from a dead source is counted and
discarded. -/
def recvShort (s : State) (h : BitVec 1024) (type : Nat) (f : State → State) : State :=
  if fld h 511 504 ≠ type then s
  else if deadSource s (fld h 503 488) then incF s 0x6401 0x05
  else if shortBad h then incF s 0x2070 0x03
  else f s

/-- The release record of an entry. -/
def recordOf (s : State) (n : Nat) : Option ReleaseRecord := s.handoff.records.find? (fun r => decide (r.sig = n))

/-- A release record is dropped. -/
def dropRecord (s : State) (n : Nat) : State :=
  showRecords { s with handoff := { s.handoff with records := s.handoff.records.filter (fun r => decide (r.sig ≠ n)) } }

/-- Change a release record. -/
def modRecord (s : State) (n : Nat) (f : ReleaseRecord → ReleaseRecord) : State :=
  { s with handoff := { s.handoff with records := s.handoff.records.map (fun r => if r.sig = n then f r else r) } }

/-- What is known of a handoff being received. -/
def incomingOf (s : State) (n : Nat) : Option HandoffIn := s.handoff.incoming.find? (fun r => decide (r.sig = n))

/-- Change it. -/
def modIncoming (s : State) (n : Nat) (f : HandoffIn → HandoffIn) : State :=
  { s with handoff := { s.handoff with incoming := s.handoff.incoming.map (fun r => if r.sig = n then f r else r) } }

/-- Forget it; groups taken for the stream and not yet in the list are released. -/
def dropIncoming (s : State) (n : Nat) : State :=
  match incomingOf s n with
  | none => s
  | some r =>
    let j := (sigE s n).job.toNat
    let placed := (sigA s n).groups.filterMap (fun g => g)
    let s := (r.groups.filter (fun g => !(placed.contains g))).foldl (fun s g => decRef s j g) s
    { s with handoff := { s.handoff with incoming := s.handoff.incoming.filter (fun r => decide (r.sig ≠ n)) } }

/-! ### Falling back (R212) -/

/-- Groups received in or taken for the handoff, or allocated since, are released: the list keeps what it held before. [DEDUCED: log 103] -/
def toBaseList (s : State) (n : Nat) : State :=
  let base := (sigA s n).baseList
  let cur := (sigA s n).groups
  let s := (List.range cur.length).foldl (fun s p => if cur.getD p none = base.getD p none then s else clearEntry s n p) s
  let len := leafSize s (sigE s n).job.toNat
  let keep := ((sigA s n).groups.takeWhile (fun g => g.isSome)).length
  modA s n (fun a => { a with kv := min a.kv (keep * len) })

/-- The entry goes back to AWAY, where its holder awaits the signature from the claimant. [DEDUCED: log 103] -/
def backAway (s : State) (n : Nat) (claimant : Option Nat) : State :=
  let s := toBaseList (dropIncoming s n) n
  let s := match claimant with
    | some e => modE s n (fun x => { x with peerEndpoint := BitVec.ofNat 16 e })
    | none => s
  let s := modA s n (fun a => { a with superseded := none, confirmWaiting := false, resumedAfterLease := false, moveTarget := none,
                                       probeAtNs := s.now + getF s 0x2060 0x03 * 1000 })
  setSigState s n .away

/-- A copy is dropped: groups and any reservation are released, and the entry is FREE. -/
def dropCopy (s : State) (n : Nat) : State := freeEntry (dropRecord (dropIncoming s n) n) n

/-- An entry becomes superseded: its CONFIRM is awaited no longer. [DEDUCED: log 102] -/
def supersede (s : State) (n claimant : Nat) : State :=
  if (sigA s n).superseded.isSome then s
  else modA (incF s 0x2069 (sigE s n).job.toNat) n (fun a => { a with superseded := some claimant, confirmWaiting := false })

/-- A CLAIM of a higher epoch takes effect on an entry (R212). [DEDUCED: log 102] -/
def claimed (s : State) (n claimant : Nat) : State :=
  let e := sigE s n
  let j := e.job.toNat
  match e.state with
  | .handoffOut => dropCopy (incF s 0x2064 j) n
  | .handoffIn => if e.resumeState = .away then backAway (incF s 0x2064 j) n none else dropCopy (incF s 0x2064 j) n
  | .prefilling => supersede s n claimant
  | .decoding => supersede s n claimant
  | _ => badTrigger s

/-- The superseded transition of Table 2-3, at a boundary phase at which no step in flight holds its positions. [DEDUCED: log 102; DESIGN CHOICE: log 159] -/
def supersededTransition (s : State) (n : Nat) : State :=
  let e := sigE s n
  let a := sigA s n
  match a.superseded with
  | none => s
  | some c =>
    if inSteps s n ∨ (e.state ≠ .prefilling ∧ e.state ≠ .decoding) then s else
    let s := incF s 0x2064 e.job.toNat
    if e.resumeState = .away then backAway s n (some c)
    else if e.resumeState = .free then dropCopy s n
    else if a.resumedAfterLease ∧ a.holder = true then backAway s n (some c)
    else dropCopy s n

/-- AWAY enters REBUILDING (Table 2-3). -/
def rebuild (s : State) (n : Nat) : State :=
  let s := incF (modE s n (fun e => { e with ownerEpoch := e.ownerEpoch + 1 })) 0x2065 (sigE s n).job.toNat
  let s := modA s n (fun a => { a with sentTo := (sigE s n).delivered.toNat, resendAsked := false })
  enterState s n .rebuilding

/-! ### Offers (R208) -/

/-- The index-held groups whose nodes had no children at the check, one of which step 2 of grow() may evict. -/
def takeOffered (s : State) (j n : Nat) (cols : List Nat) (allowed : List Nat) : Option (State × Nat) :=
  match takeGroup s j n cols with
  | some r => some r
  | none => match oldestNode s ((evictable s j).filter (fun id => allowed.contains id)) with
    | none => none
    | some id => takeGroup (evictNode s id) j n cols

/-- Take the groups of the positions given, in order, by the first two steps of grow(). -/
def takeStream (j n anchor : Nat) (allowed : List Nat) : List Nat → State → Option (State × List Nat)
  | [], s => some (s, [])
  | p :: r, s => match takeOffered s j n (eligible s j anchor p) allowed with
    | none => none
    | some (s, g) => match takeStream j n anchor allowed r s with
      | none => none
      | some (s, l) => some (s, g :: l)

/-- Role that a kind of handoff needs of its receiver (Table 9-1). [DESIGN CHOICE: log 160] -/
def roleFits (s : State) (kind : Nat) : Bool := decide (roleActive s = (if kind = 0 then 0 else 1))

/-- offer_fields_bad(o) of R208. -/
def offerBad (s : State) (o : BitVec 1024) (words : List Nat) : Bool :=
  let j := fld o 839 834
  let i := imageOf s j
  let x := job s j
  let kind := fld o 833 832
  let prompt := fld o 815 792
  let maxOut := fld o 791 768
  let gen := fld o 767 744
  let kv := fld o 695 672
  badParams i (fld o 591 585) (fld o 623 608) (fld o 671 648) (fld o 820 818) || !decide (nbit o.toNat 823 = x.bestEffort)
    || (!(nbit o.toNat 823) && decide (fld o 887 856 = 0xFFFFFFFF)) || decide (prompt = 0) || decide (maxOut = 0)
    || decide (i.ctxLimit < prompt + maxOut + fld o 820 818) || decide (kind = 3) || !decide (fld o 831 828 = if kind = 0 then 3 else 8)
    || (if kind = 0 then decide (gen ≠ 0) else if kind = 1 then decide (maxOut < gen) else decide (maxOut ≤ gen))
    || !decide (kv = if kind = 0 then fld o 719 696 else prompt + gen - 1) || decide (prompt - 1 < fld o 719 696)
    || decide (maxOut < fld o 743 720) || decide (fld o 639 624 = 0xFFFF) || decide (fld o 447 416 ≠ 4 * (prompt + gen))
    || decide (words.length ≠ prompt + gen)

/-- Fields of a fresh entry filled from an offer. -/
def offerEntry (o : BitVec 1024) (old : SigEntry) : SigEntry :=
  { old with holderEndpoint := BitVec.ofNat 16 (fld o 999 984), stepSeq := 0, clientTag := BitVec.ofNat 64 (fld o 511 448),
             seed := BitVec.ofNat 64 (fld o 575 512), preemptCount := 0, stallCount := 0, draftLen := BitVec.ofNat 3 (fld o 820 818),
             stopToken := BitVec.ofNat 24 (fld o 671 648), topK := BitVec.ofNat 7 (fld o 591 585), topP := BitVec.ofNat 16 (fld o 607 592),
             temperature := BitVec.ofNat 16 (fld o 623 608), estimateUs := 0, leafRoot := BitVec.ofNat 32 nullLeaf, delivered := 0,
             maxOutput := BitVec.ofNat 24 (fld o 791 768), promptLen := BitVec.ofNat 24 (fld o 815 792), cancelPending := false,
             overdue := false, tipinVersion := BitVec.ofNat 16 (fld o 639 624), tipinSlot := BitVec.ofNat 8 (fld o 647 640),
             peerEndpoint := BitVec.ofNat 16 (fld o 1015 1000), homeEndpoint := BitVec.ofNat 16 (fld o 967 952), endReason := 0,
             priority := BitVec.ofNat 4 (fld o 827 824), bestEffort := nbit o.toNat 823, job := BitVec.ofNat 6 (fld o 839 834),
             resumeState := .free }

/-- Fields that any offer changes in its entry, and the budget of R36. -/
def mergeOffer (s : State) (n : Nat) (o : BitVec 1024) : State :=
  let b := lessDelay (fld o 887 856) (delayUs s (fld o 1015 1000))
  let e := sigE s n
  let late := !e.bestEffort && decide (b = 0) && !(e.overdue || nbit o.toNat 821)
  let s := modE s n (fun e =>
    { e with ownerEpoch := BitVec.ofNat 32 (fld o 951 920), cancelPending := e.cancelPending || nbit o.toNat 822,
             overdue := e.overdue || nbit o.toNat 821, delivered := BitVec.ofNat 24 (max e.delivered.toNat (fld o 743 720)),
             budgetUs := BitVec.ofNat 32 b, arrivalUs := BitVec.ofNat 40 (nowUs s) })
  if late then setOverdue s n else s

/-- The log of an entry that came from AWAY is placed where it lies. -/
def rewriteLog (s : State) (n : Nat) (toks : List Nat) (gen : Nat) : State :=
  let s := modE s n (fun e => { e with genLen := BitVec.ofNat 24 gen, stepSeq := 0 })
  appendLog (modA s n (fun a => { a with tokens := [], sentTo := 0 })) n toks

/-- CONFIRM is sent while local time is below the deadline, and the HANDOFF_IN transition is made (R210). -/
def sendConfirm (s : State) (n : Nat) : State :=
  match incomingOf s n with
  | none => s
  | some r =>
    if r.deadlineNs ≤ s.now ∨ r.stopped = true then s else
    let s := incF (sendShort s r.sender 0x13 n 0 0 0) 0x2062 (sigE s n).job.toNat
    let s := modIncoming s n (fun r => { r with groups := [] })
    let s := modA s n (fun a => { a with confirmWaiting := true, probeAtNs := 0, kv := max a.kv r.kvLen, holder := a.holder || decide (r.kind = 2) })
    enterState s n r.nextState

/-- HANDOFF_IN is entered and the offer answered: CONFIRM at once, or ACCEPT with the groups of the stream taken. None when
they cannot be taken. -/
def acceptOffer (s : State) (n kv deadline : Nat) (o : BitVec 1024) (words : List Nat) (fresh : Bool) : Option State :=
  let j := fld o 839 834
  let len := leafSize s j
  let kind := fld o 833 832
  let kvLen := fld o 695 672
  let toks := words.map (fun w => w % 2 ^ 24)
  let from0 := kv / len
  let ps := if kv < kvLen then (List.range ((kvLen - 1) / len + 1 - from0)).map (fun i => from0 + i) else []
  let anchor := (anchorOf s j (sigA s n).groups).getD (chooseAnchor s j)
  match takeStream j n anchor (evictable s j) ps s with
  | none => none
  | some (s, gs) =>
    let s := modE s n (fun e => { e with resumeState := if fresh then .free else .away })
    let s := modA s n (fun a => { a with baseList := a.groups, handoffKind := kind, superseded := none, resumedAfterLease := false,
                                         probeAtNs := 0 })
    let s := setSigState s n .handoffIn
    let s := if fresh then placeLog s n toks (fld o 767 744) else rewriteLog s n toks (fld o 767 744)
    let s := mergeOffer s n o
    let r : HandoffIn := { sig := n, sender := fld o 1015 1000, kind := kind, nextState := if kind = 0 then .prefilling else .decoding,
                           arrivedNs := s.now, deadlineNs := deadline, kvLen := kvLen, fromGroup := from0, groups := gs,
                           wanted := ps.flatMap (fun p => (layersOf s j).map (fun l => (p, l))), resends := [], stopped := false,
                           probeAtNs := s.now + 4000000 }
    let s := { s with handoff := { s.handoff with incoming := s.handoff.incoming ++ [r] } }
    if ps = [] then some (sendConfirm s n) else some (sendShort s r.sender 0x11 n from0 0 0)

/-- An offer is dropped and counted (Table 9-6). -/
def dropOffer (s : State) (code : Nat) : State := incF s 0x2070 code

/-- on_offer(o) of R208. Every check is decided before anything changes. -/
def onOffer (s : State) (o : BitVec 1024) (words : List Nat) (readable : Bool) : State :=
  let src := fld o 1015 1000
  let j := fld o 839 834
  let kind := fld o 833 832
  let ver := fld o 639 624
  let slot := fld o 647 640
  let kvLen := fld o 695 672
  let deadline := s.now + (fld o 855 840 - delayUs s src) * 1000 - getF s 0x2060 0x02 * 1000
  let toks := words.map (fun w => w % 2 ^ 24)
  let e := keyEntry s j (fld o 999 984) (fld o 511 448)
  let conflict : Bool := match e with
    | some n => !(decide ((sigE s n).state = .away) && decide (kind = 1) && decide ((sigE s n).ownerEpoch.toNat ≤ fld o 951 920))
    | none => false
  if conflict then
    match e with
    | some n => dropOffer (sendShort s src 0x14 n 0 0 0) 4
    | none => s
  else if roleFits s kind = false then dropOffer s 1
  else if (job s j).mode ≠ .running ∨ fld o 919 888 ≠ imageIdOf s j ∨ (kind = 1 ∧ e.isNone = true ∧ fld o 999 984 ≠ ownEndpoint s) then dropOffer s 2
  else if offerBad s o words then dropOffer s 3
  else if e.isNone ∧ (freeSig s).isNone = true then dropOffer s 5
  else if ver ≠ 0 ∧ residentIn s slot ver = false then dropOffer s 6
  else if readable = false ∨ toks.any (fun t => decide ((imageOf s j).vocab ≤ t)) = true then dropOffer s 8
  else if deadline ≤ s.now then dropOffer s 9
  else if e.isNone ∧ kind ≠ 0 ∧ getF s 0x2020 j ≠ 0 ∧ getF s 0x2020 j ≤ liveCount s j then dropOffer s 0xA
  else match e with
    | some n => (acceptOffer s n (sigE s n).prefixLen.toNat deadline o words false).getD (dropOffer s 7)
    | none => match freeSig s with
      | none => dropOffer s 5
      | some n =>
        let (nodes, m, c) := cwMatch s j slot ver (toks.take (kvLen + 1))
        let kv := min m kvLen
        let t := modE (draw s) n (offerEntry o)
        let t := modE t n (fun x => { x with prefixLen := BitVec.ofNat 24 kv, genLen := 0 })
        let t := modA t n (fun _ => { SigAux.zero with bornNs := t.now, holder := decide (kind = 1), noticeNs := t.now, kv := kv,
                                                       holderPrefix := fld o 719 696 })
        let limit := if kind = 0 then fld o 815 792 else wholeLen (sigE t n)
        match reserve t n (leavesNeeded t n limit) (decide (kind = 0)) with
        | none => dropOffer s 7
        | some t =>
          let t := promoteTaken n nodes (nodes.foldl (takeNode n) (addF t 0x2400 0x06 c))
          (acceptOffer t n kv deadline o words true).getD (dropOffer s 7)

/-- OFFER (R208): `words` is the token log that follows the header; `readable` is false when it could not be read. -/
def execOffer (t : Nat) (header : BitVec 1024) (words : List Nat) (readable : Bool) (s : State) : Outcome State Fault Refusal :=
  let s := atTime t s
  if fld header 1023 1016 ≠ 0x10 then .next s
  else if deadSource s (fld header 1015 1000) then .next (incF s 0x6401 0x05)
  else if fld header 817 816 ≠ 0 ∨ fld header 584 576 ≠ 0 ∨ fld header 415 0 ≠ 0 then .next (dropOffer s 3)
  else .next (onOffer s header words readable)

/-! ### The leaf stream (R209) -/

/-- Committed slots of the group at position `p` of an offer with `kv` committed positions. -/
def streamFill (len kv p : Nat) : Nat := if p = (kv - 1) / len then (kv - 1) % len + 1 else len

/-- Send one leaf of the offered signature, cased under the job key, on the data plane (Table 9-2); false when it cannot be read or
cased. `objs` are the objects read from loans, by group position and layer. -/
def sendLeaf (objs : List (Nat × Nat × List Byte)) (s : State) (n p l : Nat) : State × Bool :=
  let e := sigE s n
  let j := e.job.toNat
  match recordOf s n, listAt s n p with
  | some r, some g =>
    let d := leafOf s j g l
    let half := d.column / 512
    let obj := ((objs.find? (fun x => decide (x.1 = p) && decide (x.2.1 = l))).map (fun x => x.2.2)).getD []
    match readLeafFrom s j half d obj with
    | (s, none) => (s, false)
    | (s, some raw) => match caseObject s j (kvStride (imageOf s j)) half raw with
      | (s, none) => (s, false)
      | (s, some o) =>
        let h := shortHeader s 0x12 e.holderEndpoint.toNat n e.ownerEpoch.toNat j 0 p l (streamFill (leafSize s j) (offerKv e r.kind) p)
          raw.length e.clientTag.toNat
        (incF (transmit s (.message 0 r.peer h o)) 0x2066 j, true)
  | _, _ => (s, false)

/-- Groups from the wanted position to LAST_GROUP, layers ascending; GROUPS_SENT counts those whose every leaf was sent. [DESIGN CHOICE: log 112] -/
def streamLeaves (objs : List (Nat × Nat × List Byte)) (s : State) (n from0 : Nat) : State :=
  match recordOf s n with
  | none => s
  | some r =>
    let j := (sigE s n).job.toNat
    let ps := (List.range (r.lastGroup + 1 - from0)).map (fun i => from0 + i)
    ps.foldl (fun s p =>
      let (s, ok) := (layersOf s j).foldl (fun st l =>
        let (s, sent) := sendLeaf objs st.1 n p l
        (s, st.2 && sent)) (s, true)
      if ok then modRecord s n (fun r => { r with groupsSent := r.groupsSent + 1 }) else s) s

/-- A message answers the offer of an entry in HANDOFF_OUT with the epoch offered. -/
def offered (s : State) (h : BitVec 1024) : Option Nat :=
  match shortEntry s h with
  | none => none
  | some n => match recordOf s n with
    | some r => if (sigE s n).state = .handoffOut ∧ r.ownerEpoch = fld h 455 424 then some n else none
    | none => none

/-- ACCEPT (R209). [DESIGN CHOICE: log 112] -/
def execAccept (t : Nat) (call : LeafCall) (s : State) : Outcome State Fault Refusal :=
  .next (recvShort (atTime t s) call.header 0x11 (fun s => match offered s call.header with
    | none => s
    | some n =>
      let from0 := fld call.header 407 384
      streamLeaves call.objs (modRecord s n (fun r => { r with fromGroup := some from0, accepted := true })) n from0))

/-- RESEND (R209). -/
def execResend (t : Nat) (call : LeafCall) (s : State) : Outcome State Fault Refusal :=
  .next (recvShort (atTime t s) call.header 0x17 (fun s => match offered s call.header with
    | none => s
    | some n => (sendLeaf call.objs s n (fld call.header 407 384) (fld call.header 383 376)).1))

/-- A leaf failed its check: asked for again, or beyond its retries the transfer stops (R209). -/
def leafFailed (s : State) (n p l : Nat) (r : HandoffIn) : State :=
  let j := (sigE s n).job.toNat
  let k := ((r.resends.find? (fun x => decide (x.1 = (p, l)))).map (fun x => x.2)).getD 0
  if k < getF s 0x2060 0x04 then
    let rest := r.resends.filter (fun x => !decide (x.1 = (p, l)))
    let s := modIncoming s n (fun r => { r with resends := rest ++ [((p, l), k + 1)] })
    incF (sendShort s r.sender 0x17 n p l 0) 0x2068 j
  else logErr (modIncoming s n (fun r => { r with stopped := true })) 0x39 0 0 (some j) (p * 256 + l) 0

/-- A checked leaf is placed; once every layer of its group is in place the group takes its list position (R209). -/
def placeStreamLeaf (s : State) (n p l fill : Nat) (raw : List Byte) (r : HandoffIn) : State :=
  let j := (sigE s n).job.toNat
  let g := r.groups.getD (p - r.fromGroup) 0
  let d := leafOf s j g l
  let s := incF (storeLeaf s j (d.page, d.scaleAddr) raw) 0x2067 j
  let left := r.wanted.filter (fun w => !decide (w = (p, l)))
  let s := modIncoming s n (fun r => { r with wanted := left })
  let s := if left.any (fun w => decide (w.1 = p)) then s else
    let s := setList (clearEntry s n p) n p (some g)
    modGroup s j g (fun d => { d with fill := fill, lastWriter := n })
  if left = [] then sendConfirm s n else s

/-- LEAF (R209): `object` is the cased leaf. -/
def execLeaf (t : Nat) (header : BitVec 1024) (object : List Byte) (s : State) : Outcome State Fault Refusal :=
  .next (recvShort (atTime t s) header 0x12 (fun s => match shortEntry s header with
    | none => s
    | some n => match incomingOf s n with
      | none => s
      | some r =>
        let p := fld header 407 384
        let l := fld header 383 376
        let j := (sigE s n).job.toNat
        if (sigE s n).state ≠ .handoffIn ∨ r.stopped = true ∨ r.wanted.contains (p, l) = false ∨ (sigE s n).ownerEpoch.toNat ≠ fld header 455 424
        then s
        else
          let half := (leafOf s j (r.groups.getD (p - r.fromGroup) 0) l).column / 512
          match openObject s half object with
          | (s, .error _) => leafFailed s n p l r
          | (s, .ok raw) =>
            if raw.length ≠ payloadBytes (imageOf s j) + scaleBytesOf (imageOf s j) ∨ raw.length ≠ fld header 366 335 then leafFailed s n p l r
            else placeStreamLeaf s n p l (fld header 375 369) raw r))

/-! ### Confirms (R210, R211) -/

/-- CONFIRM (R211). -/
def execConfirm (t : Nat) (header : BitVec 1024) (s : State) : Outcome State Fault Refusal :=
  .next (recvShort (atTime t s) header 0x13 (fun s => match shortEntry s header with
    | none => s
    | some n => match offered s header with
      | none => sendShort s (fld header 503 488) 0x14 n 0 0 0
      | some n =>
        let j := (sigE s n).job.toNat
        let kind := (sigA s n).handoffKind
        let s := incF (dropRecord s n) 0x2061 j
        if (sigA s n).holder ∧ kind ≠ 2 then
          setSigState (modA s n (fun a => { a with probeAtNs := s.now + getF s 0x2060 0x03 * 1000 })) n .away
        else
          let s := if kind = 2 then modJob s j (fun x => { x with bookmark := { x.bookmark with requested := true } }) else s
          freeEntry s n))

/-- The CONFIRM is taken as delivered: the signature may be composed. -/
def confirmDone (s : State) (n : Nat) : State := modA (dropIncoming s n) n (fun a => { a with confirmWaiting := false })

/-- CONFIRM_DELIVERED (R210). -/
def execConfirmDelivered (t sig : Nat) (s : State) : Outcome State Fault Refusal :=
  let s := atTime t s
  .next (if (sigA s sig).confirmWaiting then confirmDone s sig else s)

/-- CONFIRM_UNDELIVERABLE (R213): the receiver probes the sender at once. -/
def execConfirmUndeliverable (t sig : Nat) (s : State) : Outcome State Fault Refusal :=
  let s := atTime t s
  if (sigA s sig).confirmWaiting = false then .next s else
  match incomingOf s sig with
  | none => .next s
  | some r => .next (modA (sendShort s r.sender 0x15 sig 0 0 0) sig (fun a => { a with probeAtNs := s.now + 2000000 }))

/-! ### Leases and claims (R212) -/

/-- A lease ends without a confirm (R212). -/
def leaseExpired (s : State) (sig : Nat) (r : ReleaseRecord) : State :=
  if (sigE s sig).state ≠ .handoffOut then s else
  let back := (sigE s sig).resumeState
  let s := incF (dropRecord s sig) 0x2063 (sigE s sig).job.toNat
  let s := modE s sig (fun e => { e with ownerEpoch := e.ownerEpoch + 1 })
  let s := modA s sig (fun a => { a with resumedAfterLease := true, baseList := a.groups, noOfferPeer := if back = .queued then some r.peer else a.noOfferPeer })
  let s := sendShort s r.peer 0x14 sig 0 0 0
  leaveQueued (enterState s sig back) sig

/-- A CONFIRM that ends the handoff of an entry has arrived by now and waits its turn. [DEDUCED: log 142] -/
def confirmQueued (s : State) (sig : Nat) : Bool :=
  s.pending.any (fun c => match c with
    | .confirm t h => decide (t ≤ s.now) && decide (fld h 511 504 = 0x13) && !(deadSource s (fld h 503 488)) && !(shortBad h)
        && decide (offered s h = some sig)
    | _ => false)

/-- LEASE_EXPIRY (R212). A CONFIRM of the same cycle is taken first (R211). [DEDUCED: log 6] -/
def execLeaseExpiry (t sig : Nat) (s : State) : Outcome State Fault Refusal :=
  let s := atTime t s
  match recordOf s sig with
  | none => .next s
  | some r =>
    .next (if s.now < r.leaseEndNs ∨ confirmQueued s sig = true then s else leaseExpired s sig r)

/-- CLAIM (R212): acts only on an entry of a lower epoch. -/
def execClaim (t : Nat) (header : BitVec 1024) (s : State) : Outcome State Fault Refusal :=
  .next (recvShort (atTime t s) header 0x14 (fun s => match shortEntry s header with
    | none => s
    | some n => if (sigE s n).ownerEpoch.toNat < fld header 455 424 then claimed s n (fld header 503 488) else s))

/-! ### Probes (R213) -/

/-- HANDOFF_PROBE_TIMER (R213). -/
def execHandoffProbeTimer (t sig : Nat) (s : State) : Outcome State Fault Refusal :=
  let s := atTime t s
  let e := sigE s sig
  let a := sigA s sig
  if e.state = .away then
    if a.probeAtNs ≤ s.now then
      .next (modA (sendShort s e.peerEndpoint.toNat 0x15 sig 0 0 0) sig (fun a => { a with probeAtNs := s.now + getF s 0x2060 0x03 * 1000 }))
    else .next s
  else match incomingOf s sig with
    | none => .next s
    | some r =>
      if e.state = .handoffIn ∧ r.probeAtNs ≤ s.now then
        .next (modIncoming (sendShort s r.sender 0x15 sig 0 0 0) sig (fun r => { r with probeAtNs := s.now + 2000000 }))
      else if a.confirmWaiting = true ∧ a.probeAtNs ≠ 0 ∧ a.probeAtNs ≤ s.now then
        .next (modA (sendShort s r.sender 0x15 sig 0 0 0) sig (fun a => { a with probeAtNs := s.now + 2000000 }))
      else .next s

/-- HANDOFF_PROBE (R213): answered with the state and epoch of the entry for the key. -/
def execHandoffProbe (t : Nat) (header : BitVec 1024) (s : State) : Outcome State Fault Refusal :=
  .next (recvShort (atTime t s) header 0x15 (fun s =>
    let (n, epoch, st) := match shortEntry s header with
      | some n => (n, (sigE s n).ownerEpoch.toNat, sigCode (sigE s n).state)
      | none => (0xFFFF, 0, 0)
    transmit s (.message 1 (fld header 503 488)
      (shortHeader s 0x16 (fld header 487 472) n epoch (fld header 423 418) st 0 0 0 0 (fld header 334 271)) [])))

/-- PROBE_REPLY (Table 9-7). -/
def execProbeReply (t : Nat) (header : BitVec 1024) (s : State) : Outcome State Fault Refusal :=
  .next (recvShort (atTime t s) header 0x16 (fun s => match shortEntry s header with
    | none => s
    | some n =>
      let e := sigE s n
      let st := fld header 417 414
      let ep := fld header 455 424
      let src := fld header 503 488
      if e.state = .away then (if st = 0 then rebuild s n else s)
      else if e.state = .handoffIn then
        (if st = 0 ∨ st ≠ 5 ∨ e.ownerEpoch.toNat < ep then claimed s n src else s)
      else if (sigA s n).confirmWaiting then
        (if st = 0 ∨ (st = 4 ∧ ep = e.ownerEpoch.toNat) then confirmDone s n else claimed s n src)
      else s))

/-! ### Moves and dead peers (R206, R214) -/

/-- A write to folio 0x2060.07 is refused (R206, R207). -/
def rebalanceRefused (s : State) (v : Nat) : Bool :=
  let n := nfld v 15 0
  let target := nfld v 31 16
  let j := (sigE s n).job.toNat
  let peers := tget 0 s.dict.jobPeers j
  let listed := [nfld peers 15 0, nfld peers 31 16, nfld peers 47 32, nfld peers 63 48].any (fun p => decide (p = target) && decide (p ≠ 0))
  decide (32768 ≤ n) || !decide ((sigE s n).state = .decoding) || ringJob s j || !listed || !(recordFree s)

/-- REBALANCE, folio 0x2060.07: the target is noted; the offer leaves once no step holds the signature's positions. [DEDUCED: log 58] -/
def rebalanceAction (v : Nat) (s : State) : State :=
  modA s (nfld v 15 0) (fun a => { a with moveTarget := some (nfld v 31 16) })

/-- The holder of an entry is endpoint `e`: on a package that is not the holder PEER_ENDPOINT names it (R200). -/
def heldBy (s : State) (n e : Nat) : Bool := !(sigA s n).holder && decide ((sigE s n).peerEndpoint.toNat = e)

/-- A dead holder's entry becomes FREE without notice (R214). -/
def holderGone (s : State) (n : Nat) : State := dropCopy (incF s 0x206A (sigE s n).job.toNat) n

/-- R214 for one entry. -/
def sigDead (e : Nat) (s : State) (n : Nat) : State :=
  let x := sigE s n
  let sender : Option Nat := (incomingOf s n).map (fun r => r.sender)
  let kind : Option Nat := (incomingOf s n).map (fun r => r.kind)
  if x.state = .handoffIn ∧ sender = some e then
    let s := claimed s n e
    if (sigE s n).state = .away then rebuild s n else s
  else if x.state = .away then (if x.peerEndpoint.toNat = e then rebuild s n else s)
  else if (sigA s n).confirmWaiting ∧ sender = some e then
    if kind = some 0 then holderGone s n else modA (confirmDone s n) n (fun a => { a with holder := true })
  else if heldBy s n e then holderGone s n
  else s

/-- A verdict marks a package of this volume dead: every live entry that names it acts (R214). -/
def handoffsDead (s : State) (e : Nat) : State := (liveSigs s).foldl (sigDead e) s

end Sys2Proof.Machine
end

