-- ==== Sys2Proof/Machine/Bookmark.lean ====
section
/-! DEFINITION. Bookmarks (R395 to R400): the snapshot taken in a boundary phase, the commit at the target, and the placing of
records after a restart or at an adoption. -/

namespace Sys2Proof.Machine

open Host

/-! ### Snapshot (R395, R396) -/

/-- An entry goes into a bookmark of its job. -/
def bookmarked (s : State) (n : Nat) : Bool :=
  let st := (sigE s n).state
  (sigA s n).holder && (sigA s n).superseded.isNone && decide (st ≠ .free) && decide (st ≠ .admitting) && decide (st ≠ .handoffIn)

/-- A record: the entry, then its committed tokens, padded to 64 bytes. -/
def bookRecord (s : State) (n : Nat) : List Byte :=
  let e := sigE s n
  let toks := (sigA s n).tokens.take (e.promptLen.toNat + e.genLen.toNat)
  let b := toBytesLE 128 (entryWord e) ++ toks.flatMap (fun t => toBytesLE 4 (t % 2 ^ 24))
  b ++ List.replicate (roundUp b.length 64 - b.length) 0

/-- The body header of Table 18-3. -/
def bookHeader (s : State) (j records : Nat) : List Byte :=
  toBytesLE 64 (place records 511 480 + place (job s j).step 479 448 + place s.now 447 400 + place (ownEndpoint s) 399 384 + place j 383 378
    + place (imageIdOf s j) 375 344)

/-- The job names a target in folio 0x6410.jj. -/
def hasTarget (s : State) (j : Nat) : Bool := decide (nfld (getF s 0x6410 j) 63 32 ≠ 0)

/-- A bookmark is due (R395). -/
def bookDue (s : State) (j : Nat) : Bool :=
  let b := (job s j).bookmark
  hasTarget s j && (b.requested || decide (max b.lastNs (job s j).runNs + getF s 0x6411 j * 1000000 ≤ s.now))

/-- The generation to write at a target, when it is reachable and not READ_ONLY (R397): the one that does not hold the committed
bookmark (R256). Of another package's store it is what the control plane read there, `seen`. -/
def bookGen (s : State) (target slot : Nat) (seen : Option Nat) : Option Nat :=
  if target = 0 then none
  else if target ≠ ownEndpoint s then seen
  else if flashTakes s then some (match committedGen s slot with
    | some c => 1 - c
    | none => 0)
  else none

/-- Stores of a bookmark begin at a target; none where they cannot. -/
def bookAt (s : State) (j seq records target : Nat) (body : List Byte) (seen : Option Nat) : State × Bool :=
  let slot := nfld (getF s 0x6410 j) 31 16
  match bookGen s target slot seen with
  | none => (s, false)
  | some g => match bookStore s j target (genPage s slot g + 1) (pagesOf body) with
    | (s, none) => (s, false)
    | (s, some tags) =>
      let w : BookmarkWrite := { seq := seq, target := target, slot := slot, gen := g, records := records, body := body, tags := tags,
                                 recordSent := false, failed := false }
      (bookPump (bookStatus (modWrite s j (some w)) j none records 1) j, true)

/-- The body goes to the primary target, or to the alternate where the primary takes none (R397). -/
def sendBook (s : State) (j seq records : Nat) (body : List Byte) (b : BoundaryIn) : State :=
  let t := getF s 0x6410 j
  match bookAt s j seq records (nfld t 63 48) body b.primary with
  | (s, true) => s
  | (s, false) => match bookAt s j seq records (nfld t 47 32) body b.alternate with
    | (s, true) => s
    | (s, false) => bookStatus s j none records 3

/-- The highest SEQ committed in the job's slot at either target (R397): of this package's own store what it holds, of another's what
the control plane read, `seen`. -/
def seqCommitted (s : State) (j seen : Nat) : Nat :=
  let t := getF s 0x6410 j
  let slot := nfld t 31 16
  let at_ (e : Nat) : Nat :=
    if e = 0 then 0
    else if e = ownEndpoint s then ((committedGen s slot).bind (genSeq s slot)).getD 0
    else seen
  max (at_ (nfld t 63 48)) (at_ (nfld t 47 32))

/-- A log entry for a bookmark that is too large (R397); Table 17-3 names no cause for it: the code is free. [DESIGN CHOICE: log 26] -/
def logLarge (s : State) (j : Nat) : State := draw (logErr s (freshOf s % 256) 0 1 (some j) 0 0)

/-- BOOKMARK_SNAPSHOT (R395 to R397): one body of every entry held, cased and written; SEQ rises by 1. [DEDUCED: log 106] -/
def takeBookmark (s : State) (j : Nat) (b : BoundaryIn) : State :=
  if bookDue s j = false then s else
  let ns := (jobSigs s j).filter (bookmarked s)
  let raw := bookHeader s j ns.length ++ ns.flatMap (bookRecord s)
  let seq := ((job s j).bookmark.nextSeq).getD (seqCommitted s j b.seqFound + 1)
  let s := modJob s j (fun x => { x with bookmark := { x.bookmark with
             lastNs := s.now, requested := false, nextSeq := some (seq + 1), taken := x.bookmark.taken ++ [s.now % 2 ^ 48] } })
  match caseObject s j 0 0 raw with
  | (s, none) => bookStatus s j none ns.length 3
  | (s, some body) =>
    if slotPages s / 2 * 4096 < body.length + 4096 then bookStatus (logLarge s j) j none ns.length 4
    else sendBook s j seq ns.length body b

/-- BOOKMARK_NOW, folio 0x6415.jj. -/
def bookmarkNowAction (j : Nat) (s : State) : State := modJob s j (fun x => { x with bookmark := { x.bookmark with requested := true } })

/-- BOOKMARK_COMMIT (R256, R397): the write of the commit record of generation `gen` of a slot of this package's store is confirmed.
A bookmark of this package's own in that generation is committed with it. -/
def execBookmarkCommit (t slot gen : Nat) (s : State) : Outcome State Fault Refusal :=
  let s := bookmarkCommit t slot gen s
  .next ((jobNumbers s).foldl (fun s j => match (job s j).bookmark.writing with
    | some w =>
      if w.target = ownEndpoint s ∧ w.slot = slot ∧ w.gen = gen ∧ w.recordSent = true ∧ genSeq s slot gen = some w.seq then
        bookStatus (modWrite s j none) j (some w.seq) w.records 2
      else s
    | none => s) s)

/-! ### Placing (R398, R399) -/

/-- Records of a body: entry and tokens. -/
def bookRecords : Nat → List Byte → List (SigEntry × List Nat)
  | 0, _ => []
  | n + 1, bs =>
    let e := entryOf (ofBytesLE (bs.take 128))
    let k := e.promptLen.toNat + e.genLen.toNat
    let toks := (List.range k).map (fun i => ofBytesLE ((bs.drop (128 + 4 * i)).take 4) % 2 ^ 24)
    (e, toks) :: bookRecords n (bs.drop (roundUp (128 + 4 * k) 64))

/-- remaining at the snapshot (R398): R35 with now_us the snapshot's. [DEDUCED: log 106] -/
def remainingAt (snapNs : Nat) (e : SigEntry) : Nat :=
  if e.budgetUs.toNat = 0xFFFFFFFF then 0xFFFFFFFF
  else e.budgetUs.toNat - ((snapNs / 1000 + 2 ^ 40 - e.arrivalUs.toNat) % 2 ^ 40)

/-- The entry that a record fills (Table 2-3, R398); `keep` carries budget and arrival as recorded. -/
def replayEntry (s : State) (j snapNs : Nat) (keep : Bool) (e : SigEntry) : SigEntry :=
  let b := remainingAt snapNs e
  { e with holderEndpoint := BitVec.ofNat 16 (ownEndpoint s), stepSeq := 0, prefixLen := 0, estimateUs := 0,
           budgetUs := if keep then e.budgetUs else BitVec.ofNat 32 b,
           arrivalUs := if keep then e.arrivalUs else BitVec.ofNat 40 (nowUs s),
           leavesReserved := 0, leafRoot := BitVec.ofNat 32 nullLeaf, peerEndpoint := 0, ownerEpoch := e.ownerEpoch + 1, endReason := 0,
           job := BitVec.ofNat 6 j, resumeState := .free, state := .free }

/-- A record is not placed: counted in folio 0x6425.jj. -/
def notPlaced (s : State) (j : Nat) : State := incF s 0x6425 j

/-- RECORD_PLACE (R398): FREE to REPLAYING; adopted records are counted. -/
def placeRecord (j snapNs : Nat) (keep adopted : Bool) (s : State) (r : SigEntry × List Nat) : State :=
  if (jobSigs s j).any (fun n => decide ((sigE s n).clientTag = r.1.clientTag))
      ∨ (getF s 0x2020 j ≠ 0 ∧ getF s 0x2020 j ≤ liveCount s j) then notPlaced s j else
  match freeSig s with
  | none => notPlaced s j
  | some n =>
    let s0 := s
    let s := modE (draw s) n (fun _ => replayEntry s j snapNs keep r.1)
    let s := modA s n (fun _ => { SigAux.zero with bornNs := s.now, holder := true })
    let s := placeLog (setSigState s n .replaying) n r.2 r.1.genLen.toNat
    let s := matchSig s n r.2
    match reserve s n (leavesNeeded s n (wholeLen (sigE s n))) false with
    | none => notPlaced { s0 with freeCtr := s.freeCtr } j
    | some s =>
      let s := sendAdmitted (noteEstimate s n) n
      if adopted then incF s 0x6424 j else s

/-- Order of R399: rank, then least remaining, then signature number, which is the order of the records. -/
def recordBefore (snapNs : Nat) (a b : (SigEntry × List Nat) × Nat) : Bool :=
  let ra := rankOf a.1.1
  let rb := rankOf b.1.1
  if ra ≠ rb then decide (rb < ra)
  else
    let x := remainingAt snapNs a.1.1
    let y := remainingAt snapNs b.1.1
    if x ≠ y then decide (x < y) else decide (a.2 ≤ b.2)

/-- An endpoint is in the dead table. -/
def isDead (s : State) (e : Nat) : Bool := s.kettle.dead.any (fun d => decide (d.1 = e))

/-- The adopters of a package still alive, in list order (R399). -/
def adoptersOf (s : State) (j writer : Nat) : List Nat :=
  let v := tget 0 (imageOf s j).adopters writer
  ([nfld v 15 0, nfld v 31 16, nfld v 47 32, nfld v 63 48].filter (fun e => decide (e ≠ 0))).filter (fun e => !(isDead s e))

/-- The records of an adoption that fall to this package. -/
def adopted (s : State) (j writer snapNs : Nat) (l : List (SigEntry × List Nat)) : List (SigEntry × List Nat) :=
  let a := adoptersOf s j writer
  let sorted := (sortBy (recordBefore snapNs) l.zipIdx).map (fun x => x.1)
  match a.findIdx? (fun e => decide (e = ownEndpoint s)) with
  | none => []
  | some p => (sorted.zipIdx.filter (fun x => decide (x.2 % a.length = p))).map (fun x => x.1)

/-- Records of a bookmark body are placed: a restart takes all, an adoption its part. -/
def placeBody (s : State) (j writer : Nat) (raw : List Byte) : State :=
  let h := ofBytesLE (raw.take 64)
  let snapNs := nfld h 447 400
  let l := bookRecords (nfld h 511 480) (raw.drop 64)
  let own := decide (writer = ownEndpoint s)
  let mine := if own then l else adopted s j writer snapNs l
  if nfld h 375 344 ≠ imageIdOf s j then mine.foldl (fun s _ => notPlaced s j) s
  else
    let keep := decide (nfld h 399 384 = ownEndpoint s) && (job s j).bookmark.taken.contains snapNs
    mine.foldl (placeRecord j snapNs keep (!own)) s

/-- The bookmark table entry of a package for a job: its own folio 0x6410.jj, another's as the image gives it (R399). -/
def bookTarget (s : State) (j writer : Nat) : Nat :=
  if writer = ownEndpoint s then getF s 0x6410 j else tget 0 (imageOf s j).bookmarkTargets writer

/-- The committed bookmark of a slot of this package's own store, with its SEQ (R256). -/
def ownBook (s : State) (slot : Nat) : Option (Nat × List Byte) :=
  (committedGen s slot).bind (fun g => (genSeq s slot g).map (fun q => (q, bookmarkBody s slot g)))

/-- The committed bookmark of higher SEQ among a package's targets (R399): this package's own store holds what it holds, and `seen` is what
was read at the others. -/
def bookFound (s : State) (j writer : Nat) (seen : Option (Nat × List Byte)) : Option (List Byte) :=
  let t := bookTarget s j writer
  let targets := [nfld t 63 48, nfld t 47 32].filter (fun e => decide (e ≠ 0))
  let far := if targets.all (fun e => decide (e = ownEndpoint s)) then none else seen
  let near := if targets.contains (ownEndpoint s) then ownBook s (nfld t 31 16) else none
  match near, far with
  | some a, some b => some (if a.1 < b.1 then b.2 else a.2)
  | some a, none => some a.2
  | none, some b => some b.2
  | none, none => none

/-- BOOKMARK_READ_COMPLETE (R394, R399): `seen` is the committed bookmark of higher SEQ of package `writer` for job `jb`, with its SEQ, as read
at targets that are other packages; none when there is none or no such target answered. -/
def execBookmarkReadComplete (t jb writer : Nat) (seen : Option (Nat × List Byte)) (s : State) : Outcome State Fault Refusal :=
  let s := atTime t s
  if s.kettle.adopting.contains (writer, jb) = false then .next s else
  let s := { s with kettle := { s.kettle with adopting := s.kettle.adopting.erase (writer, jb) } }
  if (job s jb).mode ≠ .running then .next s else
  match bookFound s jb writer seen with
  | none => .next s
  | some o => match openObject s 0 o with
    | (s, .error _) => .next s
    | (s, .ok raw) => .next (placeBody s jb writer raw)

end Sys2Proof.Machine
end

