-- ==== Sys2Proof/Machine/Link.lean ====
section
/-! DEFINITION. Links, optics and bypass (chapter 14): the link layer's receive side, replay, credit, probes, training, laser
sources and the bypass switches. -/

namespace Sys2Proof.Machine

open Host

/-! ### Sequence numbers, replay and retraining (R312, R313, R318) -/

/-- SEQ `a` is `x` or later, modulo 2^16. -/
def seqFrom (x a : Nat) : Bool := decide ((a + 65536 - x) % 65536 < 32768)

/-- An ACK arrives: transactions below it leave the replay buffers (R313), and traffic that waited for room goes on. -/
def takeLinkAck (s : State) (l ack : Nat) : State :=
  modLink s l (fun x => { x with replay := x.replay.filter (fun r => seqFrom ack r.seq) })

/-- Transactions resent within the second before a time (R321). -/
def resentSince (x : Link) (now : Nat) : Nat := ((x.resent.filter (fun p => decide (now - p.1 < 1000000000))).map (fun p => p.2)).sum

/-- Transactions resent are counted, and kept with their time for a second (R321). [DEDUCED: log 99] -/
def countReplays (s : State) (l n : Nat) : State :=
  let s := addF s 0x4804 l n
  modLink s l (fun x => { x with resent := x.resent.filter (fun p => decide (s.now - p.1 < 1000000000)) ++ if n = 0 then [] else [(s.now, n)] })

/-- Resend every transaction from SEQ `from0` on, in order (R313). -/
def replayFrom (s : State) (l from0 : Nat) : State :=
  let s := takeLinkAck s l from0
  let items := (linkOf s l).replay
  let s := items.foldl (fun s r => putOnWire s l r.seq r.item r.stomped) s
  let s := if items = [] then s else sendIdle s l
  countReplays s l items.length


/-- ACTIVE enters RETRAIN: SEQ state is kept, and the link stays in its routes (R318, R320). -/
def enterRetrain (s : State) (l : Nat) : State :=
  if (linkOf s l).mode = .active then
    let s := modLink s l (fun x => { x with mode := .retrain, sinceNs := s.now, nakRun := 0, nakOut := false, paramSeen := false })
    sendParam (incF s 0x4806 l) l
  else s

/-! ### Receiving (R310, R312, R314) -/

/-- Receive buffer of a plane is freed again; CREDIT goes out at 16 KiB (R314). -/
def sendCredit (s : State) (l : Nat) : State :=
  let f := (linkOf s l).freed
  let u (i : Nat) : Nat := f.getD i 0 / 256
  let s := sendWord s l 5 (place (u 0) 239 224 + place (u 1) 223 208 + place (u 2) 207 192)
  modLink s l (fun x => { x with freed := [0, 0, 0], freedNs := none })

/-- Buffer freed by a transaction that was passed on. -/
def freeBuffer (s : State) (l plane : Nat) (payload : List Byte) : State :=
  let s := modLink s l (fun x => { x with freed := x.freed.set plane (x.freed.getD plane 0 + creditUnits payload * 256),
                                          freedNs := if x.freedNs.isSome then x.freedNs else some s.now })
  if 16384 ≤ (linkOf s l).freed.getD plane 0 then sendCredit s l else s

/-- A delivered transaction goes to this package, or is forwarded with HOPS raised; at 32 hops, or without a route, a request
is refused with UNREACHABLE (Table 12-8). What comes from a dead package is discarded (R386). [DEDUCED: log 99] -/
def passOn (s : State) (l : Nat) (h : BitVec 256) (payload : List Byte) : State :=
  let h := hSet h 0 63 0
  if deadSource s (hSource h) then incF s 0x6401 0x05
  else if hDest h = ownEndpoint s then emit s (.delivered l h payload)
  else
    let h2 := hSet h (hHops h + 1) 71 64
    let request := decide (hType h ≤ 3) || decide (hType h = 8) || decide (0x40 ≤ hType h)
    if 32 ≤ hHops h2 ∨ (routeLink s (hDest h)).isNone = true then (if request then refuseTx s h 0xC else s)
    else routeOut s (hVn h) h2 payload

/-- A transaction that was being forwarded by cut-through fails its inbound check: the outbound copy, when its link could take
it at once, has left and is made a stomp; the inbound replay forwards it again (R312, Table 14-8). [DEDUCED: log 99] -/
def stompCopy (s : State) (h : BitVec 256) (payload : List Byte) : State :=
  let h2 := hSet (hSet h 0 63 0) (hHops h + 1) 71 64
  if hDest h = ownEndpoint s ∨ 32 ≤ hHops h2 ∨ deadSource s (hSource h) = true then s else
  match routeLink s (hDest h) with
  | some l =>
    let i : LinkItem := { plane := hVn h, header := h2, payload := payload, atNs := s.now }
    if s.link.dark = false ∧ canSend (linkOf s l) i = true ∧ (linkOf s l).egress.all (fun e => decide (e.plane ≠ i.plane)) = true
    then sendIdle (sendItem s l i true) l else s
  | none => s

/-- Something good arrived on the link. -/
def heardGood (s : State) (l : Nat) : State := modLink s l (fun x => { x with lastGoodNs := s.now })

/-- LINK_TRANSACTION_RECEIVE (R310 to R313, R317): a transaction with its link fields, and the check that travelled behind it;
`corrected` symbols were corrected by Reed–Solomon, and `uncorrectable` codewords that it touches could not be. A failed check is a
correctable error of the link, which replay cures. [DEDUCED: log 97; DESIGN CHOICE: log 7] -/
def execLinkTransactionReceive (t link : Nat) (header : BitVec 256) (payload : List Byte) (check : BitVec 32) (corrected : Nat)
    (uncorrectable : Nat) (s : State) : Outcome State Fault Refusal :=
  let s := atTime t s
  let x := linkOf s link
  if linkLive x.mode = false then .next s else
  let s := if x.rsOn then addF s 0x4808 link corrected else s
  let bad := x.rsOn && decide (0 < uncorrectable)
  let s := if bad then addF s 0x4809 link uncorrectable else s
  let hurt := bad || s.err.corruptNext.contains link
  let s := { s with err := { s.err with corruptNext := s.err.corruptNext.erase link } }
  let want := linkCheck header payload
  if fld header 63 48 ≠ x.rxSeq then
    let s := if hurt = false ∧ check = want then heardGood s link else s
    .next (if x.nakOut then s else sendLinkNak s link)
  else if hurt = false ∧ check = want then
    let s := heardGood (takeLinkAck s link (fld header 47 32)) link
    let s := modLink s link (fun x => { x with rxSeq := (x.rxSeq + 1) % 65536, nakOut := false,
                                               ackSinceNs := if x.ackSinceNs.isSome then x.ackSinceNs else some s.now })
    let s := freeBuffer s link (hVn header) payload
    .next (runLinks (passOn s link header payload))
  else if hurt = false ∧ check = ~~~want then
    let s := modLink s link (fun x => { x with rxSeq := (x.rxSeq + 1) % 65536, nakOut := false,
                                               ackSinceNs := if x.ackSinceNs.isSome then x.ackSinceNs else some s.now })
    .next (stompCopy (freeBuffer (incF s 0x4807 link) link (hVn header) payload) header payload)
  else .next (correctable (stompCopy (sendLinkNak (incF s 0x4805 link) link) header payload) (unitLink link))

/-- A control word of a kind arrives in a state that carries it: OWN_CHECK is verified, ACK taken, and `f` acts; traffic that waited
for replay room goes on (R313, R314). -/
def recvWord (s : State) (l : Nat) (w : BitVec 256) (kind : Nat) (ok : LinkMode → Bool) (f : State → State) : State :=
  if ok (linkOf s l).mode = false ∨ fld w 255 248 ≠ 0xF0 ∨ fld w 247 240 ≠ kind then s
  else if (ownCheck w).toNat ≠ fld w 95 64 then incF s 0x4805 l
  else
    let s := f (if linkLive (linkOf s l).mode then heardGood (takeLinkAck s l (fld w 47 32)) l else s)
    if linkLive (linkOf s l).mode then runLink s l else s

/-- IDLE (R314). -/
def execIdle (t link : Nat) (word : BitVec 256) (s : State) : Outcome State Fault Refusal :=
  .next (recvWord (atTime t s) link word 0 linkLive id)

/-- IDLE_TIMER (R314): ACKs pending with no traffic for 100 ns. -/
def execIdleTimer (t link : Nat) (s : State) : Outcome State Fault Refusal :=
  let s := atTime t s
  .next (match (linkOf s link).ackSinceNs with
    | some t0 => if t0 + 100 ≤ s.now ∧ linkLive (linkOf s link).mode = true then sendIdle s link else s
    | none => s)

/-- LINK_NAK (R313): replay from the SEQ named; the eighth NAK in a row for one SEQ retrains the link. -/
def execLinkNak (t link : Nat) (word : BitVec 256) (s : State) : Outcome State Fault Refusal :=
  .next (recvWord (atTime t s) link word 1 linkLive (fun s =>
    let seq := fld word 239 224
    let x := linkOf s link
    let run := if x.nakSeq = seq ∧ 0 < x.nakRun then x.nakRun + 1 else 1
    let s := setLink s link { x with nakSeq := seq, nakRun := run }
    if 8 ≤ run then enterRetrain s link else replayFrom s link seq))

/-- CREDIT (R315). -/
def execCredit (t link : Nat) (word : BitVec 256) (s : State) : Outcome State Fault Refusal :=
  .next (recvWord (atTime t s) link word 5 linkLive (fun s =>
    modLink s link (fun x => { x with credit :=
      [x.credit.getD 0 0 + fld word 239 224, x.credit.getD 1 0 + fld word 223 208, x.credit.getD 2 0 + fld word 207 192] })))

/-- CREDIT_TIMER (R314): 1 µs after any freeing. -/
def execCreditTimer (t link : Nat) (s : State) : Outcome State Fault Refusal :=
  let s := atTime t s
  .next (match (linkOf s link).freedNs with
    | some t0 => if t0 + 1000 ≤ s.now ∧ linkLive (linkOf s link).mode = true then sendCredit s link else s
    | none => s)

/-! ### Probes and link delay (R319, R283) -/

/-- States in which probes run. -/
def probing (m : LinkMode) : Bool := linkLive m || decide (m = .measuring)

/-- LINK_PROBE (R319): answered with ECHO, T2 and T3 the present local time. -/
def execLinkProbe (t link : Nat) (word : BitVec 256) (s : State) : Outcome State Fault Refusal :=
  .next (recvWord (atTime t s) link word 2 probing (fun s =>
    sendWord s link 3 (place (fld word 239 192) 239 192 + place s.now 191 144 + place s.now 143 96)))

/-- A new link delay: routes that leave on the link are recomputed when it moved by more than 20 ns (R283). [DEDUCED: log 99] -/
def newDelay (s : State) (l v : Nat) : State :=
  let used := (linkOf s l).usedNs
  let s := setF s 0x4803 l (v % 2 ^ 32)
  if (linkOf s l).mode = .active ∧ (20 < v - used ∨ 20 < used - v) then
    let path (p : List LinkEdge) : List LinkEdge := match p with
      | x :: r => { x with delayNs := v } :: r
      | [] => []
    let routes := s.fabric.routes.map (fun e =>
      if e.2.link = l then (e.1, { e.2 with delayNs := e.2.delayNs + v - used, path := path e.2.path }) else e)
    modLink { s with fabric := { s.fabric with routes := routes } } l (fun x => { x with usedNs := v })
  else s

/-- ECHO (R319): one sample, in halves of a ns; the delay is the least of the last 16, rounded. [DEDUCED: log 99] -/
def execEcho (t link : Nat) (word : BitVec 256) (s : State) : Outcome State Fault Refusal :=
  .next (recvWord (atTime t s) link word 3 probing (fun s =>
    let d (a b : Nat) : Nat := (a % 2 ^ 48 + 2 ^ 48 - b) % 2 ^ 48
    let twice := d (d s.now (fld word 239 192)) (d (fld word 143 96) (fld word 191 144))
    let l := (twice :: (linkOf s link).samples).take 16
    let s := modLink s link (fun x => { x with samples := l })
    newDelay s link ((l.foldl min twice + 1) / 2)))

/-- LINK_PROBE_TIMER (R319): every 1 ms in UP and ACTIVE, and in MEASURING. -/
def execLinkProbeTimer (t link : Nat) (s : State) : Outcome State Fault Refusal :=
  let s := atTime t s
  let x := linkOf s link
  let due := decide (x.mode = .measuring) || (linkLive x.mode && decide (x.probeNs + 1000000 ≤ s.now))
  .next (if due then sendWord (setLink s link { x with probeNs := s.now }) link 2 (place s.now 239 192) else s)

/-! ### Training (R318) -/

/-- PARAM (R318): in TRAINING it names the peer and decides Reed–Solomon; in RETRAIN the same peer makes the link ACTIVE, with a
replay from the SEQ it names, and another, or one past the limit, sends it to DOWN. Links 0–7 fail while the peer named is fenced logically (R388). [DEDUCED: log 38] -/
def execParam (t link : Nat) (word : BitVec 256) (s : State) : Outcome State Fault Refusal :=
  .next (recvWord (atTime t s) link word 6 (fun m => decide (m = .training) || decide (m = .retrain)) (fun s =>
    let x := linkOf s link
    let e := fld word 239 224
    let pl := fld word 223 216
    let rs := nbit word.toNat 215 || x.rsAsked
    if x.mode = .training ∧ link < 8 ∧ s.kettle.logical.any (fun f => decide (f.1 = e) && decide (s.now < f.2)) = true then failTraining s link 3
    else if x.mode = .training then
      setLink s link { x with peerEndpoint := e, peerLink := pl, rsOn := rs, paramSeen := true }
    else if x.peerEndpoint = e ∧ x.peerLink = pl ∧ s.now ≤ x.sinceNs + getF s 0x4800 0x02 * 1000 then
      replayFrom (setLink s link { x with mode := .active, sinceNs := s.now, lastGoodNs := s.now, paramSeen := true }) link
        (fld word 214 199)
    else enterDown s link))

/-- LIGHT_DETECTED (R318): light falls on both receive lanes; DOWN enters TRAINING. It is remembered while the hold-off or the laser source
keeps the link in DOWN. [DEDUCED: log 165] -/
def execLightDetected (t link : Nat) (s : State) : Outcome State Fault Refusal :=
  .next (tryTrain (modLink (atTime t s) link (fun x => { x with light := true })) link)

/-- TRAINING_COMPLETE (R318): lanes adapted and deskewed, PARAM exchanged. -/
def execTrainingComplete (t link : Nat) (s : State) : Outcome State Fault Refusal :=
  let s := atTime t s
  let x := linkOf s link
  .next (if x.mode = .training ∧ x.paramSeen = true then setLink s link { x with mode := .testing, sinceNs := s.now } else s)

/-- TESTING_COMPLETE (R318): 2 ms of PRBS31 without error. [DEDUCED: log 6] -/
def execTestingComplete (t link : Nat) (s : State) : Outcome State Fault Refusal :=
  let s := atTime t s
  let x := linkOf s link
  .next (if x.mode = .testing ∧ x.sinceNs + 2000000 ≤ s.now then
      setLink s link { x with mode := .measuring, sinceNs := s.now, samples := [], lane := 0 }
    else s)

/-- MEASURING_COMPLETE (R318): 16 samples taken; SEQ starts at 0 both ways, and the link's rise opens a route epoch. -/
def execMeasuringComplete (t link : Nat) (s : State) : Outcome State Fault Refusal :=
  let s := atTime t s
  let x := linkOf s link
  .next (if x.mode = .measuring ∧ 16 ≤ x.samples.length then
      let y := { x with mode := .up, sinceNs := s.now, txSeq := 0, rxSeq := 0, replay := [], credit := [2048, 256, 256],
                        freed := [0, 0, 0], freedNs := none, nakOut := false, nakRun := 0, lastGoodNs := s.now,
                        ackSinceNs := none, probeNs := s.now }
      initStage 7 (noteChange (setLink s link y))
    else s)

/-- States of training. -/
def inTraining (m : LinkMode) : Bool := decide (m = .training) || decide (m = .testing) || decide (m = .measuring)

/-- TRAINING_TIMEOUT (R318): a training step fails, with its cause of folio 0x480A.ll, or exceeds its time. -/
def execTrainingTimeout (t link cause : Nat) (s : State) : Outcome State Fault Refusal :=
  let s := atTime t s
  .next (if inTraining (linkOf s link).mode then failTraining s link cause else s)

/-- LIGHT_LOST (R318): for 10 µs, in UP or ACTIVE. -/
def execLightLost (t link : Nat) (s : State) : Outcome State Fault Refusal :=
  let s := modLink (atTime t s) link (fun x => { x with light := false })
  .next (if linkLive (linkOf s link).mode then enterDown s link else s)

/-- LOSS_OF_LOCK (R318): shorter than 10 µs, in ACTIVE. -/
def execLossOfLock (t link : Nat) (s : State) : Outcome State Fault Refusal := .next (enterRetrain (atTime t s) link)

/-- RETRAIN_TIMEOUT (R318): RETRAIN passed folio 0x4800.02. -/
def execRetrainTimeout (t link : Nat) (s : State) : Outcome State Fault Refusal :=
  let s := atTime t s
  let x := linkOf s link
  .next (if x.mode = .retrain ∧ x.sinceNs + getF s 0x4800 0x02 * 1000 ≤ s.now then enterDown s link else s)

/-- LINK_SILENCE_TIMEOUT (R314): nothing good received for 100 µs. -/
def execLinkSilenceTimeout (t link : Nat) (s : State) : Outcome State Fault Refusal :=
  let s := atTime t s
  let x := linkOf s link
  .next (if linkLive x.mode = true ∧ x.lastGoodNs + 100000 ≤ s.now then enterDown s link else s)

/-- REPLAY_LIMIT (R321): more replays in the second than folio 0x4800.03 allows. The hold-off doubles with each entry within an
hour, and the fourth fences the link. -/
def execReplayLimit (t link : Nat) (s : State) : Outcome State Fault Refusal :=
  let s := atTime t s
  let x := linkOf s link
  if linkLive x.mode = true ∧ getF s 0x4800 0x03 < resentSince x s.now then
    let times := (x.limitNs.filter (fun a => decide (s.now - a ≤ 3600000000000))) ++ [s.now]
    let hold := s.now + getF s 0x4800 0x04 * 1000000 * 2 ^ (times.length - 1)
    let s := setLink s link { x with limitNs := times, holdoffNs := hold }
    .next (if times.length < 4 then enterDown s link else fence s (unitLink link) 4)
  else .next s

/-- HOLDOFF_EXPIRY (R321): training may start again. [DEDUCED: log 165] -/
def execHoldoffExpiry (t link : Nat) (s : State) : Outcome State Fault Refusal :=
  let s := atTime t s
  let x := linkOf s link
  .next (if x.holdoffNs ≤ s.now then tryTrain (setLink s link { x with holdoffNs := 0 }) link else s)

/-- FENCE_HOLD_EXPIRY (R388, R389): folio 0x6400.04 ms in FENCED; a link whose bit [1] was set meanwhile is disabled next. -/
def execFenceHoldExpiry (t link : Nat) (s : State) : Outcome State Fault Refusal :=
  let s := atTime t s
  let x := linkOf s link
  .next (if x.mode = .fenced ∧ x.sinceNs + getF s 0x6400 0x04 * 1000000 ≤ s.now then
      (if nbit (getF s 0x4802 link) 1 then disableLink (enterDown s link) link else tryTrain (enterDown s link) link)
    else s)

/-! ### Laser sources (R309) -/

/-- Folio 0x4820.ee follows the module. -/
def setLaser (s : State) (e : Nat) (x : LaserSource) : State :=
  let s := { s with link := { s.link with lasers := tset LaserSource.zero s.link.lasers e x } }
  setF s 0x4820 e (place (b2n x.present) 31 31 + place (b2n (x.present && x.ready && !x.fault)) 30 30 + place (b2n x.fault) 29 29
    + place x.tempC 23 16)

/-- A link of an engine whose source failed enters DOWN with cause 0x04. -/
def laserDown (s : State) (l : Nat) : State :=
  let m := (linkOf s l).mode
  if m = .disabled ∨ m = .fenced then s
  else trainFail (if m = .down then s else enterDown s l) l 4 (inTraining m)

/-- LASER_SOURCE_FAULT (R309): module `engine` faults, or is removed. -/
def execLaserSourceFault (t engine : Nat) (removed : Bool) (s : State) : Outcome State Fault Refusal :=
  let s := atTime t s
  let x := tget LaserSource.zero s.link.lasers engine
  let s := setLaser s engine { x with present := !removed, ready := false, fault := !removed }
  let s := ((List.range 8).map (fun i => 8 * engine + i)).foldl laserDown s
  .next (logErr s 0x32 0 1 none engine 0)

/-- LASER_SOURCE_READY (R309): the module reports ready and is enabled; those of its links that see light train again. [DEDUCED: log 165] -/
def execLaserSourceReady (t engine tempC : Nat) (s : State) : Outcome State Fault Refusal :=
  let s := setLaser (atTime t s) engine { present := true, ready := true, fault := false, tempC := tempC }
  .next (initStage 6 (((List.range 8).map (fun i => 8 * engine + i)).foldl tryTrain s))

/-! ### Bypass switches (R322 to R324) -/

/-- A switch. -/
def bypassOf (s : State) (n : Nat) : Bypass := tget Bypass.zero s.link.bypass n

/-- Replace a switch; folio 0x4810.nn follows it. -/
def setBypass (s : State) (n : Nat) (b : Bypass) : State :=
  let s := { s with link := { s.link with bypass := tset Bypass.zero s.link.bypass n b } }
  setF s 0x4810 n (place (b2n b.closed) 0 0 + place (b2n (decide (b.move ≠ .still))) 1 1)

/-- Command 0x01, or the opening at the end of start-up self-test. -/
def bypassOpenAction (n : Nat) (s : State) : State :=
  let b := bypassOf s n
  if b.closed ∧ b.move = .still then emit (setBypass s n { b with move := .opening, sinceNs := s.now }) (.bypassPulse n false) else s

/-- Command 0x02: an open switch closes; one that is opening completes its move and then closes (Table 14-8). -/
def bypassCloseAction (n : Nat) (s : State) : State :=
  let b := bypassOf s n
  match b.move with
  | .opening => setBypass s n { b with move := .openingThenClose }
  | .still => if b.closed then s else emit (setBypass s n { b with move := .closing, sinceNs := s.now }) (.bypassPulse n true)
  | _ => s

/-- A reset or the power-fail indication closes every switch that is not closed, a moving one too (R322, Table 14-8). -/
def closeBypasses (s : State) : State :=
  (List.range 4).foldl (fun s n =>
    let b := bypassOf s n
    if b.closed ∧ b.move = .still then s
    else if b.move = .closing then s
    else emit (setBypass s n { b with move := .closing, sinceNs := s.now }) (.bypassPulse n true)) s

/-- The links of a ring whose switch has closed receive no light (R324). -/
def darkRing (s : State) (n : Nat) : State :=
  [2 * n, 2 * n + 1].foldl (fun s l =>
    let s := modLink s l (fun x => { x with light := false })
    let m := (linkOf s l).mode
    if m = .disabled ∨ m = .fenced ∨ m = .down then s else enterDown s l) s

/-- BYPASS_MOVE_COMPLETE (R322): the switch has reached its position. -/
def execBypassMoveComplete (t ring : Nat) (s : State) : Outcome State Fault Refusal :=
  let s := atTime t s
  let b := bypassOf s ring
  .next (match b.move with
    | .still => s
    | .opening => setBypass s ring { b with closed := false, move := .still }
    | .closing => darkRing (setBypass s ring { b with closed := true, move := .still }) ring
    | .openingThenClose => emit (setBypass s ring { b with closed := false, move := .closing, sinceNs := s.now }) (.bypassPulse ring true))

/-! ### The end of start-up self-test (R323, R374) -/

/-- Every quire and column is proved or fenced. -/
def allProved (s : State) : Bool :=
  ((List.range 128).map unitQuire ++ (List.range 1024).map unitColumn).all (fun u => (unitOf s u).proved || fencedU s u)

/-- Once start-up self-test has ended and the role is known, each ring's switch opens as folio 0x4812.nn asks (R323). -/
def startBypasses (s : State) : State :=
  if allProved s = false ∨ s.power.lpddrReady = false then s else
  let s := (List.range 4).foldl (fun s n =>
    if (bypassOf s n).startDone then s else
    let s := setBypass s n { bypassOf s n with startDone := true }
    if getF s 0x4812 n = 1 ∧ roleActive s ≠ 0xFF then bypassOpenAction n s else s) s
  initStage 9 s

/-- UNIT_PROOF_COMPLETE (R374): the proof of a quire or column ends. -/
def execUnitProofComplete (t unit : Nat) (ok : Bool) (checker : Nat) (s : State) : Outcome State Fault Refusal :=
  .next (startBypasses (proveUnit (atTime t s) unit ok checker))

end Sys2Proof.Machine
end

