-- ==== Sys2Proof/Machine/Fp.lean ====
section
/-! DEFINITION. Number formats and FP32 arithmetic (R103 to R108, R113, R162): exact values, rounded once to nearest with
ties to even. -/

namespace Sys2Proof.Machine

/-- The value of a number in one of the formats of Table 5-1: NaN, an infinity, or (−1)^neg × m × 2^e. -/
inductive Num where
  | nan
  | inf (neg : Bool)
  | fin (neg : Bool) (m : Nat) (e : Int)
  deriving DecidableEq, Repr

/-- Integer division by 2^d, rounded to nearest with ties to even. -/
def rneShift (m d : Nat) : Nat :=
  if d = 0 then m else
  let q := m >>> d
  let r := m % 2 ^ d
  let half := 2 ^ (d - 1)
  if r < half then q else if half < r then q + 1 else q + q % 2

/-- m × 2^e rounded to at most p significant bits with the least exponent emin (ties to even): (m', e'). -/
def roundSig (p : Nat) (emin : Int) (m : Nat) (e : Int) : Nat × Int :=
  if m = 0 then (0, emin) else
  let len : Int := (Nat.log2 m : Int) + 1
  let q := max (e + len - p) emin
  if q ≤ e then (m <<< (e - q).toNat, q) else (rneShift m (q - e).toNat, q)

/-- A binary format with sign, exponent and mantissa fields (Table 5-1). -/
structure FpFormat where
  exp : Nat
  man : Nat
  bias : Int
  /-- Largest finite magnitude, as a mantissa and a power of two. -/
  maxM : Nat
  maxE : Int
  /-- The format has infinities. -/
  hasInf : Bool
  deriving DecidableEq, Repr

def fp32Format : FpFormat := ⟨8, 23, 127, 2 ^ 24 - 1, 104, true⟩
def bf16Format : FpFormat := ⟨8, 7, 127, 255, 120, true⟩
def e4m3Format : FpFormat := ⟨4, 3, 7, 14, 5, false⟩
def e5m2Format : FpFormat := ⟨5, 2, 15, 7, 13, true⟩
def e3m2Format : FpFormat := ⟨3, 2, 3, 7, 2, false⟩
def e2m3Format : FpFormat := ⟨2, 3, 1, 15, -1, false⟩
def e2m1Format : FpFormat := ⟨2, 1, 1, 3, 1, false⟩

/-- The element format of a code of Table 5-1 (0x7 and 0xD are integers and have none). -/
def fpFormat : Nat → Option FpFormat
  | 0x0 => some fp32Format
  | 0x1 => some bf16Format
  | 0x2 => some e4m3Format
  | 0x3 => some e5m2Format
  | 0x4 => some e3m2Format
  | 0x5 => some e2m3Format
  | 0x6 => some e2m1Format
  | 0x8 => some e4m3Format
  | 0x9 => some e5m2Format
  | 0xA => some e3m2Format
  | 0xB => some e2m3Format
  | 0xC => some e2m1Format
  | 0xE => some e2m1Format
  | _ => none

/-- Bits of one element of a format code (Table 5-1). -/
def fmtBits : Nat → Nat
  | 0x0 => 32
  | 0x1 => 16
  | 0x4 => 6
  | 0x5 => 6
  | 0x6 => 4
  | 0xA => 6
  | 0xB => 6
  | 0xC => 4
  | 0xE => 4
  | _ => 8

/-- Scale bytes that follow each 32-element block of a format code (R104, R105, R143). -/
def fmtScaleBytes (f : Nat) : Nat := if f = 0xE then 2 else if 0x8 ≤ f ∧ f ≤ 0xD then 1 else 0

/-- The format is one of the scaled formats 0x8 to 0xE. -/
def fmtScaled (f : Nat) : Bool := decide (0x8 ≤ f) && decide (f ≤ 0xE)

/-- Decode a floating-point element (Table 5-1, R106). NaN encodings: exponent all ones with a non-zero mantissa where the
format has infinities, S.1111.111 in E4M3, none in the narrower formats. -/
def fpDecode (f : FpFormat) (x : Nat) : Num :=
  let s := x.testBit (f.exp + f.man)
  let e := nfld x (f.exp + f.man - 1) f.man
  let m := x % 2 ^ f.man
  let allOnes := 2 ^ f.exp - 1
  if f.hasInf = true ∧ e = allOnes then (if m = 0 then .inf s else .nan)
  else if f.exp = 4 ∧ f.man = 3 ∧ e = allOnes ∧ m = 7 then .nan
  else if e = 0 then .fin s m (1 - f.bias - f.man)
  else .fin s (2 ^ f.man + m) ((e : Int) - f.bias - f.man)

/-- The signed 8-bit integer of a byte. -/
def int8 (x : Nat) : Int := if x % 256 < 128 then ((x % 256 : Nat) : Int) else ((x % 256 : Nat) : Int) - 256

/-- The number of an integer times 2^e. -/
def numOfInt (i : Int) (e : Int) : Num := .fin (decide (i < 0)) i.natAbs e

/-- The value of an element of format code `f` before its block scale (R103 to R105). -/
def elemDecode (f : Nat) (x : Nat) : Num :=
  match fpFormat f with
  | some g => fpDecode g x
  | none => if f = 0xD then numOfInt (int8 x) (-6) else numOfInt (int8 x) 0

/-- The encoding of a finite value after rounding: sign, mantissa and exponent fields. -/
def fpPack (f : FpFormat) (neg : Bool) (m : Nat) (e : Int) : Nat :=
  let s := b2n neg <<< (f.exp + f.man)
  if m < 2 ^ f.man then s + m
  else
    let sh := Nat.log2 m - f.man
    let m1 := m >>> sh
    let e1 := e + sh + f.man + f.bias
    s + (e1.toNat <<< f.man) + (m1 - 2 ^ f.man)

/-- m × 2^e exceeds M × 2^E. -/
def magGt (m : Nat) (e : Int) (M : Nat) (E : Int) : Bool :=
  let b := min e E
  decide (M <<< (E - b).toNat < m <<< (e - b).toNat)

/-- Convert a value to a floating-point format by R107 and Table 5-2. A result of zero in the formats without special
values is +0 (Table 5-2). -/
def fpEncode (f : FpFormat) (v : Num) : Nat :=
  let s (neg : Bool) : Nat := b2n neg <<< (f.exp + f.man)
  let infBits : Nat := (2 ^ f.exp - 1) <<< f.man
  let maxBits (neg : Bool) : Nat := fpPack f neg f.maxM f.maxE
  let narrow := decide (f.exp < 4)
  match v with
  | .nan =>
    if f.man = 23 ∨ f.man = 7 then infBits + 2 ^ (f.man - 1) else if narrow then 0 else 0x7F
  | .inf neg => if f.hasInf then s neg + infBits else if narrow then maxBits neg else 0x7F
  | .fin neg m e =>
    let r := roundSig (f.man + 1) (1 - f.bias - f.man) m e
    if r.1 = 0 then (if narrow then 0 else s neg)
    else if magGt r.1 r.2 f.maxM f.maxE then (if f.man = 23 ∨ f.man = 7 then s neg + infBits else maxBits neg)
    else fpPack f neg r.1 r.2

/-- Nearest integer to (−1)^neg × m × 2^e, ties to even. -/
def roundInt (neg : Bool) (m : Nat) (e : Int) : Int :=
  let a : Nat := if 0 ≤ e then m <<< e.toNat else rneShift m (-e).toNat
  if neg then -(a : Int) else (a : Int)

/-- An integer clamped to a range. -/
def clampInt (lo hi x : Int) : Int := if x < lo then lo else if hi < x then hi else x

/-- Convert to INT8 by R107: nearest, ties to even, saturating; NaN gives 0. -/
def int8Encode : Num → Nat
  | .nan => 0
  | .inf neg => if neg then 128 else 127
  | .fin neg m e => (clampInt (-128) 127 (roundInt neg m e) % 256).toNat

/-- The value times 2^k. -/
def numScale (v : Num) (k : Int) : Num := match v with
  | .fin neg m e => .fin neg m (e + k)
  | x => x

/-- Encode a value as an element of format code `f` before scaling (R107; MXINT8 elements have weight 2^−6). -/
def elemEncode (f : Nat) (v : Num) : Nat :=
  match fpFormat f with
  | some g => fpEncode g v
  | none => if f = 0xD then int8Encode (numScale v 6) else int8Encode v

/-- A conversion that turned NaN into +0, counted in folio 0x3013.qq (Table 5-2). -/
def nanToZero (f : Nat) (v : Num) : Bool :=
  decide (v = .nan) && (decide (f = 0x4) || decide (f = 0x5) || decide (f = 0x6) || decide (f = 0x7))

/-- Decode an FP32 word. -/
def f32 (x : Word32) : Num := fpDecode fp32Format x.toNat

/-- Round a value to FP32 (R107). -/
def toF32 (v : Num) : Word32 := BitVec.ofNat 32 (fpEncode fp32Format v)

/-- The canonical FP32 NaN (R162). -/
def f32NaN : Word32 := 0x7FC00000#32
def f32PosInf : Word32 := 0x7F800000#32
def f32NegInf : Word32 := 0xFF800000#32
def f32Zero : Word32 := 0#32
def f32One : Word32 := 0x3F800000#32

/-- Signed integer of a finite value brought to the exponent `b`, at or below its own. -/
def alignedInt (neg : Bool) (m : Nat) (e b : Int) : Int :=
  let a : Int := ((m <<< (e - b).toNat : Nat) : Int)
  if neg then -a else a

/-- Exact sum of two values; a zero sum of opposite signs is +0, of two minus zeros is −0. -/
def numAdd : Num → Num → Num
  | .nan, _ => .nan
  | _, .nan => .nan
  | .inf a, .inf b => if a = b then .inf a else .nan
  | .inf a, _ => .inf a
  | _, .inf b => .inf b
  | .fin n1 m1 e1, .fin n2 m2 e2 =>
    let b := min e1 e2
    let t := alignedInt n1 m1 e1 b + alignedInt n2 m2 e2 b
    if t = 0 then .fin (n1 && n2 && decide (m1 = 0) && decide (m2 = 0)) 0 b
    else .fin (decide (t < 0)) t.natAbs b

/-- Exact product. -/
def numMul : Num → Num → Num
  | .nan, _ => .nan
  | _, .nan => .nan
  | .inf a, .inf b => .inf (a != b)
  | .inf a, .fin b m _ => if m = 0 then .nan else .inf (a != b)
  | .fin a m _, .inf b => if m = 0 then .nan else .inf (a != b)
  | .fin a m1 e1, .fin b m2 e2 => .fin (a != b) (m1 * m2) (e1 + e2)

/-- The negated value. -/
def numNeg : Num → Num
  | .nan => .nan
  | .inf a => .inf (!a)
  | .fin a m e => .fin (!a) m e

/-- FP32 addition, rounded to nearest, ties to even (R113, R162). -/
def fadd32 (a b : Word32) : Word32 := toF32 (numAdd (f32 a) (f32 b))
/-- FP32 subtraction (R162). -/
def fsub32 (a b : Word32) : Word32 := toF32 (numAdd (f32 a) (numNeg (f32 b)))
/-- FP32 multiplication (R162). -/
def fmul32 (a b : Word32) : Word32 := toF32 (numMul (f32 a) (f32 b))

/-- The quotient of two positive mantissas to far more bits than any format keeps, the last bit sticky. -/
def divMag (m1 : Nat) (e1 : Int) (m2 : Nat) (e2 : Int) : Nat × Int :=
  let k := 64 + Nat.log2 m2 + 1
  let n := m1 <<< k
  (2 * (n / m2) + (if n % m2 = 0 then 0 else 1), e1 - e2 - k - 1)

/-- Exact quotient up to a sticky bit (IEEE 754 special cases). -/
def numDiv : Num → Num → Num
  | .nan, _ => .nan
  | _, .nan => .nan
  | .inf _, .inf _ => .nan
  | .inf a, .fin b _ _ => .inf (a != b)
  | .fin a _ _, .inf b => .fin (a != b) 0 0
  | .fin a m1 e1, .fin b m2 e2 =>
    if m2 = 0 then (if m1 = 0 then .nan else .inf (a != b))
    else let r := divMag m1 e1 m2 e2; .fin (a != b) r.1 r.2

/-- FP32 division (R95 divides by the temperature). -/
def fdiv32 (a b : Word32) : Word32 := toF32 (numDiv (f32 a) (f32 b))

/-- recip32 (R162): the FP32 value nearest 1 ÷ x. -/
def recip32 (a : Word32) : Word32 := toF32 (numDiv (.fin false 1 0) (f32 a))

/-- rsqrt32 (R162): the FP32 value nearest 1 ÷ √x. [DEDUCED: log 14] -/
def rsqrt32 (a : Word32) : Word32 :=
  match f32 a with
  | .nan => f32NaN
  | .inf neg => if neg then f32NaN else f32Zero
  | .fin neg m e =>
    if m = 0 then (if neg then Config.rsqrtNegZero else f32PosInf)
    else if neg then f32NaN
    else
      let m1 := if e % 2 = 0 then m else 2 * m
      let e1 := if e % 2 = 0 then e else e - 1
      let n := 2 ^ 240 / m1
      let q := Nat.sqrt n
      let sticky := if q * q * m1 = 2 ^ 240 then 0 else 1
      toF32 (.fin false (2 * q + sticky) (-(e1 / 2) - 121))

/-- Fraction bits of the fixed-point evaluations below: far beyond the hardest rounding case of FP32. -/
def fxBits : Nat := 640

/-- The Taylor sum of e^x for a fixed-point 0 ≤ x < 2^−8, 80 terms. -/
def expTaylor (x : Nat) : Nat :=
  (List.range 80).foldl (fun (p : Nat × Nat) n => (((p.1 * x) >>> fxBits) / (n + 1), p.2 + p.1)) (2 ^ fxBits, 0) |>.2

/-- Square a fixed-point number k times. -/
def fxSquares : Nat → Nat → Nat
  | 0, y => y
  | k + 1, y => fxSquares k ((y * y) >>> fxBits)

/-- e^(m × 2^e) in fixed point, for arguments below 2^8. [DEDUCED: log 119] -/
def fxExp (m : Nat) (e : Int) : Nat :=
  let x := if 0 ≤ e + fxBits - 16 then m <<< (e + fxBits - 16).toNat else m >>> (-(e + fxBits - 16)).toNat
  fxSquares 16 (expTaylor x)

/-- exp32 (R95, R162): the FP32 value nearest e^x. [DEDUCED: log 119] -/
def exp32 (a : Word32) : Word32 :=
  match f32 a with
  | .nan => f32NaN
  | .inf neg => if neg then f32Zero else f32PosInf
  | .fin neg m e =>
    if m = 0 then f32One
    else if magGt m e 128 0 then (if neg then f32Zero else f32PosInf)
    else
      let y := fxExp m e
      if neg then let r := divMag 1 0 y (-(fxBits : Int)); toF32 (.fin false (2 * r.1 + 1) (r.2 - 1))
      else toF32 (.fin false (2 * y + 1) (-(fxBits : Int) - 1))

/-- arctan(1 ÷ n) in fixed point with `b` fraction bits. -/
def fxAtanInv (b n : Nat) : Int :=
  ((List.range (b / 2)).foldl (fun (p : Nat × Int) k =>
    let t : Int := ((p.1 / (2 * k + 1) : Nat) : Int)
    (p.1 / (n * n), if k % 2 = 0 then p.2 + t else p.2 - t)) (2 ^ b / n, (0 : Int))).2

/-- π in fixed point with `b` fraction bits (Machin's formula). -/
def fxPi (b : Nat) : Int := 4 * (4 * fxAtanInv b 5 - fxAtanInv b 239)

/-- sin and cos of a fixed-point angle of magnitude below 1 by their Taylor sums. [DEDUCED: log 119] -/
def fxSinCos (x : Int) : Int × Int :=
  let one : Int := 2 ^ fxBits
  let step (p : Int × Int × Int) (n : Nat) : Int × Int × Int :=
    -- p = (xⁿ ÷ n!, sin so far, cos so far)
    let t := p.1
    let s := if n % 4 = 1 then p.2.1 + t else if n % 4 = 3 then p.2.1 - t else p.2.1
    let c := if n % 4 = 0 then p.2.2 + t else if n % 4 = 2 then p.2.2 - t else p.2.2
    ((t * x / one) / (n + 1), s, c)
  let r := (List.range 160).foldl step (one, 0, 0)
  (r.2.1, r.2.2)

/-- The angle m × 2^e (made signed) reduced to a quadrant count and a remainder in fixed point. -/
def fxReduce (neg : Bool) (m : Nat) (e : Int) : Int × Int :=
  let b := fxBits + 160
  let x : Int := if 0 ≤ e + b then ((m <<< (e + b).toNat : Nat) : Int) else ((m >>> (-(e + b)).toNat : Nat) : Int)
  let x := if neg then -x else x
  let halfPi := fxPi b / 2
  let k := (2 * x + halfPi) / (2 * halfPi)
  (k, (x - k * halfPi) / 2 ^ 160)

/-- A fixed-point result that is not exact, as a value with a sticky bit. -/
def fxNum (x : Int) : Num := .fin (decide (x < 0)) (2 * x.natAbs + 1) (-(fxBits : Int) - 1)

/-- sin32 (R162): the FP32 value nearest sin x. [DEDUCED: log 14, 119] -/
def sin32 (a : Word32) : Word32 :=
  match f32 a with
  | .nan => f32NaN
  | .inf _ => f32NaN
  | .fin neg m e =>
    if m = 0 then (if neg = true ∧ Config.sinNegZeroIsNeg = true then 0x80000000#32 else f32Zero)
    else
      let r := fxReduce neg m e
      let sc := fxSinCos r.2
      toF32 (fxNum (match r.1 % 4 with | 0 => sc.1 | 1 => sc.2 | 2 => -sc.1 | _ => -sc.2))

/-- cos32 (R162): the FP32 value nearest cos x. [DEDUCED: log 119] -/
def cos32 (a : Word32) : Word32 :=
  match f32 a with
  | .nan => f32NaN
  | .inf _ => f32NaN
  | .fin neg m e =>
    if m = 0 then f32One
    else
      let r := fxReduce neg m e
      let sc := fxSinCos r.2
      toF32 (fxNum (match r.1 % 4 with | 0 => sc.2 | 1 => -sc.1 | 2 => -sc.2 | _ => sc.1))

/-- The order of two values that are not NaN: the first is less. -/
def numLt : Num → Num → Bool
  | .nan, _ => false
  | _, .nan => false
  | .inf a, .inf b => a && !b
  | .inf a, _ => a
  | _, .inf b => !b
  | .fin n1 m1 e1, .fin n2 m2 e2 =>
    let b := min e1 e2
    decide (alignedInt n1 m1 e1 b < alignedInt n2 m2 e2 b)

/-- FP32 less-than (false when either is NaN). -/
def flt32 (a b : Word32) : Bool := numLt (f32 a) (f32 b)

/-- The word is NaN. -/
def fIsNaN (a : Word32) : Bool := decide (f32 a = .nan)

/-- max (R162): NaN when either input is NaN; +0 for +0 and −0. -/
def fmax32 (a b : Word32) : Word32 :=
  if fIsNaN a || fIsNaN b then f32NaN
  else if flt32 a b then b
  else if flt32 b a then a
  else if a = b then a else f32Zero

/-- min (Table 7-5): its results for NaN and for zeros of different sign are open. [DEDUCED: log 14] -/
def fmin32 (a b : Word32) : Word32 :=
  if fIsNaN a || fIsNaN b then Config.minOpen a b
  else if flt32 a b then a
  else if flt32 b a then b
  else if a = b then a else Config.minOpen a b

/-- FP32 rounded to BF16 by R107, as 16 bits. -/
def toBf16 (a : Word32) : Nat := fpEncode bf16Format (f32 a)

/-- BF16 widened exactly to FP32. -/
def ofBf16 (x : Nat) : Word32 := if x % 2 ^ 16 > 0x7F80 ∧ x % 2 ^ 16 < 0x8000 ∨ x % 2 ^ 16 > 0xFF80 then f32NaN else BitVec.ofNat 32 ((x % 2 ^ 16) <<< 16)

/-- The largest power of two below n, for n ≥ 2 (the split of R113). -/
def treeSplit (n : Nat) : Nat := 2 ^ Nat.log2 (n - 1)

/-- tree of R113 over a list of values, with as much fuel as the list is long. -/
def treeFuel : Nat → List Word32 → Word32
  | _, [] => f32Zero
  | _, [v] => v
  | 0, v :: _ => v
  | n + 1, v =>
    let h := treeSplit v.length
    fadd32 (treeFuel n (v.take h)) (treeFuel n (v.drop h))

/-- The FP32 sum of a list in the order of R113; an empty sum is +0. -/
def tree32 (v : List Word32) : Word32 := treeFuel v.length v

/-- floor(log2) of a positive finite magnitude m × 2^e. -/
def numLog2 (m : Nat) (e : Int) : Int := (Nat.log2 m : Int) + e

/-- Magnitude of a value as (m, e); infinity is none. -/
def numMag : Num → Option (Nat × Int)
  | .fin _ m e => some (m, e)
  | _ => none

/-- The largest finite exponent emax of an element format (R108). -/
def fmtEmax : Nat → Int
  | 0x8 => 8
  | 0x9 => 15
  | 0xA => 4
  | 0xB => 2
  | 0xC => 2
  | 0xE => 2
  | _ => 0

/-- floor(log2) of the largest magnitude of a list of values: none when all are zero; `some none` when one is infinite. -/
def maxLog2 (vs : List Num) : Option (Option Int) :=
  vs.foldl (fun acc v => match v with
    | .nan => acc
    | .inf _ => some none
    | .fin _ m e => if m = 0 then acc else match acc with
        | none => some (some (numLog2 m e))
        | some none => some none
        | some (some l) => some (some (max l (numLog2 m e)))) none

/-- Block scale and the four sub-block steps chosen by R108 for a block of results. R108 gives a sub-block no step where
the block holds NaN or the sub-block an infinity: a free value of the part. [DEDUCED: log 15] -/
def chooseScale (f : Nat) (vs : List Num) : Nat × List Nat :=
  if vs.any (fun v => decide (v = .nan)) then
    (0xFF, [0, 1, 2, 3].map (fun j =>
      let sub := (vs.drop (8 * j)).take 8
      if maxLog2 sub = none ∧ sub.contains .nan = false then 0 else Config.zf4OpenStep j % 4)) else
  match maxLog2 vs with
  | none => (127, [0, 0, 0, 0])
  | some none => (254, [0, 1, 2, 3].map (fun j => match maxLog2 ((vs.drop (8 * j)).take 8) with
      | some (some _) => 3
      | some none => Config.zf4OpenStep j % 4
      | none => 0))
  | some (some l) =>
    ((clampInt 0 254 (l - fmtEmax f + 127)).toNat,
     [0, 1, 2, 3].map (fun j => match maxLog2 ((vs.drop (8 * j)).take 8) with
      | some (some a) => (min 3 (l - a)).toNat
      | _ => 0))

/-- An infinite result in a block format as R108 has it: a finite value so large that its element saturates, after any block scale. [DESIGN CHOICE: log 136] -/
def satInf (f : Nat) (v : Num) : Num := match v with
  | .inf neg => if fmtScaled f then .fin neg 1 1024 else .inf neg
  | x => x

/-- The element encodings of one block of 32 results in a scaled format, with the scale byte and the steps (R108). [DEDUCED: log 15] -/
def blockEncode (f : Nat) (vs : List Num) : List Nat × Nat × List Nat :=
  let sc := chooseScale f vs
  let el := vs.mapIdx (fun n v =>
    let k : Nat := if f = 0xE then (sc.2.getD (n / 8) 0) else 0
    elemEncode f (numScale (satInf f v) (127 - (sc.1 : Int) + k)))
  (el, sc.1, sc.2)

/-- The scale bytes of a block: the E8M0 scale, and for ZF4 the byte of steps with sub-block 0 in bits [1:0] (R55). -/
def scaleBytes (f : Nat) (x : Nat) (k : List Nat) : List Byte :=
  if f = 0xE then [BitVec.ofNat 8 x, BitVec.ofNat 8 (k.getD 0 0 + 4 * k.getD 1 0 + 16 * k.getD 2 0 + 64 * k.getD 3 0)]
  else if fmtScaleBytes f = 1 then [BitVec.ofNat 8 x] else []

/-- The value of element `n` of a block with scale byte `x` and step byte `st` (R104, R105). -/
def blockElem (f : Nat) (bits n x st : Nat) : Num :=
  if fmtScaled f then
    if x = 0xFF then .nan
    else numScale (elemDecode f bits) ((x : Int) - 127 - (if f = 0xE then ((nfld st (2 * (n / 8) + 1) (2 * (n / 8)) : Nat) : Int) else 0))
  else elemDecode f bits

end Sys2Proof.Machine
end

