-- ==== Sys2Proof/Machine/Swap.lean ====
section
/-! DEFINITION. Swaps to host memory (R75 to R78). -/

namespace Sys2Proof.Machine

open Host

/-- A private group in stacked DRAM is held by a step that has not yet been read by the control plane. -/
def stepHolds (s : State) (n : Nat) : Bool := (stepSigs s (sigE s n).job.toNat).contains n

/-- Places of `k` groups in a swap region, as offsets; which ones is the part's choice. -/
def placeSwap (s : State) (size n : Nat) : Nat → List (Nat × Nat) → Option (List Nat)
  | 0, _ => some []
  | k + 1, used => match placeRange s 0 size n n used with
    | none => none
    | some p => match placeSwap s size n k (used ++ [(p, n)]) with
      | none => none
      | some l => some (p :: l)

/-- The leaves of a group leave for the swap region, each cased under the job key, from an offset on (R75). -/
def swapLeaves (s : State) (j g base : Nat) : List Nat → State
  | [] => s
  | l :: r =>
    let d := leafOf s j g l
    let s := match caseObject s j (kvStride (imageOf s j)) (d.column / 512) (leafBytes s j d) with
      | (s, some o) => writeBytes (emit s (.hostWrite base o)) base o
      | (s, none) => s
    swapLeaves s j g (base + objectBytes (imageOf s j)) r

/-- The groups of a victim are read and written. -/
def swapGroups (s : State) (n region : Nat) : List ((Nat × Nat) × Nat) → State
  | [] => s
  | ((p, g), off) :: r =>
    let j := (sigE s n).job.toNat
    let s := modGroup s j g (fun d => { d with moving := true })
    let s := swapLeaves s j g (0x800000000000 + region * 2 ^ 40 + off) (layersOf s j)
    let s := modJob s j (fun x => { x with swapped := x.swapped ++ [(n, p, off, swapGroupBytes s j)] })
    swapGroups s n region r

/-- The written groups of a signature are freed. -/
def freeSwapped (s : State) (n : Nat) : State :=
  let j := (sigE s n).job.toNat
  ((job s j).swapped.filter (fun o => decide (o.1 = n))).foldl (fun s o => match listAt s n o.2.1 with
    | some g => clearEntry (modGroup s j g (fun d => { d with moving := false })) n o.2.1
    | none => s) s

/-- Host memory holds the last leaf (Table 2-3): SWAPPING_OUT enters PREEMPTED, or drains when a cancel or its lifetime asked for it. A
signature without private groups has none to write. -/
def swapWritten (s : State) (n : Nat) : State :=
  let s := freeSwapped s n
  match (sigA s n).drainAfterSwap with
  | some reason => drain (modA s n (fun a => { a with drainAfterSwap := none })) n reason
  | none => enterState s n .preempted

/-- SWAP_OUT_BEGIN (R75): the steps that held the victim's positions have ended; its private groups are written. [DEDUCED: log 91] -/
def execSwapOutBegin (t sig : Nat) (s : State) : Outcome State Fault Refusal :=
  let s := atTime t s
  let j := (sigE s sig).job.toNat
  let begun := (job s j).swapped.any (fun o => decide (o.1 = sig))
  if (sigE s sig).state ≠ .swappingOut ∨ stepHolds s sig = true ∨ begun = true then .next s else
  let gs := privateGroups s sig
  if gs = [] then .next (swapWritten s sig) else
  match swapRegion s j with
  | none => .next s
  | some r => match placeSwap s (swapSize s j) (swapGroupBytes s j) gs.length ((job s j).swapped.map (fun o => (o.2.2.1, o.2.2.2))) with
    | none => .next s
    | some offs => .next (swapGroups (draw s) sig r (gs.zip offs))

/-- SWAP_OUT_CONFIRMED (R75): host memory confirmed the last write. [DEDUCED: log 56] -/
def execSwapOutConfirmed (t sig : Nat) (s : State) : Outcome State Fault Refusal :=
  let s := atTime t s
  let j := (sigE s sig).job.toNat
  let begun := (job s j).swapped.any (fun o => decide (o.1 = sig))
  .next (if (sigE s sig).state ≠ .swappingOut ∨ begun = false then s else swapWritten s sig)

/-! ### Swap-in (R76, R77) -/

/-- Groups for the positions of a swapped signature, in order; none when one cannot be had. -/
def takeFor (s : State) (j n anchor : Nat) : List Nat → Option (State × List Nat)
  | [] => some (s, [])
  | p :: r => match takeGroup s j n (eligible s j anchor p) with
    | none => none
    | some (s, g) => match takeFor (modGroup s j g (fun d => { d with moving := true })) j n anchor r with
      | none => none
      | some (s, l) => some (s, g :: l)

/-- Group positions of a signature in the swap region, ascending. -/
def swappedAt (s : State) (n : Nat) : List Nat :=
  ((job s (sigE s n).job.toNat).swapped.filter (fun o => decide (o.1 = n))).map (fun o => o.2.1)

/-- The objects of one swapped group are asked of host memory. -/
def readSwapped (s : State) (n p : Nat) : State :=
  let j := (sigE s n).job.toNat
  match swapRegion s j, (job s j).swapped.find? (fun o => decide (o.1 = n) && decide (o.2.1 = p)) with
  | some r, some o => emit s (.hostRead (0x800000000000 + r * 2 ^ 40 + o.2.2.1) o.2.2.2)
  | _, _ => s

/-- SWAP_IN_START (R76): one PREEMPTED signature of the job resumes when its groups and the headroom are free; groups owed to
signatures that stalled stay for them (R74). [DEDUCED: log 91] -/
def startSwapIn (s : State) (j : Nat) : State :=
  let s := noteSlacks s (jobSigsIn s j .preempted)
  match (sortBy (composeBefore s) (jobSigsIn s j .preempted)).head? with
  | none => s
  | some n =>
    let ps := swappedAt s n
    if groupsFree s j < ps.length + getF s 0x2410 0x01 + (owedSigs s j).length then s else
    match takeFor s j n ((anchorOf s j (sigA s n).groups).getD (chooseAnchor s j)) ps with
    | none => s
    | some (s, gs) =>
      let s := setSigState s n .swappingIn
      let s := modA s n (fun a => { a with swapLeft := ps, swapRetries := 0, handoffGroups := gs, owedBy := none })
      match ps with
      | p :: _ => readSwapped s n p
      | [] => enterState s n .decoding

/-- Open the objects of a group, layer by layer. -/
def openAll (s : State) (j half : Nat) : List (List Byte) → State × Option (List (List Byte))
  | [] => (s, some [])
  | o :: r => match openObject s half o with
    | (s, .error _) => (s, none)
    | (s, .ok raw) =>
      if raw.length ≠ payloadBytes (imageOf s j) + scaleBytesOf (imageOf s j) then (s, none)
      else match openAll s j half r with
        | (s, some l) => (s, some (raw :: l))
        | (s, none) => (s, none)

/-- A swap-in group takes its place in the list. -/
def placeSwapped (s : State) (n p g : Nat) (raws : List (List Byte)) : State :=
  let j := (sigE s n).job.toNat
  let s := ((layersOf s j).zip raws).foldl (fun s x =>
    let d := leafOf s j g x.1
    storeLeaf s j (d.page, d.scaleAddr) x.2) s
  let len := leafSize s j
  let kv := (sigA s n).kv
  let s := modGroup s j g (fun d => { d with fill := min len (kv - p * len), lastWriter := n, moving := false })
  setList s n p (some g)

/-- The next group is read, or the last has been checked and the signature decodes again. -/
def swapNext (s : State) (n : Nat) : State :=
  match (sigA s n).swapLeft with
  | p :: _ => readSwapped s n p
  | [] =>
    let s := dropSwapped s n
    match (sigA s n).drainAfterSwap with
    | some reason => drain (modA s n (fun a => { a with drainAfterSwap := none })) n reason
    | none => enterState s n .decoding

/-- SWAP_IN_GROUP_READ (R76, R77): `objects` are the leaves of the group, layer 0 first, as this read gave them. -/
def execSwapInGroupRead (t sig : Nat) (objects : List (List Byte)) (s : State) : Outcome State Fault Refusal :=
  let s := atTime t s
  let j := (sigE s sig).job.toNat
  let a := sigA s sig
  match a.swapLeft, a.handoffGroups with
  | p :: ps, g :: gs =>
    if (sigE s sig).state ≠ .swappingIn then .next s else
    let (s, raws) := openAll s j ((leafOf s j g 0).column / 512) objects
    match (if objects.length = layerCount s j then raws else none) with
    | some raws =>
      let s := placeSwapped s sig p g raws
      .next (swapNext (modA s sig (fun a => { a with swapLeft := ps, handoffGroups := gs, swapRetries := 0 })) sig)
    | none =>
      if a.swapRetries < getF s 0x2410 0x02 then
        let s := modA s sig (fun a => { a with swapRetries := a.swapRetries + 1 })
        .next (readSwapped (incF s 0x2409 j) sig p)
      else .next (tearDownJob (voidStep (logErr (incF s 0x243E j) 0x38 0 0 (some j) g 0) j) j)
  | _, _ => .next s

/-- SWAP_REGION_RELEASED (R78): after a teardown every write has been sent and every read has ended. -/
def execSwapRegionReleased (t jb : Nat) (s : State) : Outcome State Fault Refusal :=
  let s := atTime t s
  .next (if (job s jb).swapLeft = [] then s else emit (modJob s jb (fun x => { x with swapLeft := [] })) (.swapReleased jb))

end Sys2Proof.Machine
end

