-- ==== Sys2Proof/Machine/Select.lean ====
section
/-! DEFINITION. The selector (R94, R95, R98), draft lookup (R96) and verification (R97). -/

namespace Sys2Proof.Machine

open Host

/-- stream(seed, i) of R94. -/
def stream (seed i : Nat) : Nat :=
  let m := 2 ^ 64
  let z := (seed + (i + 1) * 0x9E3779B97F4A7C15) % m
  let z := ((z ^^^ (z >>> 30)) * 0xBF58476D1CE4E5B9) % m
  let z := ((z ^^^ (z >>> 27)) * 0x94D049BB133111EB) % m
  z ^^^ (z >>> 31)

/-- u(s, i) of R94: exact in FP32. -/
def uniform (seed i : Nat) : Word32 := toF32 (.fin false (nfld (stream seed i) 63 40) (-24))

/-- NaN logits count as minus infinity (R95). -/
def cleanLogit (z : Word32) : Word32 := if fIsNaN z then f32NegInf else z

/-- Best tokens first: greater logit, then lower token. -/
def tokenBefore (a b : Nat × Word32) : Bool := if flt32 b.2 a.2 then true else if flt32 a.2 b.2 then false else decide (a.1 ≤ b.1)

/-- Keep the `k` best of the candidates seen so far, in order. -/
def keepBest (k : Nat) (best : List (Nat × Word32)) (x : Nat × Word32) : List (Nat × Word32) := (insertBy tokenBefore x best).take k

/-- Running sums S of R95. -/
def runningSums : Option Word32 → List Word32 → List Word32
  | _, [] => []
  | none, e :: r => e :: runningSums (some e) r
  | some a, e :: r => fadd32 a e :: runningSums (some (fadd32 a e)) r

/-- sample(s, z, i) of R95; none is a selector error. -/
def sample (e : SigEntry) (z : List Word32) (i : Nat) : Option Nat :=
  let z := z.map cleanLogit
  let c := z.zipIdx.foldl (fun b x => keepBest (max e.topK.toNat 1) b (x.2, x.1)) []
  match c with
  | [] => none
  | (v0, z0) :: _ =>
    if z0 = f32NegInf then none
    else if z0 = f32PosInf ∨ e.topK.toNat = 1 then some v0
    else
      let t := ofBf16 e.temperature.toNat
      let es := c.map (fun x => exp32 (fdiv32 (fsub32 x.2 z0) t))
      let ss := runningSums none es
      let k := ss.length
      let total := ss.getD (k - 1) 0
      let limit := fmul32 (toF32 (.fin false e.topP.toNat (-16))) total
      let m := if e.topP.toNat = 0 then k else ((ss.findIdx? (fun x => !(flt32 x limit))).getD (k - 1)) + 1
      let x := fmul32 (uniform e.seed.toNat i) (ss.getD (m - 1) 0)
      let j := ((ss.take m).findIdx? (fun y => flt32 x y)).getD (m - 1)
      some ((c.getD j (0, 0)).1)

/-- Slices of a position in token order cover the vocabulary exactly once (R143). -/
def slicesCover (v : Nat) (l : List (Nat × List Word32)) : Bool :=
  let sorted := sortBy (fun a b => decide (a.1 ≤ b.1)) l
  decide (sorted.foldl (fun (at0 : Option Nat) x => match at0 with
    | some k => if x.1 = k then some (k + x.2.length) else none
    | none => none) (some 0) = some v)

/-- Logits of a position in token order. -/
def logitsOf (l : List (Nat × List Word32)) : List Word32 := (sortBy (fun a b => decide (a.1 ≤ b.1)) l).flatMap (fun x => x.2)

/-! ### Drafts (R96) -/

/-- Search from position `a` down for the last occurrence of the key; `n` tries. -/
def lookBack (log : List Nat) (g : Nat) (key : List Nat) : Nat → Nat → Option Nat
  | 0, _ => none
  | n + 1, a => if (log.drop a).take g = key then some a else lookBack log g key n (a - 1)

/-- drafts(s) of R96: `n` entries, 0xFF_FFFF where none is found. -/
def proposeDrafts (log : List Nat) (n g span : Nat) : List Nat :=
  let e := log.length
  let none_ := List.replicate n 0xFFFFFF
  if e < g + 1 then none_ else
  let key := log.drop (e - g)
  let hi := e - g - 1
  let lo := e - span
  if hi < lo then none_ else
  match lookBack log g key (hi + 1 - lo) hi with
  | none => none_
  | some a => (((log.drop (a + g)).take n) ++ none_).take n

/-! ### Verification (R97, R98) -/

/-- What verification gives: tokens to commit, drafts accepted, and whether a selector error ended it. -/
structure Verified where
  tokens : List Nat
  accepted : Nat
  error : Bool
  deriving DecidableEq, Repr

/-- verify(s, d) of R97 from position j on; `drawn` gives the selector's outcome for generated token i. -/
def verifyFrom (e : SigEntry) (drawn : Nat → Draw) (i : Nat) : Nat → List Nat → Verified
  | j, [] => match drawn (i + j) with
    | .error => { tokens := [], accepted := 0, error := true }
    | .token t => { tokens := [t], accepted := 0, error := false }
  | j, d :: r => match drawn (i + j) with
    | .error => { tokens := [], accepted := 0, error := true }
    | .token t =>
      if t = e.stopToken.toNat ∨ i + j + 1 = e.maxOutput.toNat then { tokens := [t], accepted := b2n (decide (d = t)), error := false }
      else if d ≠ t then { tokens := [t], accepted := 0, error := false }
      else
        let v := verifyFrom e drawn i (j + 1) r
        { tokens := t :: v.tokens, accepted := v.accepted + 1, error := v.error }

end Sys2Proof.Machine
end

