-- ==== Sys2Proof/Machine/Compose.lean ====
section
/-! DEFINITION. Composing a step (R83 to R86, R99, R143, R167 to R170, R180, R185, R186, R188, R231). -/

namespace Sys2Proof.Machine

open Host

/-! ### Parts, shapes and caps (R83, R92) -/

/-- Quires of a part: the generation part is the lowest-numbered quires of the set. -/
def partQuires (s : State) (j : Nat) (prompt : Bool) : List Nat :=
  let x := job s j
  let n := x.quires.length - x.split
  if prompt then x.quires.drop n else x.quires.take n

/-- The bound of each shape on `nq` quires, as (index, tokens, µs). -/
def shapeBounds (i : JobImage) (nq : Nat) : List (Nat × Nat × Nat) :=
  ((i.shapes.zip ((tfind i.bounds nq).getD [])).zipIdx).map (fun x => (x.2, x.1.1, x.1.2))

/-- Shapes of which the bound does not exceed `us` µs. -/
def fitShapes (i : JobImage) (nq us : Nat) : List (Nat × Nat × Nat) := (shapeBounds i nq).filter (fun x => decide (x.2.2 ≤ us))

/-- The fitting cap on `nq` quires (R83). -/
def fitCap (i : JobImage) (nq : Nat) : Nat := ((fitShapes i nq (i.w - i.beta)).map (fun x => x.2.1)).foldl max 0

/-- The decode capacity (R83). -/
def decodeCapacity (s : State) (j : Nat) : Nat := fitCap (imageOf s j) (job s j).quires.length / (1 + (imageOf s j).draftLimit)

/-- The smallest shape at or above `n` tokens. -/
def shapeFor (i : JobImage) (nq n : Nat) : Option (Nat × Nat × Nat) := (shapeBounds i nq).find? (fun x => decide (n ≤ x.2.1))

/-! ### Spans (R179, R185) -/

/-- S_max (Table 8-1). -/
def spanMax (i : JobImage) : Nat := ceilDiv i.ctxLimit (max i.spanLen 1)

/-- Ring position that holds a span (R185). -/
def spanHolder (s : State) (j span : Nat) : Nat := match (job s j).plan with
  | some p => span / max (ceilDiv (spanMax (imageOf s j)) (max p.members.length 1)) 1
  | none => 0

/-- This package, as owner, holds a span of its own signatures. -/
def ownSpan (s : State) (j span : Nat) : Bool := match (job s j).plan with
  | some p => decide (spanHolder s j span = p.position)
  | none => true

/-- The position's span is held here: always, outside span mode. -/
def ownPosition (s : State) (j pos : Nat) : Bool := !((imageOf s j).spanMode) || ownSpan s j (spanOf (imageOf s j) pos)

/-- The transit groups of a signature of a job in the step of window `w` (R188). -/
def transitOf (s : State) (j n w : Nat) : Option Transit :=
  s.span.transit.find? (fun x => decide (x.job = j) && decide (x.sig = n) && decide (x.window = w))

/-- Change them. -/
def modTransit (s : State) (j n w : Nat) (f : Transit → Transit) : State :=
  { s with span := { s.span with transit := s.span.transit.map (fun x => if x.job = j ∧ x.sig = n ∧ x.window = w then f x else x) } }

/-- The transit group at a group position. -/
def transitAt (s : State) (j n w p : Nat) : Option Nat := (transitOf s j n w).bind (fun x => tfind x.groups p)

/-- The group at a group position in the step of window `w`: of the list, or in transit. -/
def groupAt (s : State) (n w p : Nat) : Option Nat := match listAt s n p with
  | some g => some g
  | none => transitAt s (sigE s n).job.toNat n w p

/-- Spans 0 to that of the last position which other members hold. -/
def remoteSpans (s : State) (j last : Nat) : List Nat :=
  if (imageOf s j).spanMode then (List.range (spanOf (imageOf s j) last + 1)).filter (fun k => !(ownSpan s j k)) else []

/-! ### Resolving and promoting -/

/-- The first of the given positions, and the first of each further group that they reach. -/
def groupStarts (len base cnt : Nat) : List Nat :=
  base :: ((List.range (cnt / max len 1 + 1)).map (fun k => (base / max len 1 + 1 + k) * max len 1)).filter (fun p => decide (p < base + cnt))

/-- Resolve every group of positions `base` to `base + cnt` − 1 (R64); false is a stall. -/
def resolveAll (n startNs : Nat) (named : List Nat) : State → List Nat → State × Bool
  | s, [] => (s, true)
  | s, p :: r =>
    if ownPosition s (sigE s n).job.toNat p = false then resolveAll n startNs named s r
    else match resolve s n p startNs named with
      | (s, some _) => resolveAll n startNs named s r
      | (s, none) => (s, false)

/-- Transit groups of window `w` for group positions of spans held elsewhere (R188), by grow(); false is a stall (R74, R197). -/
def takeTransit (n w startNs : Nat) (named : List Nat) : State → List Nat → State × Bool
  | s, [] => (s, true)
  | s, p :: r =>
    let j := (sigE s n).job.toNat
    match grow s n (growColumns n p) startNs named with
    | (s, none) => (s, false)
    | (s, some g) => takeTransit n w startNs named (settleOwed (modTransit s j n w (fun x => { x with groups := x.groups ++ [(p, g)] })) n) r

/-- Transit groups are freed. [DEDUCED: log 77] -/
def freeTransit (s : State) (x : Transit) : State :=
  let s : State := { s with span := { s.span with transit := s.span.transit.filter (fun y => !decide (y = x)) } }
  x.groups.foldl (fun s e => decRef s x.job e.2) s

/-- The transit groups of a signature in the step of window `w` are freed. -/
def endTransit (s : State) (j w n : Nat) : State := match transitOf s j n w with
  | some x => freeTransit s x
  | none => s

/-- Group positions of a list of spans, up to token position `last`. -/
def spanGroups (i : JobImage) (last : Nat) (spans : List Nat) : List Nat :=
  let per := i.spanLen / max i.leafSize 1
  (spans.flatMap (fun k => (List.range per).map (fun x => k * per + x))).filter (fun p => decide (p * i.leafSize ≤ last))

/-- Query positions that a pass may hold: QPOS × Hq × (6D + 8) within the 256 KiB row store. -/
def passLimit (i : JobImage) : Nat := max 1 (262144 / max 1 (i.qHeads * (6 * i.headDim + 8)))

/-- Query sets of a member: runs of at most passLimit positions. -/
def querySets (i : JobImage) (base cnt : Nat) : List (Nat × Nat) :=
  let k := passLimit i
  (List.range (ceilDiv cnt k)).map (fun x => (base + x * k, min k (cnt - x * k)))

/-- The query sets of a member that block passes serve (R186): those at or above the threshold with a span held elsewhere. -/
def blockSets (s : State) (j base cnt : Nat) : List (Nat × Nat) :=
  (querySets (imageOf s j) base cnt).filter (fun q => decide (getF s 0x3811 j ≤ q.2) && decide (remoteSpans s j (q.1 + q.2 - 1) ≠ []))

/-- The kind of each pass at distance is chosen by its QPOS (R186): the block passes of a member take transit groups for the step of
window `w`, which its passes share; false is a stall. [DEDUCED: log 77] -/
def distancePass (s : State) (n base cnt w startNs : Nat) (named : List Nat) : State × Bool :=
  let j := (sigE s n).job.toNat
  match (blockSets s j base cnt).getLast? with
  | none => (s, true)
  | some q =>
    let last := q.1 + q.2 - 1
    let x : Transit := { job := j, sig := n, window := w, groups := [], sets := (blockSets s j base cnt).map (fun q => q.1), filled := [], folded := [] }
    let s := endTransit s j w n
    takeTransit n w startNs named { s with span := { s.span with transit := s.span.transit ++ [x] } }
      (spanGroups (imageOf s j) last (remoteSpans s j last))

/-- Promotion at step priority of one group (R231); false is a stall. -/
def promoteStep (s : State) (j g : Nat) (named : List Nat) : State × Bool := promoteWith s j g true named

/-- Promote every group of a signature that the step names and that does not rest at a cache package (R231, R232). -/
def promoteSig (n last : Nat) (named : List Nat) : State → List Nat → State × Bool
  | s, [] => (s, true)
  | s, p :: r =>
    let j := (sigE s n).job.toNat
    match listAt s n p with
    | none => promoteSig n last named s r
    | some g =>
      if (spanRests s n (spanOf (imageOf s j) (p * leafSize s j)) last).isSome then promoteSig n last named s r
      else match promoteStep s j g named with
        | (s, true) => promoteSig n last named s r
        | (s, false) => (incF (countStall s n) 0x2438 j, false)

/-- Group positions of a signature up to a token position. -/
def positionsTo (s : State) (n last : Nat) : List Nat := List.range (last / leafSize s (sigE s n).job.toNat + 1)

/-- The groups of a signature for positions `base` to `base + cnt` − 1 of the step of window `w` are taken, resolved and promoted. -/
def readyGroups (s : State) (n base cnt w startNs : Nat) (named : List Nat) : State × Bool :=
  match distancePass s n base cnt w startNs named with
  | (s, false) => (s, false)
  | (s, true) => match resolveAll n startNs named s (groupStarts (leafSize s (sigE s n).job.toNat) base cnt) with
    | (s, false) => (s, false)
    | (s, true) => promoteSig n (base + cnt - 1) named s (positionsTo s n (base + cnt - 1))

/-- A signature is made ready for its positions of the step of window `w`; false is a stall, which gives its transit groups back. -/
def readySig (s : State) (n base cnt w startNs : Nat) (named : List Nat) : State × Bool :=
  match readyGroups s n base cnt w startNs named with
  | (s, true) => (s, true)
  | (s, false) => (endTransit s (sigE s n).job.toNat w n, false)

/-! ### Candidates -/

/-- The generation of a signature is finished: its last token ends it, or it has reached MAX_OUTPUT. -/
def genDone (s : State) (n : Nat) : Bool :=
  let e := sigE s n
  let g := e.genLen.toNat
  decide (0 < g) && (decide (e.maxOutput.toNat ≤ g)
    || decide (((sigA s n).tokens.getD (e.promptLen.toNat + g - 1) 0xFFFFFF) = e.stopToken.toNat && e.stopToken.toNat ≠ 0xFFFFFF))

/-- Nothing keeps a signature out of a composition: not superseded, its CONFIRM delivered, no move chosen (R101, R206, R210). R84 takes
every signature in DECODING, one whose last token has committed and whose boundary phase has not run among them. [DEDUCED: log 57] -/
def composable (s : State) (n : Nat) : Bool :=
  let a := sigA s n
  a.superseded.isNone && !a.confirmWaiting && a.moveTarget.isNone

/-- Positions of KV that a signature will hold once the chunks of the steps in flight, or frozen and not begun, have committed. -/
def kvTaken (s : State) (n : Nat) : Nat :=
  let x := job s (sigE s n).job.toNat
  let ends (r : Option StepRun) : List Nat := match r with
    | some r => (r.plan.chunks.filter (fun c => decide (c.sig = n))).map (fun c => c.start + c.len)
    | none => []
  let waiting := (frozenPlans x.gen ++ frozenPlans x.prompt).flatMap (fun c => (c.chunks.filter (fun k => decide (k.sig = n))).map (fun k => k.start + k.len))
  (ends x.gen.run ++ ends x.gen.committed ++ ends x.prompt.run ++ ends x.prompt.committed ++ waiting).foldl max (sigA s n).kv

/-- pending(s) as the composer counts it. -/
def pendingAt (s : State) (n : Nat) : Nat := prefillEnd (sigE s n) - kvTaken s n

/-- Signatures with prompt or log positions to prefill, in composition order. -/
def chunkSigs (s : State) (j : Nat) : List Nat :=
  let c := (jobSigs s j).filter (fun n =>
    let st := (sigE s n).state
    (decide (st = .prefilling) || decide (st = .rebuilding) || decide (st = .replaying)) && composable s n && decide (0 < pendingAt s n))
  sortBy (composeBefore s) c

/-- A stall of a signature that no exhaustion causes, counted in STALL_COUNT and a folio of the job. -/
def stallFor (s : State) (n folio : Nat) : State :=
  incF (modE s n (fun e => { e with stallCount := satInc e.stallCount })) folio (sigE s n).job.toNat

/-- The pair of a signature joins the pairs of the step, or none when it would be the 17th (R99). -/
def addPair (s : State) (ps : List (Nat × Nat)) (n : Nat) : Option (List (Nat × Nat)) :=
  let e := sigE s n
  let p := (e.tipinSlot.toNat, e.tipinVersion.toNat)
  if p.2 = 0 ∨ ps.contains p = true then some ps else if ps.length < 16 then some (ps ++ [p]) else none

/-! ### The decode batch and the chunks (R84) -/

/-- Resolve the decode signatures in order; those that stall drop out. -/
def batchReady (w startNs : Nat) (named : List Nat) : State → List Nat → State × List Nat
  | s, [] => (s, [])
  | s, n :: r =>
    let e := sigE s n
    if e.state ≠ .decoding then batchReady w startNs named s r
    else
      let (s, ok) := readySig s n (e.promptLen.toNat + e.genLen.toNat - 1) (1 + e.draftLen.toNat) w startNs named
      let (s, l) := batchReady w startNs named s r
      (s, if ok then n :: l else l)

/-- The tip-in rule over the batch, in order. -/
def batchPairs : State → List (Nat × Nat) → List Nat → State × List (Nat × Nat) × List Nat
  | s, ps, [] => (s, ps, [])
  | s, ps, n :: r => match addPair s ps n with
    | some ps =>
      let (s, ps, l) := batchPairs s ps r
      (s, ps, n :: l)
    | none => batchPairs (stallFor s n 0x280E) ps r

/-- Positions of a decode batch. -/
def batchTokens (s : State) (b : List Nat) : Nat := (b.map (fun n => 1 + (sigE s n).draftLen.toNat)).foldl (· + ·) 0

/-- Defer whole signatures, the last first, until the batch fits (R84). -/
def batchFit (cap : Nat) : Nat → State → List Nat → State × List Nat
  | 0, s, b => (s, b)
  | fuel + 1, s, b =>
    if batchTokens s b ≤ cap then (s, b) else
    match b.getLast? with
    | none => (s, b)
    | some n => batchFit cap fuel (stallFor s n 0x280F) b.dropLast

/-- Add chunks in order: `whole` gives each the rest of the cap (R92). -/
def addChunks (cap chunk : Nat) (whole : Bool) (w startNs : Nat) (named : List Nat) :
    State → List (Nat × Nat) → Nat → List Nat → State × List (Nat × Nat) × List Chunk
  | s, ps, _, [] => (s, ps, [])
  | s, ps, t, n :: r =>
    let p := pendingAt s n
    let c := if whole then min p (cap - t) else min chunk p
    if c = 0 ∨ cap < t + c then addChunks cap chunk whole w startNs named s ps t r
    else match addPair s ps n with
      | none => addChunks cap chunk whole w startNs named (stallFor s n 0x280E) ps t r
      | some ps2 =>
        let start := kvTaken s n
        match readySig s n start c w startNs named with
        | (s, false) => addChunks cap chunk whole w startNs named s ps t r
        | (s, true) =>
          let (s, ps3, l) := addChunks cap chunk whole w startNs named s ps2 (t + c) r
          (s, ps3, { sig := n, start := start, len := c } :: l)

/-! ### Passes and lists (R167 to R170, R180) -/

/-- Bytes of a partial row (R169). -/
def partialBytes (i : JobImage) : Nat := roundUp (64 + 2 * i.headDim) 64

/-- Bytes of an element that att.comb writes: the widest FMT_OUT in the job's gutter tables. [DEDUCED: log 107] -/
def outElemBytes (i : JobImage) (nq : Nat) : Nat :=
  match tfind i.tableSets nq with
  | none => 2
  | some ts => ((ts.gutterTables.flatMap (fun t => t)).filter (fun w => decide (fld w 127 120 = 0xA1))).foldl (fun m w =>
      max m (match fld w 115 112 with
        | 0 => 4
        | 1 => 2
        | _ => 1)) 1

/-- A pass as the lists give it: signature, its query positions, the spans it attends (from, to; in tokens), and where its rows lie. -/
structure Pass where
  sig : Nat
  window : Nat
  qp0 : Nat
  qpos : Nat
  /-- Token positions attended: those from `lo` and below `hi`. -/
  lo : Nat
  hi : Nat
  qoff : Nat
  poff : Nat
  ooff : Nat
  deriving DecidableEq, Repr

/-- The members of a composition as (signature, first position, positions). -/
def memberRanges (s : State) (c : Composition) : List (Nat × Nat × Nat) :=
  c.batch.map (fun m => (m.sig, m.base, 1 + (sigE s m.sig).draftLen.toNat)) ++ c.chunks.map (fun k => (k.sig, k.start, k.len))

/-- Token ranges that this package attends for the queries `qp0` to `last` of the step of window `w`: all of them, or in span mode one
per span held here (or, for a block pass, in transit), the highest first, leaving out spans attended at a cache package (R180, R193). -/
def attendRanges (s : State) (n w qp0 last : Nat) : List (Nat × Nat) :=
  let j := (sigE s n).job.toNat
  let i := imageOf s j
  if i.spanMode = false then [(0, last + 1)]
  else
    let block := (transitOf s j n w).any (fun x => x.sets.contains qp0)
    let here (k : Nat) : Bool := (ownSpan s j k || block) && (spanRests s n k last).isNone
    (((List.range (spanOf i last + 1)).filter here).reverse).map (fun k => (k * i.spanLen, min ((k + 1) * i.spanLen) (last + 1)))

/-- Lay out the passes of the signatures given, in order; the list takes them span descending (R180). [DEDUCED: log 107] -/
def layPasses (s : State) (w : Nat) (i : JobImage) (nq : Nat) (members : List (Nat × Nat × Nat)) : List Pass :=
  let qb := i.qHeads * 2 * i.headDim
  let pb := i.qHeads * partialBytes i
  let ob := i.qHeads * i.headDim * outElemBytes i nq
  let step (acc : List Pass × Nat × Nat × Nat) (m : Nat × Nat × Nat) : List Pass × Nat × Nat × Nat :=
    (querySets i m.2.1 m.2.2).foldl (fun acc q =>
      let (l, qo, po, oo) := acc
      let rs := attendRanges s m.1 w q.1 (q.1 + q.2 - 1)
      let rows := rs.zipIdx.map (fun r => ({ sig := m.1, window := w, qp0 := q.1, qpos := q.2, lo := r.1.1, hi := r.1.2, qoff := qo,
                                             poff := po + r.2 * roundUp (q.2 * pb) 64, ooff := oo } : Pass))
      (l ++ rows, qo + roundUp (q.2 * qb) 64, po + rs.length * roundUp (q.2 * pb) 64, oo + roundUp (q.2 * ob) 64)) acc
  sortBy (fun a b => decide (b.lo ≤ a.lo)) (members.foldl step ([], 0, 0, 0)).1

/-- The members whose anchor puts layer `l` in bundle `b` (R159). -/
def membersIn (s : State) (j l b : Nat) (ms : List (Nat × Nat × Nat)) : List (Nat × Nat × Nat) :=
  ms.filter (fun m => match anchorOf s j (sigA s m.1).groups with
    | some a => decide ((a + l) % max (bundleCount s j) 1 = b)
    | none => false)

/-- Group positions of a pass that lie at a place of the bundle. -/
def passGroups (len place0 : Nat) (p : Pass) : List Nat :=
  ((List.range (ceilDiv p.hi len)).filter (fun k => decide (p.lo ≤ k * len) && decide (k % 16 = place0)))

/-- Share of a column's areas that a composition may use: 0 the whole, 1 the lower half, 2 the upper half, so that the two parts of
split service do not meet in a column. -/
def areaShare (area : Nat) : Nat := if area = 0 then 1 else 2

/-- Bytes of the list region that a layer's lists may take in a column; a wide column's combine list takes the second half. [DESIGN CHOICE: log 60] -/
def listSlot (i : JobImage) (area : Nat) : Nat := 0x80000 / areaShare area / max i.layers 1 / 128 * 128

/-- Areas of a composition of a part. -/
def partArea (s : State) (j : Nat) (prompt : Bool) : Nat := if (job s j).split = 0 then 0 else if prompt then 2 else 1

/-- The lists, query rows, partial rows and output rows of one bundle in one layer fit their areas (R170). -/
def bundleFits (i : JobImage) (nq len area : Nat) (ps : List Pass) : Bool :=
  let entries (pl : Nat) : Nat := (ps.map (fun p => (passGroups len pl p).length)).foldl (· + ·) 0
  let listOk := (List.range 16).all (fun pl => decide (64 + 32 * entries pl ≤ (if pl = 0 then listSlot i area / 2 else listSlot i area)))
  let qEnd := (ps.map (fun p => p.qoff + p.qpos * (i.qHeads * 2 * i.headDim))).foldl max 0
  let pEnd := (ps.map (fun p => p.poff + p.qpos * (i.qHeads * partialBytes i))).foldl max 0
  let oEnd := (ps.map (fun p => p.ooff + p.qpos * (i.qHeads * i.headDim * outElemBytes i nq))).foldl max 0
  let k := areaShare area
  listOk && decide (64 + 16 * ps.length ≤ listSlot i area / 2) && decide (qEnd ≤ 0x300000 / k) && decide (pEnd ≤ 0x400000 / k)
    && (i.spanMode || decide (oEnd ≤ i.outLen / k / 64 * 64))

/-- Every check of R170 passes. -/
def columnsFit (s : State) (j w nq area : Nat) (ms : List (Nat × Nat × Nat)) : Bool :=
  let i := imageOf s j
  (layersOf s j).all (fun l => (List.range (bundleCount s j)).all (fun b =>
    bundleFits i nq (leafSize s j) area (layPasses s w i nq (membersIn s j l b ms))))

/-- Remove signatures, the last in composition order first, until the checks of R170 pass. -/
def trimColumns (j nq area : Nat) : Nat → State → Composition → State × Composition
  | 0, s, c => (s, c)
  | fuel + 1, s, c =>
    if columnsFit s j c.window nq area (memberRanges s c) then (s, c) else
    match c.chunks.getLast?, c.batch.getLast? with
    | some k, _ => trimColumns j nq area fuel (stallFor s k.sig 0x3403) { c with chunks := c.chunks.dropLast }
    | none, some m => trimColumns j nq area fuel (stallFor s m.sig 0x3403) { c with batch := c.batch.dropLast }
    | none, none => (s, c)

/-! ### compose(job, cap) -/

/-- Positions of a composition that are not padding. -/
def planTokens (s : State) (c : Composition) : Nat := ((memberRanges s c).map (fun m => m.2.2)).foldl (· + ·) 0

/-- The composer notes each estimate it computes (R40). [DESIGN CHOICE: log 153] -/
def noteEstimates (s : State) (ns : List Nat) : State := ns.foldl noteEstimate s

/-- compose(job, cap) of R84 for a part. The step starts at local time `startNs`. [DEDUCED: log 61] -/
def compose (s : State) (j : Nat) (prompt withChunks : Bool) (window startNs : Nat) : State × Option Composition :=
  let i := imageOf s j
  let nq := (partQuires s j prompt).length
  let cap := fitCap i nq
  let dec := if prompt then [] else (jobSigsIn s j .decoding).filter (composable s)
  let s := noteEstimates s (dec ++ chunkSigs s j)
  let order := sortBy (composeBefore s) dec
  let named := namedGroups s j order
  let tried := order ++ chunkSigs s j
  let (s, b) := batchReady window startNs named s order
  let b := b.filter (fun n => decide ((sigE s n).state = .decoding))
  let (s, _, b) := batchPairs s [] b
  let (s, b) := batchFit cap b.length s b
  let ps := tipinPairs s b
  let (s, ps, ch) := if withChunks then addChunks cap i.chunk prompt window startNs (namedGroups s j b) s ps (batchTokens s b) (chunkSigs s j) else (s, ps, [])
  let batch := (b.filter (fun n => decide ((sigE s n).state = .decoding))).map (fun n =>
    ({ sig := n, base := (sigE s n).promptLen.toNat + (sigE s n).genLen.toNat - 1,
       drafts := List.replicate (sigE s n).draftLen.toNat 0xFFFFFF } : BatchMember))
  let c : Composition := { window := window, batch := batch, chunks := ch, shape := 0, shapeIndex := 0, promptOnly := prompt,
                           lo := if prompt then (job s j).quires.length - (job s j).split else 0, count := nq, posMap := [],
                           steer := [], pairs := ps, inputs := [], staged := false, folds := [] }
  let (s, c) := trimColumns j nq (partArea s j prompt) (c.batch.length + c.chunks.length) s c
  let s := (tried.filter (fun n => !((planSigs c).contains n))).foldl (fun s n => endTransit s j window n) s
  let c := { c with pairs := tipinPairs s (planSigs c) }
  match shapeFor i nq (planTokens s c) with
  | some (k, n, _) => (s, some { c with shape := n, shapeIndex := k })
  | none => (s, none)

end Sys2Proof.Machine
end

