-- ==== Sys2Proof/Machine/Lists.lean ====
section
/-! DEFINITION. What the composer stages for a step (R82, R96, R138, R139, R143, R167, R169, R180): position map, token inputs,
work lists, combine lists and steer registers. Where the map and the inputs lie in the job's staging units is the model's choice. -/

namespace Sys2Proof.Machine

open Host

/-! ### Positions (R86, R143) -/

/-- A padding position. -/
def padEntry : PosMapEntry := { group := none, slot := 0, sig := none, draw := none, position := 0 }

/-- The map entry of token position `pos` of signature `n` in the step of window `w`. -/
def mapEntry (s : State) (w n pos : Nat) (draw : Option Nat) : PosMapEntry :=
  let len := leafSize s (sigE s n).job.toNat
  { group := groupAt s n w (pos / len), slot := pos % len, sig := some n, draw := draw, position := pos }

/-- The positions of a decode signature: its newest token, then its drafts (R97). -/
def batchMap (s : State) (w : Nat) (m : BatchMember) : List PosMapEntry :=
  (List.range (1 + m.drafts.length)).map (fun k => mapEntry s w m.sig (m.base + k) (some ((sigE s m.sig).genLen.toNat + k)))

/-- A chunk position draws generated token 0 when it is the last prompt position and GEN_LEN = 0 (R85). -/
def chunkDraws (e : SigEntry) (pos : Nat) : Bool := decide (e.genLen.toNat = 0) && decide (pos + 1 = e.promptLen.toNat)

/-- The positions of a chunk. -/
def chunkMap (s : State) (w : Nat) (k : Chunk) : List PosMapEntry :=
  (List.range k.len).map (fun i => mapEntry s w k.sig (k.start + i) (if chunkDraws (sigE s k.sig) (k.start + i) then some 0 else none))

/-- The position map of a composition, padded to its shape. -/
def positionMap (s : State) (c : Composition) : List PosMapEntry :=
  let l := c.batch.flatMap (batchMap s c.window) ++ c.chunks.flatMap (chunkMap s c.window)
  l ++ List.replicate (c.shape - l.length) padEntry

/-- A draft as it is embedded: 0xFF_FFFF is token 0 (R96). -/
def embedDraft (d : Nat) : Nat := if d = 0xFFFFFF then 0 else d

/-- The token inputs of a composition, in position order; padding is token 0 (R86). -/
def tokenInputs (s : State) (c : Composition) : List Nat :=
  let l := c.batch.flatMap (fun m => (sigA s m.sig).tokens.getD m.base 0 :: m.drafts.map embedDraft)
    ++ c.chunks.flatMap (fun k => (List.range k.len).map (fun i => (sigA s k.sig).tokens.getD (k.start + i) 0))
  l ++ List.replicate (c.shape - l.length) 0

/-- A map entry as stored (Table 6-5). -/
def mapWord (s : State) (j : Nat) (e : PosMapEntry) : Nat :=
  place (match e.group with
    | some g => leafId s j g 0
    | none => nullLeaf) 127 96
  + place e.slot 95 88 + place (e.sig.getD 0xFFFF) 87 72 + place (e.draw.getD 0xFFFFFF) 71 48 + place e.position 47 24

/-! ### Staging units -/

/-- The first of a job's staging units: its lowest memory range in the staging banks of shared SRAM (Table 5-8). [DESIGN CHOICE: log 60] -/
def stagingBase (s : State) (j : Nat) : Option Nat :=
  let l := ((imageOf s j).memory.map (fun m => m.1)).filter (fun a =>
    decide (0xF00080000000 ≤ a) && decide (a < 0xF000A0000000) && decide (0x6800000 ≤ a % 0x10000000))
  l.foldl (fun (b : Option Nat) a => match b with
    | none => some a
    | some x => some (min x a)) none

/-- Where a composition's position map lies: 256 KiB of staging per part, the token inputs in its second half. -/
def mapBase (s : State) (j : Nat) (c : Composition) : Option Nat := (stagingBase s j).map (fun b => b + b2n c.promptOnly * 0x40000)

/-- Store a composition's position map (R143). -/
def stageMap (s : State) (j : Nat) (c : Composition) : State := match mapBase s j c with
  | none => s
  | some b => writeBytes s b (c.posMap.flatMap (fun e => toBytesLE 16 (mapWord s j e)))

/-- Store a composition's token inputs (R82). [DESIGN CHOICE: log 60] -/
def stageInputs (s : State) (j : Nat) (c : Composition) : State := match mapBase s j c with
  | none => s
  | some b => writeBytes s (b + 0x20000) (c.inputs.flatMap (fun t => toBytesLE 4 t))

/-! ### Work and combine lists (R167, R169, R180) -/

/-- Payload and scale record of leaf (g, l) as a work list gives them: where the leaf lies, or where its promotion brings it; zero
while no place is chosen. -/
def listedPlaces (s : State) (j g l : Nat) : Nat × Nat :=
  let d := leafOf s j g l
  if d.tier = .stacked then (d.page, d.scaleAddr)
  else match moveOf s j g with
    | some m => if m.promotion then m.addrs.getD l (0, 0) else (0, 0)
    | none => (0, 0)

/-- First position beyond those whose KV a signature holds in this step. -/
def stepEnd (members : List (Nat × Nat × Nat)) (n : Nat) : Nat :=
  ((members.filter (fun m => decide (m.1 = n))).map (fun m => m.2.1 + m.2.2)).foldl max 0

/-- Where the areas of a composition begin: list region, query inbox, exchange area, output space. [DESIGN CHOICE: log 60] -/
def areaBases (i : JobImage) (area : Nat) : Nat × Nat × Nat × Nat :=
  if area = 2 then (0x40000, 0x180000, 0x200000, i.outLen / 2 / 64 * 64) else (0, 0, 0, 0)

/-- A work-list entry as stored (Table 7-6). -/
def workWord (s : State) (j c l area upto : Nat) (p : Pass) (k g : Nat) (first last : Bool) : Nat :=
  let len := leafSize s j
  let a := listedPlaces s j g l
  let b := areaBases (imageOf s j) area
  place (leafId s j g l) 255 224 + place (a.1 - columnAddr c 0) 223 198 + place (a.2 - columnAddr c 0) 197 172 + place (k * len) 171 148
  + place (min len (upto - k * len)) 147 141 + place p.qpos 140 128 + place p.qp0 127 104 + place ((0x80000 + b.2.1 + p.qoff) / 64) 103 88
  + place ((b.2.2.1 + p.poff) / 64) 87 72 + place p.sig 71 56 + place (b2n first) 55 55 + place (b2n last) 54 54

/-- The entries of one pass in the column at place `pl` of its bundle, in ascending group position. -/
def passEntries (s : State) (j c l area pl upto : Nat) (p : Pass) : List Nat :=
  let ks := (passGroups (leafSize s j) pl p).filterMap (fun k => (groupAt s p.sig p.window k).map (fun g => (k, g)))
  ks.zipIdx.map (fun x => workWord s j c l area upto p x.1.1 x.1.2 (decide (x.2 = 0)) (decide (x.2 + 1 = ks.length)))

/-- A list as stored: a 64-byte header with the count, then the entries. -/
def listBytes (size : Nat) (entries : List Nat) : List Byte := toBytesLE 64 (entries.length % 65536) ++ entries.flatMap (toBytesLE size)

/-- Device address of a column's work area. -/
def workArea (s : State) (c : Nat) : Nat := columnAddr c (columnBytes s - 0x400000)

/-- Device address of the list slot of a layer in a column. [DESIGN CHOICE: log 60] -/
def listAddr (s : State) (j c l area : Nat) : Nat := workArea s c + (areaBases (imageOf s j) area).1 + l * listSlot (imageOf s j) area

/-- A combine-list entry (Table 7-8). -/
def combineWord (i : JobImage) (area mask : Nat) (p : Pass) : Nat :=
  let b := areaBases i area
  place mask 127 112 + place ((b.2.2.1 + p.poff) / 64) 111 96 + place ((i.outBase + b.2.2.2 + p.ooff) / 64) 95 80 + place p.qpos 79 67
  + place p.sig 66 51

/-- The lists of one bundle in one layer. In span mode the span engine combines, and the combine list is empty (R181). -/
def stageBundle (j w l area nq : Nat) (members : List (Nat × Nat × Nat)) (s : State) (b : Nat) : State :=
  let i := imageOf s j
  let ps := layPasses s w i nq (membersIn s j l b members)
  let col (pl : Nat) : Nat := (job s j).columns.getD (16 * b + pl) 0
  let entries (pl : Nat) (p : Pass) : List Nat := passEntries s j (col pl) l area pl (stepEnd members p.sig) p
  let mask (p : Pass) : Nat := ((List.range 16).map (fun pl => if entries pl p = [] then 0 else 2 ^ pl)).foldl (· + ·) 0
  let comb := if i.spanMode then [] else ps.map (fun p => combineWord i area (mask p) p)
  let lists := (List.range 16).map (fun pl => (listAddr s j (col pl) l area, listBytes 32 (ps.flatMap (entries pl))))
  let s := lists.foldl (fun s x => writeBytes s x.1 x.2) s
  writeBytes s (listAddr s j (col 0) l area + listSlot i area / 2) (listBytes 16 comb)

/-- Every work list and combine list of a composition. -/
def stageLists (s : State) (j : Nat) (c : Composition) : State :=
  let area := if c.promptOnly then 2 else if c.count = (job s j).quires.length then 0 else 1
  let members := memberRanges s c
  (layersOf s j).foldl (fun s l => (List.range (bundleCount s j)).foldl (stageBundle j c.window l area c.count members) s) s

/-- The fold lists of a composition (R182): every pass of its work lists in span mode, with the places that have entries for it. -/
def foldLists (s : State) (j : Nat) (c : Composition) : List FoldEntry :=
  let i := imageOf s j
  if i.spanMode = false then [] else
  let area := if c.promptOnly then 2 else if c.count = (job s j).quires.length then 0 else 1
  let members := memberRanges s c
  (layersOf s j).flatMap (fun l => (List.range (bundleCount s j)).flatMap (fun b =>
    (layPasses s c.window i c.count (membersIn s j l b members)).filterMap (fun p =>
      let places := (List.range 16).filter (fun pl => (passGroups (leafSize s j) pl p).any (fun k => (groupAt s p.sig p.window k).isSome))
      if places = [] then none else
      some { layer := l, sig := p.sig, qp0 := p.qp0, qpos := p.qpos, span := spanOf i p.lo, column := (job s j).columns.getD (16 * b) 0,
             places := places, poff := ((areaBases i area).2.2.1 + p.poff) / 64 })))

/-- The composer writes a composition's position map and lists (R143, R167, R182). -/
def stagePlan (s : State) (j : Nat) (c : Composition) : State × Composition :=
  let c := { c with posMap := positionMap s c, staged := true, folds := foldLists s j c }
  (stageLists (stageMap s j c) j c, c)

/-! ### Steer registers (R138, R139, Table 6-2) -/

/-- SR0 to SR15 of a composition. -/
def steerOf (s : State) (c : Composition) : List Nat :=
  ([c.shapeIndex, b2n c.promptOnly, planTokens s c, c.pairs.length] ++ c.steer ++ List.replicate 12 0).take 16

/-- Write the steer bank of a composition: bank 1 for the prompt part. -/
def writeSteer (s : State) (j : Nat) (c : Composition) : State :=
  let v := steerOf s c
  modJob s j (fun x => if c.promptOnly then { x with steer1 := v } else { x with steer0 := v })

end Sys2Proof.Machine
end

