-- ==== Sys2Proof/Machine/Windows.lean ====
section
/-! DEFINITION. Step windows (R81 to R93, R97 to R101, R134, R139, R140, R144, R145, R363, R390, R391): boundary phase, freeze, step
phase, window end, carried steps, commit, split service. -/

namespace Sys2Proof.Machine

open Host

/-! ### Parts -/

/-- A part of a job's steps: generation (or the whole set), or prompt. -/
def partOf (x : JobSt) (prompt : Bool) : PartState := if prompt then x.prompt else x.gen

/-- Change a part. -/
def modPart (s : State) (j : Nat) (prompt : Bool) (f : PartState → PartState) : State :=
  modJob s j (fun x => if prompt then { x with prompt := f x.prompt } else { x with gen := f x.gen })

/-- The job runs steps. -/
def stepping (s : State) (j : Nat) : Bool := decide ((job s j).mode = .running) || decide ((job s j).mode = .ending)

/-- Nominal start of window `k` of a job, local time in ns (R82). -/
def windowStart (s : State) (j k : Nat) : Nat := (job s j).runNs + k * windowUs s j * 1000

/-- Nominal end of the window now open. -/
def windowEnd (s : State) (j : Nat) : Nat := windowStart s j (job s j).window

/-- β of a job in ns. -/
def betaNs (s : State) (j : Nat) : Nat := (imageOf s j).beta * 1000

/-- The quires that run a composition. -/
def planQuires (s : State) (j : Nat) (c : Composition) : List Nat := ((job s j).quires.drop c.lo).take c.count

/-- Sequencers of a part's step are running. -/
def partRuns (p : PartState) : Bool := match p.run with
  | some r => r.started
  | none => false

/-- A step of some part is carried: stopped without commit and not committed since (R91, R93). -/
def carries (x : JobSt) : Bool :=
  let c (p : PartState) : Bool := match p.run with
    | some r => r.carried
    | none => false
  c x.gen || c x.prompt

/-- Two compositions use a quire in common. -/
def planMeets (a b : Composition) : Bool := overlaps a.lo a.count b.lo b.count

/-! ### Reading a commit (R66, R85, R87) -/

/-- FILL of the groups that hold positions `lo` to `hi` − 1 rises to what was written (R64). -/
def raiseFill (s : State) (n lo hi : Nat) : State :=
  let j := (sigE s n).job.toNat
  let len := leafSize s j
  ((List.range (hi - lo)).map (fun i => (lo + i) / len)).eraseDups.foldl (fun s p => match listAt s n p with
    | none => s
    | some g => modGroup s j g (fun d => { d with fill := max d.fill (min len (hi - p * len)), lastWriter := n })) s

/-- A signature that a step may still advance. -/
def batchLive (s : State) (m : BatchMember) : Bool :=
  let e := sigE s m.sig
  (decide (e.state = .decoding) || decide (e.state = .swappingOut)) && (sigA s m.sig).superseded.isNone

/-- A chunk of a signature that a step may still advance. -/
def chunkLive (s : State) (k : Chunk) : Bool :=
  let st := (sigE s k.sig).state
  (decide (st = .prefilling) || decide (st = .rebuilding) || decide (st = .replaying)) && (sigA s k.sig).superseded.isNone

/-- R66 after a step for one decode signature. -/
def readBatch (s : State) (m : BatchMember) : State :=
  if batchLive s m = false then s else
  let e := sigE s m.sig
  let kv := e.promptLen.toNat + e.genLen.toNat - 1
  let s := raiseFill s m.sig m.base (m.base + 1 + m.drafts.length)
  modA (rollback s m.sig m.base m.drafts.length kv) m.sig (fun a => { a with kv := kv })

/-- A chunk's positions now hold KV. -/
def readChunk (s : State) (k : Chunk) : State :=
  if chunkLive s k = false then s else
  modA (raiseFill s k.sig k.start (k.start + k.len)) k.sig (fun a => { a with kv := max a.kv (k.start + k.len) })

/-- END_REASON of a finished generation: 0x01 when the last token is STOP_TOKEN. -/
def doneReason (s : State) (n : Nat) : Nat :=
  let e := sigE s n
  if (sigA s n).tokens.getD (e.promptLen.toNat + e.genLen.toNat - 1) 0xFFFFFF = e.stopToken.toNat then 1 else 0

/-- END_REASON of a signature whose generation has ended: by its tokens, or by its third selector error in a row (Table 2-3). -/
def endDue (s : State) (n : Nat) : Option Nat :=
  if (sigA s n).superseded.isSome then none else if genDone s n then some (doneReason s n)
  else if 3 ≤ (sigA s n).selectorErrors then some 4 else none

/-- The transitions of Table 2-3 that a commit triggers for a decoding signature; one that a swap keeps from them makes them when it
decodes again. [DEDUCED: log 56, 107] -/
def decodeTransition (s : State) (n : Nat) : State := match endDue s n with
  | none => s
  | some r => if (sigE s n).state = .decoding then drain s n r else s

/-- A commit ended the generation of a signature that no longer decodes: Table 2-3 has no row, and the trigger is counted (R33). [DEDUCED: log 56] -/
def finishTrigger (s : State) (n : Nat) : State :=
  if (sigE s n).state = .decoding ∨ (sigA s n).superseded.isSome = true then s else badTrigger s

/-- The last chunk has committed: nodes are inserted (R71), and the entry decodes here, returns to its holder, or drains. The RETURN
is tried again at every boundary phase while no release record is free. [DEDUCED: log 107] -/
def prefillTransition (s : State) (n : Nat) : State :=
  let e := sigE s n
  if (e.state ≠ .prefilling ∧ e.state ≠ .rebuilding ∧ e.state ≠ .replaying) ∨ pendingTokens s n ≠ 0 ∨ (sigA s n).superseded.isSome = true
      ∨ inSteps s n = true then s
  else
    let s := if (sigA s n).prefillDone then s else modA (insertSig s n) n (fun a => { a with prefillDone := true })
    if e.state = .prefilling ∧ (sigA s n).holder = false then
      if recordFree s then sendOffer (modA s n (fun a => { a with prefillDone := false })) n 1 e.holderEndpoint.toNat else s
    else if e.state = .replaying ∧ genDone s n = true then drain s n (doneReason s n)
    else decodeTransition (enterState (modA s n (fun a => { a with prefillDone := false })) n .decoding) n

/-- The control plane reads the commit of one part. -/
def readPart (s : State) (j : Nat) (prompt : Bool) : State :=
  match (partOf (job s j) prompt).committed with
  | none => s
  | some r =>
    let s := r.plan.batch.foldl readBatch s
    let s := r.plan.chunks.foldl readChunk s
    let s := (planSigs r.plan).foldl (fun s n => (sigA s n).groups.foldl (fun s g => match g with
      | some g => modGroup s j g (fun d => { d with ageMs := nowMs s })
      | none => s) s) s
    modPart (r.finished.foldl finishTrigger s) j prompt (fun p => { p with committed := none })

/-- Transit groups of signatures that no step of their window names are freed (R188). -/
def dropTransit (s : State) (j : Nat) : State :=
  let x := job s j
  let plans (p : PartState) : List Composition := p.run.toList.map (fun r => r.plan) ++ frozenPlans p
  let names (t : Transit) : Bool := (plans x.gen ++ plans x.prompt).any (fun c => decide (c.window = t.window) && (planSigs c).contains t.sig)
  (s.span.transit.filter (fun t => decide (t.job = j) && !(names t))).foldl freeTransit s

/-- The boundary phase reads the commits of the previous step and makes their transitions (R82, R87). -/
def readCommits (s : State) (j : Nat) : State :=
  let s := readPart (readPart s j false) j true
  let s := (jobSigs s j).foldl decodeTransition s
  let s := (jobSigs s j).foldl prefillTransition s
  let s := releaseWaiting (dropTransit s j) j
  (jobSigs s j).foldl supersededTransition s

/-- MOVE offers leave for signatures whose positions no step in flight or frozen holds (R206); the commit of a step not yet read is
settled for them first. [DEDUCED: log 58] -/
def moveNow (s : State) (j : Nat) : State :=
  (jobSigsIn s j .decoding).foldl (fun s n => match (sigA s n).moveTarget with
    | none => s
    | some d =>
      if inSteps s n ∨ recordFree s = false ∨ genDone s n = true ∨ (sigA s n).superseded.isSome = true then s else
      let settle (s : State) (p : PartState) : State := match p.committed with
        | some r => (r.plan.batch.filter (fun m => decide (m.sig = n))).foldl readBatch s
        | none => s
      sendOffer (settle (settle s (job s j).gen) (job s j).prompt) n 2 d) s

/-! ### Uncorrectable control-plane reads (R363) -/

/-- The half whose shared SRAM was struck; of the work area the part's own. -/
def struckHalf (s : State) : Struck → Nat
  | .entry h => h
  | .catchword h _ => h
  | _ => freshOf s % 2

/-- Nodes of a half are swept; the group of a node that could not be read keeps its reference. -/
def sweepHalf (s : State) (half lost : Nat) : State :=
  let ids := tkeys s.cw.nodes (fun k x => x.valid && decide (k / 2 ^ 20 = half))
  let s := (ids.filter (fun k => decide (k ≠ lost))).foldl evictNode s
  if ids.contains lost then
    let x := cwNode s lost
    let s := clearSlot s lost
    let s := if x.rootChild then s else modNode s x.parent (fun p => { p with children := p.children - 1 })
    modNode s lost (fun _ => CwNode.zero)
  else s

/-- A job with an entry in the struck half is torn down and restarts. -/
def strikeJob (s : State) (j : Nat) : State := tearDownJob (voidStep s j) j

/-- Where in its half what was struck lies (Table 5-8): signature entries of 128 bytes and the work area in bank 0, catchword buckets of
64 bytes in banks 1 to 8, nodes of 32 bytes in banks 9 to 12; `v` is free and names the place within. -/
def struckPlace (v : Nat) : Struck → Nat
  | .entry _ => v % 16384 * 128
  | .catchword _ node => if node < 2 ^ 21 then 0x4800000 + node % 2 ^ 20 * 32 else 0x800000 + v % 2 ^ 20 * 64
  | _ => 0x200000 + v % 0x600000

/-- R363. Table 17-3 gives these reads no cause code: the code is free, and so is the place within what was struck. [DESIGN CHOICE: log 26] -/
def strike (s : State) (w : Struck) : State :=
  let h := struckHalf s w
  let base := 0xF00080000000 + h * 0x10000000
  let c := Config.fresh (s.freeCtr + 1) % 256
  let a := base + struckPlace (Config.fresh (s.freeCtr + 2)) w
  let s := uncorrectableAt (draw (draw (draw s))) (unitHalf h) c 1 none 0 (2 + h) a
  match w with
  | .entry h =>
    let js := ((liveSigs s).filter (fun n => decide (n / 16384 = h))).map (fun n => (sigE s n).job.toNat)
    js.eraseDups.foldl strikeJob s
  | .catchword h lost => sweepHalf s h lost
  | .queues => { s with sig := { s.sig with waiting := [], offers := [] } }
  | .record n => match recordOf s n with
    | some r => leaseExpired s n r
    | none => s

/-! ### Canaries (R390, R392) -/

/-- Units of a job. -/
def jobUnits (s : State) (j : Nat) : List Nat := (job s j).quires.map unitQuire ++ (job s j).columns.map unitColumn

/-- Every canary falls due in window `k`. -/
def canaryDue (s : State) (k : Nat) : Bool := decide (k % getF s 0x6400 0x06 = 0)

/-- A unit's canary failed: logged with the canary's number, fenced. -/
def failCanary (j k : Nat) (s : State) (u : Nat) : State :=
  let c := k / getF s 0x6400 0x06 % 64
  fence (uncorrectable (incF s 0x6421 j) u 4 0 (some j) c 0) u 6

/-- The canaries of window `k`: mismatch bits are cleared, or the job is torn down (Table 18-2). False: the job is gone. -/
def runCanaries (s : State) (j k : Nat) (fails : List Nat) : State × Bool :=
  let due := if canaryDue s k then jobUnits s j else (job s j).canaries
  let bad := due.filter (fun u => fails.contains u)
  let s := (due.filter (fun u => !(fails.contains u))).foldl (fun s u =>
    modSeq s (if u / 4096 = 1 then u % 4096 else 128 + u % 4096) (fun q => { q with mismatch := false })) s
  let s := modJob s j (fun x => { x with canaries := x.canaries.filter (fun u => !(due.contains u)) })
  if bad = [] then (s, true) else (tearDownJob (voidStep (bad.foldl (failCanary j k) s) j) j, false)

/-! ### Tip-in versions (R100) -/

/-- Slot–version pairs named by steps in flight or frozen. [DESIGN CHOICE: log 133] -/
def pairsInFlight (x : JobSt) : List (Nat × Nat) :=
  (openPlans x.gen ++ openPlans x.prompt).flatMap (fun c => c.pairs)

/-- A slot's versions that are not current, not pinned and named by no step are evicted. -/
def evictVersions (j : Nat) (s : State) (slot : Nat) : State :=
  if getF s 0x2820 slot ≠ 0x80 + j then s else
  let held := pairsInFlight (job s j)
  (List.range 4).foldl (fun s i =>
    let r := getF s 0x2822 slot
    let v := nfld r (16 * i + 15) (16 * i)
    if v = 0 ∨ v = getF s 0x2821 slot ∨ pinCount s slot v ≠ 0 ∨ held.contains (slot, v) = true then s
    else setF s 0x2822 slot (setFld r 0 (16 * i + 15) (16 * i))) s

/-! ### Staging the next step (R82, R90, R96) -/

/-- A decode signature's positions as they stand at the boundary; none when it must stay out: what it held becomes padding. [DEDUCED: log 122; DESIGN CHOICE: log 132] -/
def refreshMember (startNs : Nat) (s : State) (m : BatchMember) : State × Option BatchMember :=
  let e := sigE s m.sig
  if e.state ≠ .decoding ∨ (sigA s m.sig).superseded.isSome = true then (s, some { m with drafts := List.replicate e.draftLen.toNat 0xFFFFFF })
  else
    let base := e.promptLen.toNat + e.genLen.toNat - 1
    let (s, ok) := if base = m.base then (s, true)
      else resolveAll m.sig startNs [] s (groupStarts (leafSize s e.job.toNat) base (1 + e.draftLen.toNat))
    if ok then
      let ds := proposeDrafts (sigA s m.sig).tokens e.draftLen.toNat (getF s 0x2810 0x02) (getF s 0x2810 0x03)
      let s := addF s 0x280B e.job.toNat (ds.countP (fun d => decide (d ≠ 0xFFFFFF)))
      (modA s m.sig (fun a => { a with drafts := ds }), some { m with base := base, drafts := ds })
    else (s, none)

/-- Refresh a batch in order. -/
def refreshBatch (startNs : Nat) : State → List BatchMember → State × List BatchMember
  | s, [] => (s, [])
  | s, m :: r =>
    let (s, x) := refreshMember startNs s m
    let (s, l) := refreshBatch startNs s r
    (s, match x with
      | some m => m :: l
      | none => l)

/-- Chunks leave from the end of the order until a shape's bound fits `us` µs; decode positions stay (R90). -/
def trimShape (i : JobImage) (us : Nat) : Nat → State → Composition → Composition
  | 0, _, c => c
  | fuel + 1, s, c =>
    match (fitShapes i c.count us).find? (fun x => decide (planTokens s c ≤ x.2.1)) with
    | some (k, n, _) => { c with shape := n, shapeIndex := k }
    | none =>
      if c.chunks = [] then (match shapeFor i c.count (planTokens s c) with
        | some (k, n, _) => { c with shape := n, shapeIndex := k }
        | none => c)
      else trimShape i us fuel s { c with chunks := c.chunks.dropLast }

/-- The bound of a composition's shape does not fit the step phase left. -/
def tooLong (i : JobImage) (us : Nat) (c : Composition) : Bool := !((fitShapes i c.count us).any (fun x => decide (x.1 = c.shapeIndex)))

/-- The positions of two compositions of one part are the same. -/
def samePlan (a b : Composition) : Bool :=
  decide (a.batch.map (fun m => (m.sig, m.base)) = b.batch.map (fun m => (m.sig, m.base))) && decide (a.chunks = b.chunks) && decide (a.shape = b.shape)

/-- Stage one part's frozen composition: drafts, trimming, inputs, steer registers; and the position map and lists where the freeze has
not written them as they stand now. A chunk whose earlier positions never came to hold KV stays out. [DEDUCED: log 122] -/
def stagePart (s : State) (j : Nat) (prompt : Bool) (startNs us : Nat) : State :=
  match (partOf (job s j) prompt).frozen with
  | none => s
  | some c0 =>
    let (s, b) := refreshBatch startNs s c0.batch
    let c := { c0 with batch := b, chunks := c0.chunks.filter (fun k => decide (k.start ≤ (sigA s k.sig).kv)), steer := (job s j).freezeSteer }
    let c := if tooLong (imageOf s j) us c then trimShape (imageOf s j) us (c.chunks.length + 1) s c else c
    let c := { c with inputs := tokenInputs s c, pairs := tipinPairs s (planSigs c) }
    let (s, c) := if c.staged && samePlan c0 c then (s, c) else stagePlan s j c
    modPart (writeSteer (stageInputs s j c) j c) j prompt (fun p => { p with frozen := some c })

/-- The composition of the window that opens is brought up. It is void, with those frozen after it, when its part's step, or a step that
holds one of its quires, is carried (R91). [DEDUCED: log 122] -/
def voidFrozen (s : State) (j : Nat) : State :=
  let x := job s j
  let runs := (x.gen.run.toList ++ x.prompt.run.toList).map (fun r => r.plan)
  let clear (p : PartState) : PartState := match (frozenPlans p).filter (fun c => decide (x.window ≤ c.window)) with
    | [] => { p with frozen := none, ahead := [] }
    | c :: r =>
      if p.run.isSome ∨ runs.any (fun r => planMeets r c) = true then { p with frozen := none, ahead := [] }
      else if c.window = x.window then { p with frozen := some c, ahead := r }
      else { p with frozen := none, ahead := c :: r }
  modJob s j (fun x => { x with gen := clear x.gen, prompt := clear x.prompt })

/-! ### Split service (R92, R93) -/

/-- Length of a split period in ns. -/
def splitPeriodNs (s : State) : Nat := getF s 0x2800 0x02 * 1000000

/-- The split period now running. -/
def splitPeriod (s : State) (j : Nat) : Nat := (s.now - (job s j).runNs) / splitPeriodNs s

/-- Pending tokens of REBUILDING and REPLAYING signatures. -/
def recoveryTokens (s : State) (j : Nat) : Nat :=
  ((jobSigsIn s j .rebuilding ++ jobSigsIn s j .replaying).map (pendingTokens s)).foldl (· + ·) 0

/-- Triggers of R92: job start, self-test on quires outside the set, recovery. -/
def splitTriggers (s : State) (j : Nat) : Bool × Bool × Bool :=
  (decide (splitPeriod s j < 2),
   (List.range 128).any (fun q => !((job s j).quires.contains q) && !((unitOf s (unitQuire q)).proved) && !(fencedU s (unitQuire q))),
   decide (getF s 0x2810 0x05 ≤ recoveryTokens s j))

/-- Some trigger holds. -/
def splitTrigger (s : State) (j : Nat) : Bool := (splitTriggers s j).1 || (splitTriggers s j).2.1 || (splitTriggers s j).2.2

/-- The split period in which a trigger last held is noted at every boundary. [DEDUCED: log 54] -/
def noteTrigger (s : State) (j : Nat) : State :=
  if splitTrigger s j then modJob s j (fun x => { x with triggerPeriod := some (splitPeriod s j) }) else s

/-- Split service holds: it ends when no trigger has held for two consecutive split periods. [DEDUCED: log 54, 157] -/
def splitHolds (s : State) (j : Nat) : Bool := match (job s j).triggerPeriod with
  | some p => decide (splitPeriod s j ≤ p + 2)
  | none => false

/-- The smallest shape's bound on `q` quires is given and within w − β. -/
def boundOk (i : JobImage) (q : Nat) : Bool := match shapeBounds i q with
  | (_, _, us) :: _ => decide (us ≤ i.w - i.beta)
  | [] => false

/-- q is permitted (R93). -/
def permittedSplit (i : JobImage) (n q : Nat) : Bool := boundOk i q && (decide (q = n) || boundOk i (n - q))

/-- The greatest permitted multiple of 8 not above q and at least m; 0 when there is none. -/
def greatestPermitted (i : JobImage) (n m : Nat) : Nat → Nat → Nat
  | 0, _ => 0
  | fuel + 1, q => if q < m then 0 else if permittedSplit i n q then q else greatestPermitted i n m fuel (q - 8)

/-- The size that R93 computes for a division that stands at `current`: a trigger holds for it while split service holds (R92). [DEDUCED: log 157] -/
def splitSize (s : State) (j current : Nat) : Nat :=
  let i := imageOf s j
  let n := (job s j).quires.length
  let m := getF s 0x2810 0x04
  let p := ((jobSigsIn s j .prefilling ++ jobSigsIn s j .rebuilding ++ jobSigsIn s j .replaying).map (pendingTokens s)).foldl (· + ·) 0
  let d := (1 + i.draftLimit) * (jobSigsIn s j .decoding).length * (100000 / max i.w 1)
  let q :=
    if splitHolds s j = false ∨ n < 2 * m then 0
    else
      let q0 := if p = 0 then 0 else 8 * ((n * p + 4 * (p + d)) / (8 * (p + d)))
      let q1 := max q0 m
      let q2 := if 0 < d then min q1 (n - m) else q1
      greatestPermitted i n m 32 (q2 / 8 * 8)
  if q = 0 ∨ current = 0 ∨ q + 16 ≤ current ∨ current + 16 ≤ q ∨ (0 < d ∧ n - m < current) then q else current

/-- SPLIT_STATE, folio 0x280D.jj: the triggers that hold and the quires now in the prompt part. [DEDUCED: log 54] -/
def splitWord (s : State) (j : Nat) : Nat :=
  if stepping s j = false then 0 else
  let t := splitTriggers s j
  place (b2n t.2.2) 10 10 + place (b2n t.2.1) 9 9 + place (b2n t.1) 8 8 + place (job s j).split 7 0

/-- The prompt part is sized for the coming windows (R93). [DEDUCED: log 54] -/
def sizeSplit (jb : Nat) (s : State) : State :=
  let x := job s jb
  let s := noteTrigger s jb
  let q := splitSize s jb (x.splitNext.getD x.split)
  modJob s jb (fun x => { x with sizedPeriod := some (splitPeriod s jb), splitNext := some q })

/-- SPLIT_SIZING (R93): at the first window boundary of a split period the prompt part is sized. -/
def execSplitSizing (t jb : Nat) (s : State) : Outcome State Fault Refusal :=
  let s := atTime t s
  let x := job s jb
  if stepping s jb = false ∨ x.window = 0 ∨ x.inStep = true ∨ x.sizedPeriod = some (splitPeriod s jb) then .next s else .next (sizeSplit jb s)

/-! ### The boundary phase -/

/-- The boundary phase runs (R82): what was struck, the canaries, the commit, the notices, swap-ins, evictions, the bookmark, and what
the next step needs. [DEDUCED: log 59] -/
def runBoundary (s : State) (j : Nat) (b : BoundaryIn) : State :=
  let k := (job s j).window
  let s := endBars s j
  let s := modJob s j (fun x => { x with windowNs := s.now, inStep := false, ended := false, nonPreempt := false, awaiting := none })
  let s := match b.struck with
    | some w => strike s w
    | none => s
  if stepping s j = false then s else
  match runCanaries s j k b.canaryFails with
  | (s, false) => s
  | (s, true) =>
    let s := readCommits s j
    let s := noteTrigger (moveNow s j) j
    let s := (jobSigs s j).foldl sendTokens s
    let s := startSwapIn s j
    let s := (List.range 256).foldl (evictVersions j) s
    let s := takeBookmark s j b
    let s := voidFrozen s j
    let end0 := windowStart s j (k + 1)
    let start := s.now + betaNs s j
    let us := (end0 - start) / 1000
    let s := stagePart (stagePart s j false start us) j true start us
    modJob s j (fun x => { x with window := k + 1 })

/-- BOUNDARY_PHASE (R82): the next window of job `jb` opens; while freeze routines are out, the boundary phase waits for them (R140). -/
def execBoundaryPhase (t jb : Nat) (b : BoundaryIn) (s : State) : Outcome State Fault Refusal :=
  let s := atTime t s
  let x := job s jb
  if stepping s jb = false ∨ s.now < windowEnd s jb ∨ partRuns x.gen = true ∨ partRuns x.prompt = true ∨ x.awaiting.isSome = true then .next s
  else if x.freezeOut = [] then .next (runBoundary s jb b)
  else .next (incF (modJob s jb (fun x => { x with awaiting := some b })) 0x3132 jb)


/-- What a freeze routine writes to the job's gather tables in staging, and nowhere else (R140). -/
def freezeTables (j : Nat) (s : State) (w : Nat × List Byte) : State := if inStaging s j w.1 w.2.length then writeBytes s w.1 w.2 else s

/-- FREEZE_ROUTINE_RETURN (R140): `routine` returns, having written `steer` as (register, value) and `tables` as (address, bytes). -/
def execFreezeRoutineReturn (t jb routine : Nat) (writes : RoutineWrites) (s : State) :
    Outcome State Fault Refusal :=
  let s := atTime t s
  if (job s jb).freezeOut.contains routine = false then .next s else
  let put (l : List Nat) (w : Nat × Nat) : List Nat := if 4 ≤ w.1 ∧ w.1 ≤ 15 then l.set (w.1 - 4) (w.2 % 65536) else l
  let s := modJob s jb (fun x => { x with freezeOut := x.freezeOut.erase routine, freezeSteer := writes.steer.foldl put x.freezeSteer })
  let s := writes.tables.foldl (freezeTables jb) s
  match (job s jb).awaiting with
  | some b => .next (if (job s jb).freezeOut = [] ∧ stepping s jb = true then runBoundary s jb b else s)
  | none => .next s

/-! ### The freeze (R84) -/

/-- The next window to be composed: the one that opens next, or one after those that are composed (R84). -/
def nextFreeze (x : JobSt) : Nat := max x.window x.composed

/-- A part has its composition for a window. -/
def frozenFor (p : PartState) (k : Nat) : Bool := (frozenPlans p).any (fun c => decide (c.window = k))

/-- A composition joins those of its part that have not run. -/
def addFrozen (p : PartState) (c : Option Composition) : PartState := match c with
  | none => p
  | some c => if frozenPlans p = [] then { p with frozen := some c } else { p with ahead := p.ahead ++ [c] }

/-- The composer writes map and lists of what it froze, unless the step in flight of a part still reads those areas: the boundary phase
writes them then. [DEDUCED: log 122] -/
def stageFrozen (s : State) (j : Nat) (prompt : Bool) : State :=
  let p := partOf (job s j) prompt
  match p.frozen with
  | some c => if (job s j).gen.run.isSome ∨ (job s j).prompt.run.isSome ∨ p.ahead ≠ [] then s else
      let (s, c) := stagePlan s j c
      modPart s j prompt (fun p => { p with frozen := some c })
  | none => s

/-- The composition of a later window is frozen (R84, R93, R140). [DEDUCED: log 53, 122] -/
def freezeWindow (jb : Nat) (s : State) : State :=
  let k := nextFreeze (job s jb)
  let start := windowStart s jb k + betaNs s jb
  let s := modJob s jb (fun x => { x with victims := [], composed := k + 1,
                                          split := if carries x then x.split else x.splitNext.getD x.split,
                                          splitNext := if carries x then x.splitNext else none,
                                          freezeOut := (imageOf s jb).freezeRoutines, freezeSteer := List.replicate 12 0 })
  let split := (job s jb).split
  let gen := decide (split < (job s jb).quires.length) && !(frozenFor (job s jb).gen k)
  let (s, g) := if gen then compose s jb false (decide (split = 0)) k start else (s, none)
  let (s, p) := if split = 0 ∨ frozenFor (job s jb).prompt k = true then (s, none) else compose s jb true true k start
  let s := modJob s jb (fun x => { x with gen := addFrozen x.gen g, prompt := addFrozen x.prompt p })
  stageFrozen (stageFrozen s jb false) jb true

/-- COMPOSE_FREEZE (R84, R93, R140): the composition of a window is frozen at the compose lead before the nominal end of the window
before it. -/
def execComposeFreeze (t jb : Nat) (s : State) : Outcome State Fault Refusal :=
  let s := atTime t s
  let x := job s jb
  if stepping s jb = false ∨ x.window = 0 ∨ s.now + getF s 0x2810 0x01 * 1000 < windowStart s jb (nextFreeze x) then .next s
  else .next (freezeWindow jb s)

/-! ### The step phase (R134, R91) -/

/-- A stitch index as the stitch pointer holds it: 12 bits in a quire, 10 bits in a gutter unit (R133). -/
def spWrap (id n : Nat) : Nat := n % (if id < 128 then 4096 else 1024)

/-- A sequencer set up for a new step (R134); one of a frozen or fenced unit does not start. [DEDUCED: log 62] -/
def setUp (run : Bool) (s : State) (i : Nat) : State :=
  modSeq s i (fun q =>
    { q with sp := spWrap i q.entry, loops := [], events := List.replicate 16 0, aregs := q.bases.map (fun b => ⟨BitVec.ofNat 48 b, 0, 0, 0, 0⟩),
             waiting := .none, waitSteps := 0, stopped := false, trap := none,
             running := run && !q.frozen && !(fencedU s (seqUnit i)) && !s.err.failed })

/-- A stopped sequencer goes on (R91). -/
def resumeSeq (s : State) (i : Nat) : State := modSeq s i (fun q => { q with stopped := false })

/-- A part's step phase: the carried step resumes, or the frozen composition starts. -/
def startPart (s : State) (j : Nat) (prompt : Bool) : State :=
  match (partOf (job s j) prompt).run, (partOf (job s j) prompt).frozen with
  | some r, _ =>
    let s := (planQuires s j r.plan).foldl resumeSeq s
    modPart s j prompt (fun p => { p with run := some { r with started := true } })
  | none, some c =>
    let s := (planQuires s j c).foldl (setUp true) s
    let r : StepRun := { plan := c, started := true, carried := false, feeds := [], draws := [], finished := [], barred := false, lateTier := 0,
                         lateNs := 0, lateSince := none, lateWaits := [] }
    modPart s j prompt (fun p => { p with frozen := none, run := some r })
  | none, none => s

/-! ### Window end (R88, R89, R144, R145) -/

/-- The stitch at SP. -/
def stitchAt (q : Sequencer) : BitVec 128 := tget 0 q.store q.sp

/-- SP has passed the END of the innermost loop (R142). -/
def loopDue (q : Sequencer) : Bool := match q.loops.getLast? with
  | some l => decide (q.sp = l.endAt + 1)
  | none => false

/-- A sequencer is about to issue a stitch. -/
def issuing (q : Sequencer) : Bool :=
  q.running && !q.stopped && !q.frozen && q.trap.isNone && decide (q.waiting = .none) && !loopDue q

/-- A quire sequencer has reached its step.commit and is in the arrival wait (R145). [DEDUCED: log 65] -/
def atCommit (q : Sequencer) : Bool := issuing q && decide (fld (stitchAt q) 127 120 = 0x1F)

/-- Every quire sequencer of a step is in step.commit: its commit phase has begun. [DEDUCED: log 65] -/
def committing (s : State) (j : Nat) (r : StepRun) : Bool := (planQuires s j r.plan).all (fun q => atCommit (quire s q))

/-- A sequencer stops at a preemption point, keeping its context; a quire's stop is counted. -/
def stopSeq (s : State) (i : Nat) : State :=
  if (seqOf s i).running ∧ (seqOf s i).stopped = false then
    let s := modSeq s i (fun q => { q with stopped := true })
    if i < 128 then incF s 0x3113 i else s
  else s

/-- A sequencer that waits in bar or sig.wait has waited through one more step phase. [DEDUCED: log 53] -/
def waitedThrough (s : State) (i : Nat) : State :=
  let q := seqOf s i
  let waits := match q.waiting with
    | .bar _ _ => true
    | .sig _ _ _ => true
    | _ => false
  if waits && q.running then modSeq s i (fun q => { q with waitSteps := q.waitSteps + 1 }) else s

/-- WAIT_LIMIT_TRAP (Table 6-6, cause 0x16): a bar or sig.wait has waited through more step phases than folio 0x3100.03. [DEDUCED: log 53] -/
def execWaitLimitTrap (t id : Nat) (s : State) : Outcome State Fault Refusal :=
  let s := atTime t s
  let q := seqOf s id
  .next (if q.running ∧ q.waiting ≠ .none ∧ getF s 0x3100 0x03 < q.waitSteps then trapSeq s id 0x16 else s)

/-- Sequencers that run a part's step and are not in its commit phase. -/
def unsettled (s : State) (j : Nat) (prompt : Bool) : List Nat := match (partOf (job s j) prompt).run with
  | some r => if r.started ∧ committing s j r = false then planQuires s j r.plan else []
  | none => []

/-- A sequencer runs a non-preemptible stitch other than the commit: kv.put or sel.feed (R144). -/
def nonPreemptible (q : Sequencer) : Bool :=
  issuing q && (decide (fld (stitchAt q) 127 120 = 0x33) || decide (fld (stitchAt q) 127 120 = 0x34))

/-- The nominal end of a window whose step has not committed (R88). [DEDUCED: log 53, 55] -/
def endWindow (jb : Nat) (busy : List Nat) (s : State) : State :=
  let x := job s jb
  let open0 := unsettled s jb false ++ unsettled s jb true
  let cols := x.columns.map (· + 128)
  let phase (p : PartState) : Bool := match p.run with
    | some r => r.started && committing s jb r
    | none => false
  let busy := open0.filter (fun q => busy.contains q && nonPreemptible (quire s q))
  let np := phase x.gen || phase x.prompt || decide (busy ≠ [])
  let s := ((open0 ++ cols).filter (fun i => !(busy.contains i))).foldl stopSeq s
  let s := modJob s jb (fun x => { x with ended := true, nonPreempt := np })
  (open0 ++ cols).foldl waitedThrough s

/-- After the window end a sequencer stops at the boundary of the non-preemptible stitch that it completed (R88). -/
def stopAfter (s : State) (i : Nat) : State := match (seqOf s i).job with
  | some j => if (job s j).ended then stopSeq s i else s
  | none => s

/-- WINDOW_END (R88): the nominal end finds a step uncommitted. Sequencers in `busy` are within a non-preemptible stitch, which they
finish; the others stop at their next preemption point. A step in its commit phase commits. -/
def execWindowEnd (t jb : Nat) (busy : List Nat) (s : State) : Outcome State Fault Refusal :=
  let s := atTime t s
  let x := job s jb
  if stepping s jb = false ∨ s.now < windowEnd s jb ∨ x.inStep = false ∨ x.ended = true then .next s
  else if partRuns x.gen = false ∧ partRuns x.prompt = false then .next (endBars s jb)
  else .next (endWindow jb busy s)

/-- The overrun is over: every sequencer of the job has stopped or its step has committed (R89). [DEDUCED: log 55] -/
def settleOverrun (s : State) (j : Nat) : State :=
  let x := job s j
  if x.ended = false ∨ partRuns x.gen = true ∨ partRuns x.prompt = true then s else
  let i := imageOf s j
  let o := s.now - windowEnd s j
  let s := if x.nonPreempt ∧ 0 < o then incF s 0x2806 j else s
  let s := maxF s 0x2807 j o
  let skip := if (i.w - i.beta) * 1000 ≤ o then (o + i.beta * 1000) / (max i.w 1 * 1000) else 0
  if skip = 0 then s else addF (modJob s j (fun x => { x with window := x.window + skip })) 0x2808 j skip

/-- A part's step is carried (R91): the composition frozen for that part is void. -/
def carryPart (s : State) (j : Nat) (prompt : Bool) : State :=
  match (partOf (job s j) prompt).run with
  | none => s
  | some r =>
    if r.started = false ∨ committing s j r = true then s else
    let s := (planQuires s j r.plan).foldl stopSeq s
    let s := modPart s j prompt (fun p => { p with frozen := none, ahead := [], run := some { r with started := false, carried := true } })
    incF (modJob s j (fun x => { x with composed := min x.composed (x.window + 1) })) 0x2805 j

/-- Every sequencer whose part has not committed has stopped or is out of the step (R88, R91). -/
def allStopped (s : State) (j : Nat) : Bool :=
  (unsettled s j false ++ unsettled s j true).all (fun i => !(seqOf s i).running || (seqOf s i).stopped)

/-- STEP_CARRIED (R91): every sequencer of job `jb` has stopped without commit. -/
def execStepCarried (t jb : Nat) (s : State) : Outcome State Fault Refusal :=
  let s := atTime t s
  if stepping s jb = false ∨ (job s jb).ended = false ∨ allStopped s jb = false then .next s else
  let s := carryPart (carryPart s jb false) jb true
  .next (settleOverrun ((job s jb).columns.foldl (fun s c => stopSeq s (128 + c)) s) jb)

/-! ### The commit (R87, R97, R98, R145) -/

/-- What a step's selectors drew for generated token `i` of a signature. -/
def drawnFor (r : StepRun) (n i : Nat) : Option Draw := (r.draws.find? (fun d => decide (d.1 = (n, i)))).map (fun d => d.2)

/-- A selector error is logged (R98). [DEDUCED: log 71] -/
def logSelector (s : State) (j n : Nat) : State := logErr s 0x3C 0 0 (some j) n 0

/-- Positions for which no selector has decided: an incomplete vocabulary is an error (R98, R143). -/
def missingDraws (r : StepRun) (n i cnt : Nat) : Nat := (List.range cnt).countP (fun k => (drawnFor r n (i + k)).isNone)

/-- Log every position of a signature whose vocabulary did not come. -/
def logMissing (s : State) (j n : Nat) : Nat → State
  | 0 => s
  | k + 1 => logSelector (logMissing s j n k) j n

/-- Tokens of one signature are committed: log, GEN_LEN, STEP_SEQ; a selector error that left none is counted. -/
def commitTokens (s : State) (j n : Nat) (toks : List Nat) (error : Bool) : State :=
  let s := appendLog s n toks
  let dry := error && decide (toks = [])
  let s := modE s n (fun e => { e with genLen := e.genLen + BitVec.ofNat 24 toks.length, stepSeq := BitVec.ofNat 32 (job s j).step,
                                       stallCount := if dry then satInc e.stallCount else e.stallCount })
  modA s n (fun a => { a with selectorErrors := if dry then a.selectorErrors + 1 else 0 })

/-- A decode signature commits (R97); one that no longer decodes is padding (R101). [DEDUCED: log 57] -/
def commitMember (j : Nat) (r : StepRun) (s : State) (m : BatchMember) : State :=
  let e := sigE s m.sig
  let i := e.genLen.toNat
  if batchLive s m = false ∨ genDone s m.sig = true ∨ m.base + 1 ≠ e.promptLen.toNat + i then s else
  let s := logMissing s j m.sig (missingDraws r m.sig i (1 + m.drafts.length))
  let v := verifyFrom e (fun k => (drawnFor r m.sig k).getD .error) i 0 m.drafts
  commitTokens (addF s 0x280C j v.accepted) j m.sig v.tokens v.error

/-- A chunk commits: generated token 0 is drawn from the last prompt position when GEN_LEN = 0 (R85). -/
def commitChunk (j : Nat) (r : StepRun) (s : State) (k : Chunk) : State :=
  let e := sigE s k.sig
  if chunkLive s k = false then s
  else if e.genLen.toNat = 0 ∧ k.start < e.promptLen.toNat ∧ e.promptLen.toNat ≤ k.start + k.len then
    match drawnFor r k.sig 0 with
    | some (.token t) => commitTokens s j k.sig [t] false
    | some .error => commitTokens s j k.sig [] true
    | none => commitTokens (logSelector s j k.sig) j k.sig [] true
  else modE s k.sig (fun e => { e with stepSeq := BitVec.ofNat 32 (job s j).step })

/-- After the commit phase of a part the sequencers of the columns idle (R145): in split service those that this part started. -/
def idleColumns (s : State) (j : Nat) (prompt : Bool) : State :=
  ((job s j).columns.filter (fun c => decide ((job s j).split = 0) || ((gutter s c).byPrompt == prompt))).foldl
    (fun s c => modSeq s (128 + c) (fun x => { x with running := false })) s

/-- The commit phase of a part's step has run (R87). -/
def commitPart (s0 : State) (j : Nat) (prompt : Bool) (r : StepRun) : State :=
  let s := s0
  let s := r.plan.batch.foldl (commitMember j r) s
  let s := r.plan.chunks.foldl (commitChunk j r) s
  let used := (r.plan.batch.map (fun m => 1 + m.drafts.length)).foldl (· + ·) 0
  let chunked := (r.plan.chunks.map (fun k => k.len)).foldl (· + ·) 0
  let s := addF (addF (incF s 0x2804 j) 0x2809 j chunked) 0x280A j (r.plan.shape - used - chunked)
  let s := (planQuires s j r.plan).foldl (fun s q => modSeq s q (fun x => { x with waiting := .none, running := false, waitSteps := 0 })) s
  let s := dropOwnPasses (settleLate s j (some r)) j (fun n => (planSigs r.plan).contains n)
  let fin := (r.plan.batch.map (fun m => m.sig)).filter (fun n => (endDue s0 n).isNone && (endDue s n).isSome)
  let s := modPart s j prompt (fun p => { p with run := none, committed := some { r with finished := fin } })
  let s := idleColumns s j prompt
  moveNow (settleOverrun (modJob s j (fun x => { x with step := (x.step + 1) % 2 ^ 32, trapVoids := 0 })) j) j

/-- STEP_COMMIT (R87, R145): the commit phase of a part of job `jb` ends; `prompt` selects the part. A step that a fence bars does not
commit. [DEDUCED: log 62, 65] -/
def execStepCommit (t jb : Nat) (prompt : Bool) (s : State) : Outcome State Fault Refusal :=
  let s := atTime t s
  match (partOf (job s jb) prompt).run with
  | none => .next s
  | some r =>
    if stepping s jb = false ∨ r.started = false ∨ planQuires s jb r.plan = [] ∨ committing s jb r = false then .next s
    else if r.barred then .next (voidStep s jb)
    else .next (commitPart s jb prompt r)

end Sys2Proof.Machine
end

