-- ==== Sys2Proof/Machine/Stitch.lean ====
section
/-! DEFINITION. Sequencers (R133 to R142, R146, R173): the stitches that both stores run, barriers, signals, calls, gutter
starts, and the asynchronous transfers of a quire. -/

namespace Sys2Proof.Machine

open Host

/-! ### Issue (R136, R141) -/

/-- The store that runs an opcode (Table 6-3): quire only, gutter only, or both. -/
def storeRuns (op id : Nat) : Bool :=
  if op = 0x05 ∨ 0x80 ≤ op then decide (128 ≤ id) && decide (id < 1152)
  else if op ≤ 0x12 then decide (id < 1152)
  else decide (id < 128)


/-- Sequencer `id` is about to issue a stitch with opcode `op`. [DEDUCED: log 67] -/
def issues (s : State) (id op : Nat) : Bool :=
  storeRuns op id && issuing (seqOf s id) && decide (fld (stitchAt (seqOf s id)) 127 120 = op)

/-- The stitch pointer moves on. -/
def advance (s : State) (id : Nat) : State := modSeq s id (fun q => { q with sp := spWrap id (q.sp + 1) })

/-- The results of a stitch that works on data are discarded: its unit was fenced during the step (Tables 5-10 and 7-11). -/
def discards (s : State) (id op : Nat) : Bool := decide (0x20 ≤ op) && fencedU s (seqUnit id)

/-- A stitch with opcode `op` runs on sequencer `id` at local time `t`: `f` is given the stitch. -/
def runStitch (t id op : Nat) (f : State → BitVec 128 → State) (s : State) : State :=
  let s := atTime t s
  if issues s id op = false then s
  else if discards s id op then advance s id
  else f s (stitchAt (seqOf s id))




/-- INDEX of an open loop level, 0 when it is not open (R135). -/
def loopIndex (q : Sequencer) (l : Nat) : Nat := match q.loops[l]? with
  | some x => x.index
  | none => 0

/-- The effective address of register An (R135). -/
def ea (q : Sequencer) (n : Nat) : Nat :=
  let a := q.aregs.getD n ⟨0, 0, 0, 0, 0⟩
  let off (x : BitVec 24) (l : Nat) : Int := x.toInt * 64 * (loopIndex q l : Int)
  (((a.base.toNat : Int) + off a.s0 0 + off a.s1 1 + off a.s2 2 + off a.s3 3) % (2 ^ 48 : Int)).toNat

/-- The quire runs in the prompt part's step, whose sequencers read bank 1 (R138). -/
def inPromptPart (s : State) (j q : Nat) : Bool := match (job s j).prompt.run with
  | some r => r.plan.promptOnly && (planQuires s j r.plan).contains q
  | none => false

/-- The steer bank that a sequencer reads (R138). -/
def steerView (s : State) (id : Nat) : List Nat := match (seqOf s id).job with
  | none => []
  | some j =>
    let bank1 := if id < 128 then inPromptPart s j id else (gutter s (id - 128)).byPrompt
    if bank1 then (job s j).steer1 else (job s j).steer0

/-- The count of lp.begin and gath.ld: its own, or a steer register's. -/
def countOf (s : State) (id cnt : Nat) (fromSr : Bool) (sr : Nat) : Nat := if fromSr then (steerView s id).getD sr 0 else cnt

/-- An event counter rises and saturates (Table 6-1). -/
def raiseEvent (s : State) (id e n : Nat) : State :=
  modSeq s id (fun q => { q with events := q.events.set e (min 65535 (q.events.getD e 0 + n)) })

/-! ### Loops, jumps, address registers -/

/-- NOP. -/
def execNop (t id : Nat) (s : State) : Outcome State Fault Refusal := .next (runStitch t id 0x00 (fun s _ => advance s id) s)

/-- lp.begin (R142): more than four open levels trap with cause 0x17. -/
def loopBegin (s : State) (id : Nat) (w : BitVec 128) : State :=
  let body := fld w 119 108
  let n := countOf s id (fld w 107 92) (nbit w.toNat 91) (fld w 90 87)
  let q := seqOf s id
  if n = 0 then setSeq s id { q with sp := spWrap id (q.sp + body + 1) }
  else if 4 ≤ q.loops.length then trapSeq s id 0x17
  else setSeq s id { q with sp := spWrap id (q.sp + 1), loops := q.loops ++ [{ start := q.sp + 1, endAt := q.sp + body, left := n, index := 0 }] }

/-- LP_BEGIN. -/
def execLpBegin (t id : Nat) (s : State) : Outcome State Fault Refusal := .next (runStitch t id 0x01 (fun s w => loopBegin s id w) s)

/-- At END of the innermost loop: the level repeats the body or is popped. -/
def loopEnd (q : Sequencer) : Sequencer := match q.loops.getLast? with
  | none => q
  | some l =>
    if 1 < l.left then { q with sp := l.start, loops := q.loops.dropLast ++ [{ l with index := l.index + 1, left := l.left - 1 }] }
    else { q with loops := q.loops.dropLast }

/-- A sequencer is free to go on: it runs, is neither stopped, frozen nor trapped, and waits for nothing. -/
def goesOn (q : Sequencer) : Bool := q.running && !q.stopped && !q.frozen && q.trap.isNone && decide (q.waiting = .none)

/-- LOOP_END (R142): the body's last stitch is done. -/
def execLoopEnd (t id : Nat) (s : State) : Outcome State Fault Refusal :=
  let s := atTime t s
  .next (if goesOn (seqOf s id) ∧ loopDue (seqOf s id) = true then modSeq s id loopEnd else s)

/-- jmp.st (R142). -/
def jumpSteer (s : State) (id : Nat) (w : BitVec 128) : State :=
  let v := (steerView s id).getD (fld w 119 116) 0
  if fld w 91 84 ≤ v then trapSeq s id 0x11 else modSeq s id (fun q => { q with sp := spWrap id (fld w 115 104 + v * fld w 103 92) })

/-- JMP_ST. -/
def execJmpSt (t id : Nat) (s : State) : Outcome State Fault Refusal := .next (runStitch t id 0x02 (fun s w => jumpSteer s id w) s)

/-- An address register changes, and the sequencer goes on. -/
def setAreg (s : State) (id n : Nat) (f : AddrReg → AddrReg) : State :=
  modSeq s id (fun q => { q with sp := spWrap id (q.sp + 1), aregs := q.aregs.set n (f (q.aregs.getD n ⟨0, 0, 0, 0, 0⟩)) })

/-- AR_BASE. -/
def execArBase (t id : Nat) (s : State) : Outcome State Fault Refusal :=
  .next (runStitch t id 0x03 (fun s w => setAreg s id (fld w 119 116) (fun a => { a with base := BitVec.ofNat 48 (fld w 115 68) })) s)

/-- AR_STRIDE. -/
def execArStride (t id : Nat) (s : State) : Outcome State Fault Refusal :=
  .next (runStitch t id 0x04 (fun s w => setAreg s id (fld w 119 116) (fun a =>
    { a with s0 := BitVec.ofNat 24 (fld w 115 92), s1 := BitVec.ofNat 24 (fld w 91 68), s2 := BitVec.ofNat 24 (fld w 67 44),
             s3 := BitVec.ofNat 24 (fld w 43 20) })) s)

/-! ### Columns: start and halt -/

/-- A gutter table ends: the counter named by gu.run rises when NOTIFY was set. -/
def haltColumn (s : State) (c : Nat) : State :=
  let n := (gutter s c).notify
  let s := modGutter s c (fun g => { g with notify := none, seq := { g.seq with running := false } })
  match n with
  | some (q, e) => raiseEvent s q e 1
  | none => s

/-- HALT. -/
def execHalt (t id : Nat) (s : State) : Outcome State Fault Refusal := .next (runStitch t id 0x05 (fun s _ => haltColumn s (id - 128)) s)

/-- Start one column at a gutter stitch; one that runs already starts anew, and one that is frozen, trapped or fenced does not. -/
def startColumn (entry : Nat) (note : Option (Nat × Nat)) (prompt : Bool) (s : State) (c : Nat) : State :=
  modGutter s c (fun g =>
    { g with notify := note, byPrompt := prompt, attWait := false, attEntry := 0, attRows := [],
             seq := { g.seq with sp := entry, loops := [], waiting := .none, stopped := false,
                                 running := !g.seq.frozen && g.seq.trap.isNone && !(fencedU s (unitColumn c)) && !s.err.failed } })

/-- gu.run (R142): columns COL_LO to COL_LO + COL_COUNT − 1 of the job's column set start at ENTRY. [DEDUCED: log 66] -/
def gutterRun (s : State) (q : Nat) (w : BitVec 128) : State := match (quire s q).job with
  | none => s
  | some j =>
    let cols := ((job s j).columns.drop (fld w 119 110)).take (fld w 109 99)
    let note := if nbit w.toNat 84 then some (q, fld w 88 85) else none
    advance (cols.foldl (startColumn (fld w 98 89) note (inPromptPart s j q)) s) q

/-- GU_RUN. -/
def execGuRun (t id : Nat) (s : State) : Outcome State Fault Refusal := .next (runStitch t id 0x14 (fun s w => gutterRun s id w) s)

/-! ### Barriers and signals -/

/-- bar (R142): the sequencer arrives at ID and waits. -/
def barArrive (s : State) (id : Nat) (w : BitVec 128) : State := match (seqOf s id).job with
  | none => s
  | some j =>
    let b := fld w 119 116
    let s := modJob s j (fun x => { x with barriers := tput x.barriers b (tget [] x.barriers b ++ [id]) })
    modSeq s id (fun q => { q with waiting := .bar b (fld w 115 105), waitSteps := 0 })

/-- BAR. -/
def execBar (t id : Nat) (s : State) : Outcome State Fault Refusal := .next (runStitch t id 0x10 (fun s w => barArrive s id w) s)

/-- A waiter of a barrier at which `n` parties have arrived may go: that is enough, and it is neither stopped nor trapped. [DEDUCED: log 66] -/
def barReady (s : State) (b n id : Nat) : Bool :=
  let q := seqOf s id
  q.running && !q.stopped && !q.frozen && q.trap.isNone && (match q.waiting with
    | .bar i p => decide (i = b) && decide (p ≤ n)
    | _ => false)

/-- PARTIES of the bar that a sequencer waits in. -/
def barParties (s : State) (id : Nat) : Nat := match (seqOf s id).waiting with
  | .bar _ p => p
  | _ => 0

/-- The wait of a sequencer is over. -/
def endWait (s : State) (id : Nat) : State := modSeq s id (fun q => { q with sp := spWrap id (q.sp + 1), waiting := .none, waitSteps := 0 })

/-- BAR_RELEASE (R142): the last party has arrived at barrier `bar` of job `jb`. It is then free for reuse, and later arrivals are those
of its next use. -/
def execBarRelease (t jb bar : Nat) (s : State) : Outcome State Fault Refusal :=
  let s := atTime t s
  let l := tget [] (job s jb).barriers bar
  let n := barParties s (l.headD 0)
  let go := l.take n
  .next (if go ≠ [] ∧ go.length = n ∧ go.all (barReady s bar n) = true then
    go.foldl endWait (modJob s jb (fun x => { x with barriers := tset [] x.barriers bar (l.drop n) })) else s)

/-- sig.post (R142): a rank that the job does not have receives nothing. [DEDUCED: log 66] -/
def sigPost (s : State) (id : Nat) (w : BitVec 128) : State := match (seqOf s id).job with
  | none => s
  | some j =>
    let r := fld w 114 105
    let target : Option Nat := if nbit w.toNat 115 then (job s j).columns[r]?.map (· + 128) else (job s j).quires[r]?
    advance (match target with
      | some k => raiseEvent s k (fld w 119 116) (fld w 104 89)
      | none => s) id

/-- SIG_POST. -/
def execSigPost (t id : Nat) (s : State) : Outcome State Fault Refusal := .next (runStitch t id 0x11 (fun s w => sigPost s id w) s)

/-- A threshold is met: VALUE is subtracted when CLEAR is set, and sequencer `id` goes on. -/
def sigPass (id e v : Nat) (clear : Bool) (q : Sequencer) : Sequencer :=
  { q with sp := spWrap id (q.sp + 1), waiting := .none, waitSteps := 0,
           events := if clear then q.events.set e (q.events.getD e 0 - v) else q.events }

/-- sig.wait (R142). -/
def sigWait (s : State) (id : Nat) (w : BitVec 128) : State :=
  let e := fld w 119 116
  let v := fld w 115 100
  let clear := nbit w.toNat 99
  modSeq s id (fun q => if v ≤ q.events.getD e 0 then sigPass id e v clear q else { q with waiting := .sig e v clear, waitSteps := 0 })

/-- SIG_WAIT. -/
def execSigWait (t id : Nat) (s : State) : Outcome State Fault Refusal := .next (runStitch t id 0x12 (fun s w => sigWait s id w) s)

/-- SIG_WAIT_RELEASE (R142): the waited counter has reached its threshold. -/
def execSigWaitRelease (t id : Nat) (s : State) : Outcome State Fault Refusal :=
  let s := atTime t s
  let q := seqOf s id
  match q.waiting with
  | .sig e v clear =>
    .next (if q.running ∧ q.stopped = false ∧ q.frozen = false ∧ q.trap = none ∧ v ≤ q.events.getD e 0 then setSeq s id (sigPass id e v clear q) else s)
  | _ => .next s

/-! ### Control-die calls -/

/-- CTL_CALL (R142): the routine starts with EA(AREG), and the sequencer continues. [DESIGN CHOICE: log 72] -/
def execCtlCall (t id : Nat) (s : State) : Outcome State Fault Refusal :=
  .next (runStitch t id 0x13 (fun s w => modSeq s id (fun q =>
    { q with sp := spWrap id (q.sp + 1),
             calls := q.calls ++ [{ routine := fld w 119 108, arg := ea q (fld w 107 104), event := fld w 103 100, startNs := s.now }] })) s)

/-! ### Addresses (R123, R126, R135, R152, R267) -/

/-- Device physical address of a quire-local address. -/
def quireAddr (q a : Nat) : Nat := 0xF00000000000 + q * 0x800000 + a

/-- A refused address of a quire's DMA: a local refusal where an outbound window refuses it, and trap 0x12. [DEDUCED: log 64] -/
def dmaRefused (s : State) (q j : Nat) (a : Int) : State :=
  if inOutbound a.toNat then localRefuse s 0 q j else trapSeq s q 0x12

/-! ### Transfers (R136, R142, R155, R361, R364) -/

/-- The moves that store a row at a device address: 16 for the broadcast window (R155). -/
def storeMoves (s : State) (src dst n : Nat) : List Move :=
  if inBroadcast dst then
    let k := (dst - 0x180000000000) / 0x400000
    (List.range 16).map (fun i => { src := src, dst := workArea s (16 * k + i) + (dst - 0x180000000000) % 0x400000, len := n })
  else [{ src := src, dst := dst, len := n }]

/-- Bytes of device memory, flash included. -/
def devRead (s : State) (a n : Nat) : List Byte :=
  if inFlash a then (List.range n).map (fun i => ((targetRead s (a + i) 1).getD []).getD 0 0) else readBytes s a n

/-- Store bytes in device memory, flash included. -/
def devWrite (s : State) (a : Nat) (bs : List Byte) : State :=
  if inFlash a then bookPumps (targetWrite s a bs) else writeBytes s a bs

/-- One move of a transfer is made; lines that members of the binding hold are settled first (R279). [DEDUCED: log 149] -/
def runMove (s : State) (m : Move) : State :=
  let s := settleOwn (settleOwn s m.src m.len false) m.dst m.len true
  clearPoison (devWrite s m.dst (devRead s m.src m.len)) m.dst m.len

/-- The beats of 64 bytes of a list of moves. [DEDUCED: log 68] -/
def beatsOf (ms : List Move) : List Move :=
  ms.flatMap (fun m => (List.range (m.len / 64)).map (fun i => { src := m.src + i * 64, dst := m.dst + i * 64, len := 64 }))

/-- Fabric transactions of a row that lies in an outbound window: pieces of at most 4 KiB that cross no 4 KiB boundary. -/
def outPieces (s : State) (q j : Nat) (load : Bool) (quireA dev n : Nat) : State :=
  (msgPieces (dev % 4096) n).foldl (fun s p =>
    let a := dev + p.1
    let e := outboundOf s ((a - 0xD00000000000) / 0x400000000)
    let off := (e.offsetBase + (a - 0xD00000000000) % 0x400000000) % 2 ^ 48
    let vn := if 0xFF0000000000 ≤ off then 2 else 0
    match issue s (if load then 1 else 2) e.endpoint j 0 q vn off p.2 0 e.ordered (if load then [] else readBytes s (quireA + p.1) p.2)
        (if load then some (quireA + p.1) else none) with
    | (s, none) => s
    | (s, some st) => failAtOnce s 0 q j st (if load then 1 else 2) e.endpoint off) s

/-- The unit charged with a failing address of a transfer: one of the job's own sets, or else the quire. [DEDUCED: log 94] -/
def haltUnit (s : State) (q j a : Nat) : Nat :=
  let u := unitAt s a
  if unitJob s u = some j then u else unitQuire q

/-- Corrected errors of the memory a transfer reads (R361). -/
def correctAll (s : State) (l : List Nat) : State := l.foldl (fun s a => correctableAt s (unitAt s a) (memoryOf s a) a) s

/-- A transfer halts at its failing beat (R364): beats before it are written, no event is posted, and the step does not commit. [DEDUCED: log 68] -/
def haltTransfer (s : State) (q j : Nat) (ms : List Move) (beat addr : Nat) : State :=
  let s := ((beatsOf ms).take beat).foldl runMove s
  let u := haltUnit s q j addr
  unitEvent (channelHalt s u 0 (some j) beat (memoryOf s addr) addr (masterOf 0 q)) j u

/-- The first beat of a list of moves that reads a poisoned line (R281). -/
def poisonedBeat (s : State) (ms : List Move) : Option Nat := (beatsOf ms).findIdx? (fun m => poisonedRange s m.src m.len)

/-- A transfer of rows of `n` bytes, given by quire-local and device addresses: what moves here, and what leaves through an outbound window. -/
def rowMoves (s : State) (q n : Nat) (load : Bool) (rows : List (Nat × Nat)) : List Move × List (Nat × Nat × Nat) :=
  let here := rows.filter (fun r => !(inOutbound r.2))
  (here.flatMap (fun r => if load then [{ src := r.2, dst := quireAddr q r.1, len := n }] else storeMoves s (quireAddr q r.1) r.2 n),
   (rows.filter (fun r => inOutbound r.2)).map (fun r => (quireAddr q r.1, r.2, n)))

/-- What stops a gather entry: cause 0x13 for its form, 0x12 for where it leads; none when it is good. -/
def gatherFault (s : State) (j : Nat) (base : Nat) (local0 : Int) (n : Nat) (e : Nat × Nat) : Option Nat :=
  if nfld e.2 63 48 ≠ 0 ∨ nfld e.2 47 0 % 64 ≠ 0 then some 0x13
  else if localOk (local0 + (e.1 : Int) * n) n && dmaOk s j false ((base + nfld e.2 47 0 : Nat) : Int) n then none
  else some 0x12

/-- The entries of a gather's table: index and contents. -/
def gatherEntries (s : State) (g : GatherRef) : List (Nat × Nat) := (List.range g.count).map (fun e => (e, readNat s (g.table + 8 * e) 8))

/-- A gather that is the first outstanding transfer begins: it reads its table, whole before any row moves (R142), after the transfers issued
before it (R136); or it traps at its own stitch. Other transfers are as they were issued. [DEDUCED: log 67] -/
def readTable (s : State) (q j : Nat) (x : Transfer) (r : List Transfer) : State := match x.gather with
  | none => s
  | some g =>
    let es := gatherEntries s g
    match es.findSome? (gatherFault s j g.base (g.dst : Int) g.len) with
    | some c => trapSeq (modSeq s q (fun y => { y with sp := g.sp, transfers := r })) q c
    | none =>
      let m := rowMoves s q g.len true (es.map (fun e => (g.dst + e.1 * g.len, g.base + nfld e.2 47 0)))
      modSeq s q (fun y => { y with transfers := { x with moves := m.1, away := m.2, gather := none } :: r })

/-- The first outstanding transfer of a quire begins (R136): what the memory it reads corrects is noted, and its rows in outbound windows
leave as fabric transactions; or an uncorrectable error halts it, and the quire's transfers with it. A poisoned line ends it as status 0x8
does (R281, Table 12-9). -/
def beginMoves (s : State) (q j : Nat) : State := match (quire s q).transfers with
  | [] => s
  | x :: r =>
    let s := correctAll s x.fault.corrected
    match x.fault.halt with
    | some (beat, addr) => haltTransfer (modSeq s q (fun y => { y with transfers := r })) q j x.moves beat addr
    | none => match poisonedBeat s x.moves with
      | some beat =>
        failMaster (((beatsOf x.moves).take beat).foldl runMove (modSeq s q (fun y => { y with transfers := r }))) (masterOf 0 q) j 8 none 0
      | none => x.away.foldl (fun s a => outPieces s q j x.load a.1 a.2.1 a.2.2) s

/-- The quire's first outstanding transfer begins; where a gather stops at its table, those behind it follow. `fuel` bounds them. -/
def beginTransfers (q j : Nat) : Nat → State → State
  | 0, s => s
  | fuel + 1, s => match (quire s q).transfers with
    | [] => s
    | x :: r =>
      let u := readTable s q j x r
      if (quire u q).transfers.length = r.length then beginTransfers q j fuel u else beginMoves u q j

/-- The quire's first outstanding transfer begins (R136). -/
def beginTransfer (s : State) (q j : Nat) : State := beginTransfers q j (quire s q).transfers.length s

/-- A transfer of a quire issues. It is outstanding until TRANSFER_COMPLETE, and begins once those issued before it have completed
(R136). [DEDUCED: log 67] -/
def issueTransfer (s : State) (q j : Nat) (x : Transfer) : State :=
  let first := decide ((quire s q).transfers = [])
  let s := modSeq (advance s q) q (fun y => { y with transfers := y.transfers ++ [x] })
  if first then beginTransfer s q j else s

/-- A DMA transfer of rows issues: `rows` gives quire-local and device addresses of rows of `n` bytes. -/
def launchTransfer (s : State) (q j event n : Nat) (load : Bool) (rows : List (Nat × Nat)) (f : DmaFault) : State :=
  let m := rowMoves s q n load rows
  issueTransfer s q j { moves := m.1, event := event, load := load, away := m.2, fault := f, gather := none }

/-- A signed field of a stitch. -/
def sfld (w : BitVec 128) (hi lo : Nat) : Int := (BitVec.ofNat (hi + 1 - lo) (fld w hi lo)).toInt

/-- Rows of dma.ld and dma.st: quire-local and device addresses. [DEDUCED: log 67] -/
def dmaRows (q : Sequencer) (w : BitVec 128) : List (Int × Int) :=
  let a : Int := ((ea q (fld w 119 116) % 0x800000 : Nat) : Int)
  let x : Int := ((ea q (fld w 115 112) : Nat) : Int)
  (List.range (fld w 111 96)).map (fun (r : Nat) => (a + (r : Int) * sfld w 79 56 * 64, x + (r : Int) * sfld w 55 32 * 64))

/-- dma.ld and dma.st (R142): every row is checked before any is moved. -/
def dma (s : State) (q : Nat) (load : Bool) (w : BitVec 128) (f : DmaFault) : State :=
  let x := quire s q
  match x.job with
  | none => s
  | some j =>
    if 8 ≤ x.transfers.length then s else
    let n := fld w 95 80 * 64
    let rows := dmaRows x w
    match rows.find? (fun r => !(localOk r.1 n && dmaOk s j (!load) r.2 n)) with
    | some r => if localOk r.1 n then dmaRefused s q j r.2 else trapSeq s q 0x12
    | none => launchTransfer s q j (fld w 31 28) n load (rows.map (fun r => (r.1.toNat, r.2.toNat))) f

/-- DMA_LD. -/
def execDmaLd (t id : Nat) (f : DmaFault) (s : State) : Outcome State Fault Refusal := .next (runStitch t id 0x30 (fun s w => dma s id true w f) s)

/-- DMA_ST. -/
def execDmaSt (t id : Nat) (f : DmaFault) (s : State) : Outcome State Fault Refusal := .next (runStitch t id 0x31 (fun s w => dma s id false w f) s)

/-- gath.ld (R142): where its table lies is checked as it issues; the table is read as the transfer begins. -/
def gather (s : State) (q : Nat) (w : BitVec 128) (f : DmaFault) : State :=
  let x := quire s q
  match x.job with
  | none => s
  | some j =>
    if 8 ≤ x.transfers.length then s else
    let cnt := countOf s q (fld w 107 92) (nbit w.toNat 91) (fld w 90 87)
    let n := fld w 86 71 * 64
    let table := ea x (fld w 115 112)
    let base := ea x (fld w 111 108)
    if 0 < cnt ∧ dmaOk s j false (table : Int) (8 * cnt) = false then trapSeq s q 0x12
    else issueTransfer s q j
      { moves := [], event := fld w 70 67, load := true, away := [], fault := f,
        gather := some { sp := x.sp, table := table, count := cnt, base := base, dst := ea x (fld w 119 116) % 0x800000, len := n } }

/-- GATH_LD. -/
def execGathLd (t id : Nat) (f : DmaFault) (s : State) : Outcome State Fault Refusal := .next (runStitch t id 0x32 (fun s w => gather s id w f) s)

/-- Fabric transactions of a quire's transfers are outstanding. -/
def quireWaits (s : State) (q : Nat) : Bool :=
  s.fabric.outstanding.any (fun o => decide (o.master = masterOf 0 q))
    || s.fabric.withheld.any (fun x => decide (hMaster x.header = masterOf 0 q))

/-- TRANSFER_COMPLETE (R136): the first outstanding transfer of quire `id` completes and posts its event; the next one begins. [DEDUCED: log 6, 67] -/
def execTransferComplete (t id : Nat) (s : State) : Outcome State Fault Refusal :=
  let s := atTime t s
  if quireWaits s id then .next s else
  match (quire s id).transfers with
  | [] => .next s
  | x :: r =>
    let s := raiseEvent (modSeq (x.moves.foldl runMove s) id (fun q => { q with transfers := r })) id x.event 1
    .next (match (quire s id).job with
      | some j => beginTransfer s id j
      | none => s)

/-! ### Fetch (R137) -/

/-- Memory of Table 17-4 that holds a sequencer's stitch store, with its unit: quire SRAM or columns of a half. -/
def storeMemory (id : Nat) : Nat := if id < 64 then 4 else if id < 128 then 5 else if id < 640 then 6 else 7

/-- The stitch at SP is rewritten into the store from the backing region (R137). -/
def refetch (s : State) (id : Nat) : State :=
  let q := seqOf s id
  match q.backing with
  | some a => modSeq s id (fun q => { q with store := tput q.store q.sp (BitVec.ofNat 128 (ofBytesLE (readBytes s (a + 16 * q.sp) 16))) })
  | none => s

/-- STITCH_REFETCH_DONE (R137): a stitch with a parity error has been fetched again from the backing region. [DEDUCED: log 70] -/
def execStitchRefetchDone (t id : Nat) (ok : Bool) (s : State) : Outcome State Fault Refusal :=
  let s := atTime t s
  if issuing (seqOf s id) = false then .next s else
  let s := if id < 128 then incF s 0x3111 id else s
  let a := seqUnit id * 2 ^ 32 + (seqOf s id).sp * 16
  if ok then .next (correctableAt (refetch s id) (seqUnit id) (storeMemory id) a)
  else .next (trapMemory s id 0x10 (storeMemory id) a)

end Sys2Proof.Machine
end

