-- ==== Sys2Proof/Machine/Cells.lean ====
section
/-! DEFINITION. Cell arithmetic of the quires (R103 to R119) and the stitches that use it: mma.blk, comb.add, cvt, kv.put,
sel.feed (R53 to R55, R95, R98, R142, R143, R163). -/

namespace Sys2Proof.Machine

open Host

/-! ### Blocks of 32 elements (R104, R105, R143) -/

/-- Bytes of a 32-element block with the scale bytes that follow it. -/
def blockBytes (f : Nat) : Nat := 4 * fmtBits f + fmtScaleBytes f

/-- Bytes of a tile of 128 rows of `nb` blocks. [DEDUCED: log 70] -/
def tileBytes (f nb : Nat) : Nat := 128 * nb * blockBytes f

/-- A block as read: its element values before the block scale, ZF4 steps folded in, and its scale. -/
structure Block where
  els : List Num
  x : Nat
  deriving DecidableEq, Repr

/-- Read a block; an unscaled one takes X = 127 (R109). -/
def readBlock (f : Nat) (bs : List Byte) : Block :=
  let w := ofBytesLE (bs.take (4 * fmtBits f))
  let byte (k : Nat) : Nat := (bs.getD (4 * fmtBits f + k) 0).toNat
  let step (n : Nat) : Int := if f = 0xE then ((nfld (byte 1) (2 * (n / 8) + 1) (2 * (n / 8)) : Nat) : Int) else 0
  { els := (List.range 32).map (fun n => numScale (elemDecode f (nfld w ((n + 1) * fmtBits f - 1) (n * fmtBits f))) (-(step n))),
    x := if fmtScaled f then byte 0 else 127 }

/-- A value that is neither NaN nor infinite. -/
def numFinite : Num → Bool
  | .fin _ _ _ => true
  | _ => false

/-- A block that makes every block sum it meets special (R111). -/
def blockSpecial (f : Nat) (b : Block) : Bool := (fmtScaled f && decide (b.x = 0xFF)) || !(b.els.all numFinite)

/-- Fraction weight of an element format (Table 5-4). -/
def fracWeight : Nat → Nat
  | 0x1 => 133
  | 0x2 => 9
  | 0x3 => 16
  | 0x4 => 4
  | 0x5 => 3
  | 0x6 => 1
  | 0x8 => 9
  | 0x9 => 16
  | 0xA => 4
  | 0xB => 3
  | 0xC => 1
  | 0xD => 6
  | 0xE => 4
  | _ => 0

/-- Element integer (Table 5-4). -/
def elemInt (f : Nat) (v : Num) : Int := match v with
  | .fin neg m e => alignedInt neg m e (-(fracWeight f : Int))
  | _ => 0

/-- Element integers of a block; zeros for a special one, whose block sums are 0 (R111, R118). -/
def blockInts (f : Nat) (b : Block) : List Int := if blockSpecial f b then List.replicate 32 0 else b.els.map (elemInt f)

/-- The sum of products of two lists of integers. -/
def dotInt (a b : List Int) : Int := ((a.zip b).map (fun p => p.1 * p.2)).foldl (· + ·) 0

/-- The value of a special block by IEEE 754 (R111). -/
def specialValue (fa fb : Nat) (a b : Block) : Num :=
  if (fmtScaled fa ∧ a.x = 0xFF) ∨ (fmtScaled fb ∧ b.x = 0xFF) then .nan else
  let ps := (a.els.zip b.els).map (fun p => numMul p.1 p.2)
  if ps.any (fun p => decide (p = .nan)) then .nan
  else if ps.contains (.inf true) && ps.contains (.inf false) then .nan
  else .inf (ps.contains (.inf true))

/-- The FP32 value of a block with block sum `n` (R110 to R112). -/
def blockValue (fa fb : Nat) (a b : Block) (n : Int) : Word32 :=
  if blockSpecial fa a || blockSpecial fb b then toF32 (specialValue fa fb a b)
  else toF32 (numOfInt n (-(fracWeight fa : Int) - fracWeight fb + ((a.x : Int) - 127) + ((b.x : Int) - 127)))

/-! ### Operand pairs (R109, Table 5-3) -/

/-- Class of an operand format: 0 BF16, 1 FP8, 2 FP6, 3 FP4, 4 INT8, 5 MXINT8; none for formats that are no operands. -/
def pairClass : Nat → Option Nat
  | 0x1 => some 0
  | 0x2 => some 1
  | 0x3 => some 1
  | 0x8 => some 1
  | 0x9 => some 1
  | 0x4 => some 2
  | 0x5 => some 2
  | 0xA => some 2
  | 0xB => some 2
  | 0x6 => some 3
  | 0xC => some 3
  | 0xE => some 3
  | 0x7 => some 4
  | 0xD => some 5
  | _ => none

/-- The pair is accepted with an output format: 0x7 means INT32 with INT8 × INT8. -/
def pairOk (fa fb fo : Nat) : Bool := match pairClass fa, pairClass fb with
  | some a, some b =>
    if a = 0 ∧ b = 0 then decide (fo ≤ 1)
    else if 1 ≤ a ∧ a ≤ 3 ∧ 1 ≤ b ∧ b ≤ 3 then decide (fo ≤ 6) || (decide (8 ≤ fo) && decide (fo ≤ 0xC)) || decide (fo = 0xE)
    else if a = 4 ∧ b = 4 then decide (fo = 7) || decide (fo = 0)
    else if a = 5 ∧ b = 5 then decide (fo ≤ 1) || decide (fo = 0xD)
    else false
  | _, _ => false

/-! ### Output (R107, R108, R116) -/

/-- NaN results that a conversion turns into +0 (Table 5-2). -/
def nanZeros (f : Nat) (vs : List Num) : Nat :=
  if (fpFormat f = some e3m2Format ∨ fpFormat f = some e2m3Format ∨ fpFormat f = some e2m1Format ∨ f = 0x7 ∨ f = 0xD) then
    vs.countP (fun v => decide (v = .nan)) else 0

/-- One block of 32 results in an output format. -/
def encodeBlock (f : Nat) (vs : List Num) : List Byte :=
  if fmtScaled f then
    let (els, x, k) := blockEncode f vs
    toBytesLE (4 * fmtBits f) (packBits (fmtBits f) els) ++ scaleBytes f x k
  else toBytesLE (vs.length * fmtBits f / 8) (packBits (fmtBits f) (vs.map (elemEncode f)))

/-- A row of results: blocks run along it (R116). -/
def encodeRow (f : Nat) (vs : List Num) : List Byte :=
  (List.range (vs.length / 32)).flatMap (fun c => encodeBlock f ((vs.drop (32 * c)).take 32))

/-- Count the NaN results that became +0. [DEDUCED: log 70] -/
def countNan (s : State) (q f : Nat) (rows : List (List Num)) : State := addF s 0x3013 q ((rows.map (nanZeros f)).foldl (· + ·) 0)

/-- Store rows of results from a quire-local address. -/
def storeRows (s : State) (q f a : Nat) (rows : List (List Num)) : State :=
  writeBytes (countNan s q f rows) (quireAddr q a) (rows.flatMap (encodeRow f))

/-- An uncorrectable read of quire SRAM by the array or the sequencer: trap 0x1B. -/
def badRead (s : State) (id a : Nat) : State := trapMemory s id 0x1B (if id < 64 then 4 else 5) (quireAddr id a)

/-! ### mma.blk -/

/-- The modulus of the checksums. -/
def checkPrime : Int := 2 ^ 61 - 1

/-- The 128 rows of an operand tile at a quire-local address. -/
def operandTile (s : State) (q f nb a : Nat) : List (List Block) :=
  (List.range 128).map (fun r => (List.range nb).map (fun b =>
    readBlock f (readBytes s (quireAddr q (a + (r * nb + b) * blockBytes f)) (blockBytes f))))

/-- A block of a tile. -/
def tileBlock (t : List (List Block)) (r b : Nat) : Block := (t.getD r []).getD b { els := [], x := 127 }

/-- What a tile pass works with. -/
structure Tile where
  fa : Nat
  fb : Nat
  nb : Nat
  a : List (List Block)
  b : List (List Block)
  /-- Differences that faults add to block sums, as (row, column, block, difference). -/
  errs : List (Nat × Nat × Nat × Int)
  deriving DecidableEq, Repr

/-- Block (i, j, b) is special (R111). -/
def tileSpecial (t : Tile) (i j b : Nat) : Bool := blockSpecial t.fa (tileBlock t.a i b) || blockSpecial t.fb (tileBlock t.b j b)

/-- The block sum N(i, j, b) (R110), as the array formed it. -/
def tileSum (t : Tile) (i j b : Nat) : Int :=
  if tileSpecial t i j b then 0
  else dotInt (blockInts t.fa (tileBlock t.a i b)) (blockInts t.fb (tileBlock t.b j b))
    + ((t.errs.filter (fun e => decide (e.1 = i) && decide (e.2.1 = j) && decide (e.2.2.1 = b))).map (fun e => e.2.2.2)).foldl (· + ·) 0

/-- The sum of a function over a range. -/
def sumTo (n : Nat) (f : Nat → Int) : Int := ((List.range n).map f).foldl (· + ·) 0

/-- Element integer n of block b in row r of an operand. -/
def tileInt (f : Nat) (t : List (List Block)) (r b n : Nat) : Int := (blockInts f (tileBlock t r b)).getD n 0

/-- observed_col(j) and observed_row(i) (R118). -/
def observed (t : Tile) (col : Bool) (k : Nat) : Int :=
  sumTo t.nb (fun b => sumTo 128 (fun i => if col then tileSum t i k b else tileSum t k i b)) % checkPrime

/-- predicted_col(j) and predicted_row(i) (R118). -/
def predicted (t : Tile) (col : Bool) (k : Nat) : Int :=
  sumTo t.nb (fun b => sumTo 32 (fun n =>
    if col then sumTo 128 (fun i => tileInt t.fa t.a i b n) * tileInt t.fb t.b k b n
    else tileInt t.fa t.a k b n * sumTo 128 (fun j => tileInt t.fb t.b j b n))) % checkPrime

/-- Lowest differing row or column, `cells` giving what errors of the modular cells add to the predictions. -/
def firstDiffers (t : Tile) (cells : List (Bool × Nat × Int)) (col : Bool) : Option Nat :=
  (List.range 128).find? (fun k =>
    let d := ((cells.filter (fun c => decide (c.1 = col) && decide (c.2.1 = k))).map (fun c => c.2.2)).foldl (· + ·) 0
    decide ((predicted t col k + d) % checkPrime ≠ observed t col k))

/-- result(i, j) before accumulation (R113, R115). For INT8 × INT8 the exact sum. -/
def tileResult (t : Tile) (i j : Nat) : Num :=
  if t.fa = 0x7 then numOfInt (sumTo t.nb (fun b => tileSum t i j b)) 0
  else f32 (tree32 ((List.range t.nb).map (fun b => blockValue t.fa t.fb (tileBlock t.a i b) (tileBlock t.b j b) (tileSum t i j b))))

/-- An INT32 output word, saturating (R115). -/
def int32Word (v : Num) : Nat := match v with
  | .fin neg m e => (clampInt (-(2 ^ 31)) (2 ^ 31 - 1) (roundInt neg m e) % 2 ^ 32).toNat
  | _ => 0

/-- C_in at a quire-local address: FP32, or BF16 widened exactly. -/
def cinAt (s : State) (q a : Nat) (bf : Bool) (i j : Nat) : Word32 :=
  if bf then ofBf16 (readNat s (quireAddr q (a + (i * 128 + j) * 2)) 2) else BitVec.ofNat 32 (readNat s (quireAddr q (a + (i * 128 + j) * 4)) 4)

/-- Result rows of a tile. -/
def tileRows (s : State) (q : Nat) (t : Tile) (acc bf : Bool) (c : Nat) : List (List Num) :=
  (List.range 128).map (fun i => (List.range 128).map (fun j =>
    let r := tileResult t i j
    if acc then f32 (fadd32 (toF32 r) (cinAt s q c bf i j)) else r))

/-- Store an INT32 tile. No rule gives INT32 with accumulation: those words are free. -/
def storeInts (s : State) (q : Nat) (t : Tile) (acc : Bool) (c : Nat) : State :=
  let word (k : Nat) : Nat := if acc then Config.fresh (s.freeCtr + k) % 2 ^ 32 else int32Word (tileResult t (k / 128) (k % 128))
  let s := writeBytes s (quireAddr q c) ((List.range 16384).flatMap (fun k => toBytesLE 4 (word k)))
  if acc then { s with freeCtr := s.freeCtr + 16384 } else s

/-- A checksum mismatch (R119): the mismatch bit, the count, and one entry with the stitch and the lowest differing row and column. -/
def mismatch (s : State) (q j cause row col : Nat) : State :=
  let s := incF (modSeq s q (fun x => { x with mismatch := true })) 0x3011 q
  uncorrectable s (unitQuire q) cause 0 (some j) (place ((quire s q).sp) 31 20 + place row 19 13 + place col 12 6) 0

/-- Quire-local address of an operand of tile pass `k`. -/
def tileAddr (s : State) (q k r : Nat) (step : Int) : Nat := (((ea (quire s q) r % 0x800000 : Nat) : Int) + (k : Int) * step * 64).toNat

/-- The operands of tile pass `k` of a stitch, with the wrong block sums of the pass. -/
def readTile (s : State) (q : Nat) (w : BitVec 128) (f : MmaFault) (k : Nat) : Tile :=
  let (fa, fb, nb) := (fld w 119 116, fld w 115 112, fld w 87 74)
  { fa := fa, fb := fb, nb := nb, a := operandTile s q fa nb (tileAddr s q k (fld w 105 102) 0),
    b := operandTile s q fb nb (tileAddr s q k (fld w 101 98) (sfld w 45 28)),
    errs := (f.errs.filter (fun e => decide (e.1 = k))).map (fun e => e.2) }

/-- What the checks of a tile pass find: cause, and the lowest differing row and column (R117 to R119). [DESIGN CHOICE: log 134] -/
def tileFault (f : MmaFault) (t : Tile) (k : Nat) : Option (Nat × Nat × Nat) :=
  let cells := (f.cells.filter (fun e => decide (e.1 = k))).map (fun e => e.2)
  match (f.combine.filter (fun e => decide (e.1 = k))).map (fun e => e.2) with
  | e :: r => some (2, (r.map (fun x => x.1)).foldl min e.1, (r.map (fun x => x.2)).foldl min e.2)
  | [] => match firstDiffers t cells false, firstDiffers t cells true with
    | none, none => none
    | r, cc => some (1, r.getD 0, cc.getD 0)

/-- One tile pass: the output is written, and the checks are compared. Answers whether the tile mismatched. [DEDUCED: log 71] -/
def tilePass (q j : Nat) (w : BitVec 128) (f : MmaFault) (st : State × Nat) (k : Nat) : State × Nat :=
  let s := st.1
  let (fa, fo, nb) := (fld w 119 116, fld w 111 108, fld w 87 74)
  let c := tileAddr s q k (fld w 97 94) (sfld w 27 10)
  let t := readTile s q w f k
  let special := ((List.range 128).map (fun i => ((List.range 128).map (fun jj =>
    (List.range nb).countP (fun b => tileSpecial t i jj b))).foldl (· + ·) 0)).foldl (· + ·) 0
  let s := addF s 0x3012 q special
  let acc := nbit w.toNat 107
  let s := if fo = 0x7 ∧ fa = 0x7 then storeInts s q t acc c else storeRows s q fo c (tileRows s q t acc (nbit w.toNat 106) c)
  let s := incF s 0x3014 q
  match tileFault f t k with
  | some (c, row, col) => (mismatch s q j c row col, st.2 + 1)
  | none => (s, st.2)

/-- The quire-local ranges of an mma.blk; at the output C_in is read too, where the stitch accumulates. [DEDUCED: log 70] -/
def mmaRanges (x : Sequencer) (w : BitVec 128) : List (Int × Nat) :=
  let (fa, fb, fo, nb, n) := (fld w 119 116, fld w 115 112, fld w 111 108, fld w 87 74, fld w 93 88)
  let base (r : Nat) : Int := ((ea x r % 0x800000 : Nat) : Int)
  let out0 := if fo = 0x7 then 65536 else tileBytes fo 4
  let out := if nbit w.toNat 107 then max out0 (if nbit w.toNat 106 then 32768 else 65536) else out0
  (base (fld w 105 102), tileBytes fa nb) :: (List.range n).flatMap (fun (k : Nat) =>
    [(base (fld w 101 98) + (k : Int) * sfld w 45 28 * 64, tileBytes fb nb), (base (fld w 97 94) + (k : Int) * sfld w 27 10 * 64, out)])

/-- Banks of quire SRAM (R122) that a range of quire-local addresses touches: a[22:18]. -/
def bankRange (r : Int × Nat) : Nat × Nat := (r.1.toNat / 2 ^ 18, (r.1.toNat + (r.2 - 1)) / 2 ^ 18)

/-- The A tile and some B tile of an mma.blk share a bank, so that B may wait (R124). -/
def banksMeet (x : Sequencer) (w : BitVec 128) : Bool :=
  let base (r : Nat) : Int := ((ea x r % 0x800000 : Nat) : Int)
  let a := bankRange (base (fld w 105 102), tileBytes (fld w 119 116) (fld w 87 74))
  (List.range (fld w 93 88)).any (fun (k : Nat) =>
    let b := bankRange (base (fld w 101 98) + (k : Int) * sfld w 45 28 * 64, tileBytes (fld w 115 112) (fld w 87 74))
    decide (a.1 ≤ b.2) && decide (b.1 ≤ a.2))

/-- The mismatches of a stitch take effect once it has finished (R119, Table 18-2). -/
def afterMismatch (s : State) (q j n : Nat) : State := (List.range n).foldl (fun s _ => unitEvent s j (unitQuire q)) s

/-- mma.blk (R142). -/
def mma (s : State) (q : Nat) (w : BitVec 128) (f : MmaFault) : State := match (quire s q).job with
  | none => s
  | some j =>
    if pairOk (fld w 119 116) (fld w 115 112) (fld w 111 108) = false then s
    else if (mmaRanges (quire s q) w).all (fun r => localOk r.1 r.2) = false then trapSeq s q 0x12
    else match f.bad with
      | some a => badRead s q a
      | none =>
        let waits := if banksMeet (quire s q) w then f.waits else 0
        let (s, n) := (List.range (fld w 93 88)).foldl (tilePass q j w f) (addF s 0x3015 q waits, 0)
        afterMismatch (advance s q) q j n

/-- A quire's stitch with opcode `op` is still under way as another quire's mismatch voids the step: it stops at its next preemption
point, within 256 quire cycles of it (R88, R391). [DEDUCED: log 123] -/
def underWay (s : State) (q j op : Nat) : Bool :=
  (match (job s j).voidNs with
    | some v => decide (s.now ≤ v + 122)
    | none => false)
  && stepping s j && (quire s q).trap.isNone && decide (fld (stitchAt (quire s q)) 127 120 = op) && !(discards s q op)

/-- The mismatches that a stitch still under way finds after a mismatch of another quire has voided the step: each quire logs
its own (R131). [DEDUCED: log 123] -/
def lateMismatch (s : State) (q : Nat) (f : MmaFault) : State := match (quire s q).job with
  | none => s
  | some j =>
    let w := stitchAt (quire s q)
    if underWay s q j 0x20 = false then s else
    let (s, n) := (List.range (fld w 93 88)).foldl (fun (st : State × Nat) k => match tileFault f (readTile st.1 q w f k) k with
      | some (c, row, col) => (mismatch st.1 q j c row col, st.2 + 1)
      | none => st) (s, 0)
    afterMismatch s q j n

/-- The same for comb.add and cvt, whose lockstep stages differ at a row and column (R117). [DEDUCED: log 123] -/
def lateStage (s : State) (q op : Nat) (differs : Option (Nat × Nat)) : State := match (quire s q).job, differs with
  | some j, some (row, col) => if underWay s q j op then afterMismatch (mismatch s q j 2 row col) q j 1 else s
  | _, _ => s

/-- MMA_BLK. [DESIGN CHOICE: log 7] -/
def execMmaBlk (t id : Nat) (f : MmaFault) (s : State) : Outcome State Fault Refusal :=
  let b := atTime t s
  .next (if issues b id 0x20 then runStitch t id 0x20 (fun s w => mma s id w f) s else if id < 128 then lateMismatch b id f else b)

/-! ### comb.add and cvt -/

/-- The base of a quire-local operand. -/
def localBase (x : Sequencer) (r : Nat) : Nat := ea x r % 0x800000

/-- The quire-local ranges of a comb.add. -/
def combRanges (x : Sequencer) (w : BitVec 128) : List (Int × Nat) :=
  [fld w 119 116, fld w 115 112, fld w 111 108].map (fun r => ((localBase x r : Nat), fld w 107 102 * 65536))

/-- The stitch ends; where the lockstep stages differed, with a mismatch of the combine stage (R117, R119). -/
def stageDiffers (s : State) (q j : Nat) (differs : Option (Nat × Nat)) : State := match differs with
  | some (row, col) => afterMismatch (advance (mismatch s q j 2 row col) q) q j 1
  | none => advance s q

/-- comb.add (R114, R142): `bad` is an address that reads uncorrectable, `differs` the row and column where the lockstep stages
differ (R117). -/
def combAdd (s : State) (q : Nat) (w : BitVec 128) (bad : Option Nat) (differs : Option (Nat × Nat)) : State := match (quire s q).job with
  | none => s
  | some j =>
    let x := quire s q
    let (l, r, d) := (localBase x (fld w 119 116), localBase x (fld w 115 112), localBase x (fld w 111 108))
    let n := fld w 107 102 * 65536
    if (combRanges x w).all (fun r => localOk r.1 r.2) = false then trapSeq s q 0x12
    else match bad with
      | some a => badRead s q a
      | none =>
        let word (b k : Nat) : Word32 := BitVec.ofNat 32 (readNat s (quireAddr q (b + 4 * k)) 4)
        let out := (List.range (n / 4)).flatMap (fun k => toBytesLE 4 (fadd32 (word l k) (word r k)).toNat)
        stageDiffers (writeBytes s (quireAddr q d) out) q j differs

/-- COMB_ADD. -/
def execCombAdd (t id : Nat) (bad : Option Nat) (differs : Option (Nat × Nat)) (s : State) : Outcome State Fault Refusal :=
  let b := atTime t s
  .next (if issues b id 0x21 then runStitch t id 0x21 (fun s w => combAdd s id w bad differs) s else if id < 128 then lateStage b id 0x21 differs else b)

/-- The quire-local ranges of a cvt: source and destination. -/
def cvtRanges (x : Sequencer) (w : BitVec 128) : List (Int × Nat) :=
  let n := fld w 103 98
  [((localBase x (fld w 119 116) : Nat), n * tileBytes (fld w 111 108) 4), ((localBase x (fld w 115 112) : Nat), n * tileBytes (fld w 107 104) 4)]

/-- cvt (R107, R108, R142): FP32 or BF16 tiles to an output format, each tile following the one before; `bad` and `differs` as in
comb.add. -/
def convert (s : State) (q : Nat) (w : BitVec 128) (bad : Option Nat) (differs : Option (Nat × Nat)) : State :=
  match (quire s q).job with
  | none => s
  | some j =>
    let x := quire s q
    let (fi, fo, n) := (fld w 111 108, fld w 107 104, fld w 103 98)
    let (a, d) := (localBase x (fld w 119 116), localBase x (fld w 115 112))
    if (cvtRanges x w).all (fun r => localOk r.1 r.2) = false then trapSeq s q 0x12
    else match bad with
      | some k => badRead s q k
      | none =>
        let wd := fmtBits fi / 8
        let row (r : Nat) : List Num := (List.range 128).map (fun k => elemDecode fi (readNat s (quireAddr q (a + (r * 128 + k) * wd)) wd))
        stageDiffers (storeRows s q fo d ((List.range (n * 128)).map row)) q j differs

/-- CVT. -/
def execCvt (t id : Nat) (f : CvtFault) (s : State) : Outcome State Fault Refusal :=
  let b := atTime t s
  .next (if issues b id 0x22 then runStitch t id 0x22 (fun s w => convert s id w f.bad f.differs) s else if id < 128 then lateStage b id 0x22 f.differs else b)

/-! ### The rotary position step (R163) -/

/-- Rotate pairs from index i of a row by the frequencies left. -/
def rotatePairs (p : Word32) : List Word32 → List Word32 → List Word32
  | f :: fs, x0 :: x1 :: xs =>
    let a := fmul32 p f
    fsub32 (fmul32 x0 (cos32 a)) (fmul32 x1 (sin32 a)) :: fadd32 (fmul32 x0 (sin32 a)) (fmul32 x1 (cos32 a)) :: rotatePairs p fs xs
  | _, xs => xs

/-- The rotary position step at token position `pos`. -/
def rotary (table : List Word32) (pos : Nat) (row : List Word32) : List Word32 := rotatePairs (toF32 (.fin false pos 0)) table row

/-! ### kv.put (R53 to R55, R142, R143) -/

/-- Table 5-1 code of a KV format code (Table 3-1). -/
def kvFormat : Nat → Nat
  | 0 => 0x1
  | 1 => 0x2
  | 2 => 0x3
  | 3 => 0x8
  | 4 => 0xA
  | 5 => 0xC
  | _ => 0xE

/-- The map entry of position p at a device address (Table 6-5). -/
def mapAt (s : State) (m p : Nat) : Nat := readNat s (m + 16 * p) 16

/-- A map entry names a group of another job, or a slot that a leaf does not have. [DEDUCED: log 64] -/
def mapBad (s : State) (j e : Nat) : Bool :=
  decide (nfld e 127 96 ≠ nullLeaf) && (decide (nfld e 127 96 / 2 ^ 26 ≠ j) || decide (leafSize s j ≤ nfld e 95 88))

/-- Store one row of a head in slot t of a leaf: k is 0 for a key, 1 for a value. Elements and scales lie as R54 and R55 give. -/
def putRow (s : State) (i : JobImage) (d : LeafDesc) (h k t : Nat) (row : List Num) : State :=
  let f := kvFormat i.fmt
  (List.range (row.length / 32)).foldl (fun s b =>
    let bs := encodeBlock f ((row.drop (32 * b)).take 32)
    let s := writeBytes s (d.page + leafBit i h k t (32 * b) / 8) (bs.take (4 * fmtBits f))
    writeBytes s (d.scaleAddr + leafScaleByte i h k t b) (bs.drop (4 * fmtBits f))) s

/-- One position of kv.put. [DESIGN CHOICE: log 136] -/
def putPosition (q j : Nat) (w : BitVec 128) (src m : Nat) (s : State) (p : Nat) : State :=
  let e := mapAt s m p
  if nfld e 127 96 = nullLeaf then s else
  let i := imageOf s j
  let wd := fmtBits (fld w 87 84) / 8
  let n := 32 * fld w 75 72
  let raw := (List.range n).map (fun d => elemDecode (fld w 87 84) (readNat s (quireAddr q (src + p * fld w 71 56 * 64 + d * wd)) wd))
  let key := !(nbit w.toNat 83)
  let row := if key && nbit w.toNat 82 then (rotary i.rope (nfld e 47 24) (raw.map toF32)).map f32 else raw
  let d := leafOf s j (nfld e 120 96 / groupStride i) (fld w 111 104)
  if d.tier = .stacked ∨ d.tier = .lpddr6 then putRow (countNan s q (kvFormat i.fmt) [row]) i d (fld w 81 76) (b2n (!key)) (nfld e 95 88) row else s

/-- The quire-local ranges of a kv.put. -/
def putRanges (x : Sequencer) (w : BitVec 128) : List (Int × Nat) :=
  (List.range (fld w 103 88)).map (fun p =>
    (((localBase x (fld w 119 116) + p * fld w 71 56 * 64 : Nat) : Int), 4 * fmtBits (fld w 87 84) * fld w 75 72))

/-- kv.put (R142): every map entry is checked before a row is written. [DEDUCED: log 71] -/
def kvPut (s : State) (q : Nat) (w : BitVec 128) (bad : Option Nat) : State := match (quire s q).job with
  | none => s
  | some j =>
    let x := quire s q
    let n := fld w 103 88
    let src := localBase x (fld w 119 116)
    let m := ea x (fld w 115 112)
    if (putRanges x w).all (fun r => localOk r.1 r.2) = false ∨ dmaOk s j false (m : Int) (16 * n) = false then
      trapSeq s q 0x12
    else match bad with
      | some a => badRead s q a
      | none =>
        if (List.range n).any (fun p => mapBad s j (mapAt s m p)) then trapSeq s q 0x14
        else advance ((List.range n).foldl (putPosition q j w src m) s) q

/-- KV_PUT. -/
def execKvPut (t id : Nat) (bad : Option Nat) (s : State) : Outcome State Fault Refusal := .next (runStitch t id 0x33 (fun s w => stopAfter (kvPut s id w bad) id) s)

/-! ### sel.feed (R95, R98, R142, R143) -/

/-- Slices beyond the vocabulary, or two that overlap: the position does not receive its vocabulary exactly once. -/
def slicesBad (v : Nat) : List (Nat × List Word32) → Bool
  | [] => false
  | x :: r => decide (v < x.1 + x.2.length) || r.any (fun y => overlaps x.1 x.2.length y.1 y.2.length) || slicesBad v r

/-- A slice reaches the selector of a position: a whole vocabulary is sampled; one that comes twice is an error, logged once. -/
def feedRun (s : State) (j : Nat) (r : StepRun) (n i base : Nat) (z : List Word32) : State × StepRun :=
  let v := (imageOf s j).vocab
  let old := ((r.feeds.find? (fun f => decide (f.sig = n) && decide (f.drawIndex = i))).map (fun f => f.slices)).getD []
  let sl := old ++ [(base, z)]
  let f : SelectorFeed := { sig := n, drawIndex := i, slices := sl }
  let r := { r with feeds := r.feeds.filter (fun f => !(decide (f.sig = n) && decide (f.drawIndex = i))) ++ [f] }
  let put (d : Draw) : StepRun := { r with draws := r.draws.filter (fun x => decide (x.1 ≠ (n, i))) ++ [((n, i), d)] }
  if slicesBad v sl then
    (if drawnFor r n i = some .error then (s, r) else (logSelector s j n, put .error))
  else if slicesCover v sl then
    (match sample (sigE s n) (logitsOf sl) i with
      | some t => (s, put (.token t))
      | none => (logSelector s j n, put .error))
  else (s, r)

/-- One row of sel.feed. -/
def feedRow (q j : Nat) (prompt : Bool) (w : BitVec 128) (src m : Nat) (s : State) (p : Nat) : State :=
  let e := mapAt s m p
  if nfld e 71 48 = 0xFFFFFF ∨ nfld e 87 72 = 0xFFFF then s else
  let z := (List.range (fld w 87 72)).map (fun k => BitVec.ofNat 32 (readNat s (quireAddr q (src + p * fld w 55 40 * 64 + 4 * k)) 4))
  match (partOf (job s j) prompt).run with
  | none => s
  | some r =>
    let (s, r) := feedRun s j r (nfld e 87 72) (nfld e 71 48) (fld w 111 88) z
    modPart s j prompt (fun x => { x with run := some r })

/-- The quire-local ranges of a sel.feed. -/
def feedRanges (x : Sequencer) (w : BitVec 128) : List (Int × Nat) :=
  (List.range (fld w 71 56)).map (fun p => (((localBase x (fld w 119 116) + p * fld w 55 40 * 64 : Nat) : Int), 4 * fld w 87 72))

/-- sel.feed (R142). -/
def selFeed (s : State) (q : Nat) (w : BitVec 128) (bad : Option Nat) : State := match (quire s q).job with
  | none => s
  | some j =>
    let x := quire s q
    let n := fld w 71 56
    let src := localBase x (fld w 119 116)
    let m := ea x (fld w 115 112)
    if (feedRanges x w).all (fun r => localOk r.1 r.2) = false ∨ dmaOk s j false (m : Int) (16 * n) = false then trapSeq s q 0x12
    else match bad with
      | some a => badRead s q a
      | none =>
        let prompt := match (job s j).prompt.run with
          | some r => (planQuires s j r.plan).contains q
          | none => false
        advance ((List.range n).foldl (feedRow q j prompt w src m) s) q

/-- SEL_FEED. -/
def execSelFeed (t id : Nat) (bad : Option Nat) (s : State) : Outcome State Fault Refusal := .next (runStitch t id 0x34 (fun s w => stopAfter (selFeed s id w bad) id) s)

end Sys2Proof.Machine
end

