-- ==== Sys2Proof/Machine/Gutter.lean ====
section
/-! DEFINITION. Gutter units (chapter 7): loads, stores, elementwise functions and reductions, attention over leaves and its
combine, spot checks, and the sharing of a column's port. -/

namespace Sys2Proof.Machine

open Host

/-! ### Running a gutter stitch -/

/-- A gutter stitch runs: the column is not paused for a refresh (R172). `f` is given the column, its job and the stitch. -/
def runGutter (t id op : Nat) (f : State → Nat → Nat → BitVec 128 → State) (s : State) : State :=
  runStitch t id op (fun s w =>
    if (gutter s (id - 128)).refreshPause then s else match (seqOf s id).job with
      | none => s
      | some j => f s (id - 128) j w) s

/-- A column-local offset of a gutter stitch (R160). -/
def colOffset (s : State) (c r : Nat) : Nat := ea (gutter s c).seq r % 0x4000000

/-- Offsets of a column that its job's gutter stitches may touch: above the interleaved pool, or granules of that pool that the
job's memory holds (R154). -/
def gutterOk (s : State) (j c o n : Nat) : Bool :=
  decide (o + n ≤ columnBytes s) &&
  (decide (shareBytes s - 0x400000 ≤ o) ||
    (List.range ((o + n - 1) / 256 + 1 - o / 256)).all (fun k =>
      let lo := max o ((o / 256 + k) * 256)
      let hi := min (o + n) ((o / 256 + k + 1) * 256)
      inDeviceMemory s j (deinterleave (shareBytes s) c lo) (hi - lo)))

/-- The memory of Table 17-4 and the address at which a gutter unit met an uncorrectable error; scratch and row store have no device
physical address, and show the unit and the byte (R367); a bus is no memory. -/
def faultPlace (c : Nat) : GutterFault → Option (Nat × Nat)
  | .column o => some (if c < 512 then 0 else 1, columnAddr c o)
  | .view a => some (if c < 512 then 0 else 1, a)
  | .store b => some (if c < 512 then 6 else 7, unitColumn c * 2 ^ 32 + b)
  | .bus => none

/-- An uncorrectable error met by a gutter unit: trap 0x18 (Table 17-1). -/
def badColumn (s : State) (c : Nat) (f : GutterFault) : State :=
  match faultPlace c f with
  | some (mem, a) => trapMemory s (128 + c) 0x18 mem a
  | none => trapSeq s (128 + c) 0x18

/-- Single errors of a column are corrected (R361). -/
def correctColumn (s : State) (c : Nat) (l : List Nat) : State :=
  l.foldl (fun s a => correctableAt s (unitColumn c) (if c < 512 then 0 else 1) (columnAddr c a)) s

/-! ### Scratch -/

/-- Words of scratch. -/
def scratchWords (s : State) (c a n : Nat) : List Word32 := (List.range n).map (fun k => tget 0 (gutter s c).scratch (a + k))

/-- Store words of scratch. -/
def putScratch (s : State) (c a : Nat) (ws : List Word32) : State :=
  modGutter s c (fun g => { g with scratch := (ws.zipIdx.foldl (fun t w => tset 0 t (a + w.2) w.1) g.scratch) })

/-- A scratch range ends within the 8,192 words (R166). -/
def scratchOk (a n : Nat) : Bool := decide (a + n ≤ 8192)

/-- Bytes of elements and of scales of `n32` units of a format (R55, R166). -/
def vecBytes (f n32 : Nat) : Nat × Nat := (n32 * 4 * fmtBits f, n32 * fmtScaleBytes f)

/-- FP32 values of elements and scales as read. -/
def vecDecode (f n32 : Nat) (els scales : List Byte) : List Word32 :=
  (List.range n32).flatMap (fun b =>
    let k := readBlock f ((els.drop (b * 4 * fmtBits f)).take (4 * fmtBits f) ++ (scales.drop (b * fmtScaleBytes f)).take (fmtScaleBytes f))
    k.els.map (fun v => toF32 (if fmtScaled f && decide (k.x = 0xFF) then .nan else numScale v ((k.x : Int) - 127))))

/-- Two scratch ranges have no word in common. -/
def scratchApart (a n b m : Nat) : Bool := decide (n = 0) || decide (m = 0) || decide (a + n ≤ b) || decide (b + m ≤ a)

/-- Whether a function of gv.op reads SRC2, as a vector or as one word (Table 7-5). -/
def gvReads (fn : Nat) : Nat := if fn ≤ 5 then 2 else if fn ≤ 7 then 1 else 0

/-- The ranges of a gv.op: they end within scratch, and overlap only when DST equals SRC1 (R166). [DEDUCED: log 138] -/
def gvOpRanges (w : BitVec 128) : Bool :=
  let (fn, d, a, b, n) := (fld w 119 116, fld w 115 103, fld w 102 90, fld w 89 77, 32 * fld w 76 68)
  let k := if gvReads fn = 2 then n else gvReads fn
  scratchOk d n && scratchOk a n && scratchOk b k &&
    (decide (d = a) || (scratchApart d n a n && scratchApart d n b k && scratchApart a n b k))

/-- The ranges of a gv.red (R166). [DEDUCED: log 138] -/
def gvRedRanges (w : BitVec 128) : Bool :=
  let (d, a, n) := (fld w 115 103, fld w 102 90, 32 * fld w 89 81)
  scratchOk a n && (decide (d = a) || scratchApart d 1 a n)

/-- gv.ld (R166). -/
def gvLoad (s : State) (c j : Nat) (w : BitVec 128) (bad : Option GutterFault) (corrected : List Nat) : State :=
  let (f, n32, scr) := (fld w 111 108, fld w 94 86, fld w 107 95)
  let (m, sc) := (colOffset s c (fld w 119 116), colOffset s c (fld w 115 112))
  let (en, sn) := vecBytes f n32
  if scratchOk scr (32 * n32) = false ∨ f = 0xF then s
  else if gutterOk s j c m en = false ∨ (0 < sn ∧ gutterOk s j c sc sn = false) then trapSeq s (128 + c) 0x12
  else match bad with
    | some a => badColumn s c a
    | none =>
      let s := correctColumn s c corrected
      advance (putScratch s c scr (vecDecode f n32 (readBytes s (columnAddr c m) en) (readBytes s (columnAddr c sc) sn))) (128 + c)

/-- GV_LD. -/
def execGvLd (t id : Nat) (bad : Option GutterFault) (corrected : List Nat) (s : State) : Outcome State Fault Refusal :=
  .next (runGutter t id 0x80 (fun s c j w => gvLoad s c j w bad corrected) s)

/-- gv.st (R166): block scales are chosen by R108. -/
def gvStore (s : State) (c j : Nat) (w : BitVec 128) (bad : Option GutterFault) : State :=
  let (f, n32, scr) := (fld w 111 108, fld w 94 86, fld w 107 95)
  let (m, sc) := (colOffset s c (fld w 119 116), colOffset s c (fld w 115 112))
  let (en, sn) := vecBytes f n32
  if scratchOk scr (32 * n32) = false ∨ f = 0xF then s
  else if gutterOk s j c m en = false ∨ (0 < sn ∧ gutterOk s j c sc sn = false) then trapSeq s (128 + c) 0x12
  else match bad with
    | some x => badColumn s c x
    | none =>
      let blocks := (List.range n32).map (fun b => encodeBlock f ((scratchWords s c (scr + 32 * b) 32).map f32))
      let s := writeBytes s (columnAddr c m) (blocks.flatMap (fun b => b.take (4 * fmtBits f)))
      advance (writeBytes s (columnAddr c sc) (blocks.flatMap (fun b => b.drop (4 * fmtBits f)))) (128 + c)

/-- GV_ST. -/
def execGvSt (t : Nat) (stitch : GutterStep) (s : State) : Outcome State Fault Refusal :=
  .next (runGutter t stitch.id 0x81 (fun s c j w => gvStore s c j w stitch.bad) s)

/-- A range of the interleaved window lies in one run of a wide column's bundle (R153, R156). [DESIGN CHOICE: log 73] -/
def groupViewOk (s : State) (c a n : Nat) : Bool :=
  decide (0 < n) && decide (a / 4096 = (a + n - 1) / 4096) && decide ((interleave (shareBytes s) a).1 / 16 = c / 16)
    && decide (a + n ≤ 1024 * shareBytes s)

/-- A column of a bundle is fenced: reads of it are uncorrectable. -/
def bundleFenced (s : State) (c : Nat) (places : List Nat) : Bool := places.any (fun p => fencedU s (unitColumn (c / 16 * 16 + p)))

/-- Places of a bundle whose granules a range of the interleaved window touches (R153). -/
def viewPlaces (a n : Nat) : List Nat :=
  if n = 0 then [] else (List.range ((a + n - 1) / 256 + 1 - a / 256)).map (fun k => (a / 256 + k) % 16)

/-- gv.gld (R156, R166): as gv.ld through the group view. [DESIGN CHOICE: log 73] -/
def gvGroupLoad (s : State) (c : Nat) (w : BitVec 128) (bad : Option GutterFault) (corrected : List Nat) : State :=
  let (f, n32, scr) := (fld w 111 108, fld w 94 86, fld w 107 95)
  let q := (gutter s c).seq
  let (m, sc) := (ea q (fld w 119 116) % 2 ^ 36, ea q (fld w 115 112) % 2 ^ 36)
  let (en, sn) := vecBytes f n32
  if scratchOk scr (32 * n32) = false ∨ f = 0xF ∨ c % 16 ≠ 0 then s
  else if groupViewOk s c m en = false ∨ (0 < sn ∧ groupViewOk s c sc sn = false) then trapSeq s (128 + c) 0x19
  else
    match bad, bundleFenced s c (viewPlaces m en ++ viewPlaces sc sn) with
    | none, false =>
      let s := correctColumn s c corrected
      advance (putScratch s c scr (vecDecode f n32 (readBytes s m en) (readBytes s sc sn))) (128 + c)
    | b, _ => badColumn s c (b.getD (.view m))

/-- GV_GLD. -/
def execGvGld (t id : Nat) (bad : Option GutterFault) (corrected : List Nat) (s : State) : Outcome State Fault Refusal :=
  .next (runGutter t id 0x82 (fun s c _ w => gvGroupLoad s c w bad corrected) s)

/-! ### Units of work (R174) -/

/-- One more unit of work is done. When the count reaches the interval it starts again, with the interval that the folio holds now, and
the next unit is to be repeated; with spot checks disabled it only starts again. [DEDUCED: log 75] -/
def noteWork (s : State) (c : Nat) : State :=
  modGutter s c (fun g => if g.workCount + 1 < g.spotInterval then { g with workCount := g.workCount + 1 }
    else { g with workCount := 0, spotInterval := getF s 0x3400 0x05, repeats := if g.spotInterval = 0 then g.repeats else g.repeats + 1 })

/-- SPOT_CHECK (R174): the count had reached its interval, and the unit of work that follows is repeated; `differs`: a word differed. -/
def execSpotCheck (t column : Nat) (differs : Bool) (s : State) : Outcome State Fault Refusal :=
  let s := atTime t s
  let g := gutter s column
  if g.repeats = 0 then .next s else
  let s := modGutter s column (fun g => { g with repeats := g.repeats - 1 })
  let s := incF s (0x3424 + column / 256) (column % 256)
  match differs, g.seq.job with
  | true, some j =>
    let s := incF (modSeq s (128 + column) (fun q => { q with mismatch := true })) (0x3420 + column / 256) (column % 256)
    .next (unitEvent (uncorrectable s (unitColumn column) 3 0 (some j) (g.seq.sp % 1024) 0) j (unitColumn column))
  | _, _ => .next s

/-! ### Elementwise functions and reductions (R162, Table 7-5) -/

/-- A function of Table 7-5 on SRC1[e], SRC2[e], SRC2[0] and DST[e]. -/
def gvFunc (fn : Nat) (a b b0 d : Word32) : Word32 :=
  match fn with
  | 0x0 => fadd32 a b
  | 0x1 => fsub32 a b
  | 0x2 => fmul32 a b
  | 0x3 => fmax32 a b
  | 0x4 => fmin32 a b
  | 0x5 => fadd32 (fmul32 a b) d
  | 0x6 => fmul32 a b0
  | 0x7 => fadd32 a b0
  | 0x8 => exp32 a
  | 0x9 => recip32 a
  | 0xA => rsqrt32 a
  | 0xB => fmul32 a (recip32 (fadd32 f32One (exp32 (toF32 (numNeg (f32 a))))))
  | 0xC => ofBf16 (toBf16 a)
  | _ => a

/-- gv.op. -/
def gvApply (s : State) (c : Nat) (w : BitVec 128) (bad : Option GutterFault) : State :=
  let (fn, d, a, b, n) := (fld w 119 116, fld w 115 103, fld w 102 90, fld w 89 77, 32 * fld w 76 68)
  if 0xE ≤ fn ∨ gvOpRanges w = false then s else match bad with
    | some f => badColumn s c f
    | none =>
      let x (k : Nat) : Word32 := tget 0 (gutter s c).scratch k
      let out := (List.range n).map (fun e => gvFunc fn (x (a + e)) (x (b + e)) (x b) (x (d + e)))
      advance (noteWork (putScratch s c d out) c) (128 + c)

/-- GV_OP. -/
def execGvOp (t : Nat) (stitch : GutterStep) (s : State) : Outcome State Fault Refusal :=
  .next (runGutter t stitch.id 0x88 (fun s c _ w => gvApply s c w stitch.bad) s)

/-- The greatest of a list of words. -/
def maxOf : List Word32 → Word32
  | [] => f32NegInf
  | x :: r => r.foldl fmax32 x

/-- gv.red (R166): sum, max or sum of squares. -/
def gvReduce (s : State) (c : Nat) (w : BitVec 128) (bad : Option GutterFault) : State :=
  let (fn, d, a, n) := (fld w 119 116, fld w 115 103, fld w 102 90, 32 * fld w 89 81)
  if 3 ≤ fn ∨ gvRedRanges w = false then s else match bad with
    | some f => badColumn s c f
    | none =>
      let xs := scratchWords s c a n
      let v := if fn = 0 then tree32 xs else if fn = 1 then maxOf xs else tree32 (xs.map (fun x => fmul32 x x))
      advance (noteWork (putScratch s c d [v]) c) (128 + c)

/-- GV_RED. -/
def execGvRed (t : Nat) (stitch : GutterStep) (s : State) : Outcome State Fault Refusal :=
  .next (runGutter t stitch.id 0x89 (fun s c _ w => gvReduce s c w stitch.bad) s)

/-! ### Attention over leaves (R167, R168) -/

/-- Offset of the work area in a column. -/
def workBase (s : State) : Nat := columnBytes s - 0x400000

/-- Offset of the exchange area in a column. -/
def exchangeBase (s : State) : Nat := shareBytes s - 0x400000

/-- A list of a column: `size` bytes an entry, its header first; none when it does not lie in the list region. -/
def columnList (s : State) (c o size : Nat) : Option (List Nat) :=
  let n := readNat s (columnAddr c o) 2
  if workBase s ≤ o ∧ o + 64 + n * size ≤ workBase s + 0x80000 then
    some ((List.range n).map (fun k => readNat s (columnAddr c (o + 64 + k * size)) size))
  else none

/-- Rows of a pass: query positions times query heads. -/
def passRows (i : JobImage) (qpos : Nat) : Nat := qpos * i.qHeads

/-- Group index and layer of a leaf identifier. -/
def leafGroup (i : JobImage) (id : Nat) : Nat × Nat := (id % 2 ^ 25 / groupStride i, id % 2 ^ 25 % groupStride i)

/-- The descriptor of the leaf that a work-list entry names. -/
def entryLeaf (s : State) (j e : Nat) : LeafDesc :=
  let gl := leafGroup (imageOf s j) (nfld e 255 224)
  leafOf s j gl.1 gl.2

/-- A work-list entry is malformed whatever place its leaf has (cause 0x1A): a leaf of another job, VALID above L, a pass too large
for the row store, or query or partial rows outside their areas. -/
def entryBad (s : State) (j e : Nat) : Bool :=
  let i := imageOf s j
  let rows := passRows i (nfld e 140 128)
  !(decide (nfld e 255 250 = j) && decide (nfld e 249 249 = 0))
  || decide (i.leafSize < nfld e 147 141) || decide (262144 < rows * (6 * i.headDim + 8))
  || decide (nfld e 103 88 * 64 < 0x80000) || decide (0x380000 < nfld e 103 88 * 64 + rows * i.headDim * 2)
  || decide (0x400000 < nfld e 87 72 * 64 + rows * partialBytes i)

/-- The leaf of an entry, once it is in stacked DRAM, makes the entry malformed (cause 0x1A): its payload or its scale record lies
outside the column pool. -/
def leafAstray (s : State) (j e : Nat) : Bool :=
  let i := imageOf s j
  let inPool (o n : Nat) : Bool := decide (shareBytes s ≤ o) && decide (o + n ≤ workBase s)
  !(inPool (nfld e 223 198) (payloadBytes i))
  || (decide (0 < kvScale i.fmt) && !(inPool (nfld e 197 172) (scaleBytesOf i)))

/-- An entry as att.run reads it: PAYLOAD and SCALE of a leaf that had no place at the freeze, where the list holds zeros, are those of
its descriptor. -/
def entryPlaced (s : State) (j c e : Nat) : Nat :=
  let d := entryLeaf s j e
  if nfld e 223 198 = 0 ∧ d.tier = .stacked then
    e - place (nfld e 197 172) 197 172 + place (d.page - columnAddr c 0) 223 198 + place (d.scaleAddr - columnAddr c 0) 197 172
  else e

/-- A block of 32 elements of slot t, key or value k of head h, of the leaf at payload and scale offsets of a column. [DEDUCED: log 74] -/
def leafBlock (s : State) (i : JobImage) (c p sc h k t b : Nat) : Block :=
  let f := kvFormat i.fmt
  readBlock f (readBytes s (columnAddr c (p + leafBit i h k t (32 * b) / 8)) (4 * fmtBits f)
    ++ readBytes s (columnAddr c (sc + leafScaleByte i h k t b)) (fmtScaleBytes f))

/-- BF16 words as an operand block. -/
def bf16Block (ws : List Word32) : Block := { els := ws.map (fun x => f32 (ofBf16 (toBf16 x))), x := 127 }

/-- dot(q, key(h, t)) of R168 by R110 to R113. -/
def scoreDot (s : State) (i : JobImage) (c p sc h t : Nat) (query : List Word32) : Word32 :=
  let f := kvFormat i.fmt
  tree32 ((List.range (i.headDim / 32)).map (fun b =>
    let qb := bf16Block ((query.drop (32 * b)).take 32)
    let kb := leafBlock s i c p sc h 0 t b
    blockValue 0x1 f qb kb (dotInt (blockInts 0x1 qb) (blockInts f kb))))

/-- The exact sum of products of two lists of values, converted once; by IEEE 754 where a value is special (R111, R112). -/
def exactDot (a b : List Num) : Word32 :=
  let ps := (a.zip b).map (fun p => numMul p.1 p.2)
  if (a ++ b).all numFinite then
    (match ps.foldl numAdd (.fin false 0 0) with
      | .fin neg m e => if m = 0 then f32Zero else toF32 (.fin neg m e)
      | v => toF32 v)
  else if ps.any (fun p => decide (p = .nan)) ∨ (a ++ b).any (fun v => decide (v = .nan)) then f32NaN
  else if ps.contains (.inf true) && ps.contains (.inf false) then f32NaN
  else if ps.contains (.inf true) then f32NegInf else f32PosInf

/-- Element d of the value at slot t with its scale; padding slots are zero. -/
def valueAt (s : State) (i : JobImage) (c p sc h t d : Nat) : Num :=
  if i.leafSize ≤ t then .fin false 0 0 else
  let b := leafBlock s i c p sc h 1 t (d / 32)
  if fmtScaled (kvFormat i.fmt) && decide (b.x = 0xFF) then .nan else numScale (b.els.getD (d % 32) .nan) ((b.x : Int) - 127)

/-- Slots of a leaf rounded up to a multiple of 32. [DEDUCED: log 74] -/
def paddedSlots (i : JobImage) : Nat := roundUp i.leafSize 32

/-- PV block value for element d (R168): probabilities against the value column, 32 slots a block. [DEDUCED: log 74] -/
def valueDot (s : State) (i : JobImage) (c p sc h d : Nat) (ps : List Word32) : Word32 :=
  tree32 ((List.range (paddedSlots i / 32)).map (fun b =>
    exactDot ((List.range 32).map (fun t => f32 (ps.getD (32 * b + t) 0))) ((List.range 32).map (fun t => valueAt s i c p sc h (32 * b + t) d))))

/-- Query row r at the start of a pass. [DEDUCED: log 74] -/
def startRow (s : State) (i : JobImage) (c e : Nat) (rope : Bool) (r : Nat) : AttRow :=
  let a := workBase s + nfld e 103 88 * 64 + r * i.headDim * 2
  let q := (List.range i.headDim).map (fun d => ofBf16 (readNat s (columnAddr c (a + 2 * d)) 2))
  { query := if rope then rotary i.rope (nfld e 127 104 + r / max i.qHeads 1) q else q, m := f32NegInf, l := f32Zero,
    o := List.replicate i.headDim f32Zero }

/-- One row against one leaf (R168). [DEDUCED: log 74] -/
def attendRow (s : State) (i : JobImage) (c e : Nat) (r : Nat) (x : AttRow) : AttRow :=
  let pos := nfld e 127 104 + r / max i.qHeads 1
  let h := r % max i.qHeads 1 / max 1 (i.qHeads / max i.heads 1)
  let (p, sc) := (nfld e 223 198, nfld e 197 172)
  let ts := (List.range (nfld e 147 141)).filter (fun t => decide (nfld e 171 148 + t ≤ pos))
  if ts = [] then x else
  let score := ts.map (fun t => (t, fmul32 (scoreDot s i c p sc h t x.query) i.sigma))
  let m2 := fmax32 x.m (maxOf (score.map (fun q => q.2)))
  let cc := if x.m = f32NegInf then f32Zero else exp32 (fsub32 x.m m2)
  let ps := (List.range (paddedSlots i)).map (fun t => match score.find? (fun q => decide (q.1 = t)) with
    | some q => ofBf16 (toBf16 (exp32 (fsub32 q.2 m2)))
    | none => f32Zero)
  { x with m := m2, l := fadd32 (fmul32 x.l cc) (tree32 ps),
           o := x.o.mapIdx (fun d v => fadd32 (fmul32 v cc) (valueDot s i c p sc h d ps)) }

/-- A partial row as stored (Table 7-7). -/
def partialRow (i : JobImage) (x : AttRow) : List Byte :=
  let bs := toBytesLE 4 x.m.toNat ++ toBytesLE 4 x.l.toNat ++ List.replicate 56 0 ++ x.o.flatMap (fun v => toBytesLE 2 (toBf16 v))
  bs ++ List.replicate (partialBytes i - bs.length) 0

/-- One entry of a work list. -/
def attendEntry (s : State) (c j e : Nat) (rope : Bool) : State :=
  let i := imageOf s j
  let rows := if nbit e 55 then (List.range (passRows i (nfld e 140 128))).map (startRow s i c e rope) else (gutter s c).attRows
  let rows := rows.mapIdx (attendRow s i c e)
  let s := noteWork (modGutter s c (fun g => { g with attRows := rows, attEntry := g.attEntry + 1 })) c
  if nbit e 54 then writeBytes s (columnAddr c (exchangeBase s + nfld e 87 72 * 64)) (rows.flatMap (partialRow i)) else s

/-- The part in whose step a column runs. -/
def columnPart (s : State) (c : Nat) : Bool := (gutter s c).byPrompt

/-- Something that a step needs, `k`, waits for a leaf of tier `t` since `since` (R239). -/
def StepRun.beginWait (r : StepRun) (k : Nat × Nat) (since t : Nat) : StepRun :=
  { r with lateTier := max r.lateTier t, lateWaits := if r.lateWaits.contains k then r.lateWaits else r.lateWaits ++ [k],
           lateSince := some (match r.lateSince with
             | some x => min x since
             | none => since) }

/-- It waits no longer: the time in which something waited is added up. -/
def StepRun.endWait (r : StepRun) (k : Nat × Nat) (now : Nat) : StepRun :=
  let l := r.lateWaits.filter (fun x => decide (x ≠ k))
  match r.lateSince with
  | some t => if l = [] then { r with lateWaits := [], lateSince := none, lateNs := r.lateNs + (now - t) } else { r with lateWaits := l }
  | none => r

/-- att.run has reached a leaf of tier `t` that is not in the column (R239). [DEDUCED: log 75] -/
def noteLate (s : State) (c j t : Nat) : State :=
  let s := modGutter s c (fun g => { g with attWait := true })
  modPart s j (columnPart s c) (fun p => { p with run := p.run.map (fun r => r.beginWait (0, c) s.now t) })

/-- The leaf that att.run waited for is back. [DEDUCED: log 75] -/
def endLate (s : State) (c j : Nat) : State :=
  if (gutter s c).attWait then
    modPart (modGutter s c (fun g => { g with attWait := false })) j (columnPart s c) (fun p => { p with run := p.run.map (fun r => r.endWait (0, c) s.now) })
  else s

/-- The leaf of an entry lies in a transit group, and the BLOCK that brings it has not arrived (R188). [DEDUCED: log 77] -/
def leafAwaited (s : State) (j e : Nat) : Bool :=
  let gl := leafGroup (imageOf s j) (nfld e 255 224)
  s.span.transit.any (fun t => decide (t.job = j) && t.groups.any (fun x =>
    decide (x.2 = gl.1) && decide (x.1 * leafSize s j < t.sets.foldl min (2 ^ 24)) && !(t.filled.contains (gl.2, x.1))))

/-- Entries from where the unit stands, as far as their leaves lie in the column; the stitch ends after the last. An entry whose leaf is
of another column, or returns to another, is malformed (cause 0x1A). -/
def attendFrom (c j : Nat) (rope : Bool) : List Nat → State → State
  | [], s => advance (modGutter s c (fun g => { g with attEntry := 0, attRows := [] })) (128 + c)
  | e :: r, s =>
    if entryBad s j e ∨ (entryLeaf s j e).column ≠ c then trapSeq s (128 + c) 0x1A
    else if (entryLeaf s j e).tier ≠ .stacked then noteLate s c j (tierNum (entryLeaf s j e).tier)
    else if leafAwaited s j e then modGutter s c (fun g => { g with attWait := true })
    else if leafAstray s j (entryPlaced s j c e) then trapSeq s (128 + c) 0x1A
    else attendFrom c j rope r (attendEntry (endLate s c j) c j (entryPlaced s j c e) rope)

/-- att.run (R168): it waits at an entry whose leaf does not lie in the column, and goes on from there. [DEDUCED: log 108] -/
def attRun (s : State) (c j : Nat) (w : BitVec 128) (bad : Option GutterFault) (corrected : List Nat) : State :=
  let o := colOffset s c (fld w 119 116)
  if gutterOk s j c o 64 = false then trapSeq s (128 + c) 0x12 else match columnList s c o 32 with
  | none => trapSeq s (128 + c) 0x1A
  | some l => match bad with
    | some a => badColumn s c a
    | none => attendFrom c j (nbit w.toNat 115) (l.drop (gutter s c).attEntry) (correctColumn s c corrected)

/-- ATT_RUN. -/
def execAttRun (t id : Nat) (bad : Option GutterFault) (corrected : List Nat) (s : State) : Outcome State Fault Refusal :=
  .next (runGutter t id 0xA0 (fun s c j w => attRun s c j w bad corrected) s)

/-! ### The combine (R169) -/

/-- Partial row r that place p wrote. -/
def readPartial (s : State) (i : JobImage) (c p poff r : Nat) : SpanRow :=
  let a := columnAddr (c / 16 * 16 + p) (exchangeBase s + poff * 64 + r * partialBytes i)
  { m := BitVec.ofNat 32 (readNat s a 4), l := BitVec.ofNat 32 (readNat s (a + 4) 4),
    o := (List.range i.headDim).map (fun d => ofBf16 (readNat s (a + 64 + 2 * d) 2)) }

/-- The weighted sum of partial rows in place order: denominator and numerators. -/
def foldPartials (m : Word32) (rows : List SpanRow) (d : Nat) : Word32 × List Word32 :=
  rows.foldl (fun acc x =>
    let c := exp32 (fsub32 x.m m)
    (fadd32 acc.1 (fmul32 x.l c), (acc.2.zip x.o).map (fun p => fadd32 p.1 (fmul32 p.2 c)))) (f32Zero, List.replicate d f32Zero)

/-- Output row of partial rows; none when every place is empty. -/
def combineRow (i : JobImage) (rows : List SpanRow) : Option (List Word32) :=
  let rows := rows.filter (fun x => decide (x.m ≠ f32NegInf))
  if rows = [] then none else
  let (lt, o) := foldPartials (maxOf (rows.map (fun x => x.m))) rows i.headDim
  some (o.map (fun v => fmul32 v (recip32 lt)))

/-- A combine-list entry is malformed (cause 0x1A). -/
def combineBad (s : State) (j e fo : Nat) : Bool :=
  let i := imageOf s j
  let rows := passRows i (nfld e 79 67)
  decide (0x400000 < nfld e 111 96 * 64 + rows * partialBytes i) || decide (nfld e 95 80 * 64 < 0x380000)
    || decide (0x400000 < nfld e 95 80 * 64 + rows * i.headDim * (fmtBits fo / 8))

/-- One entry of a combine list. -/
def combineEntry (s : State) (c j fo e : Nat) : State :=
  let i := imageOf s j
  let places := (List.range 16).filter (fun p => nbit e (112 + p))
  let row (r : Nat) : Option (List Word32) := combineRow i (places.map (fun p => readPartial s i c p (nfld e 111 96) r))
  (List.range (passRows i (nfld e 79 67))).foldl (fun s r =>
    let out := (row r).getD (List.replicate i.headDim f32Zero)
    let s := if (row r).isNone then incF s 0x3404 j else s
    let a := columnAddr c (workBase s + nfld e 95 80 * 64 + r * i.headDim * (fmtBits fo / 8))
    noteWork (writeBytes s a (out.flatMap (fun v => toBytesLE (fmtBits fo / 8) (elemEncode fo (f32 v))))) c) s

/-- Entries of a combine list, in order. -/
def combineFrom (c j fo : Nat) : List Nat → State → State
  | [], s => advance s (128 + c)
  | e :: r, s =>
    if combineBad s j e fo then trapSeq s (128 + c) 0x1A
    else if bundleFenced s c ((List.range 16).filter (fun p => nbit e (112 + p))) then
      badColumn s c (.view (deinterleave (shareBytes s) c (exchangeBase s + nfld e 111 96 * 64)))
    else combineFrom c j fo r (combineEntry s c j fo e)

/-- att.comb (R169). -/
def attComb (s : State) (c j : Nat) (w : BitVec 128) (bad : Option GutterFault) (corrected : List Nat) : State :=
  let o := colOffset s c (fld w 119 116)
  if c % 16 ≠ 0 ∨ 3 < fld w 115 112 then s
  else if gutterOk s j c o 64 = false then trapSeq s (128 + c) 0x12 else match columnList s c o 16 with
  | none => trapSeq s (128 + c) 0x1A
  | some l => match bad with
    | some a => badColumn s c a
    | none => combineFrom c j (fld w 115 112) l (correctColumn s c corrected)

/-- ATT_COMB. -/
def execAttComb (t id : Nat) (bad : Option GutterFault) (corrected : List Nat) (s : State) : Outcome State Fault Refusal :=
  .next (runGutter t id 0xA1 (fun s c j w => attComb s c j w bad corrected) s)

/-! ### Sharing the column (R171, R172, R177) -/

/-- The gutter unit runs a stitch: it owns the port in spans, but while att.run waits for a leaf (Table 7-11). -/
def ownsPort (s : State) (c : Nat) : Bool := goesOn (gutter s c).seq && !(gutter s c).attWait

/-- ORDINARY_ACCESS (R171): access `id` of `beats` beats reaches a column; `slot`: the unit presents no access in that cycle. It
is served at once, or held. [DEDUCED: log 75] -/
def execOrdinaryAccess (t column id beats : Nat) (slot : Bool) (s : State) : Outcome State Fault Refusal :=
  let s := atTime t s
  if ownsPort s column ∧ slot = false then
    let s := modGutter s column (fun g => { g with held := g.held ++ [{ id := id, beats := beats, sinceNs := s.now }] })
    .next (emit (incF s (0x3414 + column / 256) (column % 256)) (.columnData column id true))
  else .next (emit s (.columnData column id false))

/-- Serve held accesses in arrival order for up to `n` beats; an access is done with its last beat. -/
def serveHeld (c : Nat) : Nat → List HeldAccess → State → State × List HeldAccess
  | _, [], s => (s, [])
  | n, x :: r, s =>
    if n < x.beats then (s, { x with beats := x.beats - n } :: r)
    else serveHeld c (n - x.beats) r
      (maxF (emit s (.columnData c x.id false)) (0x3418 + c / 256) (c % 256) (min 65535 (s.now - x.sinceNs)))

/-- SPAN_END (R171): a span ends, and held accesses are served for up to 64 beats. -/
def execSpanEnd (t column : Nat) (s : State) : Outcome State Fault Refusal :=
  let s := atTime t s
  let (s, l) := serveHeld column 64 (gutter s column).held s
  .next (modGutter s column (fun g => { g with held := l }))

/-- REFRESH_DUE (R172): a unit that runs stops at its next yield point. -/
def execRefreshDue (t column : Nat) (s : State) : Outcome State Fault Refusal :=
  let s := atTime t s
  if ownsPort s column ∧ (gutter s column).refreshPause = false then
    .next (incF (modGutter s column (fun g => { g with refreshPause := true })) (0x341C + column / 256) (column % 256))
  else .next s

/-- REFRESH_COMPLETE (R172): the unit resumes. -/
def execRefreshComplete (t column : Nat) (s : State) : Outcome State Fault Refusal :=
  .next (modGutter (atTime t s) column (fun g => { g with refreshPause := false }))

/-- A refused access to the broadcast window freezes its writer (R155); rule 153 in the entry, as Table 17-3 numbers it. [DEDUCED: log 75] -/
def broadcastRefused (s : State) (cls index jb : Nat) : State :=
  if cls = 0 then trapSeq s index 0x12
  else if cls = 3 ∨ cls = 5 then freezeMaster s cls index jb 153
  else failMaster s (masterOf cls index) jb 3 none 0

/-- BROADCAST_WRITE (R155): master `index` of class `cls`, for job `jb`, writes `data` at a device address of the broadcast
window. Only quire DMA and the control plane may, and only within a bundle of their own job. -/
def execBroadcastWrite (t cls index jb addr : Nat) (data : List Byte) (s : State) : Outcome State Fault Refusal :=
  let s := atTime t s
  if inBroadcast addr = false ∨ data = [] then .next s
  else if (cls = 0 ∨ cls = 4) ∧ (addr - 0x180000000000) % 0x400000 + data.length ≤ 0x400000 ∧ bundleOf s jb addr = true
      ∧ (cls = 4 ∨ (quire s index).job = some jb) then
    .next ((storeMoves s 0 addr data.length).foldl (fun s m => writeBytes s m.dst data) s)
  else .next (broadcastRefused s cls index jb)

end Sys2Proof.Machine
end

