-- ==== Sys2Proof/Machine/SpanBase.lean ====
section
/-! DEFINITION. Attention at distance, the operations (R179 to R182, R185 to R195): span partials, accumulators, shards, passes and what
carries them on. -/

namespace Sys2Proof.Machine

open Host

/-! ### The span engine (R181) -/

/-- The rows of the place partials of a span that a job attends with rotary queries: some att.run of its tables asks for it. [DEDUCED: log 76] -/
def usesRope (i : JobImage) : Bool :=
  i.tableSets.any (fun t => t.2.gutterTables.any (fun g => g.any (fun w => decide (fld w 127 120 = 0xA0) && nbit w.toNat 115)))

/-- Output format of a span pass: FMT_OUT of the job's att.comb stitches, BF16 without any. [DEDUCED: log 76] -/
def spanFormat (i : JobImage) : Nat :=
  match (i.tableSets.flatMap (fun t => t.2.gutterTables.flatMap (fun g => g))).find? (fun w => decide (fld w 127 120 = 0xA1)) with
  | some w => fld w 115 112
  | none => 1

/-- Query rows of D BF16 elements from bytes. -/
def queryRows (i : JobImage) (rows : Nat) (bs : List Byte) : List (List Word32) :=
  (List.range rows).map (fun r => (List.range i.headDim).map (fun d => ofBf16 (ofBytesLE ((bs.drop (2 * (r * i.headDim + d))).take 2))))

/-- A work-list entry for one leaf of a pass at distance. -/
def passEntry (i : JobImage) (p off sc qp0 upto : Nat) : Nat :=
  place off 223 198 + place sc 197 172 + place (p * i.leafSize) 171 148 + place (min i.leafSize (upto - p * i.leafSize)) 147 141
  + place qp0 127 104

/-- Group positions of a span that hold tokens below `upto`. -/
def spanPositions (i : JobImage) (span upto : Nat) : List Nat :=
  let per := i.spanLen / max i.leafSize 1
  ((List.range per).map (fun k => span * per + k)).filter (fun p => decide (p * i.leafSize < upto))

/-- The place partial of place `k` (R168, R180): its leaves in ascending group position, each at (column, payload, scale record). -/
def placePartial (s : State) (i : JobImage) (k qp0 upto : Nat) (loc : Nat → Nat × Nat × Nat) (ps : List Nat) (queries : List (List Word32)) :
    List AttRow :=
  let mine := ps.filter (fun p => decide (p % 16 = k))
  let start : List AttRow := queries.mapIdx (fun r q =>
    { query := if usesRope i then rotary i.rope (qp0 + r / max i.qHeads 1) q else q, m := f32NegInf, l := f32Zero,
      o := List.replicate i.headDim f32Zero })
  mine.foldl (fun rows p => rows.mapIdx (attendRow s i (loc p).1 (passEntry i p (loc p).2.1 (loc p).2.2 qp0 upto))) start

/-- The empty accumulator row. -/
def emptyRow (i : JobImage) : SpanRow := { m := f32NegInf, l := f32Zero, o := List.replicate i.headDim f32Zero }

/-- span_partial of one row over the places that wrote one (R181). -/
def spanRow (i : JobImage) (rows : List SpanRow) : SpanRow :=
  let rows := rows.filter (fun x => decide (x.m ≠ f32NegInf))
  if rows = [] then emptyRow i else
  let m := maxOf (rows.map (fun x => x.m))
  let (l, o) := foldPartials m rows i.headDim
  { m := m, l := l, o := o }

/-- The offset in the exchange area, in units of 64 bytes, at which the places write the rows of a pass that no list gives one: the last
bytes of the area. [DESIGN CHOICE: log 139] -/
def farOffset (i : JobImage) (rows : Nat) : Nat := (0x400000 - rows * partialBytes i) / 64

/-- The span partial of every row of a pass over the leaves at group positions `ps`, which lie in one bundle: each place that has leaves
of it writes its rows to the exchange area (R168, R180), and the span engine reads them there (R182). [DESIGN CHOICE: log 139] -/
def spanPartial (s : State) (i : JobImage) (qp0 upto : Nat) (loc : Nat → Nat × Nat × Nat) (ps : List Nat) (queries : List (List Word32)) :
    State × List SpanRow :=
  let wide := (loc (ps.headD 0)).1 / 16 * 16
  let off := farOffset i queries.length
  let places := (List.range 16).filter (fun k => ps.any (fun p => decide (p % 16 = k)))
  let rows := places.map (fun k => (k, placePartial s i k qp0 upto loc ps queries))
  let s := rows.foldl (fun s x => writeBytes s (columnAddr (wide + x.1) (exchangeBase s + off * 64)) (x.2.flatMap (partialRow i))) s
  (s, (List.range queries.length).map (fun r => spanRow i (places.map (fun k => readPartial s i wide k off r))))

/-- merge(a, b) of R181. -/
def mergeRow (a b : SpanRow) : SpanRow :=
  if b.m = f32NegInf then a else if a.m = f32NegInf then b else
  let m := fmax32 a.m b.m
  let ca := exp32 (fsub32 a.m m)
  let cb := exp32 (fsub32 b.m m)
  { m := m, l := fadd32 (fmul32 a.l ca) (fmul32 b.l cb), o := (a.o.zip b.o).map (fun p => fadd32 (fmul32 p.1 ca) (fmul32 p.2 cb)) }

/-- Merge rows with rows. -/
def mergeRows (a b : List SpanRow) : List SpanRow := (a.zip b).map (fun p => mergeRow p.1 p.2)

/-- The end of attend(): output bytes of the rows; empty ones are counted in folio 0x3404.jj. -/
def finishRows (s : State) (j : Nat) (rows : List SpanRow) : State × List Byte :=
  let i := imageOf s j
  let f := spanFormat i
  let out (x : SpanRow) : List Word32 :=
    if x.m = f32NegInf then List.replicate i.headDim f32Zero else x.o.map (fun v => fmul32 v (recip32 x.l))
  (addF s 0x3404 j (rows.countP (fun x => decide (x.m = f32NegInf))),
   rows.flatMap (fun x => (out x).flatMap (fun v => toBytesLE (fmtBits f / 8) (elemEncode f (f32 v)))))

/-- span_partial of every row of a pass whose place partials the gutter units have written in the exchange area (R180 to R182). -/
def listedPartial (s : State) (i : JobImage) (e : FoldEntry) (n : Nat) : List SpanRow :=
  (List.range n).map (fun r => spanRow i (e.places.map (fun k => readPartial s i e.column k e.poff r)))

/-- A span partial row as stored (Table 8-2). -/
def rowBytes (x : SpanRow) : List Byte :=
  toBytesLE 4 x.m.toNat ++ toBytesLE 4 x.l.toNat ++ List.replicate 56 0 ++ x.o.flatMap (fun v => toBytesLE 4 v.toNat)

/-- Span partial rows from bytes. -/
def rowsFrom (i : JobImage) (n : Nat) (bs : List Byte) : List SpanRow :=
  let len := 64 + 4 * i.headDim
  let w (a : Nat) : Word32 := BitVec.ofNat 32 (ofBytesLE ((bs.drop a).take 4))
  (List.range n).map (fun r => { m := w (r * len), l := w (r * len + 4), o := (List.range i.headDim).map (fun d => w (r * len + 64 + 4 * d)) })

/-- The span engine keeps span partials and accumulators in the job's staging units (R182), beyond the position maps: the accumulator
in slot 0, the partial of span k in slot k + 1, as far as the job has staging there. [DESIGN CHOICE: log 139] -/
def keepRows (s : State) (j slot : Nat) (rows : List SpanRow) : State := match stagingBase s j with
  | none => s
  | some b =>
    let bs := rows.flatMap rowBytes
    let a := b + 0x80000 + slot * bs.length
    if inStaging s j a bs.length then writeBytes s a bs else s

/-! ### Messages (R189, R190) -/

/-- Stride code with which a payload is pressed: BF16 rows, FP32 rows, or the job's KV. -/
def spanStride (i : JobImage) (type : Nat) : Nat := if type = 0x22 ∨ type = 0x28 then 2 else if type = 0x25 ∨ type = 0x26 then kvStride i else 1

/-- The link on which a message for a member of a job's plan leaves: the shorter way round, upstream on a tie (R188, R189); none for a
package that is no member. -/
def hopLink (s : State) (j dest : Nat) : Option Nat := match (job s j).plan, (imageOf s j).ring with
  | some p, some n =>
    let r := p.members.length
    let m := p.members.idxOf dest
    if m < r then some (if (p.position + r - m) % r ≤ (m + r - p.position) % r then 2 * n + 1 else 2 * n) else none
  | _, _ => none

/-- A span message leaves for its next hop. -/
def sendHop (s : State) (j dest : Nat) (h : BitVec 1024) (payload : List Byte) : State := match hopLink s j dest with
  | some l => transmit s (.spanHop l dest h payload)
  | none => s

/-- Send a span message: its payload is cased under the job key. Without the key nothing is sent. Kinds up to KV_PUT travel on the
ring, the others over the fabric. [DESIGN CHOICE: log 141] -/
def sendSpan (s : State) (dest jb type : Nat) (h : BitVec 512) (payload : List Byte) : State :=
  let h := BitVec.ofNat 1024 h.toNat
  let out (s : State) (o : List Byte) : State := if type ≤ 0x26 then sendHop s jb dest h o else transmit s (.message 0 dest h o)
  if payload = [] then out s [] else
  match caseObject s jb (spanStride (imageOf s jb) type) ((((job s jb).columns.getD 0 0)) / 512) payload with
  | (s, none) => s
  | (s, some o) => out s o

/-- The header of a message about a pass, from the package as sender. -/
def passHeader (s : State) (p : SpanPass) (type hi lo nkv len : Nat) (ringed : Bool) (jb : Nat) : BitVec 512 :=
  spanHeader s type p.owner p.sig p.epoch jb p.layer hi lo p.qpos p.qp0 p.kvLen nkv p.anchor p.ring ringed 0 p.stepSeq len

/-! ### Ring positions (R185) -/

/-- Spans per ring position. -/
def spansPer (s : State) (j : Nat) : Nat := match (job s j).plan with
  | some p => max (ceilDiv (spanMax (imageOf s j)) (max p.members.length 1)) 1
  | none => max (spanMax (imageOf s j)) 1

/-- Own position, 0 without a ring. -/
def ringPosition (s : State) (j : Nat) : Nat := match (job s j).plan with
  | some p => p.position
  | none => 0

/-- Endpoint at a ring position; this package without a ring. -/
def ringMember (s : State) (j k : Nat) : Nat := match (job s j).plan with
  | some p => p.members.getD k (ownEndpoint s)
  | none => ownEndpoint s

/-- Spans from 0 to `hi` that a position holds, descending. -/
def heldSpans (s : State) (j pos hi : Nat) : List Nat := ((List.range (hi + 1)).filter (fun k => decide (k / spansPer s j = pos))).reverse

/-! ### Shards (R185, R187) -/

/-- A shard. -/
def shardOf (s : State) (j owner sig epoch : Nat) : Option Shard :=
  s.span.shards.find? (fun x => decide (x.job = j) && decide (x.owner = owner) && decide (x.sig = sig) && decide (x.epoch = epoch))

/-- Change a shard. -/
def modShard (s : State) (j owner sig epoch : Nat) (f : Shard → Shard) : State :=
  { s with span := { s.span with shards := s.span.shards.map (fun x =>
      if x.job = j ∧ x.owner = owner ∧ x.sig = sig ∧ x.epoch = epoch then f x else x) } }

/-- The shard exists, under the anchor that the owner sends. [DESIGN CHOICE: log 78] -/
def openShard (s : State) (j owner sig epoch anchor : Nat) : State :=
  if (shardOf s j owner sig epoch).isSome then s else
  let x : Shard := { job := j, owner := owner, sig := sig, epoch := epoch, anchor := anchor, groups := [], kvLen := 0, waiting := [] }
  { s with span := { s.span with shards := s.span.shards ++ [x] } }

/-- R66 for a shard at `kv` committed positions: slots beyond are given back, emptied groups freed. [DEDUCED: log 77] -/
def rollbackShard (s : State) (x : Shard) (kv : Nat) : State :=
  let j := x.job
  let len := leafSize s j
  let s := x.groups.foldl (fun s e =>
    let d := groupOf s j e.2
    let f := min len (kv - e.1 * len)
    if f < d.fill then
      let s := addF s 0x2406 j (d.fill - f)
      let s := modGroup s j e.2 (fun d => { d with fill := f })
      if f = 0 then decRef s j e.2 else s
    else s) s
  modShard s j x.owner x.sig x.epoch (fun x => { x with groups := x.groups.filter (fun e => decide (e.1 * len < kv)), kvLen := min x.kvLen kv })

/-- The group of a shard at a group position, taken when there is none (R74): free or held by the index; or else a demotion pass runs, and
the pass stalls until it has left room. None is a stall. [DESIGN CHOICE: log 78] -/
def shardGroup (s : State) (x : Shard) (p : Nat) : State × Option Nat :=
  match (shardOf s x.job x.owner x.sig x.epoch).bind (fun x => tfind x.groups p) with
  | some g => (s, some g)
  | none => match growFree s x.job x.sig (fun s => eligible s x.job x.anchor p) with
    | (s, some g) => (modShard s x.job x.owner x.sig x.epoch (fun x => { x with groups := tput x.groups p g }), some g)
    | (s, none) => (demotionPass s x.job (namedGroups s x.job []), none)

/-- Bytes of one position's keys and values of a layer: elements of every head, key then value, then their scales. -/
def kvRowBytes (i : JobImage) : Nat × Nat := (i.heads * 2 * i.headDim * kvBits i.fmt / 8, i.heads * 2 * (i.headDim / 32) * kvScale i.fmt)

/-- Write one position's keys and values of a layer into slot `t` of a leaf. -/
def putKvRow (s : State) (i : JobImage) (d : LeafDesc) (t : Nat) (bs : List Byte) : State :=
  let eb := i.headDim * kvBits i.fmt / 8
  let sb := i.headDim / 32 * kvScale i.fmt
  (List.range (2 * i.heads)).foldl (fun s hk =>
    let s := writeBytes s (d.page + leafBit i (hk / 2) (hk % 2) t 0 / 8) ((bs.drop (hk * eb)).take eb)
    writeBytes s (d.scaleAddr + leafScaleByte i (hk / 2) (hk % 2) t 0) ((bs.drop ((kvRowBytes i).1 + hk * sb)).take sb)) s

/-- New rows from position `kv` on are written into the groups of a shard, those of spans held here; what remains when no group is
found is a stall. [DEDUCED: log 77] -/
def putNewRows (j layer : Nat) (x : Shard) : Nat → List (List Byte) → State → State × Option (Nat × List (List Byte))
  | _, [], s => (s, none)
  | pos, r :: rs, s =>
    let i := imageOf s j
    if spanOf i pos / spansPer s j ≠ ringPosition s j then putNewRows j layer x (pos + 1) rs s else
    let len := max i.leafSize 1
    match shardGroup s x (pos / len) with
    | (s, none) => (s, some (pos, r :: rs))
    | (s, some g) =>
      let d := leafOf s j g layer
      let s := if d.tier = .stacked then putKvRow s i d (pos % len) r else s
      let s := modGroup s j g (fun d => { d with fill := max d.fill (pos % len + 1), lastWriter := x.sig, ageMs := nowMs s })
      let s := modShard s j x.owner x.sig x.epoch (fun x => { x with kvLen := max x.kvLen (pos + 1) })
      putNewRows j layer x (pos + 1) rs s

/-- The rows that wait for groups of a shard are written as far as groups are found (R185). -/
def pumpShard (s : State) (x : Shard) : State :=
  let step (st : State × List (Nat × Nat × List (List Byte))) (w : Nat × Nat × List (List Byte)) :
      State × List (Nat × Nat × List (List Byte)) :=
    match putNewRows x.job w.1 x w.2.1 w.2.2 st.1 with
    | (s, none) => (s, st.2)
    | (s, some r) => (s, st.2 ++ [(w.1, r)])
  let (s, l) := x.waiting.foldl step (s, [])
  modShard s x.job x.owner x.sig x.epoch (fun x => { x with waiting := l })

/-- New rows of a layer reach a holder. -/
def takeRows (s : State) (x : Shard) (layer pos : Nat) (rows : List (List Byte)) : State :=
  if rows = [] then s else
  let x := { x with waiting := x.waiting ++ [(layer, pos, rows)] }
  pumpShard s x

/-- Rows of a payload. -/
def cutRows (n len : Nat) (bs : List Byte) : List (List Byte) := (List.range n).map (fun k => (bs.drop (k * len)).take len)

/-! ### Passes -/

/-- Two passes are one: owner, signature, epoch, step, layer and first query. -/
def samePass (a b : SpanPass) : Bool :=
  decide (a.job = b.job) && decide (a.owner = b.owner) && decide (a.sig = b.sig) && decide (a.epoch = b.epoch) && decide (a.stepSeq = b.stepSeq)
    && decide (a.layer = b.layer) && decide (a.qp0 = b.qp0) && decide (a.block = b.block)

/-- Replace or add a pass. -/
def putPass (s : State) (p : SpanPass) : State :=
  let l := s.span.passes
  { s with span := { s.span with passes := if l.any (samePass p) then l.map (fun x => if samePass p x then p else x) else l ++ [p] } }

/-- Remove a pass. -/
def dropPass (s : State) (p : SpanPass) : State := { s with span := { s.span with passes := s.span.passes.filter (fun x => !(samePass p x)) } }

/-- The group at a group position as a pass sees it: of the owner's list or in transit, or of the shard. -/
def passGroup (s : State) (p : SpanPass) (k : Nat) : Option Nat :=
  if p.owner = ownEndpoint s then groupAt s p.sig p.window k else (shardOf s p.job p.owner p.sig p.epoch).bind (fun x => tfind x.groups k)

/-- Tokens below this position may hold KV that the pass attends. -/
def passUpto (p : SpanPass) : Nat := p.qp0 + p.qpos

/-- Groups of a span of a pass; none when one is missing. -/
def passGroups' (s : State) (p : SpanPass) (span : Nat) : Option (List (Nat × Nat)) :=
  (spanPositions (imageOf s p.job) span (passUpto p)).mapM (fun k => (passGroup s p k).map (fun g => (k, g)))

/-- The cache host at which every leaf of a span rests for the layer (R193). -/
def spanHost (s : State) (p : SpanPass) (span : Nat) : Option Nat :=
  if p.refused.contains span then none else
  match passGroups' s p span with
  | some ((_, g) :: r) => match restsAt s p.job g with
    | some e => if r.all (fun x => decide (restsAt s p.job x.2 = some e)) then some e else none
    | none => none
  | _ => none

/-- Rows of the layer of a pass still wait for a group here: the pass is stalled (R185). -/
def rowsWait (s : State) (p : SpanPass) : Bool := match shardOf s p.job p.owner p.sig p.epoch with
  | some x => x.waiting.any (fun w => decide (w.1 = p.layer))
  | none => false

/-- A leaf descriptor as ATTEND carries it: the payload's page on the lender (R193, R235). -/
def descriptorAt (s : State) (j g layer : Nat) : Nat :=
  let d := leafOf s j g layer
  let o := (d.page - 0x300000000000) % 2 ^ 40
  let base := (match tfind s.tier.loans ((d.page - 0x300000000000) / 2 ^ 40) with
    | some e => e.remoteBase
    | none => 0) * 4096
  place (tierNum d.tier) 127 125 + place d.column 124 115 + place ((base + o) / 64) 83 42 + place ((base + o) / 4096) 35 0

/-- Send ATTEND for spans `hi` down to `lo`. -/
def sendAttend (s : State) (p : SpanPass) (host hi lo : Nat) : State :=
  let j := p.job
  let spans := ((List.range (hi + 1 - lo)).map (fun k => hi - k))
  let gs := spans.flatMap (fun k => ((passGroups' s p k).getD []).map (fun x => x.2))
  let body := p.queries.flatMap (fun q => q.flatMap (fun v => toBytesLE 2 (toBf16 v))) ++ gs.flatMap (fun g => toBytesLE 16 (descriptorAt s j g p.layer))
  sendSpan s host j 0x27 (passHeader s p 0x27 hi lo 0 body.length false (getF s 0x3813 j)) body

/-- Ask cache hosts for the spans that rest there: contiguous ones in one ATTEND. -/
def askHosts : Nat → State → SpanPass → State × SpanPass
  | 0, s, p => (s, p)
  | fuel + 1, s, p =>
    match p.todo.find? (fun k => (spanHost s p k).isSome) with
    | none => (s, p)
    | some hi =>
      let e := (spanHost s p hi).getD 0
      let run := p.todo.filter (fun k => decide (k ≤ hi) && (List.range (hi + 1 - k)).all (fun d =>
        p.todo.contains (k + d) && decide (spanHost s p (k + d) = some e)))
      let lo := run.foldl min hi
      let s := sendAttend s p e hi lo
      let a : HostAsk := { host := e, hi := hi, lo := lo, sentNs := s.now, retryDue := false, retried := false, late := false }
      askHosts fuel s { p with todo := p.todo.filter (fun k => !(run.contains k)), asks := p.asks ++ [a] }

/-- Where the leaf of a group position lies: column, payload and scale offsets. -/
def leafPlace (s : State) (p : SpanPass) (k : Nat) : Nat × Nat × Nat :=
  let d := leafOf s p.job ((passGroup s p k).getD 0) p.layer
  (d.column, d.page - columnAddr d.column 0, d.scaleAddr - columnAddr d.column 0)

/-- The part of the job's step to which a pass belongs; at another member than the owner, the job's own step. -/
def passPart (s : State) (p : SpanPass) : Bool := decide (p.owner = ownEndpoint s) && partNames (job s p.job).prompt p.sig

/-- A pass has met leaves of a late tier since the time given (R195, R239). -/
def passLate (s : State) (p : SpanPass) (since tier : Nat) : State :=
  modPart s p.job (passPart s p) (fun q => { q with run := q.run.map (fun r => r.beginWait (1 + p.layer, p.sig) since (min tier 4)) })

/-- Leaves that a pass waited for have come. -/
def passOnTime (s : State) (p : SpanPass) : State :=
  modPart s p.job (passPart s p) (fun q => { q with run := q.run.map (fun r => r.endWait (1 + p.layer, p.sig) s.now) })

/-- The slowest tier in which leaves of some spans of a pass lie. -/
def spansTier (s : State) (p : SpanPass) (spans : List Nat) : Nat :=
  (spans.flatMap (fun k => ((passGroups' s p k).getD []).map (fun g => tierNum (leafOf s p.job g.2 p.layer).tier))).foldl max 0

/-- The spans of an ask, the highest first. -/
def askSpans (a : HostAsk) : List Nat := (List.range (a.hi + 1 - a.lo)).map (fun d => a.hi - d)

/-- The line of the step's fold lists for a span of an own pass. -/
def foldEntry (s : State) (p : SpanPass) (span : Nat) : Option FoldEntry :=
  if p.owner ≠ ownEndpoint s then none else
  match (partOf (job s p.job) (passPart s p)).run with
  | some r => r.plan.folds.find? (fun e => decide (e.layer = p.layer) && decide (e.sig = p.sig) && decide (e.qp0 = p.qp0) && decide (e.qpos = p.qpos)
      && decide (e.span = span))
  | none => none

/-- The span partials of a span are ready. -/
def spanReady (s : State) (p : SpanPass) (span : Nat) (rows : List SpanRow) : State × SpanPass :=
  (keepRows s p.job (span + 1) rows, { p with todo := p.todo.filter (fun k => decide (k ≠ span)), spans := p.spans ++ [(span, rows)] })

/-- A span that the fold lists name is read from the exchange area once its place partials are written. Another one whose leaves all lie
in their columns is attended; otherwise its groups are promoted at step priority (R193, R231), and their tier is late (R239). -/
def attendSpan (st : State × SpanPass) (span : Nat) : State × SpanPass :=
  let (s, p) := st
  let j := p.job
  match foldEntry s p span, passGroups' s p span with
  | some e, _ => if p.folded then spanReady s p span (listedPartial s (imageOf s j) e p.queries.length) else (s, p)
  | none, none => (s, p)
  | none, some gs =>
    let away := gs.filter (fun g => decide ((leafOf s j g.2 p.layer).tier ≠ .stacked))
    if away = [] then
      let (s, rows) := spanPartial s (imageOf s j) p.qp0 (passUpto p) (leafPlace s p) (gs.map (fun g => g.1)) p.queries
      spanReady s p span rows
    else
      let t := (away.map (fun g => tierNum (leafOf s j g.2 p.layer).tier)).foldl max 0
      (away.foldl (fun s g => promote s j g.2 true) (passLate s p s.now t), p)

/-- Own spans merged into the accumulator, span descending (R181). -/
def foldSpans (acc : List SpanRow) (spans : List (Nat × List SpanRow)) : List SpanRow :=
  (sortBy (fun a b => decide (b.1 ≤ a.1)) spans).foldl (fun a x => mergeRows a x.2) acc

/-- The fold of a layer is complete for one of the block passes that share transit groups: with the last of them the leaves of that layer
are given up, and with the last layer the groups themselves (R188). [DEDUCED: log 77] -/
def soloDone (s : State) (p : SpanPass) : State :=
  let s := modTransit s p.job p.sig p.window (fun x => { x with folded := x.folded ++ [(p.layer, p.qp0)] })
  match transitOf s p.job p.sig p.window with
  | none => s
  | some x =>
    let all (l : Nat) : Bool := x.sets.all (fun q => x.folded.contains (l, q))
    let s := if all p.layer then x.groups.foldl (fun s e => setLeaf s p.job e.2 p.layer LeafDesc.zero) s else s
    if (List.range (imageOf s p.job).layers).all all then freeTransit s x else s

/-- A pass whose own spans are ready goes on (R187 steps 3 to 5): the accumulator upstream, or the output to the owner. -/
def passOn' (s : State) (p : SpanPass) : State :=
  let j := p.job
  let own := decide (p.owner = ownEndpoint s)
  let top := p.solo || decide (p.spanHi / spansPer s j = ringPosition s j)
  if p.known = false ∨ p.sent = true ∨ p.todo ≠ [] ∨ p.asks ≠ [] ∨ p.awaits ≠ [] then putPass s p else
  let start : Option (List SpanRow) := if top then some (p.queries.map (fun _ => emptyRow (imageOf s j))) else p.acc
  match start with
  | none => putPass s p
  | some a =>
    let rows := foldSpans a p.spans
    let s := keepRows s j 0 rows
    if p.solo ∨ ringPosition s j = 0 then
      let (s, out) := finishRows s j rows
      if own then putPass (if p.solo then soloDone s p else s) { p with sent := true, output := some out }
      else dropPass (sendSpan s p.owner j 0x23 (passHeader s p 0x23 p.spanHi 0 0 out.length true j) out) p
    else
      let bs := rows.flatMap rowBytes
      let s := sendSpan s (ringMember s j (ringPosition s j - 1)) j 0x22 (passHeader s p 0x22 p.spanHi 0 0 bs.length true j) bs
      if own then putPass s { p with sent := true } else dropPass s p

/-- Group positions of which a BLOCK carries the leaves: those of the spans that ring position `pos` holds, from `lo` up, with tokens
before the first query. [DEDUCED: log 77] -/
def blockPositions (s : State) (p : SpanPass) (pos lo : Nat) : List Nat :=
  ((heldSpans s p.job pos p.spanHi).filter (fun k => decide (lo ≤ k))).flatMap (fun k => spanPositions (imageOf s p.job) k p.qp0)

/-- BLOCK answers a BLOCK_REQ once every leaf asked for can be read (R188): payload, then scale record, of each. -/
def sendBlock (s : State) (p : SpanPass) (lo : Nat) : State :=
  let j := p.job
  let i := imageOf s j
  match (blockPositions s p (ringPosition s j) lo).mapM (passGroup s p) with
  | none => putPass s p
  | some gs =>
    let away := gs.filter (fun g => decide ((leafOf s j g p.layer).tier ≠ .stacked))
    if away ≠ [] then putPass (away.foldl (fun s g => promote s j g true) s) p else
    let bs := gs.flatMap (fun g =>
      let d := leafOf s j g p.layer
      readBytes s d.page (payloadBytes i) ++ readBytes s d.scaleAddr (scaleBytesOf i))
    dropPass (sendSpan s p.owner j 0x25 (passHeader s p 0x25 p.spanHi lo 0 bs.length true j) bs) p

/-- A pass makes what progress it can. -/
def runPass (s : State) (p : SpanPass) : State :=
  match p.block with
  | some lo => if rowsWait s p then putPass s p else sendBlock s p lo
  | none =>
    if p.known = false ∨ rowsWait s p = true ∨ p.awaits ≠ [] then putPass s p else
    let (s, p) := askHosts p.todo.length s p
    let (s, p) := p.todo.foldl attendSpan (s, p)
    passOn' s p

/-- A pass that waited goes on as far as it can. -/
def pumpPass (s : State) (p : SpanPass) : State :=
  let s' := runPass s p
  match s'.span.passes.find? (samePass p) with
  | some q => if q.todo.length < p.todo.length then passOnTime s' p else s'
  | none => passOnTime s' p

/-- Every pass that waits for leaves makes what progress it can. -/
def pumpPasses (s : State) : State :=
  let s := (s.span.shards.filter (fun x => decide (x.waiting ≠ []))).foldl pumpShard s
  (s.span.passes.filter (fun p => p.block.isSome || (p.known && !p.sent))).foldl pumpPass s

end Sys2Proof.Machine
end

