-- ==== Sys2Proof/Machine/Span.lean ====
section
/-! DEFINITION. Attention at distance, the commands (chapter 8), with the returns of control-die routines that drive the span engine
(R142, R182) and the start of the step phase (R134, R195). -/

namespace Sys2Proof.Machine

open Host

/-! ### Receiving (R189 to R191) -/

/-- A pass as the header of a message names it, nothing of it known yet. [DESIGN CHOICE: log 78] -/
def headerPass (h : BitVec 512) : SpanPass :=
  { job := fld h 421 416, owner := fld h 487 472, sig := fld h 471 456, epoch := fld h 455 424, stepSeq := fld h 284 253,
    layer := fld h 415 408, spanHi := fld h 407 392, qpos := fld h 375 363, qp0 := fld h 362 339, kvLen := fld h 338 315,
    anchor := fld h 301 296, ring := fld h 295 294, window := 0, awaits := [], known := false, queries := [], solo := false, folded := false, block := none, todo := [],
    refused := [], spans := [], acc := none, sent := false, asks := [], output := none }

/-- A message of a kind for a span-mode job that runs, or ends while its steps still run; RSVD bits zero, CODE zero outside REFUSE,
LAYER one of the job's. -/
def spanOk (s : State) (h : BitVec 512) (type : Nat) : Bool :=
  let j := fld h 421 416
  decide (fld h 511 504 = type) && decide (fld h 423 422 = 0) && decide (fld h 220 0 = 0) && decide (fld h 292 285 = 0)
    && (decide ((job s j).mode = .running) || decide ((job s j).mode = .ending)) && (imageOf s j).spanMode && decide (fld h 415 408 < (imageOf s j).layers)

/-- Open an object with the key of a job of this package, whichever number the object's writer knows the job by, through a pair of the half
of the job's first column (R328). [DEDUCED: log 79] -/
def openFor (s : State) (jb : Nat) (obj : List Byte) : State × Option (List Byte) :=
  let n := nfld (ofBytesLE (obj.take 64)) 503 498
  let lent : State := { s with press := { s.press with keys := tput s.press.keys n (keySlot s jb) } }
  match openWith s lent jb ((job s jb).columns.getD 0 0 / 512) obj with
  | (s, .ok r) => (s, some r)
  | (s, .error _) => (s, none)

/-- The payload of a message: `n` bytes before the press; none when it does not open or has another length. [DEDUCED: log 79] -/
def openSpan (s : State) (jb n : Nat) (obj : List Byte) : State × Option (List Byte) :=
  if obj = [] then (s, if n = 0 then some [] else none) else
  match openFor s jb obj with
  | (s, some r) => (s, if r.length = n then some r else none)
  | (s, none) => (s, none)

/-- A pass of a later step of the same signature, or a shard of a higher epoch, shows a message of a member's pass to be stale. -/
def overtaken (s : State) (p : SpanPass) : Bool :=
  s.span.passes.any (fun x => decide (x.job = p.job) && decide (x.owner = p.owner) && decide (x.sig = p.sig) && decide (p.epoch = x.epoch)
      && decide (p.stepSeq < x.stepSeq))
    || s.span.shards.any (fun x => decide (x.job = p.job) && decide (x.owner = p.owner) && decide (x.sig = p.sig) && decide (p.epoch < x.epoch))

/-- A message for another member of the ring goes on to it (R189). -/
def relay (s : State) (member : Nat) (h : BitVec 512) (payload : List Byte) : State :=
  sendHop s (fld h 421 416) member (BitVec.ofNat 1024 h.toNat) payload

/-- Stalls that holders of a pass met are counted at its owner (R185). [DESIGN CHOICE: log 78] -/
def countHolders (s : State) (p : SpanPass) (n : Nat) : State :=
  if p.owner = ownEndpoint s then (List.range n).foldl (fun s _ => countStall s p.sig) s else s

/-- Count a stale reply (R191). -/
def staleReply (s : State) (jb : Nat) : State := incF s 0x381A jb

/-- Passes of earlier steps of the same signature end (R191). -/
def dropOlder (s : State) (p : SpanPass) : State :=
  { s with span := { s.span with passes := s.span.passes.filter (fun x =>
      !(decide (x.job = p.job) && decide (x.owner = p.owner) && decide (x.sig = p.sig) && decide (x.stepSeq < p.stepSeq))) } }

/-- The pass that a message names, if it is in progress here. -/
def findPass (s : State) (p : SpanPass) : Option SpanPass := s.span.passes.find? (samePass p)

/-- Bytes of the query rows of a message, and of its new keys and values. -/
def rowLengths (i : JobImage) (h : BitVec 512) : Nat × Nat :=
  (fld h 375 363 * i.qHeads * 2 * i.headDim, fld h 314 302 * ((kvRowBytes i).1 + (kvRowBytes i).2))

/-! ### Spine rings (R183) -/

/-- Header of RING_PLAN. [DESIGN CHOICE: log 80] -/
def ringPlanHeader (s : State) (n len : Nat) : BitVec 512 := spanHeader s 0x20 0 0 0 0 0 0 0 0 0 0 0 0 n true 0 0 len

/-- Send RING_PLAN downstream on link 2n. [DESIGN CHOICE: log 80] -/
def sendPlan (s : State) (n : Nat) (l : List Nat) : State :=
  if linkLive (linkOf s (2 * n)).mode then
    transmit s (.spanHop (2 * n) (linkOf s (2 * n)).peerEndpoint (BitVec.ofNat 1024 (ringPlanHeader s n (2 * l.length)).toNat) (l.flatMap (toBytesLE 2)))
  else s

/-- The plan of a ring. -/
def planOf (s : State) (n : Nat) : RingPlan := s.span.plans.getD n { valid := false, members := [], position := 0, planning := false }

/-- Replace the plan of a ring. -/
def setPlanState (s : State) (n : Nat) (p : RingPlan) : State := { s with span := { s.span with plans := s.span.plans.set n p } }

/-- This package begins to plan a ring. -/
def startPlan (s : State) (n : Nat) : State := sendPlan (setPlanState s n { planOf s n with planning := true }) n [ownEndpoint s]

/-- The folios of a ring from a completed list. -/
def completePlan (s : State) (n : Nat) (l : List Nat) : State :=
  let r := l.length
  let k := l.idxOf (ownEndpoint s)
  let s := setPlanState s n { valid := true, members := l, position := k, planning := false }
  let s := setF s 0x3800 n (place 1 31 31 + place r 20 16 + place k 11 8)
  let s := setF (setF s 0x3801 n (l.getD ((k + r - 1) % r) 0)) 0x3802 n (l.getD ((k + 1) % r) 0)
  let s := (List.range 4).foldl (fun s q => setF s (0x3808 + q) n (ofBytesLE (((l.drop (4 * q)).take 4).flatMap (toBytesLE 2)))) s
  incF s 0x3804 n

/-! ### Query passes (R187) -/

/-- A member takes the opened payload of a QUERY: `q` bytes of queries and `k` new KV rows (R187). -/
def takeQuery (p : SpanPass) (bs : List Byte) (q k : Nat) (s : State) : State :=
  let i := imageOf s p.job
  let s := openShard (dropOlder s p) p.job p.owner p.sig p.epoch p.anchor
  match shardOf s p.job p.owner p.sig p.epoch with
  | none => s
  | some x =>
    let s := rollbackShard s x p.kvLen
    let x := (shardOf s p.job p.owner p.sig p.epoch).getD x
    let s := takeRows s x p.layer p.qp0 (cutRows k ((kvRowBytes i).1 + (kvRowBytes i).2) (bs.drop q))
    let p := { p with known := true, queries := queryRows i (p.qpos * i.qHeads) bs, todo := heldSpans s p.job (ringPosition s p.job) p.spanHi,
                      acc := (findPass s p).bind (fun q => q.acc) }
    runPass s p

/-- QUERY (R187), for `member`. -/
def execQuery (t : Nat) (m : SpanIn) (payload : List Byte) (s : State) : Outcome State Fault Refusal :=
  let s := atTime t s
  if deadSource s (fld m.header 503 488) then .next (incF s 0x6401 0x05) else
  if m.member ≠ ownEndpoint s then .next (relay s m.member m.header payload) else
  let p := headerPass m.header
  let i := imageOf s p.job
  let n := rowLengths i m.header
  if spanOk s m.header 0x21 = false ∨ fld m.header 252 221 ≠ n.1 + n.2 ∨ p.owner = ownEndpoint s ∨ overtaken s p = true then .next s else
  match openSpan s p.job (n.1 + n.2) payload with
  | (s, none) => .next s
  | (s, some bs) => .next (takeQuery p bs n.1 (fld m.header 314 302) s)

/-- ACC (R187 step 4), for `member`. -/
def execAcc (t : Nat) (m : SpanIn) (payload : List Byte) (s : State) : Outcome State Fault Refusal :=
  let s := atTime t s
  if deadSource s (fld m.header 503 488) then .next (incF s 0x6401 0x05) else
  if m.member ≠ ownEndpoint s then .next (relay s m.member m.header payload) else
  let p := headerPass m.header
  let i := imageOf s p.job
  let rows := p.qpos * i.qHeads
  if spanOk s m.header 0x22 = false ∨ fld m.header 252 221 ≠ rows * (64 + 4 * i.headDim) then .next s else
  match findPass s p with
  | none =>
    if p.owner = ownEndpoint s ∨ overtaken s p = true then .next (staleReply s p.job) else
    match openSpan s p.job (rows * (64 + 4 * i.headDim)) payload with
    | (s, none) => .next s
    | (s, some bs) =>
      let p := { p with acc := some (rowsFrom i rows bs), queries := List.replicate rows [] }
      let s := keepRows s p.job 0 (rowsFrom i rows bs)
      .next (if heldSpans s p.job (ringPosition s p.job) p.spanHi = [] then runPass s { p with known := true } else putPass s p)
  | some q =>
    match openSpan s p.job (rows * (64 + 4 * i.headDim)) payload with
    | (s, none) => .next s
    | (s, some bs) =>
      .next (runPass (keepRows (countHolders s p m.stalls) p.job 0 (rowsFrom i rows bs)) { q with acc := some (rowsFrom i rows bs) })

/-- OUTPUT (R187 step 5), for `member`. -/
def execOutput (t : Nat) (m : SpanIn) (payload : List Byte) (s : State) : Outcome State Fault Refusal :=
  let s := atTime t s
  if deadSource s (fld m.header 503 488) then .next (incF s 0x6401 0x05) else
  if m.member ≠ ownEndpoint s then .next (relay s m.member m.header payload) else
  let p := headerPass m.header
  if spanOk s m.header 0x23 = false then .next s else
  match findPass s p with
  | none => .next (staleReply s p.job)
  | some q =>
    if q.owner ≠ ownEndpoint s then .next (staleReply s p.job) else
    match openSpan s p.job (fld m.header 252 221) payload with
    | (s, none) => .next s
    | (s, some bs) => .next (putPass (countHolders s p m.stalls) { q with sent := true, output := some bs })

/-! ### Block passes (R188) -/

/-- BLOCK_REQ (R188 step 3), for `member`. -/
def execBlockReq (t : Nat) (m : SpanIn) (s : State) : Outcome State Fault Refusal :=
  let s := atTime t s
  if deadSource s (fld m.header 503 488) then .next (incF s 0x6401 0x05) else
  if m.member ≠ ownEndpoint s then .next (relay s m.member m.header []) else
  let p := headerPass m.header
  if spanOk s m.header 0x24 = false ∨ p.owner = ownEndpoint s ∨ overtaken s p = true then .next s else
  let s := openShard (dropOlder s p) p.job p.owner p.sig p.epoch p.anchor
  .next (runPass s { p with known := true, block := some (fld m.header 391 376) })

/-- The group positions of a BLOCK from a ring member, with the transit groups of the signature here. -/
def blockLeaves (s : State) (p : SpanPass) (lo source : Nat) : List (Nat × Option Nat) :=
  let pos := match (job s p.job).plan with
    | some q => q.members.idxOf source
    | none => 0
  (blockPositions s p pos lo).map (fun g => (g, transitAt s p.job p.sig p.window g))

/-- Fill leaves of a layer from the bytes of a BLOCK, in order. -/
def fillLeaves (j layer : Nat) : List (Nat × Option Nat) → List Byte → State → State
  | [], _, s => s
  | (_, none) :: r, bs, s => fillLeaves j layer r (bs.drop (payloadBytes (imageOf s j) + scaleBytesOf (imageOf s j))) s
  | (_, some g) :: r, bs, s =>
    let i := imageOf s j
    let n := payloadBytes i + scaleBytesOf i
    let d := leafOf s j g layer
    fillLeaves j layer r (bs.drop n) (storeLeaf s j (d.page, d.scaleAddr) (bs.take n))

/-- A BLOCK that the pass awaited has arrived from a member: its leaves are filled, and the pass goes on. -/
def blockTaken (q : SpanPass) (positions : List Nat) (member : Nat) (s : State) : State :=
  let s := modTransit s q.job q.sig q.window (fun x => { x with filled := x.filled ++ positions.map (fun k => (q.layer, k)) })
  runPass s { q with awaits := q.awaits.filter (fun e => decide (e ≠ member)) }

/-- BLOCK (R188 step 4), for `member`. -/
def execBlock (t : Nat) (m : SpanIn) (payload : List Byte) (s : State) : Outcome State Fault Refusal :=
  let s := atTime t s
  if deadSource s (fld m.header 503 488) then .next (incF s 0x6401 0x05) else
  if m.member ≠ ownEndpoint s then .next (relay s m.member m.header payload) else
  let p := headerPass m.header
  let i := imageOf s p.job
  if spanOk s m.header 0x25 = false then .next s else
  let from0 := fld m.header 503 488
  match findPass s p with
  | none => .next (staleReply s p.job)
  | some q =>
    let l := blockLeaves s { q with spanHi := p.spanHi } (fld m.header 391 376) from0
    if p.owner ≠ ownEndpoint s ∨ q.awaits.contains from0 = false ∨ fld m.header 252 221 ≠ l.length * (payloadBytes i + scaleBytesOf i) then .next s else
    match openSpan s p.job (fld m.header 252 221) payload with
    | (s, none) => .next s
    | (s, some bs) => .next (blockTaken q (l.map (fun x => x.1)) from0 (fillLeaves p.job p.layer l bs (countHolders s p m.stalls)))

/-- KV_PUT_MESSAGE (R188 step 4): the span message KV_PUT, for `member`. [DEDUCED: log 77] -/
def execKvPutMessage (t : Nat) (m : SpanIn) (payload : List Byte) (s : State) : Outcome State Fault Refusal :=
  let s := atTime t s
  if deadSource s (fld m.header 503 488) then .next (incF s 0x6401 0x05) else
  if m.member ≠ ownEndpoint s then .next (relay s m.member m.header payload) else
  let p := headerPass m.header
  let i := imageOf s p.job
  let n := (rowLengths i m.header).2
  if spanOk s m.header 0x26 = false ∨ fld m.header 252 221 ≠ n ∨ p.owner = ownEndpoint s ∨ overtaken s p = true then .next s else
  match openSpan s p.job n payload with
  | (s, none) => .next s
  | (s, some bs) =>
    let s := openShard s p.job p.owner p.sig p.epoch p.anchor
    match shardOf s p.job p.owner p.sig p.epoch with
    | none => .next s
    | some x =>
      let s := rollbackShard s x p.kvLen
      .next (takeRows s ((shardOf s p.job p.owner p.sig p.epoch).getD x) p.layer p.qp0
        (cutRows (fld m.header 314 302) ((kvRowBytes i).1 + (kvRowBytes i).2) bs))

/-! ### Host jobs (R194) -/

/-- A leaf of this package that it lends and whose object opens under the host job's key (R194), or the code of Table 8-5: a leaf of
another size shows another geometry. -/
def lentLeaf (s : State) (j a : Nat) : State × Except Nat (List Byte) :=
  let n := objectBytes (imageOf s j)
  if s.tier.lent.any (fun r => decide (r.base ≤ a) && decide (a + n ≤ r.base + r.sizeGib * 2 ^ 30)) then
    match targetRead s a n with
    | none => (s, .error 3)
    | some o => match openFor s j o with
      | (s, some r) => (s, if r.length = payloadBytes (imageOf s j) + scaleBytesOf (imageOf s j) then .ok r else .error 2)
      | (s, none) => (s, .error 3)
  else (s, .error 3)

/-- Bytes of copied leaves in a column. -/
def copiedIn (s : State) (c : Nat) : List (Nat × Nat) :=
  (s.span.copied.filter (fun x => decide (x.2.2.1 = c))).map (fun x =>
    (x.2.2.2.1, payloadBytes (imageOf s x.1) + scaleBytesOf (imageOf s x.1)))

/-- A place in a column for a copied leaf; the oldest copies of the job in it that this ATTEND does not name are freed while it is
short. -/
def copyPlace (j c : Nat) (keep : List Nat) : Nat → State → State × Option Nat
  | 0, s => (s, none)
  | fuel + 1, s =>
    let i := imageOf s j
    match placeIn s c (payloadBytes i + scaleBytesOf i) 4096 (usedIn s j c ++ copiedIn s c) with
    | some a => (draw s, some a)
    | none =>
      let old := s.span.copied.filter (fun x => decide (x.1 = j) && decide (x.2.2.1 = c) && !(keep.contains x.2.1))
      match old with
      | [] => (s, none)
      | y :: r =>
        let v := r.foldl (fun b x => if ageOf s b.2.2.2.2 < ageOf s x.2.2.2.2 then x else b) y
        copyPlace j c keep fuel { s with span := { s.span with copied := s.span.copied.filter (fun x => !decide (x = v)) } }

/-- Copy the leaf at address `a` into column `c`, or use the copy there. [DEDUCED: log 79] -/
def copyLeaf (s : State) (j c a : Nat) (keep : List Nat) (bs : List Byte) : State × Option Nat :=
  match s.span.copied.find? (fun x => decide (x.1 = j) && decide (x.2.1 = a) && decide (x.2.2.1 = c)) with
  | some x =>
    let l := s.span.copied.map (fun y => if y = x then (x.1, x.2.1, x.2.2.1, x.2.2.2.1, nowMs s) else y)
    (writeBytes { s with span := { s.span with copied := l } } x.2.2.2.1 bs, some x.2.2.2.1)
  | none => match copyPlace j c keep (s.span.copied.length + 1) s with
    | (s, none) => (s, none)
    | (s, some p) => (writeBytes { s with span := { s.span with copied := s.span.copied ++ [(j, a, c, p, nowMs s)] } } p bs, some p)

/-- Copy the leaves of an ATTEND, in order: (group position, page) to (group position, column, address). -/
def copyLeaves (j anchor layer : Nat) (keep : List Nat) : List (Nat × Nat) → State → State × Except Nat (List (Nat × Nat × Nat))
  | [], s => (s, .ok [])
  | (p, a) :: r, s =>
    match lentLeaf s j a with
    | (s, .error c) => (s, .error c)
    | (s, .ok bs) =>
      let c := (job s j).columns.getD (16 * ((anchor + layer) % max (bundleCount s j) 1) + p % 16) 0
      match copyLeaf s j c a keep bs with
      | (s, none) => (s, .error 4)
      | (s, some q) => match copyLeaves j anchor layer keep r s with
        | (s, .ok l) => (s, .ok ((p, c, q) :: l))
        | (s, .error e) => (s, .error e)

/-- Serve one ATTEND (R194 steps 1 to 4): PARTIALS, or REFUSE. [DEDUCED: log 79] -/
def serveAttend (s : State) (a : AttendWork) : State :=
  let h := a.header
  let j := a.job
  let i := imageOf s j
  let p := headerPass h
  let lo := fld h 391 376
  let spans := (List.range (p.spanHi + 1 - lo)).map (fun k => p.spanHi - k)
  let ps := spans.flatMap (fun k => spanPositions i k (passUpto p))
  let q := p.qpos * i.qHeads * 2 * i.headDim
  let descs := ps.zipIdx.map (fun x => (x.1, nfld (ofBytesLE ((a.payload.drop (q + 16 * x.2)).take 16)) 35 0 * 4096))
  match copyLeaves j p.anchor p.layer (descs.map (fun x => x.2)) descs s with
  | (s, .error c) => attendRefuse c s a
  | (s, .ok l) =>
    let loc (k : Nat) : Nat × Nat × Nat := match l.find? (fun x => decide (x.1 = k)) with
      | some (_, c, b) => (c, b - columnAddr c 0, b - columnAddr c 0 + payloadBytes i)
      | none => (0, 0, 0)
    let queries := queryRows i (p.qpos * i.qHeads) a.payload
    let (s, rows) := spans.foldl (fun (st : State × List SpanRow) k =>
      let (s, r) := spanPartial st.1 i p.qp0 (passUpto p) loc (spanPositions i k (passUpto p)) queries
      (s, st.2 ++ r)) (s, [])
    let bs := rows.flatMap rowBytes
    incF (sendSpan s a.src j 0x28 (passHeader s p 0x28 p.spanHi lo 0 bs.length false a.srcJob) bs) 0x3820 j

/-- Code with which an ATTEND is refused on arrival (Table 8-5); its payload opened, if it opens. -/
def attendCode (s : State) (h : BitVec 512) (bs : Option (List Byte)) : Option Nat :=
  let j := fld h 421 416
  let i := imageOf s j
  let p := headerPass h
  let lo := fld h 391 376
  let spans := (List.range (p.spanHi + 1 - lo)).map (fun k => p.spanHi - k)
  let n := (spans.flatMap (fun k => spanPositions i k (passUpto p))).length
  if fld h 511 504 ≠ 0x27 ∨ fld h 423 422 ≠ 0 ∨ fld h 220 0 ≠ 0 ∨ fld h 292 285 ≠ 0 ∨ p.spanHi < lo then some 5
  else if (job s j).mode ≠ .running ∨ i.spanMode = false ∨ i.ring.isSome then some 1
  else if bs.isNone then some 5
  else if i.layers ≤ p.layer ∨ fld h 252 221 ≠ p.qpos * i.qHeads * 2 * i.headDim + 16 * n then some 2
  else if 256 ≤ (s.span.attends.filter (fun a => decide (a.job = j))).length then some 4
  else none

/-- A host job serves its queue, in arrival order. -/
def serveQueue (s : State) (j : Nat) : State :=
  let mine := s.span.attends.filter (fun x => decide (x.job = j))
  mine.foldl serveAttend { s with span := { s.span with attends := s.span.attends.filter (fun x => decide (x.job ≠ j)) } }

/-- ATTEND (R194): `ready` says that the host job's units take up its queue now; they also do when a step phase of it begins. The holder's
own job number is that of the cased payload (R330). [DEDUCED: log 79] -/
def execAttend (t : Nat) (header : BitVec 512) (payload : List Byte) (ready : Bool) (s : State) : Outcome State Fault Refusal :=
  let s := atTime t s
  if deadSource s (fld header 503 488) then .next (incF s 0x6401 0x05) else
  let j := fld header 421 416
  let (s, bs) := openSpan s j (fld header 252 221) payload
  let a : AttendWork := { src := fld header 503 488, job := j, srcJob := nfld (ofBytesLE (payload.take 64)) 503 498, header := header, payload := bs.getD [] }
  match attendCode s header bs with
  | some c => .next (attendRefuse c s a)
  | none =>
    let s : State := { s with span := { s.span with attends := s.span.attends ++ [a] } }
    .next (if ready then serveQueue s j else s)

/-! ### Holders (R193, R195) -/

/-- The pass and the ask that a message of a cache host answers; JOB is not compared, since host and holder may number the job
differently. -/
def askedPass (s : State) (h : BitVec 512) : Option (SpanPass × HostAsk) :=
  let p := headerPass h
  (s.span.passes.find? (fun x => decide (x.owner = p.owner) && decide (x.sig = p.sig) && decide (x.epoch = p.epoch) && decide (x.stepSeq = p.stepSeq)
      && decide (x.layer = p.layer) && decide (x.qp0 = p.qp0)
      && x.asks.any (fun a => decide (a.host = fld h 503 488) && decide (a.hi = p.spanHi) && decide (a.lo = fld h 391 376)))).bind (fun x =>
    (x.asks.find? (fun a => decide (a.host = fld h 503 488) && decide (a.hi = p.spanHi) && decide (a.lo = fld h 391 376))).map (fun a => (x, a)))

/-- PARTIALS (R193): merged as the holder's own span partials. [DESIGN CHOICE: log 78] -/
def execPartials (t : Nat) (header : BitVec 512) (payload : List Byte) (s : State) : Outcome State Fault Refusal :=
  let s := atTime t s
  if deadSource s (fld header 503 488) then .next (incF s 0x6401 0x05) else
  if fld header 511 504 ≠ 0x28 ∨ fld header 423 422 ≠ 0 ∨ fld header 220 0 ≠ 0 then .next s else
  match askedPass s header with
  | none => .next (staleReply s (fld header 421 416))
  | some (p, a) =>
    let i := imageOf s p.job
    let n := p.qpos * i.qHeads
    let k := a.hi + 1 - a.lo
    if fld header 252 221 ≠ k * n * (64 + 4 * i.headDim) then .next s else
    match openSpan s p.job (fld header 252 221) payload with
    | (s, none) => .next s
    | (s, some bs) =>
      let got := (List.range k).map (fun d => (a.hi - d, rowsFrom i n (bs.drop (d * n * (64 + 4 * i.headDim)))))
      let s := if a.late ∨ a.retried then passOnTime s p else s
      let s := got.foldl (fun s x => keepRows s p.job (x.1 + 1) x.2) s
      .next (runPass (addF s 0x3816 p.job k) { p with spans := p.spans ++ got, asks := p.asks.filter (fun x => !decide (x = a)) })

/-- SPAN_REFUSE (R195): the span message REFUSE. [DESIGN CHOICE: log 78] -/
def execSpanRefuse (t : Nat) (header : BitVec 512) (s : State) : Outcome State Fault Refusal :=
  let s := atTime t s
  if deadSource s (fld header 503 488) then .next (incF s 0x6401 0x05) else
  if fld header 511 504 ≠ 0x29 ∨ fld header 423 422 ≠ 0 ∨ fld header 220 0 ≠ 0 then .next s else
  match askedPass s header with
  | none => .next s
  | some (p, a) =>
    let s := passLate (incF s 0x3818 p.job) p a.sentNs (spansTier s p (askSpans a))
    if fld header 292 285 = 4 ∧ a.retried = false then
      .next (putPass s { p with asks := p.asks.map (fun x => if x = a then { a with retryDue := true } else x) })
    else
      .next (runPass s { p with asks := p.asks.filter (fun x => !decide (x = a)), refused := p.refused ++ askSpans a, todo := p.todo ++ askSpans a })

/-- No PARTIALS within folio 0x3812.jj µs of sending: counted, and the tier late. [DEDUCED: log 79] -/
def lateAsk (p : SpanPass) (st : State × List HostAsk) (a : HostAsk) : State × List HostAsk :=
  let (s, l) := st
  if a.late = false ∧ a.retryDue = false ∧ a.sentNs + getF s 0x3812 p.job * 1000 ≤ s.now then
    (passLate (incF s 0x3817 p.job) p a.sentNs (spansTier s p (askSpans a)), l ++ [{ a with late := true }])
  else (s, l ++ [a])

/-- REMOTE_TIMEOUT (R195) for the asks of a job that are overdue. -/
def execRemoteTimeout (t jb : Nat) (s : State) : Outcome State Fault Refusal :=
  let s := atTime t s
  .next ((s.span.passes.filter (fun p => decide (p.job = jb))).foldl (fun s p =>
    let (s, l) := p.asks.foldl (lateAsk p) (s, [])
    putPass s { p with asks := l }) s)

/-! ### Cache hosts that fail (R197) -/

/-- The resting leaves of a dead cache host count as a failed tier: what was asked of it is attended otherwise. -/
def spansDead (s : State) (e : Nat) : State :=
  (s.span.passes.filter (fun p => p.asks.any (fun a => decide (a.host = e)))).foldl (fun s p =>
    let gone := p.asks.filter (fun a => decide (a.host = e))
    let spans := gone.flatMap askSpans
    runPass (gone.foldl (fun s a => passLate s p a.sentNs (spansTier s p (askSpans a))) s)
      { p with asks := p.asks.filter (fun a => decide (a.host ≠ e)), refused := p.refused ++ spans, todo := p.todo ++ spans }) s

/-! ### The step phase begins (R91, R134, R195) -/

/-- ATTENDs that a full queue refused are sent again. -/
def retryAsk (p : SpanPass) (st : State × List HostAsk) (a : HostAsk) : State × List HostAsk :=
  let (s, l) := st
  if a.retryDue then (sendAttend s p a.host a.hi a.lo, l ++ [{ a with retryDue := false, retried := true, sentNs := s.now }]) else (s, l ++ [a])

/-- The retries due at the next step of a job (R195). -/
def retryAsks (s : State) (j : Nat) : State :=
  (s.span.passes.filter (fun p => decide (p.job = j) && p.asks.any (fun a => a.retryDue))).foldl (fun s p =>
    let (s, l) := p.asks.foldl (retryAsk p) (s, [])
    putPass s { p with asks := l }) s

/-- The step phase of a window starts (R134, R91). [DEDUCED: log 61] -/
def startPhase (jb : Nat) (s : State) : State :=
  let x := job s jb
  let cols := x.columns.map (· + 128)
  let s := if carries x then cols.foldl resumeSeq s else cols.foldl (setUp false) s
  let s := if carries x then s else modJob s jb (fun x => { x with barriers := [] })
  serveQueue (retryAsks (modJob (startPart (startPart s jb false) jb true) jb (fun x => { x with inStep := true })) jb) jb

/-- STEP_PHASE_START (R134, R91): the boundary phase is over. [DEDUCED: log 61] -/
def execStepPhaseStart (t jb : Nat) (s : State) : Outcome State Fault Refusal :=
  let s := atTime t s
  let x := job s jb
  if stepping s jb = false ∨ x.window = 0 ∨ x.inStep = true ∨ x.awaiting.isSome = true ∨ s.now < x.windowNs + betaNs s jb then .next s else .next (startPhase jb s)

/-! ### Control-die routines (R142, R182, R362) -/

/-- The window of the step that names a signature. -/
def stepWindow (s : State) (j sig : Nat) : Nat := match (partOf (job s j) (partNames (job s j).prompt sig)).run with
  | some r => r.plan.window
  | none => 0

/-- The pass of an own signature for a layer, from its first query. -/
def ownPass (s : State) (j sig layer qp0 qpos : Nat) : SpanPass :=
  let e := sigE s sig
  { job := j, owner := ownEndpoint s, sig := sig, epoch := e.ownerEpoch.toNat, stepSeq := (job s j).step % 2 ^ 32, layer := layer,
    spanHi := spanOf (imageOf s j) (qp0 + qpos - 1), qpos := qpos, qp0 := qp0, kvLen := e.promptLen.toNat + e.genLen.toNat - 1,
    anchor := (anchorOf s j (sigA s sig).groups).getD 0, ring := ((imageOf s j).ring).getD 0, window := stepWindow s j sig, awaits := [],
    known := false, queries := [],
    solo := false, folded := false, block := none, todo := [], refused := [], spans := [], acc := none, sent := false, asks := [], output := none }

/-- Ring positions other than the own one that hold a span from 0 to `hi`. -/
def otherPositions (s : State) (j hi : Nat) : List Nat :=
  (List.range (hi / spansPer s j + 1)).filter (fun k => decide (k ≠ ringPosition s j))

/-- Positions that hold a span of the query positions. -/
def holdsQueries (s : State) (j k qp0 qpos : Nat) : Bool :=
  (List.range qpos).any (fun d => decide (spanOf (imageOf s j) (qp0 + d) / spansPer s j = k))

/-- A query pass begins at the owner (R187): QUERY to every other holder, with the new rows to the holder of the last query's span; the
own spans are attended. -/
def beginQuery (s : State) (j : Nat) (p : SpanPass) (nkv : Nat) (qs kv : List Byte) : State :=
  let s := (otherPositions s j p.spanHi).foldl (fun s k =>
    let n := if p.spanHi / spansPer s j = k then nkv else 0
    let body := qs ++ (if n = 0 then [] else kv)
    sendSpan s (ringMember s j k) j 0x21 (passHeader s p 0x21 p.spanHi 0 n body.length true j) body) s
  runPass s { p with known := true, queries := queryRows (imageOf s j) (p.qpos * (imageOf s j).qHeads) qs,
                     solo := decide (otherPositions s j p.spanHi = []), todo := heldSpans s j (ringPosition s j) p.spanHi }

/-- A block pass begins at the owner (R188): BLOCK_REQ to every other holder, and the new rows in KV_PUT to those that hold their spans;
every span is attended here. -/
def beginBlock (s : State) (j : Nat) (p : SpanPass) (nkv : Nat) (qs kv : List Byte) : State :=
  let s := (otherPositions s j p.spanHi).foldl (fun s k =>
    let l := heldSpans s j k p.spanHi
    sendSpan s (ringMember s j k) j 0x24 (passHeader s p 0x24 (l.foldl max 0) (l.foldl min p.spanHi) 0 0 true j) []) s
  let s := ((otherPositions s j p.spanHi).filter (fun k => decide (0 < nkv) && holdsQueries s j k p.qp0 nkv)).foldl (fun s k =>
    sendSpan s (ringMember s j k) j 0x26 (passHeader s p 0x26 p.spanHi 0 nkv kv.length true j) kv) s
  putPass s { p with solo := true, awaits := (otherPositions s j p.spanHi).map (ringMember s j), queries := queryRows (imageOf s j) (p.qpos * (imageOf s j).qHeads) qs, todo := (List.range (p.spanHi + 1)).reverse }

/-- A pass at distance begins, of the kind that R186 gave it at the freeze, and is counted with its first layer. [DEDUCED: log 77] -/
def beginPass (s : State) (j : Nat) (p : SpanPass) (nkv : Nat) (qs kv : List Byte) : State :=
  let far := decide (otherPositions s j p.spanHi ≠ []) && decide (p.layer = 0)
  if (transitOf s j p.sig p.window).any (fun x => x.sets.contains p.qp0) then
    beginBlock (if far then incF s 0x3815 j else s) j p nkv qs kv
  else beginQuery (if far then incF s 0x3814 j else s) j p nkv qs kv

/-- One request of a routine to the span engine. -/
def runSpanOp (j : Nat) (s : State) (op : SpanOp) : State :=
  let i := imageOf s j
  let mine (sig : Nat) : Bool := decide ((sigE s sig).job.toNat = j) && decide ((sigE s sig).state ≠ .free) && i.spanMode
  match op with
  | .pass sig layer qp0 qpos nkv qAddr kvAddr =>
    if mine sig = false then s else
    let p := ownPass s j sig layer qp0 qpos
    let qs := readBytes s qAddr (qpos * i.qHeads * 2 * i.headDim)
    let kv := readBytes s kvAddr (nkv * ((kvRowBytes i).1 + (kvRowBytes i).2))
    beginPass s j p nkv qs kv
  | .fold sig layer qp0 qpos qAddr =>
    if mine sig = false then s else
    let p := ownPass s j sig layer qp0 qpos
    match findPass s p with
    | some q => runPass s { q with known := true, folded := true }
    | none => runPass s { p with known := true, solo := true, folded := true, todo := (List.range (p.spanHi + 1)).reverse,
                                 queries := queryRows i (qpos * i.qHeads) (readBytes s qAddr (qpos * i.qHeads * 2 * i.headDim)) }
  | .output sig layer qp0 addr =>
    match s.span.passes.find? (fun x => decide (x.job = j) && decide (x.owner = ownEndpoint s) && decide (x.sig = sig) && decide (x.layer = layer)
        && decide (x.qp0 = qp0)) with
    | some p => match p.output with
      | some bs => dropPass (if inJobMemory s j addr bs.length || inQuireSram s j addr bs.length then devWrite s addr bs else s) p
      | none => s
    | none => s

/-- A routine of job `j` that sequencer `id` called has returned (R142): its writes, its span operations, its counts and its event. [DESIGN CHOICE: log 72] -/
def callReturned (id j : Nat) (c : CtlCall) (writes : List (Nat × List Byte)) (ops : List SpanOp) (s : State) : State :=
  let s := writes.foldl (fun s w => if inJobMemory s j w.1 w.2.length || inQuireSram s j w.1 w.2.length then devWrite s w.1 w.2 else s) s
  let s := ops.foldl (runSpanOp j) s
  raiseEvent (maxF (incF s 0x3130 j) 0x3131 j ((s.now - c.startNs) / 1000)) id c.event 1

/-- CTL_CALL_RETURN (R142): call `k` of a sequencer returns, having written bytes and asked for span operations; `ok` false is trap
0x15. `copy` is 1 when a core read its firmware's second copy and 2 when that was bad too (R362). [DESIGN CHOICE: log 72] -/
def execCtlCallReturn (t id k : Nat) (ok : Bool) (core copy : Nat) (writes : List (Nat × List Byte)) (ops : List SpanOp) (s : State) :
    Outcome State Fault Refusal :=
  let s := atTime t s
  match (seqOf s id).calls[k]?, (seqOf s id).job with
  | some c, some j =>
    let s := modSeq s id (fun q => { q with calls := q.calls.eraseIdx k })
    if copy = 2 then .next (packageFailed s) else
    let s := if copy = 1 then logErr s 0x2A unitControl 1 (some j) core 0 else s
    if ok = false then .next (trapSeq s id 0x15) else
    .next (callReturned id j c writes ops s)
  | _, _ => .next s

end Sys2Proof.Machine
end

