-- ==== Sys2Proof/Machine/Lend.lean ====
section
/-! DEFINITION. Memory tiers, the commands (chapter 10): demotion passes, ends of moves, lending, LPDDR6 upkeep (R224 to R226, R227,
R230, R233 to R240, R242). -/

namespace Sys2Proof.Machine

open Host

/-! ### Loan messages (R236) -/

/-- A loan message of a type whose RSVD bits are zero and whose KIND exists. [DEDUCED: log 82] -/
def loanOk (h : BitVec 512) (type : Nat) : Bool := decide (fld h 511 504 = type) && decide (fld h 416 0 = 0) && decide (fld h 471 470 < 2)

/-! ### The lender (R233, R234, R237) -/

/-- Amount of a kind lent now, folios 0x2450.03 and 0x2450.04. -/
def lentGib (s : State) (kind : Nat) : Nat := ((s.tier.lent.filter (fun r => decide (r.kind = kind))).map (fun r => r.sizeGib)).foldl (· + ·) 0

/-- The folios of the amounts lent. -/
def showLent (s : State) : State := setF (setF s 0x2450 0x03 (lentGib s 0)) 0x2450 0x04 (lentGib s 1)

/-- Free amount of a kind: none while unassigned or while the flash map is rebuilt; flash only in the cache role while READY (R233, R254,
R260). [DEDUCED: log 22] -/
def freeGib (s : State) (kind : Nat) : Nat :=
  if roleActive s = 0xFF ∨ flashState s = 1 then 0
  else if kind = 0 then
    -- what is lent never makes the two shares exceed the capacity either (R243)
    min (getF s 0x2450 0x01) (getF s 0x2420 0x05 - (getF s 0x2420 0x01 + getF s 0x2420 0x02 + ceilDiv (getF s 0x7000 0x04) 1024)) - lentGib s 0
  else if roleActive s = 2 ∧ getF s 0x7000 0x01 = 2 then getF s 0x2450 0x02 - lentGib s 1 else 0

/-- A free run of `n` extents; which one is the lender's choice. -/
def extentRun (s : State) (n : Nat) : Option Nat :=
  pickFree (fun k => decide (k + n ≤ extentCount s) && (List.range n).all (fun i => extentFree s (k + i))) (extentCount s) (freshOf s)

/-- Device address of a range to lend: `n` GiB of a kind. [DEDUCED: log 82] -/
def lendPlace (s : State) (kind n : Nat) : Option Nat :=
  if kind = 0 then placeRange s 0x200000000000 (lpddrBytes s) (n * 2 ^ 30) 4096 (usedTier s .lpddr6 ++ lpddrTaken s)
  else (extentRun s n).map (extentAt s)

/-- The longest range of at most `n` GiB. [DEDUCED: log 82] -/
def lendLongest (s : State) (kind : Nat) : Nat → Option (Nat × Nat)
  | 0 => none
  | n + 1 => match lendPlace s kind (n + 1) with
    | some a => some (n + 1, a)
    | none => lendLongest s kind n

/-- The translation entry of a loan: the borrower's tier engine alone (R234). -/
def loanXlate (borrower base gib : Nat) : XlateEntry :=
  { XlateEntry.zero with base := base / 4096, pagesM1 := gib * 2 ^ 18 - 1, target := base / 4096, srcEndpoint := borrower, srcMask := 0xFFFF,
                         anyJob := true, firmware := true, masters := 2, read := true, write := true, valid := true }

/-- Answer a REQUEST: GRANT of the lesser of what is asked and what is free. [DEDUCED: log 82] -/
def grantLoan (s : State) (borrower kind want : Nat) : State :=
  let refuse := sendLoan s borrower 0x32 0 kind 0 0
  match lendLongest s kind (min want (freeGib s kind)), pickFree (fun k => !(s.tier.lent.any (fun r => decide (r.loanId = k)))) 65536 (freshOf s) with
  | some (n, a), some id =>
    match writeXlate (draw s) (loanXlate borrower a n) with
    | (_, none) => refuse
    | (s, some _) =>
      let r : LentRange := { loanId := id, borrower := borrower, kind := kind, sizeGib := n, base := a, recallSent := false }
      let s := showLent { s with tier := { s.tier with lent := s.tier.lent ++ [r] } }
      let x := (id, (a - 0x900000000000 - extentBase s * 4096) / 2 ^ 30, n)
      let s := if kind = 1 then { s with flash := { s.flash with lentExtents := s.flash.lentExtents ++ [x] } } else s
      sendLoan s borrower 0x32 id kind n (a / 4096)
  | _, _ => refuse

/-- The space of a loan returns to the lender: its translation entry ends, and its flash is discarded (R237, R250). -/
def reclaimLoan (s : State) (r : LentRange) : State :=
  let s : State := { s with tier := { s.tier with lent := s.tier.lent.filter (fun x => !decide (x = r)) },
                            fabric := { s.fabric with xlate := s.fabric.xlate.map (fun e => if e.2 = { loanXlate r.borrower r.base r.sizeGib with refusals := e.2.refusals } then (e.1, dropXlate e.2) else e) } }
  showLent (if r.kind = 1 then
    let s := flashDiscard s r.base (r.sizeGib * 2 ^ 30)
    { s with flash := { s.flash with lentExtents := s.flash.lentExtents.filter (fun x => decide (x.1 ≠ r.loanId)) } }
  else s)

/-- Send RECALL for a loan. -/
def recallLoan (s : State) (r : LentRange) : State :=
  let s : State := { s with tier := { s.tier with lent := s.tier.lent.map (fun x => if x = r then { r with recallSent := true } else x) } }
  sendLoan s r.borrower 0x33 r.loanId r.kind 0 0

/-- Action of a write to folio 0x2450.06. [DEDUCED: log 82] -/
def loanRecallAction (v : Nat) (s : State) : State := match s.tier.lent.find? (fun r => decide (r.loanId = v)) with
  | some r => recallLoan s r
  | none => s

/-- After a lowering of folio 0x2450.01 or 0x2450.02: loans of the kind are recalled, highest identifier first, until the amount lent
fits. -/
def recallUntil (kind : Nat) : Nat → State → State
  | 0, s => s
  | fuel + 1, s =>
    let kept := s.tier.lent.filter (fun r => decide (r.kind = kind) && !r.recallSent)
    if (kept.map (fun r => r.sizeGib)).foldl (· + ·) 0 ≤ getF s 0x2450 (kind + 1) then s else
    match kept with
    | [] => s
    | r :: l => recallUntil kind fuel (recallLoan s (l.foldl (fun b x => if b.loanId < x.loanId then x else b) r))

/-- The lent amount is made to fit its folio. -/
def fitLent (kind : Nat) (s : State) : State := recallUntil kind s.tier.lent.length s

/-- ADVERT_TIMER (R233): every 10 ms. [DEDUCED: log 83] -/
def execAdvertTimer (t : Nat) (s : State) : Outcome State Fault Refusal :=
  let s := atTime t s
  if roleActive s = 0xFF then .next s else
  let recent := (s.tier.askers.filter (fun a => decide (s.now - a.2 ≤ 1000000000) && decide (volumeOf a.1 = volumeOf (ownEndpoint s)))).map (fun a => a.1)
  let kinds := if roleActive s = 2 then [0, 1] else [0]
  .next ((recent ++ bindingPeers s).eraseDups.foldl (fun s e => kinds.foldl (fun s k => sendLoan s e 0x30 0 k (freeGib s k) 0) s) s)

/-- REQUEST (R234). -/
def execRequest (t : Nat) (header : BitVec 512) (s : State) : Outcome State Fault Refusal :=
  let s := atTime t s
  if deadSource s (fld header 503 488) then .next (incF s 0x6401 0x05) else
  let src := fld header 503 488
  if loanOk header 0x31 = false then .next s else
  let s : State := { s with tier := { s.tier with askers := s.tier.askers.filter (fun a => decide (a.1 ≠ src)) ++ [(src, s.now)] } }
  if fld header 469 453 = 0 then .next s
  else if volumeOf src ≠ volumeOf (ownEndpoint s) then .next (sendLoan s src 0x32 0 (fld header 471 470) 0 0)
  else .next (grantLoan s src (fld header 471 470) (fld header 469 453))

/-- RELEASE (R237). -/
def execRelease (t : Nat) (header : BitVec 512) (s : State) : Outcome State Fault Refusal :=
  let s := atTime t s
  if deadSource s (fld header 503 488) then .next (incF s 0x6401 0x05) else
  if loanOk header 0x34 = false then .next s else
  match s.tier.lent.find? (fun r => decide (r.loanId = fld header 487 472) && decide (r.borrower = fld header 503 488)) with
  | some r => .next (reclaimLoan s r)
  | none => .next s

/-! ### The borrower (R234, R237) -/

/-- LENDER_LIST_POLL (R234): once a second. -/
def execLenderListPoll (t : Nat) (s : State) : Outcome State Fault Refusal :=
  let s := atTime t s
  .next ((lenderList s).foldl (fun s e => sendLoan s e 0x31 0 0 0 0) s)

/-- ADVERT (R234): the lender's free amount, kept with its time. -/
def execAdvert (t : Nat) (header : BitVec 512) (s : State) : Outcome State Fault Refusal :=
  let s := atTime t s
  if deadSource s (fld header 503 488) then .next (incF s 0x6401 0x05) else
  let a : AdvertSeen := { lender := fld header 503 488, kind := fld header 471 470, freeGib := fld header 469 453, receivedNs := s.now }
  if loanOk header 0x30 = false then .next s
  else .next { s with tier := { s.tier with adverts := s.tier.adverts.filter (fun x => !(decide (x.lender = a.lender) && decide (x.kind = a.kind))) ++ [a] } }

/-- The outbound entries that reach a loan, 16 GiB each, for the control plane alone (R267): `k` GiB of it are reached. [DESIGN CHOICE: log 143] -/
def loanWindows (e : LoanEntry) : Nat → Nat → State → State
  | 0, _, s => s
  | fuel + 1, k, s =>
    if e.sizeGib ≤ k then s else
    match firstFrom (fun w => (tfind s.fabric.outbound w).isNone) 1024 0 with
    | none => s
    | some w =>
      let o : OutEntry := { endpoint := e.lender, offsetBase := (e.remoteBase * 4096 + k * 2 ^ 30) % 2 ^ 48, ownerJob := 0, firmware := true,
                            cacheable := false, ordered := true, valid := true }
      loanWindows e fuel (k + 16) { s with fabric := { s.fabric with outbound := tput s.fabric.outbound w o } }

/-- The outbound entries of a loan end with it. [DESIGN CHOICE: log 143] -/
def endLoanWindows (e : LoanEntry) (s : State) : State :=
  { s with fabric := { s.fabric with outbound := s.fabric.outbound.filter (fun o => !(reachesLoan e o.2)) } }

/-- GRANT (R234): the loan takes the first free entry of the class pool that asked. -/
def execGrant (t : Nat) (header : BitVec 512) (s : State) : Outcome State Fault Refusal :=
  let s := atTime t s
  if deadSource s (fld header 503 488) then .next (incF s 0x6401 0x05) else
  let src := fld header 503 488
  let size := fld header 469 453
  if loanOk header 0x32 = false then .next s else
  match s.tier.asked.find? (fun a => decide (a.lender = src) && decide (a.kind = fld header 471 470)) with
  | none => .next s
  | some a =>
    let s : State := { s with tier := { s.tier with asked := s.tier.asked.erase a } }
    match firstFrom (fun k => (tfind s.tier.loans k).isNone) 64 0 with
    | none => .next s
    | some k =>
      if size = 0 ∨ 1024 < size then .next s else
      let e : LoanEntry := { lender := src, kind := a.kind, recalled := false, dead := false, bestEffort := a.bestEffort, sizeGib := size,
                             remoteBase := fld header 452 417, loanId := fld header 487 472 }
      .next (loanWindows e 64 0 { s with tier := { s.tier with loans := tput s.tier.loans k e } })

/-- Groups that lie in a loan, as (job, group). -/
def loanGroups (s : State) (k : Nat) : List (Nat × Nat) :=
  let lo := 0x300000000000 + k * 0x10000000000
  (jobNumbers s).flatMap (fun j => ((liveGroups s j).filter (fun g =>
    (layersOf s j).any (fun l => let d := leafOf s j g l; decide (d.tier = .neighbour ∨ d.tier = .flash) && decide (lo ≤ d.page) && decide (d.page < lo + 0x10000000000)))).map
    (fun g => (j, g)))

/-- Move one group out of a recalled loan by place(), or evict its node's subtree when no tier takes it (R237 step 2); a referenced group
then goes back to its columns (R228). -/
def moveOut (s : State) (x : Nat × Nat) : State :=
  let d := groupOf s x.1 x.2
  if d.moving ∨ d.live = false then s
  else match placeGroup s x.1 x.2 with
    | (s, .at p) => demoteTo s x.1 x.2 p
    | (s, .later) => s
    | (s, .nowhere) =>
      let s := askForLoan s (jobClass s x.1)
      if referenced d then promote s x.1 x.2 false else evictGroup s x.1 x.2

/-- RELEASE goes once a recalled loan holds no page, and its entry is free (R237 step 3). -/
def releaseLoan (s : State) (k : Nat) : State := match tfind s.tier.loans k with
  | some e =>
    if e.recalled ∧ e.dead = false ∧ loanUsedPages s k = 0 then
      sendLoan (endLoanWindows e { s with tier := { s.tier with loans := tdel s.tier.loans k } }) e.lender 0x34 e.loanId e.kind 0 0
    else s
  | none => s

/-- Every recalled loan goes on being emptied. -/
def emptyLoans (s : State) : State :=
  (tkeys s.tier.loans (fun _ e => e.recalled && !e.dead)).foldl (fun s k => releaseLoan ((loanGroups s k).foldl moveOut s) k) s

/-- A move that has not started and would place a group in a recalled loan is given up: nothing more is placed there. -/
def cancelInto (s : State) : State :=
  let into (m : TierMove) : Bool := !m.started && m.addrs.any (fun a => inLoan a.1
    && ((tfind s.tier.loans ((a.1 - 0x300000000000) / 0x10000000000)).map (fun e => e.recalled)).getD false)
  (s.tier.moves.filter into).foldl (fun s m => endMoving (dropMove s m) m.job m.group) s

/-- RECALL (R237). -/
def execRecall (t : Nat) (header : BitVec 512) (s : State) : Outcome State Fault Refusal :=
  let s := atTime t s
  if deadSource s (fld header 503 488) then .next (incF s 0x6401 0x05) else
  if loanOk header 0x33 = false then .next s else
  let mark (e : LoanEntry) : LoanEntry :=
    if e.lender = fld header 503 488 ∧ e.loanId = fld header 487 472 then { e with recalled := true } else e
  .next (emptyLoans (cancelInto { s with tier := { s.tier with loans := s.tier.loans.map (fun x => (x.1, mark x.2)) } }))

/-! ### Demotion (R230) and share folios (Table 10-7) -/

/-- Excess of a class pool in a tier once the moves under way are done; in the local flash whole extents count. [DEDUCED: log 147] -/
def overShare (s : State) (c : Nat) (t : Tier) (limit : Nat) : Bool :=
  let leaving := (s.tier.moves.filter (fun m => decide (jobClass s m.job = c) && decide (groupTier s m.job m.group = t))).flatMap (fun m =>
    (layersOf s m.job).flatMap (fun l => [(leafOf s m.job m.group l).page, (leafOf s m.job m.group l).scaleAddr]))
  let kept := (classRanges s c t).filter (fun r => !(leaving.contains r.1))
  decide (limit < if t = .flash then (extentsUsed s kept).length * 2 ^ 30 else rangeBytes kept)

/-- A share lowered below its use (Table 10-7): the oldest index-only groups move or are evicted until it fits; then referenced groups are
promoted as room allows. -/
def fitShare (c : Nat) (t : Tier) (limit : Nat) : Nat → State → State
  | 0, s => s
  | fuel + 1, s =>
    if overShare s c t limit then
      match oldestPair s (idleGroups s c t) with
      | some (j, g) => match placeGroup s j g with
        | (s, .at p) => fitShare c t limit fuel (demoteTo s j g p)
        | (s, r) =>
          let s := if r = .nowhere then askForLoan s c else s
          let stays := (groupOf s j g).live && !(groupOf s j g).moving
          fitShare c t limit fuel (if overShare s c t limit && stays then evictGroup s j g else s)
      | none =>
        match ((classJobs s c).flatMap (fun j => ((liveGroups s j).filter (fun g =>
            decide (groupTier s j g = t) && !(groupOf s j g).moving && columnRoom s j g)).map (fun g => (j, g)))).head? with
        | some (j, g) => fitShare c t limit fuel (promote s j g false)
        | none => s
    else s

/-- A share folio has been written. [DEDUCED: log 83] -/
def fitShares (c : Nat) (t : Tier) (limitGib : Nat) (s : State) : State :=
  fitShare c t (limitGib * 2 ^ 30) (((classJobs s c).map (fun j => (liveGroups s j).length)).foldl (· + ·) 0) s

/-- DEMOTION_PASS (R230); recalled loans go on being emptied (R237). -/
def execDemotionPass (t : Nat) (s : State) : Outcome State Fault Refusal :=
  let s := atTime t s
  .next (emptyLoans (demotionPass s 0 []))

/-! ### Ends of moves (R227, R240) -/


/-- The tier engine's read of an address is uncorrectable: counted, and logged as a channel halt with the tier engine's master class (R223,
R364). -/
def engineFault (s : State) (jb a : Nat) : State :=
  if inLoan a then s
  else if inFlash a then
    let page := (a - 0x900000000000) / 4096
    let ch := flashChannel s.flash page
    channelHalt (countUncorrectable s page) (unitFlash ch) 0 (some jb) 0 (0x20 + ch) (a / 4096 * 4096) (masterOf 1 0)
  else channelHalt s (unitAt s a) 0 (some jb) 0 (memoryOf s a) a (masterOf 1 0)

/-- A move whose writes have been issued is over once every one is confirmed: a promotion that waited for it follows (Table 10-7). -/
def moveConfirmed (s : State) (m : TierMove) : State :=
  if m.refused then abandonMove s m
  else if writesWait s m.job m.group then s
  else
    let s := finishMove s m
    match m.follow with
    | some u => if (groupOf s m.job m.group).live then promote s m.job m.group u else s
    | none => s

/-- The last event of a move: a source read from a loan now goes to the target; another is confirmed there. [DESIGN CHOICE: log 143] -/
def moveDone (s : State) (m : TierMove) (objects : List (List Byte)) : State :=
  if m.sent then moveConfirmed s m
  else match sendMove s m objects with
    | (s, none) => match moveOf s m.job m.group with
      | some m => moveConfirmed s m
      | none => s
    | (s, some .unread) => moveLost s { m with sent := true }
    | (s, some .unwritten) => abandonMove s { m with sent := true }

/-- The move of a job torn down has ended: the space that it held is free, and of the local flash discarded (Table 10-7, R250). [DEDUCED: log 83] -/
def endWrites (s : State) (jb group : Nat) : State :=
  let mine (e : EndingMove) : Bool := decide (e.job = jb) && decide (e.group = group)
  let gone := (s.tier.ending.filter mine).flatMap (fun e => e.ranges.filter (fun r => inFlash r.1))
  let s := gone.foldl (fun s r => flashDiscard s r.1 r.2) { s with tier := { s.tier with ending := s.tier.ending.filter (fun e => !(mine e)) } }
  startMoves s

/-- TIER_MOVE_COMPLETE (R227): outcome 0 the target confirmed the last write, 1 a read ended in an uncorrectable error, 2 a write could
not be made; `bad` are the addresses at which parity failed, the uncorrectable one first; `objects` are those read from a loan, layer 0
first. [DESIGN CHOICE: log 143] -/
def execTierMoveComplete (t jb group outcome : Nat) (read : MoveRead) (s : State) : Outcome State Fault Refusal :=
  let s := atTime t s
  if s.tier.ending.any (fun e => decide (e.job = jb) && decide (e.group = group)) then
    .next (bookPumps (emptyLoans (pumpPasses (endWrites s jb group))))
  else match moveOf s jb group with
  | some m =>
    if m.started = false then .next s else
    let s := match outcome with
      | 0 => moveDone (read.bad.foldl engineRepeat s) m read.objects
      | 1 =>
        let s := (read.bad.take 1).foldl (fun s a => engineFault s jb a) ((read.bad.drop 1).foldl engineRepeat s)
        if s.tier.moves.contains m then moveLost s m else s
      | _ => abandonMove (read.bad.foldl engineRepeat s) m
    .next (bookPumps (emptyLoans (pumpPasses s)))
  | none => .next s

/-! ### Dead lenders and borrowers (R238) -/

/-- A verdict declares an endpoint dead: its loans are DEAD and their groups lost; demotions to it are abandoned; what it borrowed is
free. [DEDUCED: log 83] -/
def tiersDead (s : State) (e : Nat) : State :=
  let gone := tkeys s.tier.loans (fun _ x => decide (x.lender = e) && !x.dead)
  let s : State := { s with tier := { s.tier with loans := s.tier.loans.map (fun x => (x.1, if x.2.lender = e then { x.2 with dead := true } else x.2)),
                                                  asked := s.tier.asked.filter (fun a => decide (a.lender ≠ e)),
                                                  adverts := s.tier.adverts.filter (fun a => decide (a.lender ≠ e)),
                                                  askers := s.tier.askers.filter (fun a => decide (a.1 ≠ e)) } }
  let toDead (m : TierMove) : Bool := !m.promotion && (decide (m.target.tier = .neighbour) || m.addrs.any (fun a => inLoan a.1)) && gone.contains m.target.loan
  let s := (s.tier.moves.filter toDead).foldl abandonMove s
  let s := gone.foldl (fun s k => (loanGroups s k).foldl (fun s x =>
    let s := match moveOf s x.1 x.2 with
      | some m => abandonMove s m
      | none => s
    if (groupOf s x.1 x.2).live ∧ (groupTier s x.1 x.2 = .neighbour ∨ groupTier s x.1 x.2 = .flash) then loseGroup s x.1 x.2 (groupTier s x.1 x.2) else s) s) s
  (s.tier.lent.filter (fun r => decide (r.borrower = e))).foldl reclaimLoan s

/-! ### LPDDR6 upkeep (R224 to R226) -/

/-- The record of an LPDDR6 channel. -/
def lpChannel (s : State) (n : Nat) : Option LpChannel := (tfind s.tier.channels n).bind (fun c => if c.trained then some c else none)

/-- LPDDR6_REFRESH_RATE_READ (R224): timing only. -/
def execLpddr6RefreshRateRead (t channel rate : Nat) (s : State) : Outcome State Fault Refusal :=
  let s := atTime t s
  match lpChannel s channel with
  | some c => .next { s with tier := { s.tier with channels := tput s.tier.channels channel { c with refreshRate := rate } } }
  | none => .next s

/-- LPDDR6_ECC_COUNT_READ (R225, R361): an increase counts as correctable errors of the channel. -/
def execLpddr6EccCountRead (t channel count : Nat) (s : State) : Outcome State Fault Refusal :=
  let s := atTime t s
  match lpChannel s channel with
  | some c =>
    let s : State := { s with tier := { s.tier with channels := tput s.tier.channels channel { c with eccCount := count } } }
    .next ((List.range (count - c.eccCount)).foldl (fun s _ => correctable (incF s 0x6004 (0x10 + channel)) (unitLpddr channel)) s)
  | none => .next s

/-- LPDDR6_RETRAIN (R226): every 100 ms. -/
def execLpddr6Retrain (t channel : Nat) (s : State) : Outcome State Fault Refusal :=
  let s := atTime t s
  match lpChannel s channel with
  | some c =>
    if s.now < c.retrainedNs + 100000000 then .next s
    else .next { s with tier := { s.tier with channels := tput s.tier.channels channel { c with retrainedNs := s.now } } }
  | none => .next s

end Sys2Proof.Machine
end

