-- ==== Sys2Proof/Machine/Start.lean ====
section
/-! DEFINITION. Starting and ending jobs (R52, R73, R81, R83, R128, R147, R148, R157, R179, R184, R334, R346 to R349, R393, R394, R460,
R464) and tip-in images (R99, R100). -/

namespace Sys2Proof.Machine

open Host

/-! ### Images (R459, R460) -/

/-- Digest of the owner key: the key of the configuration image in force. -/
def ownerDigest (s : State) : Option (BitVec 256) := s.boot.config.map (fun c => c.2.ownKey)

/-- The check of R460: code of Table 21-7. -/
def imageCode (kind limit : Nat) (signers : List (BitVec 256)) (i : ImageInfo) : Nat :=
  if i.readOk = false then 6
  else if i.magic ≠ 0x494B4C5A ∨ i.kind ≠ kind ∨ i.zerosOk = false then 1
  else if limit < i.bodyLen then 2
  else if signers.contains i.keyDigest = false then 3
  else if i.sigOk = false then 4
  else if i.bodyDigest ≠ i.bodyHash then 5 else 0

/-- The check of a job or tip-in image, which the owner key signs; the spec limits neither's length. -/
def ownedCode (s : State) (kind : Nat) (i : ImageInfo) : Nat := imageCode kind i.bodyLen (ownerDigest s).toList i

/-- Firmware may read a fabric address (R456): this package's own endpoint only within a valid host region window or memory of the job
concerned. Another endpoint answers for itself. [DEDUCED: log 35] -/
def ownReadable (s : State) (addr : Nat) (jb : Option Nat) : Bool :=
  decide (addr / 2 ^ 48 ≠ ownEndpoint s) || (hostLoc s (addr % 2 ^ 48)).isSome || (match jb with
    | some j => inJobMemory s j (addr % 2 ^ 48) 1
    | none => false)

/-- An image read at a fabric address. -/
def readAt (s : State) (addr : Nat) (jb : Option Nat) (i : ImageInfo) : ImageInfo :=
  { i with readOk := i.readOk && ownReadable s addr jb }

/-- Thirty-two bytes as the number that a digest is here. -/
def digest (bs : List Byte) : BitVec 256 := BitVec.ofNat 256 (ofBytesLE bs)

/-- DEVICE_ID from the seed (R463); zero without one. -/
def deviceId (s : State) : Nat := match s.boot.seed with
  | some k => ofBytesLE (shake256 (keyBytes k ++ [1]) 8)
  | none => 0

/-! ### Settings (R52, R81, R179) -/

/-- Token counts of the step shapes: multiples of 64, ascending. -/
def shapesOk : List Nat → Bool
  | [] => true
  | [a] => decide (0 < a) && decide (a % 64 = 0)
  | a :: b :: r => decide (0 < a) && decide (a % 64 = 0) && decide (a < b) && shapesOk (b :: r)

/-- Step, leaf and attention settings lie in their ranges (R347 step 2), as do the counts of R128 and R157. -/
def settingsOk (i : JobImage) : Bool :=
  decide (1000 ≤ i.w) && decide (i.w ≤ 100000) && decide (20 ≤ i.beta) && decide (i.beta ≤ 255) && decide (16 ≤ i.chunk) && decide (i.chunk ≤ 4096)
    && decide (i.chunk % 16 = 0) && decide (1 ≤ i.shapes.length) && decide (i.shapes.length ≤ 8) && shapesOk i.shapes && decide (i.draftLimit ≤ 7)
    && decide (64 ≤ i.vocab) && decide (i.vocab ≤ 16777214) && leafSettingsOk i
    && decide (i.qMin % 8 = 0) && decide (i.qMax % 8 = 0) && decide (8 ≤ i.qMin) && decide (i.qMin ≤ i.qMax) && decide (i.qMax ≤ 128)
    && decide (i.cMin % 16 = 0) && decide (i.cMax % 16 = 0) && decide (16 ≤ i.cMin) && decide (i.cMin ≤ i.cMax) && decide (i.cMax ≤ 1024)
    && decide (i.attMode ≤ 1) && decide (i.spanLen % (16 * i.leafSize) = 0) && decide (16 * i.leafSize ≤ i.spanLen) && decide (i.spanLen ≤ 65536)
    && decide (spanMax i ≤ 65535) && (match i.ring with
      | some n => decide (n ≤ 3) && decide (1 ≤ i.rMin) && decide (i.rMin ≤ 16)
      | none => true)

/-- The ring that a job names (R184). -/
def jobRing (i : JobImage) : Option Nat := i.ring

/-! ### Load checks (R148, Table 6-7) -/

/-- Lowest bit that a stitch with this opcode assigns (Tables 6-4, 7-4); none for an illegal opcode. -/
def lowestField : Nat → Option Nat
  | 0x00 => some 120
  | 0x01 => some 87
  | 0x02 => some 84
  | 0x03 => some 68
  | 0x04 => some 20
  | 0x05 => some 120
  | 0x10 => some 105
  | 0x11 => some 89
  | 0x12 => some 99
  | 0x13 => some 100
  | 0x14 => some 84
  | 0x1F => some 120
  | 0x20 => some 10
  | 0x21 => some 74
  | 0x22 => some 98
  | 0x30 => some 28
  | 0x31 => some 28
  | 0x32 => some 67
  | 0x33 => some 56
  | 0x34 => some 40
  | 0x80 => some 86
  | 0x81 => some 86
  | 0x82 => some 86
  | 0x88 => some 68
  | 0x89 => some 81
  | 0xA0 => some 115
  | 0xA1 => some 112
  | _ => none

/-- Fields of a stitch lie in the ranges that Tables 6-4, 7-4 and 7-5 give. [DEDUCED: log 69, 138] -/
def fieldsOk (w : BitVec 128) : Bool :=
  let pos (hi lo : Nat) : Bool := decide (0 < fld w hi lo)
  let vector := decide (fld w 111 108 ≤ 0xE) && pos 94 86 && decide (fld w 94 86 ≤ 256) && scratchOk (fld w 107 95) (32 * fld w 94 86)
  match fld w 127 120 with
  | 0x01 => pos 119 108
  | 0x02 => pos 91 84
  | 0x10 => pos 115 105 && decide (fld w 115 105 ≤ 1152)
  | 0x11 => pos 104 89
  | 0x14 => pos 109 99 && decide (fld w 109 99 ≤ 1024)
  | 0x20 => pos 93 88 && pos 87 74
  | 0x21 => pos 107 102
  | 0x22 => pos 103 98 && decide (fld w 111 108 ≤ 1) && decide (fld w 107 104 ≤ 0xE)
  | 0x30 => pos 111 96 && pos 95 80
  | 0x31 => pos 111 96 && pos 95 80
  | 0x33 => pos 103 88 && decide (fld w 103 88 ≤ 5218) && decide (fld w 87 84 ≤ 1) && pos 75 72 && decide (fld w 75 72 ≤ 8)
  | 0x34 => pos 87 72 && pos 71 56 && decide (fld w 71 56 ≤ 4096)
  | 0x80 => vector
  | 0x81 => vector
  | 0x82 => vector
  | 0x88 => decide (fld w 119 116 ≤ 0xD) && pos 76 68 && decide (fld w 76 68 ≤ 256) && gvOpRanges w
  | 0x89 => decide (fld w 119 116 ≤ 2) && pos 89 81 && decide (fld w 89 81 ≤ 256) && gvRedRanges w
  | 0xA1 => decide (fld w 115 112 ≤ 3)
  | _ => true

/-- [a, b) is a node of the tree of R113 over [lo, hi). -/
def treeNode (a b : Nat) : Nat → Nat → Nat → Bool
  | 0, _, _ => false
  | fuel + 1, lo, hi =>
    if a = lo ∧ b = hi then true
    else if hi ≤ lo + 1 then false
    else
      let m := lo + treeSplit (hi - lo)
      if b ≤ m then treeNode a b fuel lo m else if m ≤ a then treeNode a b fuel m hi else false

/-- Reduction ranges of mma.blk and comb.add (R114). -/
def splitOk (w : BitVec 128) : Bool :=
  match fld w 127 120 with
  | 0x20 =>
    let nb := fld w 87 74
    let tot := fld w 73 60
    let lo := fld w 59 46
    decide (lo + nb ≤ tot) && treeNode lo (lo + nb) 32 0 tot && (decide (nb = tot) || (decide (fld w 111 108 = 0) && !(nbit w.toNat 107)))
  | 0x21 =>
    let l := fld w 101 88
    let r := fld w 87 74
    decide (0 < r) && decide (0 < l) && decide (l = treeSplit (l + r))
  | _ => true

/-- Operand formats of mma.blk and cvt. [DEDUCED: log 86] -/
def pairFits (w : BitVec 128) : Bool := if fld w 127 120 = 0x20 then pairOk (fld w 119 116) (fld w 115 112) (fld w 111 108) else true

/-- Bodies of the loops of a table: (index of lp.begin, index of END). -/
def loopBodies (t : List (BitVec 128)) : List (Nat × Nat) :=
  (t.zipIdx.filter (fun x => decide (fld x.1 127 120 = 1))).map (fun x => (x.2, x.2 + fld x.1 119 108))

/-- Bodies that are open at a stitch. -/
def openAt (bs : List (Nat × Nat)) (k : Nat) : List (Nat × Nat) := bs.filter (fun b => decide (b.1 < k) && decide (k ≤ b.2))

/-- Quire-local operand registers of a quire stitch, and those that hold device addresses. [DEDUCED: log 86] -/
def localRegs (w : BitVec 128) : List Nat :=
  match fld w 127 120 with
  | 0x20 => [fld w 105 102, fld w 101 98, fld w 97 94]
  | 0x21 => [fld w 119 116, fld w 115 112, fld w 111 108]
  | 0x22 => [fld w 119 116, fld w 115 112]
  | 0x30 => [fld w 119 116]
  | 0x31 => [fld w 119 116]
  | 0x32 => [fld w 119 116]
  | 0x33 => [fld w 119 116]
  | 0x34 => [fld w 119 116]
  | _ => []

/-- A sequencer whose address registers hold the bases given, with no loop open. -/
def basedAt (l : List (BitVec 48)) : Sequencer :=
  { Sequencer.zero with aregs := (List.range 16).map (fun k => ⟨l.getD k 0, 0, 0, 0, 0⟩) }

/-- The quire-local ranges of a stitch. [DEDUCED: log 86] -/
def localRanges (x : Sequencer) (w : BitVec 128) : List (Int × Nat) :=
  let dev (n : Nat) : List (Int × Nat) := (dmaRows x w).map (fun r => (r.1, n))
  match fld w 127 120 with
  | 0x20 => mmaRanges x w
  | 0x21 => combRanges x w
  | 0x22 => cvtRanges x w
  | 0x30 => dev (fld w 95 80 * 64)
  | 0x31 => dev (fld w 95 80 * 64)
  | 0x32 => [((localBase x (fld w 119 116) : Nat), (if nbit w.toNat 91 then 1 else fld w 107 92) * (fld w 86 71 * 64))]
  | 0x33 => putRanges x w
  | 0x34 => feedRanges x w
  | _ => []

/-- The index of the first stitch of a list with a quire-local range outside that of R122, as the bases known and the immediates give
it in order. `known` are the registers whose base is so given; after a jump to a place that a steer value chooses, those that no
ar.base of the table writes, which keep their initial base: `fixed`, as `x0` holds them. -/
def rangeFrom (fixed : List Nat) (x0 : Sequencer) : List (BitVec 128) → Nat → List Nat → Sequencer → Option Nat
  | [], _, _, _ => none
  | w :: r, k, known, x =>
    if (localRegs w).all (fun a => known.contains a) ∧ (localRanges x w).all (fun e => localOk e.1 e.2) = false then some k
    else if fld w 127 120 = 2 then rangeFrom fixed x0 r (k + 1) fixed x0
    else if fld w 127 120 = 3 then
      let a := fld w 119 116
      rangeFrom fixed x0 r (k + 1) (known ++ [a]) { x with aregs := x.aregs.set a ⟨BitVec.ofNat 48 (fld w 115 68), 0, 0, 0, 0⟩ }
    else rangeFrom fixed x0 r (k + 1) known x

/-- Code 0x18 of Table 6-7 for a table that a rank enters at `entry` with the bases of `x`: the table from there on, then what lies
before, which only a jump reaches. [DEDUCED: log 86] -/
def rangeCode (t : List (BitVec 128)) (entry : Nat) (x : Sequencer) : Option Nat :=
  let written := (t.filter (fun w => decide (fld w 127 120 = 3))).map (fun w => fld w 119 116)
  let fixed := (List.range 16).filter (fun a => !(written.contains a))
  match rangeFrom fixed x (t.take entry) 0 fixed x with
  | some k => some k
  | none => rangeFrom fixed x (t.drop entry) entry (List.range 16) x

/-- Time of a non-preemptible stitch (Table 6-8) against folio 0x2800.01: 2.1 quire cycles to the ns. [DEDUCED: log 86] -/
def npFits (s : State) (w : BitVec 128) : Bool :=
  let cap := 21 * getF s 0x2800 0x01
  match fld w 127 120 with
  | 0x33 => decide ((64 + 2 * fld w 103 88) * 10 ≤ cap)
  | 0x34 => decide ((32 * 128 + fld w 71 56 * fld w 87 72) * 10 ≤ cap * 128)
  | _ => true

/-- Code of the first check of Table 6-7 that the stitch at index `k` fails; 0 for none. [DEDUCED: log 69, 85] -/
def stitchCode (s : State) (i : JobImage) (isQuire wide : Bool) (t : List (BitVec 128)) (k : Nat) : Nat :=
  let w := t.getD k 0
  let op := fld w 127 120
  let bs := loopBodies t
  let last := decide (k + 1 = t.length)
  let ends := if isQuire then 0x1F else 0x05
  match lowestField op with
  | none => 0x12
  | some b =>
    if storeRuns op (if isQuire then 0 else 128) = false ∨ fieldsOk w = false then 0x12
    else if w.toNat % 2 ^ b ≠ 0 then 0x13
    else if pairFits w = false then 0x14
    else if splitOk w = false then 0x15
    else if op = 1 ∧ (4 ≤ (openAt bs k).length ∨ t.length ≤ k + fld w 119 108 ∨ (openAt bs k).any (fun x => decide (x.2 < k + fld w 119 108))) then 0x16
    else if op = 2 ∧ (t.length ≤ fld w 115 104 + (fld w 91 84 - 1) * fld w 103 92 ∨ openAt bs k ≠ []) then 0x17
    else if npFits s w = false then 0x19
    else if (last = true ∧ op ≠ ends) ∨ (last = false ∧ (op = 0x1F ∨ op = 0x05)) then 0x1B
    else if op = 0x13 ∧ i.routines.contains (fld w 119 108) = false then 0x1C
    else if wide = false ∧ (op = 0x82 ∨ op = 0xA1) then 0x1D
    else 0

/-- First failure in a table: code and stitch index. [DEDUCED: log 85] -/
def tableCode (s : State) (i : JobImage) (isQuire wide : Bool) (t : List (BitVec 128)) : Option (Nat × Nat) :=
  if (if isQuire then 4096 else 1024) < t.length then some (0x1A, 0)
  else if t = [] then some (0x1B, 0)
  else (List.range t.length).findSome? (fun k => let c := stitchCode s i isQuire wide t k; if c = 0 then none else some (c, k))

/-- First failure of a table set: code, table (gutter tables from 16) and stitch index. [DEDUCED: log 86] -/
def setCode (s : State) (i : JobImage) (n cols : Nat) : Option (Nat × Nat × Nat) :=
  match tfind i.tableSets n, tfind i.bounds n with
  | some ts, some bound =>
    if i.w - i.beta < bound.getD 0 (i.w + 1) ∨ ts.quireMap.length < n ∨ 16 < ts.quireTables.length ∨ 16 < ts.gutterTables.length
        ∨ ts.columnMap.length < cols ∨ ts.quireMap.any (fun m => decide (ts.quireTables.length ≤ m.1)) = true
        ∨ ts.columnMap.any (fun m => decide (ts.gutterTables.length ≤ m)) = true then some (0x11, 0, 0) else
    let q := ts.quireTables.zipIdx.findSome? (fun x => (tableCode s i true true x.1).map (fun c => (c.1, x.2, c.2)))
    let b := ts.quireMap.findSome? (fun m =>
      (rangeCode (ts.quireTables.getD m.1 []) (m.2.1 % 4096) (basedAt (m.2.2.map (BitVec.ofNat 48)))).map (fun k => (0x18, m.1, k)))
    let wide (k : Nat) : Bool := (List.range (min cols ts.columnMap.length)).all (fun r => decide (ts.columnMap.getD r 0 ≠ k) || decide (r % 16 = 0))
    let g := ts.gutterTables.zipIdx.findSome? (fun x => (tableCode s i false (wide x.2) x.1).map (fun c => (c.1, 16 + x.2, c.2)))
    let f := if i.freezeRoutines.all (fun r => i.routines.contains r) ∧ i.freezeRoutines.length ≤ 8 then none else some (0x1C, 0, 0)
    match q, b, g with
    | some x, _, _ => some x
    | none, some x, _ => some x
    | none, none, some x => some x
    | none, none, none => f
  | _, _ => some (0x11, 0, 0)

/-! ### Sets (R128, R157, R348) -/

/-- A unit in the free pool at this time: one reinstated at this very time joins it after a set is formed (R131, R177). [DEDUCED: log 123] -/
def pooled (s : State) (u : Nat) : Bool := decide ((unitOf s u).backNs ≠ some s.now)

/-- Free quires of which a set can be formed at this time, ascending. -/
def poolQuires (s : State) : List Nat := (freeQuires s).filter (fun q => pooled s (unitQuire q))

/-- Free bundles of which a set can be formed at this time, ascending. -/
def poolBundles (s : State) : List Nat :=
  (freeBundles s).filter (fun k => (List.range 16).all (fun i => pooled s (unitColumn (16 * k + i))))

/-- The quire set (R128). [DEDUCED: log 123] -/
def formQuires (s : State) (i : JobImage) : Option (List Nat) :=
  let free := poolQuires s
  let n := min i.qMax (8 * (free.length / 8))
  if n < i.qMin then none else
  let west := free.filter (fun q => decide (q < 64))
  let east := free.filter (fun q => decide (64 ≤ q))
  let (h, o) := if east.length ≤ west.length then (west, east) else (east, west)
  let set := if n ≤ h.length then h.take n
    else
      let a := h.take (8 * (h.length / 8))
      let b := o.take (n - a.length)
      a ++ b ++ (h.drop a.length).take (n - a.length - b.length)
  some (sortBy (fun a b => decide (a ≤ b)) set)

/-- The column set (R157), for a quire set. [DEDUCED: log 123] -/
def formColumns (s : State) (i : JobImage) (quires : List Nat) : Option (List Nat) :=
  let free := poolBundles s
  let n := min (i.cMax / 16) free.length
  if 16 * n < i.cMin then none else
  let west := free.filter (fun k => decide (k < 32))
  let east := free.filter (fun k => decide (32 ≤ k))
  let (p, o) := if quires.countP (fun q => decide (64 ≤ q)) ≤ quires.countP (fun q => decide (q < 64)) then (west, east) else (east, west)
  let set := p.take n ++ o.take (n - (p.take n).length)
  some ((sortBy (fun a b => decide (a ≤ b)) set).flatMap (fun k => (List.range 16).map (fun c => 16 * k + c)))

/-- The free counts suffice for the minima of an image. -/
def setsSuffice (s : State) (q c : Nat) : Bool × Bool := (decide (q ≤ 8 * ((poolQuires s).length / 8)), decide (c / 16 ≤ (poolBundles s).length))

/-- Best-effort jobs in RUNNING in the order of R348. -/
def yieldOrder (s : State) : List Nat :=
  sortBy (fun a b => let x := (job s a).runNs; let y := (job s b).runNs; if x ≠ y then decide (y < x) else decide (b < a))
    ((runningJobs s).filter (fun j => (job s j).bestEffort))

/-- The jobs to yield for a latency-critical start, or the code with which it fails (R348). -/
def yieldRun (s : State) (i : JobImage) : Except Nat (List Nat) :=
  let l := yieldOrder s
  let after (k : Nat) : Bool × Bool := setsSuffice ((l.take k).foldl releaseSets s) i.qMin i.cMin
  match (List.range (l.length + 1)).find? (fun k => (after k).1 && (after k).2) with
  | some k => .ok (l.take k)
  | none => .error (if (after l.length).1 then 0x12 else 0x11)

/-- Place of the next yielded job in the order of restarts. -/
def nextYield (s : State) : Nat :=
  (s.jobs.map (fun x => match x.2.wait with
    | .room n _ _ => n + 1
    | _ => 0)).foldl max 0

/-- Best-effort jobs yield. [DEDUCED: log 88] -/
def yieldJobs (l : List Nat) (s : State) : State := l.foldl (fun s j => tearDown (incF s 0x5403 0x02) j (.yield (nextYield s)) true) s

/-! ### Keys and rings (R184, R464) -/

/-- The job key from an image's key block; none when no entry is found or the tag fails. [DEDUCED: log 17; DESIGN CHOICE: log 93] -/
def unwrapKey (s : State) (i : JobImage) : Option (BitVec 256) := match s.boot.seed with
  | none => none
  | some seed => match i.keyBlock.find? (fun e => decide (e.deviceId.toNat = deviceId s)) with
    | none => none
    | some e =>
      let ss := (List.range 32).map (Config.kemSecret seed e.ciphertext)
      let kek := shake256 (ss ++ toBytesLE 4 i.info.imageId) 32
      (gcmOpen kek (List.replicate 12 0) (toBytesLE 8 (deviceId s)) (e.wrapped.take 32) ((e.wrapped.drop 32).take 16)).map digest

/-- The ring conditions of R184: `others` says that the same job starts on every member with the same number and bundle count. [DEDUCED: log 89] -/
def ringOk' (s : State) (jb : Nat) (i : JobImage) (others : Bool) : Bool := match jobRing i with
  | none => true
  | some n =>
    let p := planOf s n
    p.valid && decide (i.rMin ≤ p.members.length) && (match s.span.ringJob.getD n none with
      | none => true
      | some k => decide (k = jb)) && p.members.all (fun e => decide (volumeOf e = volumeOf (ownEndpoint s))) && others

/-! ### Shapers (R352) -/

/-- A shaper write breaks a limit of R352. -/
def shaperBad (v : Nat) : Bool := decide (nfld v 55 32 < 8) || decide (nfld v 31 0 < 1) || decide (3584000 < nfld v 31 0)

/-- Action of a write to a shaper folio: queue `q` is a job, or 64 and 65 for the classes; it sets the token count (R352). -/
def shaperAction (q : Nat) (s : State) : State :=
  let w := shaperWord s q
  let b : Bucket := { tokens := if nbit w 62 then shaperBurst w else 0, atNs := s.now }
  runLinks { s with traffic := { s.traffic with shapers := tput s.traffic.shapers q b } }

/-! ### The start (R347) -/

/-- The start of a job fails with a code (Table 16-2); a restart stays TORN_DOWN, waiting for its ring when that failed. [DEDUCED: log 85] -/
def startFails (s : State) (jb code : Nat) : State :=
  let x := job s jb
  let s : State := { s with starts := s.starts.filter (fun k => decide (k ≠ jb)) }
  let s := setF s 0x5413 jb code
  if x.isRestart then
    setJobMode (modJob s jb (fun x => { x with wait := if code = 0x14 then .epoch else .none })) jb .tornDown
  else setF (setJobMode (modJob s jb (fun x => { JobSt.zero with swapLeft := x.swapLeft })) jb .free) 0x5414 jb 0

/-- Status of the image load (folios 0x3102.jj and 0x3103.jj). [DEDUCED: log 85] -/
def loadStatus (s : State) (jb code detail : Nat) : State := setF (setF s 0x3102 jb code) 0x3103 jb detail

/-- Bytes of a stitch table in memory, filled up to `n` stitches with zero. [DESIGN CHOICE: log 121] -/
def tableBytes (n : Nat) (t : List (BitVec 128)) : List Byte :=
  t.flatMap (fun w => toBytesLE 16 w.toNat) ++ List.replicate (16 * (n - t.length)) 0

/-- The table set in force of a job with `n` quires, or an empty one. -/
def tableSetOf (i : JobImage) (n : Nat) : TableSet := (tfind i.tableSets n).getD { quireTables := [], gutterTables := [], quireMap := [], columnMap := [] }

/-- The job's areas in the interleaved pool and its list pages take their places, and the backing regions receive the decoded tables
(R58, R61, R137, R147). -/
def placeJob (s : State) (jb : Nat) (i : JobImage) (nq : Nat) : State :=
  let s := modJob s jb (fun x => { x with pageAddrs := placePages s jb i.listPages [] })
  let ts := tableSetOf i nq
  let codes := ts.quireTables.map (tableBytes 4096) ++ ts.gutterTables.map (tableBytes 1024)
  let areas := placeTables s (16 * maxGroups i :: codes.map List.length) []
  let s := (areas.tail.zip codes).foldl (fun s e => writeBytes s e.1.1 e.2) s
  modJob (draw s) jb (fun x => { x with tables := areas })

/-- Sequencers of the sets with their tables (R133, R147). [DESIGN CHOICE: log 158] -/
def loadTables (s : State) (jb : Nat) (i : JobImage) (quires cols : List Nat) : State :=
  match tfind i.tableSets quires.length with
  | none => s
  | some ts =>
    let fill (t : List (BitVec 128)) : Tbl (BitVec 128) := t.zipIdx.map (fun x => (x.2, x.1))
    let area (k : Nat) : Option Nat := ((job s jb).tables[k]?).map (fun e => e.1)
    let s := quires.zipIdx.foldl (fun s q =>
      let m := ts.quireMap.getD q.2 (0, 0, [])
      setSeq s q.1 { Sequencer.zero with job := some jb, store := fill (ts.quireTables.getD m.1 []), backing := area (1 + m.1),
                                         entry := m.2.1, bases := (List.range 16).map (fun k => m.2.2.getD k 0) }) s
    cols.zipIdx.foldl (fun s c =>
      let k := ts.columnMap.getD c.2 0
      let q : Sequencer := { Sequencer.zero with job := some jb, store := fill (ts.gutterTables.getD k []),
                                                 backing := area (1 + ts.quireTables.length + k) }
      modGutter s c.1 (fun g => { GutterUnit.zero with held := g.held, refreshPause := g.refreshPause, spotInterval := getF s 0x3400 0x05, seq := q })) s

/-- Weights, vectors, translations, outbound entries and the shaper of an image. -/
def loadMemory (s : State) (jb : Nat) (i : JobImage) (cols : List Nat) : State :=
  let s := (i.weights.filter (fun w => inDeviceMemory s jb w.1 w.2.length)).foldl (fun s w => writeBytes s w.1 w.2) s
  let s := cols.foldl (fun s c => i.vectors.foldl (fun s v => writeBytes s (columnAddr c (workBase s + v.1)) v.2) s) s
  let s := i.xlates.foldl (fun s e => (writeXlate s { e with ownerJob := jb, firmware := false }).1) s
  let s := i.outbounds.foldl (fun s o =>
    if (tfind s.fabric.outbound o.1).isSome then s
    else { s with fabric := { s.fabric with outbound := tput s.fabric.outbound o.1 { o.2 with ownerJob := jb } } }) s
  match i.shaper with
  | some v => if shaperBad v then s else shaperAction jb (devSetF s 0x5420 jb v)
  | none => s

/-- Folios that a start sets (R52, R81, R83, R179, R393, R399). -/
def startFolios (s : State) (jb : Nat) (i : JobImage) (be joint : Bool) (nq : Nat) : State :=
  let s := setF s 0x2401 jb (place i.layers 31 24 + place i.fmt 23 16 + place i.leafSize 15 8 + Nat.log2 (groupStride i))
  let s := setF s 0x2403 jb (groupsTotal s jb)
  let s := setF s 0x2807 jb 0
  let s := setF s 0x2801 jb (place i.chunk 31 19 + place i.draftLimit 18 16 + place i.shapes.length 15 12 + i.beta)
  let s := setF (setF s 0x2802 jb i.w) 0x2803 jb (decodeCapacity s jb)
  let s := if be = false ∧ (getF s 0x2020 jb = 0 ∨ decodeCapacity s jb < getF s 0x2020 jb) then devSetF s 0x2020 jb (decodeCapacity s jb) else s
  let s := setF s 0x3810 jb (place i.attMode 31 24 + place (i.ring.getD 0xFF) 23 16 + place (i.spanLen / 16) 15 0)
  let own := ownEndpoint s
  let s := devSetF (devSetF s 0x6410 jb (tget 0 i.bookmarkTargets own &&& folioMask 0x6410 jb)) 0x6412 jb (tget 0 i.adopters own)
  setF (setF s 0x6413 jb (b2n joint)) 0x3104 jb nq

/-- The free list of a job's pool, ascending (R58). [DEDUCED: log 87] -/
def freeList (n : Nat) : Tbl GroupDesc := (List.range (n - 1)).map (fun g => (g, { GroupDesc.zero with nextFree := some (g + 1) }))

/-- Firmware registers the regions and creates the queue pairs that an image asks for (R293, R294); one that is refused is left out. [DEDUCED: log 52] -/
def imageQueues (i : JobImage) (s : State) : State :=
  let s := i.regions.foldl (fun s r => registerRegion s r.1 r.2.1 r.2.2) s
  i.queues.foldl (fun s q => if createRefused s q.1 (contextOf q.2) then s else createQp s q.1 (contextOf q.2)) s

/-- The job runs: everything of the image in force, the key installed, the space key drawn. [DEDUCED: log 52, 87, 88; DESIGN CHOICE: log 4] -/
def runJob (s : State) (jb : Nat) (i : JobImage) (quires cols : List Nat) (key : Option (BitVec 256)) : State :=
  let x := job s jb
  let joint := (jobRing i).isSome || i.sharded
  let y : JobSt :=
    { JobSt.zero with mode := .running, bestEffort := x.bestEffort, image := some i, startOrder := x.startOrder, isRestart := x.isRestart,
                      runNs := s.now, quires := quires, columns := cols, joint := joint, freeHead := some 0, swapLeft := x.swapLeft,
                      plan := (jobRing i).map (planOf s),
                      bookmark := { BookmarkState.zero with lastNs := if x.isRestart then x.bookmark.lastNs else s.now,
                                                            taken := x.bookmark.taken } }
  let s := loadTables (placeJob (setJob s jb y) jb i quires.length) jb i quires cols
  let s := startFolios (loadMemory s jb i cols) jb i x.bestEffort joint quires.length
  let s := modJob s jb (fun y => { y with groups := freeList (getF s 0x2403 jb), freeHead := if getF s 0x2403 jb = 0 then none else some 0 })
  let s := match jobRing i with
    | some n => setF { s with span := { s.span with ringJob := s.span.ringJob.set n (some jb) } } 0x3803 n (0x80 + jb)
    | none => s
  let s := match key with
    | some k => installKey s jb k
    | none => s
  let s := imageQueues i (drawSpaceKey (loadStatus s jb 2 0) jb)
  let s := if x.isRestart then
      { s with kettle := { s.kettle with adopting := s.kettle.adopting ++ [(ownEndpoint s, jb)] } }
    else s
  setF (setJobMode { s with starts := s.starts.filter (fun k => decide (k ≠ jb)) } jb .running) 0x5413 jb 2

/-- Steps 4 to 8 of R347. [DEDUCED: log 89] -/
def startFrom4 (s : State) (jb : Nat) (i : JobImage) (others : Bool) : State :=
  match formQuires s i with
  | none => startFails s jb 0x11
  | some quires =>
    match formColumns s i quires with
    | none => startFails s jb 0x12
    | some cols =>
      match setCode s i quires.length cols.length with
      | some (c, t, k) => startFails (loadStatus s jb c (place t 31 24 + place k 23 12)) jb 0x10
      | none =>
        if ringOk' s jb i others = false then startFails (loadStatus s jb 2 0) jb 0x14
        else if (job s jb).isRestart then runJob s jb i quires cols none
        else match unwrapKey s i with
          | none => startFails (loadStatus s jb 2 0) jb 0x13
          | some k => runJob s jb i quires cols (some k)

/-- The checks of R347, in order. -/
def startJob (s : State) (jb : Nat) (i : JobImage) (others : Bool) : State :=
  let c := ownedCode s 3 (readAt s (getF s 0x5411 jb) (some jb) i.info)
  if c ≠ 0 then startFails (loadStatus s jb 0x10 c) jb 0x10
  else if settingsOk i = false then startFails (loadStatus s jb 0x10 0) jb 0x10
  else if (job s jb).bestEffort then startFrom4 s jb i others
  else match yieldRun s i with
    | .error e => startFails s jb e
    | .ok l => startFrom4 (yieldJobs l s) jb i others

/-- JOB_START_COMPLETE (R347): the image at folio 0x5411.jj has been read as given, for the start at the head of the order, once no sweep
of that job number runs (R73). -/
def execJobStartComplete (t jb : Nat) (image : JobImage) (others : Bool) (s : State) : Outcome State Fault Refusal :=
  let s := atTime t s
  if s.starts.head? ≠ some jb ∨ (job s jb).mode ≠ .starting ∨ s.cw.sweeping.contains jb = true then .next s
  else .next (startJob s jb image others)

/-- A start command is refused with RULE (R347). -/
def startRefused (s : State) (jb : Nat) : Bool := decide ((job s jb).mode ≠ .free) || decide (roleActive s = 0xFF)

/-- What a start command refused for the role leaves in folio 0x5413.jj. -/
def startRefusedNote (s : State) (jb : Nat) : State :=
  if (job s jb).mode = .free ∧ roleActive s = 0xFF then setF s 0x5413 jb 0x15 else s

/-- A start command is accepted (R347). [DESIGN CHOICE: log 4] -/
def startAction (be : Bool) (jb : Nat) (s : State) : State :=
  let n := (s.jobs.map (fun x => x.2.startOrder + 1)).foldl max 0
  let s := modJob s jb (fun x => { x with bestEffort := be, startOrder := n })
  acceptStart (setF s 0x5414 jb (b2n be)) jb false

/-! ### The end (R349) -/

/-- An end command is refused. [DEDUCED: log 88] -/
def endRefused (s : State) (jb : Nat) : Bool := decide ((job s jb).mode ≠ .running) && decide ((job s jb).mode ≠ .tornDown)

/-- An end command: RUNNING enters ENDING and admissions under way end with code 0x02; TORN_DOWN becomes FREE with the key zeroed and
the bookmark slot discarded. -/
def endAction (jb : Nat) (s : State) : State :=
  if (job s jb).mode = .running then
    refuseWaiting ((jobSigsIn s jb .admitting).foldl (fun s n => refuseEntry s n 2) (setJobMode s jb .ending)) jb
  else if (keySlot s jb).zeroing then s
  else endKey (modJob (discardBookmarks s jb) jb (fun x => { JobSt.zero with mode := x.mode, bestEffort := x.bestEffort, swapLeft := x.swapLeft })) jb

/-- The sweep of a job's nodes is done (R73). [DEDUCED: log 110] -/
def sweepDone (s : State) (jb : Nat) : State :=
  let s := clearXlates (sweepNodes s (jobNodes s jb)) jb
  { s with cw := { s.cw with sweeping := s.cw.sweeping.filter (fun k => decide (k ≠ jb)) } }

/-- JOB_END_COMPLETE (R349): the last signature of an ending job has ended: every entry of it left ENDED for FREE (Table 2-3). [DEDUCED: log 110] -/
def execJobEndComplete (t jb : Nat) (s : State) : Outcome State Fault Refusal :=
  let s := atTime t s
  if (job s jb).mode ≠ .ending ∨ jobSigs s jb ≠ [] ∨ stepInFlight s jb = true then .next s
  else .next (sweepDone (finishEnd s jb) jb)

/-- CATCHWORD_SWEEP_DONE (R73). [DEDUCED: log 88] -/
def execCatchwordSweepDone (t jb : Nat) (s : State) : Outcome State Fault Refusal :=
  let s := atTime t s
  if s.cw.sweeping.contains jb then .next (sweepDone s jb) else .next s

/-- KEY_ZEROED (R337): the last object of an ended job has left the engines; its job number is FREE. -/
def execKeyZeroed (t jb : Nat) (s : State) : Outcome State Fault Refusal :=
  let s := atTime t s
  let k := keySlot s jb
  if k.zeroing = false ∨ s.now < k.busyNs then .next s else .next (endKey s jb)

/-- YIELDED_JOB_RESTART (R348): room has returned for the job that yielded first, and no latency-critical start waits. -/
def execYieldedJobRestart (t jb : Nat) (s : State) : Outcome State Fault Refusal :=
  let s := atTime t s
  match (job s jb).wait with
  | .room n q c =>
    let first := s.jobs.all (fun x => match x.2.wait with
      | .room m _ _ => decide (n ≤ m)
      | _ => true)
    if first = false ∨ (setsSuffice s q c).1 = false ∨ (setsSuffice s q c).2 = false ∨ s.starts.any (fun k => !((job s k).bestEffort)) = true then .next s
    else .next (restartJob s jb)
  | _ => .next s

/-! ### Tip-ins (R99, R100) -/

/-- The four resident versions of a slot. -/
def tipinLanes (s : State) (ss : Nat) : List Nat := (List.range 4).map (fun k => nfld (getF s 0x2822 ss) (16 * k + 15) (16 * k))

/-- A write to folio 0x2824.ss is refused with RULE. -/
def tipinRefused (s : State) (ss v : Nat) : Bool := decide (v = 0) || decide (v = 0xFFFF) || decide (getF s 0x2826 ss = 1)

/-- A load attempt starts. [DEDUCED: log 108] -/
def tipinAction (ss : Nat) (s : State) : State := setF s 0x2826 ss 1

/-- TIPIN_LOAD_DONE (R100): the attempt ends; `image` is what was read at folio 0x2825.ss. -/
def execTipinLoadDone (t ss : Nat) (image : ImageInfo) (s : State) : Outcome State Fault Refusal :=
  let s := atTime t s
  let v := getF s 0x2824 ss
  let lanes := tipinLanes s ss
  if getF s 0x2826 ss ≠ 1 then .next s
  else if lanes.contains 0 = false then .next (setF s 0x2826 ss 3)
  else if lanes.contains v then .next (setF s 0x2826 ss 4)
  else if nbit (getF s 0x2820 ss) 7 = false then .next (setF s 0x2826 ss 5)
  else if ownedCode s 4 (readAt s (getF s 0x2825 ss) (some (getF s 0x2820 ss % 64)) image) ≠ 0 then .next (setF s 0x2826 ss 6)
  else
    let k := lanes.idxOf 0
    .next (setF (setF s 0x2822 ss (setFld (getF s 0x2822 ss) v (16 * k + 15) (16 * k))) 0x2826 ss 2)

end Sys2Proof.Machine
end

