-- ==== Sys2Proof/Machine/Power.lean ====
section
/-! DEFINITION. Power, clocks and reset (chapter 20): regulator telemetry, the clock fraction k, the limits that lower it, the reset
kinds and the power-fail path. -/

namespace Sys2Proof.Machine

open Host

/-! ### The clock fraction k (R432 to R436) -/

/-- Power control of a half: 0 west, 1 east. -/
def half (s : State) (h : Nat) : HalfPower := if h = 0 then s.power.west else s.power.east

/-- Change the power control of a half. -/
def modHalf (s : State) (h : Nat) (f : HalfPower → HalfPower) : State :=
  { s with power := if h = 0 then { s.power with west := f s.power.west } else { s.power with east := f s.power.east } }

/-- k of a half (folio 0x7800.hh). -/
def clockK (s : State) (h : Nat) : Nat := getF s 0x7800 h

/-- A change of k, from 16 to 32, is a throttle step (R433); INIT_STAGE shows when both halves have reached 32. -/
def setK (s : State) (h k : Nat) : State :=
  let k := max 16 (min 32 k)
  if clockK s h = k then s else
  let s := incF (setF s 0x7800 h k) 0x7801 0x06
  if clockK s 0 = 32 ∧ clockK s 1 = 32 then initStage 11 s else s

/-- THROTTLE_CAUSE, folio 0x7801.07: what now holds k below 32. -/
def showCauses (power : Bool) (s : State) : State :=
  setF s 0x7801 0x07 (if clockK s 0 = 32 ∧ clockK s 1 = 32 then 0 else
    place (b2n power) 0 0 + place (b2n s.power.thermal) 1 1 + place (b2n (s.power.west.vrhot || s.power.east.vrhot)) 2 2
      + place (b2n (s.power.west.ceiling || s.power.east.ceiling)) 3 3)

/-- The power limit holds k down. -/
def powerHolds (s : State) : Bool := nbit (getF s 0x7801 0x07) 0

/-- A loop lowers k of a half by one: at most once a ms, so that of two loops that act in one ms the lower k is applied (Table 20-6). [DEDUCED: log 29] -/
def lowerK (s : State) (h : Nat) : State :=
  let due := match (half s h).downNs with
    | some t => decide (t + 1000000 ≤ s.now)
    | none => true
  if due then setK (modHalf s h (fun x => { x with downNs := some s.now, rising := false })) h (clockK s h - 1) else s

/-- Nothing but the power limit holds k of a half down, and the voltage loop shows the margin for the next clock. [DEDUCED: log 29] -/
def mayRise (s : State) (h : Nat) : Bool :=
  !s.power.thermal && !(half s h).vrhot && !(half s h).ceiling && (half s h).marginOk && decide (clockK s h < 32)

/-! ### Telemetry (R431, R432, R437) -/

/-- A regulator stage fails (R437): the package is treated as failed, or held before the cores are released. The spec gives the log
entry no cause code. [DESIGN CHOICE: log 26] -/
def failStage (s : State) (h : Nat) : State :=
  if (half s h).stageFailed then s else
  let s := modHalf s h (fun x => { x with stageFailed := true })
  if s.power.coresReleased then packageFailed (draw (logErr s (freshOf s % 256) (unitHalf h) 0 none 0 0)) else initStage 31 s

/-- Overcurrent or vrhot: k of the half is 16 until the report ends (R435). -/
def vrhotOn (s : State) (h : Nat) : State :=
  setK (modHalf s h (fun x => { x with vrhot := true, rising := false })) h 16

/-- The requested voltage changes, within 0.60 to 0.85 V (R25, R431). -/
def request (s : State) (h mv : Nat) : State :=
  if mv < 600 ∨ 850 < mv then s else emit (modHalf s h (fun x => { x with requestMv := mv })) (.avs (decide (h = 1)) mv)

/-- The voltage loop (R432). [DEDUCED: log 29] -/
def voltageLoop (s : State) (h : Nat) (r : StageReading) : State :=
  let x := half s h
  let s := match r.margin with
    | .within => s
    | .above => request s h (x.requestMv - 5)
    | .below =>
      if x.requestMv + 5 ≤ 850 then request s h (x.requestMv + 5)
      else setK (modHalf s h (fun x => { x with ceiling := true, rising := false })) h (clockK s h - 1)
  modHalf s h (fun x => { x with marginOk := r.nextWithin, ceiling := x.ceiling && !r.nextWithin })

/-- One stage's reading. [DEDUCED: log 29] -/
def readStage (s : State) (h : Nat) (r : StageReading) : State :=
  if r.answered = false then
    let s := modHalf s h (fun x => { x with missed := x.missed + 1 })
    if 3 ≤ (half s h).missed then failStage s h else s
  else
    let x := half s h
    let s := setF s 0x7802 h (place r.mv 63 48 + place r.amps 47 32 + place r.celsius 31 24 + place r.status 23 16)
    let s := modHalf s h (fun x => { x with missed := 0 })
    let s := if r.fault ∨ x.requestMv + 30 < r.mv ∨ r.mv + 30 < x.requestMv then failStage s h else s
    let s := if 1330 < r.amps then vrhotOn s h else s
    voltageLoop s h r

/-- TELEMETRY_READ (R431): both stages are read every 100 µs. [DESIGN CHOICE: log 7] -/
def execTelemetryRead (t : Nat) (west east : StageReading) (s : State) : Outcome State Fault Refusal :=
  let s := atTime t s
  if s.power.phase ≠ .running then .next s else
  let p := powerHolds s
  .next (showCauses p (readStage (readStage s 0 west) 1 east))

/-! ### Power limit (R433, R434) -/

/-- Core power of a half from its last reading, mW. [DESIGN CHOICE: log 28] -/
def coreMw (s : State) (h : Nat) : Nat := nfld (getF s 0x7802 h) 63 48 * nfld (getF s 0x7802 h) 47 32

/-- The rise from k = 16 after a reset: one step a ms (R433). -/
def startRise (s : State) (h : Nat) : State :=
  if (half s h).rising ∧ powerHolds s = false ∧ mayRise s h = true ∧ (half s h).riseNs + 1000000 ≤ s.now then
    let s := setK (modHalf s h (fun x => { x with riseNs := s.now })) h (clockK s h + 1)
    if clockK s h = 32 then modHalf s h (fun x => { x with rising := false }) else s
  else s

/-- The half that R434 raises: the one with the lower k; between equal ones the spec does not choose. [DESIGN CHOICE: log 28] -/
def raiseHalf (s : State) : Nat :=
  if clockK s 0 < clockK s 1 then 0 else if clockK s 1 < clockK s 0 then 1 else freshOf s % 2

/-- POWER_LIMIT_CHECK (R434). -/
def execPowerLimitCheck (t : Nat) (s : State) : Outcome State Fault Refusal :=
  let s := atTime t s
  if s.power.phase ≠ .running then .next s else
  let p := coreMw s 0 + coreMw s 1 + getF s 0x7801 0x02 * 1000
  let limit := getF s 0x7801 0x01 * 1000
  let s := setF s 0x7801 0x03 (min 65535 (p / 1000))
  if limit < p then
    let s := lowerK s (if coreMw s 0 < coreMw s 1 then 1 else 0)
    .next (showCauses true { s with power := { s.power with lowSinceNs := none } })
  else
    let since := if p * 100 ≤ limit * 98 then some (s.power.lowSinceNs.getD s.now) else none
    let s := { s with power := { s.power with lowSinceNs := since } }
    let long : Bool := match since with
      | some t0 => decide (t0 + 10000000 ≤ s.now)
      | none => false
    let h := raiseHalf s
    let s := startRise (startRise s 0) 1
    let s := if long ∧ (half s h).rising = false ∧ mayRise s h = true then draw (setK s h (clockK s h + 1)) else s
    .next (showCauses (powerHolds s && !long) s)

/-! ### Thermal (R435, R436, R172) -/

/-- VRHOT_ASSERT (R435): overcurrent or vrhot of a half. -/
def execVrhotAssert (t : Nat) (east : Bool) (s : State) : Outcome State Fault Refusal :=
  let s := atTime t s
  if s.power.phase ≠ .running then .next s else .next (showCauses (powerHolds s) (vrhotOn s (b2n east)))

/-- VRHOT_END (R435): k may rise again under R434. -/
def execVrhotEnd (t : Nat) (east : Bool) (s : State) : Outcome State Fault Refusal :=
  let s := atTime t s
  .next (showCauses (powerHolds s) (modHalf s (b2n east) (fun x => { x with vrhot := false })))

/-! ### Entry of a reset (R438, R439) and of the power-fail path (R443) -/

/-- Step 1: sequencers stop, transmitters go dark, the close pulse starts; no interface is answered once the phase has changed. -/
def stopPackage (s : State) : State := closeBypasses (goDark (stopSequencers s))

/-- The flash tier takes no new write or discard from the indication on (R259). -/
def startFlush (s : State) : State := { s with flash := { s.flash with flushing := true } }

/-- A reset of kind 0x03 to 0x06 is triggered: it starts its entry, a lower code takes over an entry under way (R438), and one that
meets the power-fail path or no power is ignored (Table 20-6). -/
def enterReset (kind : Nat) (s : State) : State := match s.power.phase with
  | .running =>
    let s := startFlush (stopPackage s)
    emit { s with power := { s.power with phase := .entry, kind := kind } } (.resetStart kind)
  | .entry => { s with power := { s.power with kind := min s.power.kind kind } }
  | .held => { s with power := { s.power with kind := min s.power.kind kind } }
  | _ => s

/-- The power-fail indication (R443): the path takes over a reset entry (Table 20-6). -/
def powerFail (s : State) : State := match s.power.phase with
  | .off => s
  | .failing => s
  | .failed => s
  | _ =>
    let s := startFlush (stopPackage s)
    { s with power := { s.power with phase := .failing, kind := 2 } }

/-! ### Flush and reset (R259, R438) -/

/-- Erase units of a channel's flush reserve that are in service: they follow the units that hold data (R259). -/
def reserveOf (s : State) (f : FlashState) (ch : Nat) : List Nat :=
  ((List.range (reserveUnits s)).map (fun k => dataUnits s + k)).filter (fun u => decide ((flashUnit f ch u).use = .free) || decide ((flashUnit f ch u).use = .closed))

/-- One dirty write goes into the next sector of its channel's flush reserve, and its map change into the journal. `cur` holds the sectors
used in each channel. A program that fails is counted, its unit retired, and the data goes to the next unit (Table 11-7); a reserve
without a further unit holds no room for it. [DEDUCED: log 163] -/
def flushOne (s : State) (failed : List Nat) (st : FlashState × Tbl Nat) (x : FlashWrite × Nat) : FlashState × Tbl Nat :=
  let (f, cur) := st
  let ch := x.1.channel
  let v := unitSectors f.geometry
  let us := reserveOf s f ch
  let k := tget 0 cur ch
  let put (f : FlashState) (us : List Nat) (k : Nat) : FlashState × Tbl Nat := match us[k / v]? with
    | none => (f, cur)
    | some u =>
      let slot := u * v + k % v
      let e := flashUnit f ch u
      let f := setFlashUnit f ch u { e with use := .closed, next := k % v + 1 }
      ({ f with sectors := tput f.sectors (ch * 2 ^ 30 + slot) (writtenSector x.1),
                journal := f.journal ++ [{ page := x.1.page, channel := ch, slot := x.1.slot, reserveSlot := slot }] }, tput cur ch (k + 1))
  match failed.contains x.2, us[k / v]? with
  | true, some u =>
    let f := modFlashHealth f ch (fun h => { h with programFails := min 65535 (h.programFails + 1) })
    let f := setFlashUnit f ch u { flashUnit f ch u with use := .retired }
    put f (us.eraseIdx (k / v)) (k / v * v)
  | _, _ => put f us k

/-- The dirty area and the map journal are programmed into the flush reserve; writes that were never taken are not taken any more
(R259). -/
def flushAll (s : State) (failed : List Nat) : FlashState :=
  { (s.flash.dirty.zipIdx.foldl (flushOne s failed) (s.flash, [])).1 with dirty := [], waiting := [] }

/-- The flush completes and records its duration in µs (R259). Before the rebuild has completed no write is held (Table 20-6). -/
def finishFlush (r : FlushRun) (s : State) : State :=
  if s.flash.channels = [] ∨ flashState s < 2 then s else { s with flash := { flushAll s r.failed with lastFlush := some r.us } }

/-- Cells of host memory, which lies outside the package. [DEDUCED: log 13] -/
def hostCells (m : List Cell) : List Cell := m.filter (fun c => decide (2 ^ 64 ≤ c.1))

/-- The package after the internal reset: every folio at its Reset value, every memory but the flash discarded (R438). What outlives
it: the flash tier's map, sectors, units and saved health; the switches' positions; the boot flash; the init engine's record of the kind.
The model's own queue, record and counter stay. [DEDUCED: log 20] -/
def resetPackage (kind : Nat) (s : State) : State :=
  let r := State.reset
  let keep := s.flash
  let flash : FlashState := { r.flash with geometry := keep.geometry, map := keep.map, sectors := keep.sectors, units := keep.units,
                                           healthSaved := keep.healthSaved, seq := keep.seq, lastFlush := keep.lastFlush, journal := keep.journal }
  let power : PowerState := { r.power with phase := .held, kind := kind, pwrGood := s.power.pwrGood, pfail := s.power.pfail,
                                           rst := s.power.rst }
  let boot : BootState := { r.boot with slots := s.boot.slots, helper := s.boot.helper }
  let link : LinksState := { r.link with bypass := s.link.bypass.map (fun e => (e.1, { e.2 with startDone := false, sinceNs := 0 })) }
  let s : State := { r with pending := s.pending, out := s.out, freeCtr := s.freeCtr, mem := hostCells s.mem, flash := flash,
                            power := power, boot := boot, link := link }
  closeBypasses ((List.range 4).foldl (fun s n => setBypass s n (bypassOf s n)) (setF s 0x7810 0x01 kind))

/-- An update that a reset cuts short leaves its slot with an image that fails some check of R460 (Table 21-10). [DEDUCED: log 21] -/
def tornSlot (s : State) : State := match s.boot.update with
  | none => s
  | some u =>
    let n := freshOf s % 5
    let i : ImageInfo :=
      { readOk := true, magic := if n = 0 then 0 else 0x494B4C5A, kind := u.kind, zerosOk := true, version := freshOf s / 5 % 2 ^ 32,
        imageId := 0, bodyLen := if n = 1 then 2 ^ 64 - 1 else 0, bodyDigest := 0,
        keyDigest := if n = 2 then Config.romKey 0 + 1 else Config.romKey 0, sigOk := decide (n ≠ 2) && decide (n ≠ 3),
        bodyHash := if n = 4 then 1 else 0 }
    let b : BootImage := { info := i, ownKey := if n = 2 then Config.romKey 0 else i.keyDigest, img := [], overrides := [] }
    draw { s with boot := { s.boot with slots := tput s.boot.slots u.slot b } }

/-! ### The rows -/

/-- What a thermal sample does (R436, R172). [DEDUCED: log 29; DESIGN CHOICE: log 28] -/
def takeSample (west east control dram : List Nat) (s : State) : State :=
  let hottest (l : List Nat) : Nat := l.foldl max 0
  let w := hottest west
  let e := hottest east
  let j := max (max w e) (hottest control)
  let st := hottest dram
  let s := setF (setF s 0x7803 0x01 j) 0x7803 0x02 st
  let s := setF s 0x3400 0x04 (if 85 ≤ st then 1 else 0)
  let p := powerHolds s
  let s :=
    if s.power.phase ≠ .running then s
    else if getF s 0x7801 0x04 ≤ j then
      let h := if e < w then 0 else if w < e then 1 else freshOf s % 2
      draw (lowerK { s with power := { s.power with thermal := true } } h)
    else if j + 3 ≤ getF s 0x7801 0x04 then { s with power := { s.power with thermal := false } }
    else s
  let s := showCauses p s
  if getF s 0x7801 0x05 ≤ j ∧ s.power.thermtrip = false then
    powerFail (emit { s with power := { s.power with thermtrip := true } } .thermtrip)
  else s

/-- THERMAL_SAMPLE (R436, R172): junction sensors of the halves and the control die, and stack sensors, °C. -/
def execThermalSample (t : Nat) (west east control dram : List Nat) (s : State) : Outcome State Fault Refusal :=
  let s := atTime t s
  if s.power.phase = .off ∨ s.power.phase = .held ∨ s.power.phase = .failed then .next s else .next (takeSample west east control dram s)

/-- LOCAL_TIME_CORRECTION (R430): the copies of the two halves and of the links are corrected; `left` is what remains of each copy's
difference, at most 8 ns. [DEDUCED: log 31] -/
def execLocalTimeCorrection (t : Nat) (left : List Int) (s : State) : Outcome State Fault Refusal :=
  let s := atTime t s
  if s.power.phase ≠ .running then .next s else
  .next { s with power := { s.power with
    copies := (List.range 66).foldl (fun m k => tset 0 m k (max (-8) (min 8 (left.getD k 0)))) s.power.copies } }

/-- POWER_ON (R438): pwr_good rises. -/
def execPowerOn (s : State) : Outcome State Fault Refusal :=
  if s.power.phase ≠ .off then .next s else
  .next (emit (resetPackage 1 { s with power := { s.power with pwrGood := true } }) (.resetStart 1))

/-- A dirty write that power loss cuts off: with its map change journalled it stands, or else the page has its former entry again as far
as its sector still holds it (R445). [DEDUCED: log 27] -/
def dropWrite (journalled : List Nat) (f : FlashState) (w : FlashWrite) : FlashState :=
  if journalled.contains w.seq then
    { f with sectors := tput f.sectors (w.channel * 2 ^ 30 + w.slot) (writtenSector w) }
  else
    let f := dropSector f w.page
    let old := match tfind f.sectors (w.channel * 2 ^ 30 + w.prior.slot) with
      | some x => if w.prior.mapped ∧ x.page = w.page then w.prior else FlashMapEntry.zero
      | none => FlashMapEntry.zero
    let f := { f with map := tset FlashMapEntry.zero f.map w.page old }
    if old.mapped then
      let u := old.slot / unitSectors f.geometry
      let e := flashUnit f w.channel u
      setFlashUnit f w.channel u { e with valid := e.valid + 1 }
    else f

/-- POWER_LOSS (R445): pwr_good falls. Unless the power-fail path has completed, the dirty area is lost but for the writes whose map
change was journalled, and LAST_FLUSH will be clear. [DEDUCED: log 27] -/
def execPowerLoss (journalled : List Nat) (s : State) : Outcome State Fault Refusal :=
  let done := decide (s.power.phase = .failed)
  let f := s.flash.dirty.reverse.foldl (dropWrite journalled) s.flash
  let f := { f with dirty := [], waiting := [], lastFlush := if done ∨ f.channels = [] then f.lastFlush else none }
  let s := goDark (stopSequencers (tornSlot { s with flash := f }))
  .next { s with power := { s.power with phase := .off, pwrGood := false, pfailDone := false } }

/-- PIN_RESET (R439): rst_n asserted for `heldNs`; 1 µs makes it a reset. -/
def execPinReset (t heldNs : Nat) (s : State) : Outcome State Fault Refusal :=
  let s := atTime t s
  if heldNs < 1000 then .next s else .next (enterReset 3 { s with power := { s.power with rst := true } })

/-- WATCHDOG_EXPIRY (R438): folio 0x7810.03 ms have passed without a kick from firmware. [DESIGN CHOICE: log 30] -/
def execWatchdogExpiry (t : Nat) (s : State) : Outcome State Fault Refusal :=
  let s := atTime t s
  if s.power.coresReleased = false then .next s else .next (enterReset 6 s)

/-- POWER_FAIL (R443): pfail_n is asserted. -/
def execPowerFail (t : Nat) (s : State) : Outcome State Fault Refusal :=
  let s := atTime t s
  .next (powerFail { s with power := { s.power with pfail := true } })

/-- Every switch is closed and still. [DEDUCED: log 32] -/
def bypassesHome (s : State) : Bool := (List.range 4).all (fun n => (bypassOf s n).closed && decide ((bypassOf s n).move = .still))

/-- The package leaves the power-fail path for reset (R443): it stays there while pfail_n is asserted. -/
def leavePath (s : State) : State :=
  if s.power.phase = .failed ∧ s.power.pfail = false ∧ s.power.pwrGood = true then
    emit { s with power := { s.power with phase := .held, pfailDone := false } } (.resetStart 2)
  else s

/-- POWER_FAIL_PATH_COMPLETE (R443): the flush and the bypass move have completed. [DEDUCED: log 32] -/
def execPowerFailPathComplete (t : Nat) (flush : FlushRun) (s : State) : Outcome State Fault Refusal :=
  let s := atTime t s
  if s.power.phase ≠ .failing ∨ bypassesHome s = false then .next s else
  let s := resetPackage 2 (tornSlot (finishFlush flush s))
  let s := { s with power := { s.power with phase := .failed, pfailDone := true } }
  .next (leavePath (emit s (.pfailDone true)))

/-- PFAIL_RELEASE (R443): pfail_n is released; the path completes first when it still runs (Table 20-6). -/
def execPfailRelease (t : Nat) (s : State) : Outcome State Fault Refusal :=
  let s := atTime t s
  .next (leavePath { s with power := { s.power with pfail := false } })

/-! ### Idling (R430) -/

/-- Nothing is commanded: local time counts one nanosecond while the init engine runs, from the moment it left reset until the next
reset. [DESIGN CHOICE: log 2] -/
def tickIdle (s : State) : State := if s.power.phase = .running ∨ s.power.phase = .entry ∨ s.power.phase = .failing then { s with now := s.now + 1 } else s

end Sys2Proof.Machine
end

