-- ==== Sys2Proof/Machine/Rules.lean ====
section
/-! DEFINITION. What the owning chapters refuse of a folio write (R411, result 0x13): the conditions that each folio's rule states. -/

namespace Sys2Proof.Machine

open Host

/-! ### Copies of per-interface folios (R408, Table 19-1) -/

/-- Key of an interface's copy. -/
def ifKey (iface idx sub : Nat) : Nat := iface * 2 ^ 24 + folioKey idx sub

/-- An interface's copy of a per-interface folio. -/
def getIf (s : State) (iface idx sub : Nat) : Nat := match tfind s.dict.perIf (ifKey iface idx sub) with
  | some v => v
  | none => resetValue s.dict idx sub

/-- Store an interface's copy. -/
def setIf (s : State) (iface idx sub v : Nat) : State :=
  { s with dict := { s.dict with perIf := tput s.dict.perIf (ifKey iface idx sub) v } }

/-- The four words of a queue pair context staged by an interface. [DEDUCED: log 43] -/
def stagedQp (s : State) (iface : Nat) : Nat :=
  getIf s iface 0x4101 1 + getIf s iface 0x4101 2 * 2 ^ 64 + getIf s iface 0x4101 3 * 2 ^ 128 + getIf s iface 0x4101 4 * 2 ^ 192

/-! ### Sums and chains -/

/-- The two LPDDR6 shares, what is lent (folio 0x2450.03) and the flash maps exceed the trained capacity, with share `sub` taken as `v`
(R243, R247). [DEDUCED: log 22] -/
def lpddrOver (s : State) (sub v : Nat) : Bool :=
  let g (k : Nat) : Nat := if k = sub then v else getF s 0x2420 k
  decide (getF s 0x2420 0x05 * 1024 < (g 0x01 + g 0x02 + getF s 0x2450 0x03) * 1024 + getF s 0x7000 0x04)

/-- BOOKMARK_GIB, the two flash shares and folio 0x2450.02 exceed LOGICAL_GIB (R263). -/
def flashOver (s : State) (sub v : Nat) : Bool :=
  let g (k : Nat) : Nat := if k = sub then v else getF s 0x7031 k
  decide (getF s 0x7000 0x03 < getF s 0x7030 0x01 + g 1 + g 2 + getF s 0x2450 0x02)

/-- Policers met from `p` on, with policer `q`'s word taken as `v`: more than four (R353). -/
def chainLong (s : State) (q v : Nat) : Nat → Nat → Bool
  | 0, _ => true
  | n + 1, p =>
    let w (k : Nat) : Nat := if k = q then v else getF s 0x5430 k
    if nfld (w p) 63 62 = 0 ∨ nbit (w p) 57 = false ∨ nfld (w (nfld (w p) 56 52)) 63 62 = 0 then false
    else chainLong s q v n (nfld (w p) 56 52)

/-- A policer word is refused: RSVD codes, a chain longer than four, or a loop (R353, R411). -/
def policerBad (s : State) (q v : Nat) : Bool :=
  decide (nfld v 63 62 = 3) || decide (nfld v 59 58 = 3) || (List.range 32).any (chainLong s q v 4)

/-- The sizes and rates of policer `p` break a limit of R354, with folio `idx` of it taken as `v`. -/
def policerSizesBad (s : State) (idx p v : Nat) : Bool :=
  let g (i : Nat) : Nat := if i = idx then v else getF s i p
  let two := decide (nfld (g 0x5430) 63 62 = 2)
  let cbs := nfld (g 0x5432) 31 0
  let ebs := nfld (g 0x5432) 63 32
  decide (cbs < 4160) || (two && (decide (ebs < 4160) || decide (nfld (g 0x5431) 63 32 < nfld (g 0x5431) 31 0)))
    || (!two && decide (1 ≤ ebs) && decide (ebs ≤ 4159))

/-- PLCA_CONFIG: transmit opportunity timer 20 to 255 bit times; node count 1 to 16 for the coordinator (Table 19-6). [DEDUCED: log 23] -/
def plcaBad (v : Nat) : Bool :=
  decide (nfld v 15 8 < 20) || (decide (nfld v 27 24 = 0) && (decide (nfld v 23 16 < 1) || decide (16 < nfld v 23 16)))

/-- A job command is refused (R346, R347, R349). -/
def jobCommandRefused (s : State) (jb v : Nat) : Bool :=
  if v = 1 ∨ v = 2 then startRefused s jb else if v = 3 then endRefused s jb else true

/-- An update or quote command while one is busy (R462, R465). -/
def busyRefused (s : State) (idx : Nat) : Bool := if idx = 0x7C40 then s.boot.update.isSome else s.boot.quote.isSome

/-! ### The decision -/

/-- Conditions of chapters 2 to 4 and 8 to 10. -/
def ruleUpper (s : State) (idx sub v : Nat) : Bool :=
  if idx = 0x2020 then
    decide ((job s sub).mode = .running) && !((job s sub).bestEffort) && (decide (v = 0) || decide (decodeCapacity s sub < v))
  else if idx = 0x2031 then decide (v ≠ 1)
  else if idx = 0x2040 then decide (32768 ≤ v)
  else if idx = 0x2060 ∧ sub = 0x07 then rebalanceRefused s v
  else if idx = 0x2402 then decide (v % 4 = 3)
  else if idx = 0x2420 ∧ (sub = 1 ∨ sub = 2) then lpddrOver s sub v
  else if idx = 0x2440 then decide (v % 4096 ≠ 0)

  else if idx = 0x2810 ∧ sub = 4 then decide (v % 8 ≠ 0)
  else if idx = 0x2820 then (tipinLanes s sub).any (fun x => decide (x ≠ 0))
  else if idx = 0x2821 then decide (v = 0) || !((tipinLanes s sub).contains v)
  else if idx = 0x2824 then tipinRefused s sub v
  else if idx = 0x3400 then decide (v ≠ 0) && !((List.range 13).any (fun k => decide (v = 2 ^ (k + 4))))
  else if idx = 0x3813 then decide (64 ≤ v)
  else false

/-- Conditions of chapters 12 to 19. -/
def ruleLower (s : State) (iface idx sub v : Nat) : Bool :=
  if idx = 0x1040 then (if sub = 2 then plcaBad v else decide (v ≠ 0) && (decide (v < 100) || decide (60000 < v)))
  else if idx = 0x4021 then decide (64 ≤ v)
  else if idx = 0x4101 then
    if v = 1 then createRefused s (getIf s iface 0x4101 0) (contextOf (stagedQp s iface)) else decide (v ≠ 2) && decide (v ≠ 3)
  else if idx = 0x4102 then decide (v ≠ 1) && decide (v ≠ 2)
  else if idx = 0x4104 then (domainJob s sub).any (fun j => decide ((job s j).mode ≠ .free) && decide ((job s j).mode ≠ .tornDown))
  else if idx = 0x4811 then decide (v ≠ 1) && decide (v ≠ 2)
  else if 0x5040 ≤ idx ∧ idx ≤ 0x5048 then cvuRefuses s idx sub v
  else if idx = 0x5402 then decide (v ≠ 1)
  else if idx = 0x5412 then jobCommandRefused s sub v
  else if idx = 0x5420 ∨ idx = 0x5421 then shaperBad v
  else if idx = 0x5430 then policerBad s sub v || policerSizesBad s idx sub v
  else if idx = 0x5431 ∨ idx = 0x5432 then policerSizesBad s idx sub v
  else if idx = 0x6000 then tailRefused s v
  else if idx = 0x6007 then !(isMemoryCode v)
  else if idx = 0x6010 then releaseRefused s v iface
  else if idx = 0x6021 then (reinstateRefusal s v).isSome
  else if idx = 0x6030 then
    decide (nfld v 15 8 < 1) || decide (3 < nfld v 15 8) || injectRefused s (nfld v 31 16) (nfld v 15 8)
  else if idx = 0x6415 then decide (v ≠ 1)
  else false

/-- Conditions of chapters 11, 20 and 21. -/
def ruleLast (s : State) (idx sub v : Nat) : Bool :=
  if idx = 0x7010 then
    if sub = 1 then decide (getF s 0x7010 2 ≤ v) || decide (v ≤ getF s 0x7010 3)
    else if sub = 2 then decide (v ≤ getF s 0x7010 1) else decide (getF s 0x7010 1 ≤ v)
  else if idx = 0x7030 then decide (slotCount s ≤ v)
  else if idx = 0x7031 then flashOver s sub v
  else if idx = 0x7810 then decide (v ≠ 0xA5)
  else if idx = 0x7C30 then decide (v ≠ 1) || busyRefused s idx
  else if idx = 0x7C40 then (decide (v ≠ 1) && decide (v ≠ 2)) || busyRefused s idx
  else false

/-- The owning chapter refuses value `v` in the present state (R411, result 0x13), for a folio whose row is marked RULED or whose writes
start actions. [DEDUCED: log 23] -/
def ruleRefuses (s : State) (iface idx sub v : Nat) : Bool := match folioRow idx sub with
  | none => false
  | some r =>
    if r.ruled = false ∧ (0x5041 ≤ idx ∧ idx ≤ 0x5045) = false then false
    else if idx < 0x2000 ∨ (0x4000 ≤ idx ∧ idx < 0x7000) then ruleLower s iface idx sub v
    else if idx < 0x4000 then ruleUpper s idx sub v
    else ruleLast s idx sub v

/-- R411 for a folio's row: the result but for the form of the request, the freeze of the interface and the action itself. `w` is the
width of the request in bits. Two bits of folio 0x504A.uu, an RO/V folio, are RW1C. -/
def writeResult (s : State) (iface idx sub w v : Nat) (frozen : Bool) : Nat := match folioRow idx sub with
  | none => 0x10
  | some r =>
    if w ≠ r.width ∨ 2 ^ r.width ≤ v then 0x11
    else if frozen then 0x14
    else if (r.access = .ro ∨ r.access = .rov) ∧ idx ≠ 0x504A then 0x01
    else
      let out := match r.range with
        | some (a, b) => decide (v < a) || decide (b < v)
        | none => false
      if out then 0x12 else if ruleRefuses s iface idx sub v then 0x13 else 0x00

end Sys2Proof.Machine
end

