-- ==== Sys2Proof/Machine/Boot.lean ====
section
/-! DEFINITION. Initialisation, the host port, boot flash images, identity, attestation and instruments (chapters 20, 21 and 1). -/

namespace Sys2Proof.Machine

open Host

/-! ### The init engine (R430, R439, R441, R463) -/

/-- Store consecutive 8-byte words of a number in folios of one index, from subindex 0. -/
def setWords (s : State) (idx n v : Nat) : State :=
  (List.range n).foldl (fun s k => setF s idx k (nfld v (64 * k + 63) (64 * k))) s

/-- Bytes of the encapsulation and attestation keys that a seed gives. [DEDUCED: log 17] -/
def kemKeyBytes (seed : BitVec 256) : List Byte := (List.range 1184).map (Config.kemKey seed)

/-- See kemKeyBytes. [DEDUCED: log 17] -/
def attestKeyBytes (seed : BitVec 256) : List Byte := (List.range 48).map (Config.attestKey seed)

/-- The PUF is read (R463): an erased helper region enrols a new secret; otherwise the seed is reconstructed, or the check fails. [DESIGN CHOICE: log 19] -/
def readPuf (ok : Bool) (s : State) : State :=
  let old := s.boot.helper
  let secret : BitVec 256 := old.getD (BitVec.ofNat 256 (freshOf s))
  let s := if old.isSome then s else draw { s with boot := { s.boot with helper := some secret } }
  if ok then
    let s : State := { s with boot := { s.boot with seed := some secret } }
    let s := setF (setF s 0x7C05 0x01 (if old.isSome then 2 else 1)) 0x1000 0x05 (deviceId s)
    setWords (setWords s 0x7C06 148 (ofBytesLE (kemKeyBytes secret))) 0x7C07 6 (ofBytesLE (attestKeyBytes secret))
  else setF s 0x7C05 0x01 3

/-- What the init engine does when it leaves reset: local time starts, the PUF is read, a new incarnation is drawn (R380), the PLLs lock
with k = 16 in both halves, and the UCIe modules train. [DEDUCED: log 20; DESIGN CHOICE: log 4] -/
def leaveReset (pufOk : Bool) (failed : List Nat) (s : State) : State :=
  let s : State := { s with now := 0, power := { s.power with phase := .running, rst := false } }
  let s := readPuf pufOk s
  let s := draw (setF s 0x6400 0x03 (freshOf s % 2 ^ 32))
  let s := initStage 1 (initStage 0 (setF s 0x7800 0x02 0xFC000000))
  failed.foldl (fun s m => fence s (unitUcie m) 5) s

/-- INIT_ENGINE_START (R439): after a reset entry the flush has completed; `failed` names UCIe modules that do not train (R14). -/
def execInitEngineStart (flush : FlushRun) (pufOk : Bool) (failed : List Nat) (s : State) : Outcome State Fault Refusal :=
  if s.power.pwrGood = false then .next s else
  match s.power.phase with
  | .held => .next (leaveReset pufOk failed (setF s 0x7810 0x01 s.power.kind))
  | .entry => .next (leaveReset pufOk failed (resetPackage s.power.kind (tornSlot (finishFlush flush s))))
  | _ => .next s

/-- Cells of memory that the fill of R441 leaves: all but those of quire SRAM and shared SRAM. [DEDUCED: log 13] -/
def notFilled (m : List Cell) : List Cell := m.filter (fun c => decide (c.1 < 0xF00000000000) || decide (2 ^ 64 ≤ c.1))

/-- The reserved areas of the quires are loaded, as after every reset kind (R122). [DESIGN CHOICE: log 137] -/
def loadReserved (s : State) : State :=
  (List.range 128).foldl (fun s q => writeBytes s (quireAddr q 0x7F0000) ((List.range 0x10000).map (Config.canaryByte q))) s

/-- MEMORY_FILL_COMPLETE (R441): memories zero, cores released. A failed regulator stage holds the package here (R437). [DEDUCED: log 20] -/
def execMemoryFillComplete (t : Nat) (s : State) : Outcome State Fault Refusal :=
  let s := atTime t s
  if s.power.phase ≠ .running ∨ s.power.coresReleased = true ∨ nbit (getF s 0x7820 0x01) 31 = true ∨ nbit (getF s 0x7820 0x01) 1 = false then .next s
  else
    let s : State := { s with mem := notFilled s.mem, sig := { entries := [], aux := [], waiting := [], offers := [] },
                              cw := { buckets := [], nodes := [], sweeping := [] }, power := { s.power with coresReleased := true } }
    .next (initStage 2 (loadReserved s))

/-! ### Images (R407, R458 to R461) -/

/-- What an erased slot reads as: every bit one. [DEDUCED: log 21] -/
def blankImage : BootImage :=
  { info := { readOk := true, magic := 2 ^ 32 - 1, kind := 0xFF, zerosOk := false, version := 2 ^ 32 - 1, imageId := 2 ^ 32 - 1,
              bodyLen := 2 ^ 64 - 1, bodyDigest := 0, keyDigest := 0, sigOk := false, bodyHash := 0 },
    ownKey := 0, img := [], overrides := [] }

/-- Content of boot flash slot `k`: what this package wrote there, or else what the device was found to hold. [DESIGN CHOICE: log 12] -/
def slotImage (s : State) (found : List (Nat × BootImage)) (k : Nat) : BootImage := match tfind s.boot.slots k with
  | some b => b
  | none => match found.find? (fun x => decide (x.1 = k)) with
    | some x => x.2
    | none => blankImage

/-- The two Vashane keys (R460). [DEDUCED: log 18] -/
def romKeys : List (BitVec 256) := [Config.romKey 0, Config.romKey 1]

/-- The check of a boot image by its kind: 1 firmware, 2 configuration. [DEDUCED: log 17, 21; DESIGN CHOICE: log 39] -/
def bootCode (kind : Nat) (b : BootImage) : Nat :=
  if kind = 1 then imageCode 1 0x200000 romKeys b.info else imageCode 2 0x40000 [b.ownKey] b.info

/-- R461 for one kind: the slot to use with its image, and the code of the last failed check, `last` before. [DESIGN CHOICE: log 39] -/
def selectImage (s : State) (found : List (Nat × BootImage)) (kind last : Nat) : Option (Nat × BootImage) × Nat :=
  let k := if kind = 1 then 0 else 2
  let a := slotImage s found k
  let b := slotImage s found (k + 1)
  let order := if a.info.version < b.info.version then [(k + 1, b), (k, a)] else [(k, a), (k + 1, b)]
  order.foldl (fun r x => match r.1 with
    | some y => (some y, r.2)
    | none => let c := bootCode kind x.2; if c = 0 then (some x, r.2) else (none, c)) (none, last)

/-- Values of img folios from the configuration body; a folio without an entry keeps zero. [DEDUCED: log 24; DESIGN CHOICE: log 11] -/
def loadImg (l : List (Nat × Nat × Nat)) (s : State) : State :=
  let ok := l.filter (fun e => match folioRow e.1 e.2.1 with
    | some r => r.img
    | none => false)
  { s with dict := { s.dict with img := ok.foldl (fun m e => tput m (folioKey e.1 e.2.1) (e.2.2 &&& folioMask e.1 e.2.1)) s.dict.img } }

/-- One entry of the override list: skipped and counted unless it names an RW folio and its value would be accepted (R407). [DEDUCED: log 24] -/
def applyOverride (s : State) (e : Nat × Nat × Nat) : State :=
  let rw : Bool := match folioRow e.1 e.2.1 with
    | some r => decide (r.access = .rw)
    | none => false
  if rw ∧ writeResult s 1 e.1 e.2.1 (folioWidth e.1 e.2.1) e.2.2 false = 0 then
    { s with dict := { s.dict with overrides := tput s.dict.overrides (folioKey e.1 e.2.1) (e.2.2 &&& folioMask e.1 e.2.1) } }
  else incF s 0x1000 0x09

/-- Links whose control word does not disable them leave DISABLED for DOWN, and the transmitters may light (R318, Table 20-5). [DEDUCED: log 116] -/
def startLinks (s : State) : State :=
  let s := (List.range 64).foldl (fun s l =>
    if nbit (getF s 0x4802 l) 1 then s else setLink s l { linkOf s l with mode := .down, sinceNs := s.now }) s
  { s with link := { s.link with dark := s.err.failed } }

/-- The configuration image comes into force. -/
def useConfig (k : Nat) (b : BootImage) (s : State) : State :=
  let s := (b.overrides.take 512).foldl applyOverride (loadImg b.img { s with boot := { s.boot with config := some (k, b) } })
  let s := setF s 0x1000 0x07 b.info.imageId
  let s := setWords (setWords s 0x7C02 4 b.info.bodyDigest.toNat) 0x7C03 4 b.ownKey.toNat
  startLinks s

/-- E_hold of R444 in whole mJ. -/
def holdupMj (s : State) : Nat :=
  let flush := if getF s 0x7C10 0x01 = 2 then getF s 0x7020 0x01 else 0
  ceilDiv (150 * (10 + max 2000 flush) + 95 * flush + 40000) 1000

/-- The images are verified and the configuration is used (R461). -/
def verifyImages (found : List (Nat × BootImage)) (s : State) : State :=
  let (fw, c1) := selectImage s found 1 0
  let (cfg, c2) := selectImage s found 2 c1
  let letter (x : Option (Nat × BootImage)) : Nat := match x with
    | some (k, _) => k % 2 + 1
    | none => 0
  let s := setF s 0x7C00 0x01 (place (letter fw) 31 30 + place (letter cfg) 29 28 + place c2 23 16)
  match fw with
  | none => { s with power := { s.power with coresReleased := false } }
  | some (k, b) =>
    let s : State := { s with boot := { s.boot with firmware := some (k, b) }, power := { s.power with answering := true } }
    let s := setWords (setF s 0x1000 0x06 b.info.version) 0x7C01 4 b.info.bodyDigest.toNat
    match cfg with
    | some (k, b) =>
      let s := useConfig k b s
      initStage 3 (setF s 0x7830 0x01 (holdupMj s))
    | none => initStage 3 (setF (setF s 0x7C10 0x02 0xFF) 0x7C10 0x03 1)

/-- IMAGES_VERIFIED (R461): `found` is what the boot flash holds in slots that this package has not written. [DEDUCED: log 20; DESIGN CHOICE: log 7] -/
def execImagesVerified (t : Nat) (found : List (Nat × BootImage)) (s : State) : Outcome State Fault Refusal :=
  let s := atTime t s
  if s.power.phase ≠ .running ∨ nbit (getF s 0x7820 0x01) 2 = false ∨ nbit (getF s 0x7820 0x01) 3 = true then .next s else .next (verifyImages found s)

/-! ### Training (R4, R21, R172, R244, R246) -/

/-- STACK_TRAINING_COMPLETE (R4): `large` for dies of 8 GiB, ZLK-7264. -/
def execStackTrainingComplete (t : Nat) (large : Bool) (s : State) : Outcome State Fault Refusal :=
  let s := atTime t s
  if s.power.phase ≠ .running ∨ s.power.coresReleased = false then .next s else
  let s := setF (setF s 0x1000 0x01 (if large then 0x1C60 else 0x1C50)) 0x1000 0x04 (if large then 0x40 else 0x30)
  let s := setF s 0x3400 0x02 (if large then 0x40 else 0x30)
  .next (initStage 5 { s with power := { s.power with stackReady := true } })

/-- Mask of LPDDR6 channels whose devices are supported (Tables 10-2, 10-3). -/
def lpddrMask (l : LpddrFound) : Nat :=
  if l.density < 1 ∨ 5 < l.density ∨ l.ranks < 1 ∨ 2 < l.ranks ∨ l.rate < 1 ∨ 3 < l.rate then 0 else l.mask % 65536

/-- Every flash target lies within Table 11-1, alike on every trained channel, and the image names one of its rates. [DESIGN CHOICE: log 151] -/
def flashFits (s : State) (f : FlashFound) : Bool :=
  f.uniform && f.nvLpddr4 && decide (f.pageBytes = 16384) && decide (1792 ≤ f.spareBytes) && decide (flashRateMts (getF s 0x7000 0x05) ≠ 0)
    && decide (1 ≤ f.targets) && decide (f.targets ≤ 8) && decide (1 ≤ f.luns) && decide (f.luns ≤ 4)
    && (decide (f.planes = 2) || decide (f.planes = 4)) && (decide (f.cellBits = 3) || decide (f.cellBits = 4))

/-- ROLE_REASON: the lowest code of Table 1-7 that applies to the population found; 0 when the check of R21 passes. -/
def roleReason (s : State) (l : LpddrFound) (f : FlashFound) : Nat :=
  let role := getF s 0x7C10 0x01
  let m := lpddrMask l
  let gib := getF s 0x2420 0x05
  let sets := if role = 0 then [0, 0x0F0F, 0xFFFF] else if role = 1 then [0xFFFF] else [0x0F0F, 0xFFFF]
  let least := if role = 0 then 0 else if role = 1 then 128 else 64
  if s.boot.config.isNone = true ∨ 2 < role then 1
  else if sets.contains m = false then 2
  else if m ≠ 0 ∧ l.uniform = false then 3
  else if role = 2 ∧ f.mask ≠ 0x00FF ∧ f.mask ≠ 0xFFFF then 4
  else if role = 2 ∧ flashFits s f = false then 5
  else if gib < least ∨ 512 < gib then 6
  else 0

/-- The LPDDR6 channels found are in service. -/
def useLpddr (l : LpddrFound) (s : State) : State :=
  let m := lpddrMask l
  let s := setF s 0x7C10 0x04 (if m = 0 then 0 else place m 31 16 + place l.density 15 8 + place l.ranks 7 0)
  let s := setF (setF s 0x2420 0x04 (if m = 0 then 0 else l.rate)) 0x2420 0x05 (lpddrBytes s / 2 ^ 30)
  let c : LpChannel := { trained := true, densityCode := l.density, ranks := l.ranks, refreshRate := 0, eccCount := 0, retrainedNs := s.now }
  { s with tier := { s.tier with channels := ((List.range 16).filter (fun n => nbit m n)).map (fun n => (n, c)) } }

/-- The flash channels found are in service and their rebuild begins (R246, R258, R260). [DEDUCED: log 25] -/
def useFlash (f : FlashFound) (s : State) : State :=
  let g : FlashGeometry :=
    { targets := f.targets, luns := f.luns, planes := f.planes, cellBits := f.cellBits, blocks := f.blocks, pages := f.pages, tProgUs := f.tProgUs,
      tReadUs := f.tReadUs, endurance := f.endurance, systemUnits := f.systemUnits }
  let s : State := { s with flash := { s.flash with geometry := g, channels := (List.range 16).filter (fun n => nbit f.mask n) } }
  let raw := flashRawGib s.flash
  let logical := flashLogicalGib raw (getF s 0x2420 0x05)
  let s := setF (setF (setF s 0x7000 0x02 raw) 0x7000 0x03 logical) 0x7000 0x04 logical
  let s := setF s 0x7000 0x06 (place f.cellBits 31 28 + place f.planes 27 24 + place f.luns 23 20 + place f.targets 19 16 + place f.tProgUs 15 0)
  let s := setF s 0x7000 0x07 f.tReadUs
  setF (setF s 0x7020 0x02 (flashDirtyCap s / 1024)) 0x7000 0x01 1

/-- LPDDR6 and flash are trained and filled, and the role is set (R21). -/
def trainLpddr (l : LpddrFound) (f : FlashFound) (s : State) : State :=
  let s := useLpddr l s
  let cache := decide (getF s 0x7C10 0x01 = 2) && s.boot.config.isSome
  let s := if cache then setF s 0x7C10 0x05 (place f.mask 31 16 + place f.targets 15 8) else s
  let s := if cache ∧ flashFits s f = true ∧ 0 < f.mask then useFlash f s else s
  let c := roleReason s l f
  let s := setF (setF s 0x7C10 0x02 (if c = 0 then getF s 0x7C10 0x01 else 0xFF)) 0x7C10 0x03 c
  startBypasses (initStage 8 { s with power := { s.power with lpddrReady := true } })

/-- LPDDR6_TRAINING_COMPLETE (R21): LPDDR6 and, in the cache role, flash are trained and filled, and the role is set. -/
def execLpddr6TrainingComplete (t : Nat) (l : LpddrFound) (f : FlashFound) (s : State) : Outcome State Fault Refusal :=
  let s := atTime t s
  if s.power.phase ≠ .running ∨ nbit (getF s 0x7820 0x01) 3 = false ∨ s.power.lpddrReady = true then .next s else .next (trainLpddr l f s)

/-! ### Host port (R454, R457) -/

/-- An address of the host region windows. -/
def inHost (a : Nat) : Bool := decide (0x800000000000 ≤ a) && decide (a < 0x900000000000)

/-- A transfer moves bytes of host memory. -/
def hostTransfer (x : Transfer) : Bool := x.moves.any (fun m => inHost m.src || inHost m.dst)

/-- Jobs that a valid HOST_USE names. -/
def hostJobs (s : State) : List Nat :=
  (((List.range 16).map (fun r => getF s 0x2443 r)).filter (fun v => nbit v 7)).map (fun v => v % 64) |>.eraseDups

/-- A device access to host memory completes without having been served. [DEDUCED: log 34] -/
def hostFails (status : Nat) (s : State) : State := emit s (.completion 0 status [])

/-- What perst_n does (R457). [DEDUCED: log 34] -/
def assertPerst (s : State) : State :=
  let n := (s.quires.map (fun q => q.2.transfers.countP hostTransfer)).foldl (· + ·) 0
  let s := (List.range n).foldl (fun s _ => hostFails 0xC s) s
  let s : State := { s with boot := { s.boot with pcieL0 := false } }
  let s := (hostJobs s).foldl (fun s j => tearDown s j .port true) s
  let f := (List.range 3).foldl (fun m k => tdel m (folioKey 0x7C20 k)) s.dict.folios
  { s with dict := { s.dict with folios := f } }

/-- PERST_ASSERT (R457). -/
def execPerstAssert (t : Nat) (s : State) : Outcome State Fault Refusal :=
  let s := atTime t s
  .next (assertPerst s)

/-- Restarts that waited for the port go on (R457): a joint job's at the next route epoch. -/
def portRestart (s : State) (j : Nat) : State :=
  if (job s j).wait ≠ .port then s
  else if (job s j).joint then modJob s j (fun x => { x with wait := .epoch })
  else restartJob s j

/-- PCIE_L0_REACHED (R457): the port runs at `rate` (1 to 6), `width` lanes, with or without flit mode; `unmasked` are the
vectors that the host leaves unmasked in the MSI-X table. -/
def execPcieL0Reached (t rate width : Nat) (flit : Bool) (unmasked : List Nat) (s : State) : Outcome State Fault Refusal :=
  let s := atTime t s
  if s.power.phase ≠ .running then .next s else
  let s : State := { s with boot := { s.boot with pcieL0 := true, unmasked := unmasked } }
  let s := setF s 0x7C20 0x00 (place 1 31 31 + place (b2n flit) 30 30 + place rate 29 26 + place width 25 21)
  .next ((jobNumbers s).foldl portRestart s)

/-- HOST_READ_TIMEOUT (R454): a device read of host memory ends with status 0xA, and its master acts as Table 12-9 gives. [DEDUCED: log 34] -/
def execHostReadTimeout (t : Nat) (who : HostReader) (s : State) : Outcome State Fault Refusal :=
  let s := atTime t s
  match who with
  | .quire id =>
    match (quire s id).job, (quire s id).transfers.find? hostTransfer with
    | some j, some x =>
      let s := modSeq s id (fun q => { q with transfers := q.transfers.erase x })
      .next (failMaster (hostFails 0xA s) (masterOf 0 id) j 0xA none 0)
    | _, _ => .next s
  | .swapIn sig =>
    if (sigE s sig).state ≠ .swappingIn then .next s else
    let j := (sigE s sig).job.toNat
    .next (tearDownJob (voidStep (logErr (incF (hostFails 0xA s) 0x243E j) 0x38 0 0 (some j) ((sigA s sig).handoffGroups.headD 0) 0) j) j)
  | .control => .next (hostFails 0xA s)

/-! ### Updates (R462) -/

/-- Action of a write to folio 0x7C40.02: the slot of the kind that is not in use since the last reset is to be written. [DEDUCED: log 21] -/
def updateAction (kind : Nat) (s : State) : State :=
  let used := if kind = 1 then s.boot.firmware.map (fun x => x.1) else s.boot.config.map (fun x => x.1)
  let k := if kind = 1 then 0 else 2
  let u : UpdateRun := { kind := kind, slot := if used = some k then k + 1 else k }
  setF { s with boot := { s.boot with update := some u } } 0x7C40 0x03 1

/-- UPDATE_COMPLETE (R462): `image` is what was read at folio 0x7C40.01; `readBack` says whether the digest read back from the slot is
right. -/
def execUpdateComplete (t : Nat) (image : BootImage) (readBack : Bool) (s : State) : Outcome State Fault Refusal :=
  let s := atTime t s
  match s.boot.update with
  | none => .next s
  | some u =>
    let i := { image with info := { image.info with readOk := image.info.readOk && ownReadable s (getF s 0x7C40 0x01) none } }
    let c := bootCode u.kind i
    let s : State := { s with boot := { s.boot with update := none } }
    if c ≠ 0 then .next (setF s 0x7C40 0x03 (0x10 + c))
    else
      let held := if readBack then i else { i with info := { i.info with bodyHash := i.info.bodyDigest + 1 } }
      let s : State := { s with boot := { s.boot with slots := tput s.boot.slots u.slot held } }
      .next (setF s 0x7C40 0x03 (if readBack then 2 else 0x15))

/-! ### Attestation (R465) -/

/-- A number as bytes of the quote body. -/
def qbytes (n v : Nat) : List Byte := toBytesLE n v

/-- The quote body (Table 21-8). [DEDUCED: log 35] -/
def quoteBody (s : State) : List Byte :=
  let jb := getF s 0x7C30 0x04
  let img := if jb < 64 then (job s jb).image else none
  let section_ := img.isSome
  let words (idx n : Nat) : List Byte := (List.range n).flatMap (fun k => qbytes 8 (getF s idx k))
  let kem := match s.boot.seed with
    | some k => shake256 (kemKeyBytes k) 32
    | none => List.replicate 32 0
  let (iid, idig) : Nat × Nat := match img with
    | some i => (i.info.imageId, i.info.bodyDigest.toNat)
    | none => (0, 0)
  qbytes 4 1 ++ qbytes 4 (b2n section_ + 2 * b2n (nbit (getF s 0x7C50 0x01) 0)) ++ qbytes 8 (getF s 0x1000 0x05) ++ words 0x7C30 4
    ++ qbytes 8 s.now ++ qbytes 4 (getF s 0x6400 0x03) ++ qbytes 4 (getF s 0x1000 0x01) ++ qbytes 2 (getF s 0x1000 0x02)
    ++ qbytes 1 (getF s 0x7810 0x01) ++ qbytes 1 (roleActive s) ++ qbytes 4 (getF s 0x1000 0x06) ++ qbytes 4 (getF s 0x1000 0x07)
    ++ qbytes 2 (ownEndpoint s) ++ qbytes 2 0 ++ words 0x7C01 4 ++ words 0x7C02 4 ++ words 0x7C03 4 ++ kem ++ qbytes 4 (getF s 0x1010 0x02)
    ++ qbytes 1 (if section_ then jb else 0xFF) ++ qbytes 3 0 ++ qbytes 4 iid ++ qbytes 32 idig ++ qbytes 4 0

/-- Action of QUOTE_COMMAND 0x01: the body appears at once and signing starts; without a seed the quote is refused (R463). -/
def quoteAction (s : State) : State :=
  if s.boot.seed.isNone then setF s 0x7C30 0x07 4
  else
    let b := quoteBody s
    let s := setWords s 0x7C31 32 (ofBytesLE b)
    setF { s with boot := { s.boot with quote := some (b, getF s 0x7C30 0x05) } } 0x7C30 0x07 1

/-- Write bytes at a fabric address: directly where it is this package's own (R456), else as STOREs of at most 4 KiB by the control
plane; false when the write is refused. -/
def writeFabric (s : State) (addr : Nat) (jb : Option Nat) (bs : List Byte) : State × Bool :=
  let e := addr / 2 ^ 48
  let o := addr % 2 ^ 48
  if e = ownEndpoint s then
    if ownReadable s addr jb ∧ ownReadable s (addr + bs.length - 1) jb then (writeBytes s o bs, true) else (s, false)
  else
    (msgPieces (o % 4096) bs.length).foldl (fun r p =>
      match issue r.1 2 e 0 4 0 0 (o + p.1) p.2 0 true ((bs.drop p.1).take p.2) none with
      | (s, none) => (s, r.2)
      | (s, some _) => (s, false)) (s, true)

/-- QUOTE_SIGNED (R465): body and signature are written; `refused` is what another package answered. -/
def execQuoteSigned (t : Nat) (refused : Bool) (s : State) : Outcome State Fault Refusal :=
  let s := atTime t s
  match s.boot.quote, s.boot.seed with
  | some (b, addr), some k =>
    let s : State := { s with boot := { s.boot with quote := none } }
    let jb := getF s 0x7C30 0x04
    let (s, ok) := writeFabric s addr (if jb < 64 then some jb else none) (b ++ (List.range 35664).map (Config.attestSign k b))
    .next (setF s 0x7C30 0x07 (if ok ∧ refused = false then 2 else 3))
  | _, _ => .next s

/-! ### JTAG (R466, R467) -/

/-- TAP_EXTEST (R466): a boundary-scan instruction is loaded while the package is out of reset. [DEDUCED: log 33] -/
def execTapExtest (t : Nat) (s : State) : Outcome State Fault Refusal :=
  let s := atTime t s
  if s.power.phase ≠ .running then .next s
  else
    let s := stopPackage s
    .next { s with power := { s.power with tapLoaded := true } }

/-- TAP_INSTRUCTION_EXIT (R466): a reset of kind PIN. -/
def execTapInstructionExit (t : Nat) (s : State) : Outcome State Fault Refusal :=
  let s := atTime t s
  if s.power.tapLoaded then .next (enterReset 3 { s with power := { s.power with tapLoaded := false } }) else .next s

/-- IJTAG_ACCESS (R467): instruments 0 PLL lock and clock status, 1 sensors, 2 critical-path monitors and 3 eye monitors always answer;
4 memory BIST and 5 memory read only with the debug instruments enabled. [DEDUCED: log 33] -/
def execIjtagAccess (t instrument : Nat) (s : State) : Outcome State Fault Refusal :=
  let s := atTime t s
  let answers := decide (s.power.phase ≠ .off) && (decide (instrument < 4) || (decide (instrument < 6) && nbit (getF s 0x7C50 0x01) 0))
  .next (emit s (.ijtag instrument answers))

end Sys2Proof.Machine
end

