-- ==== Sys2Proof/Machine/Kettle.lean ====
section
/-! DEFINITION. The kettle (chapter 18): heartbeats, notes, suspicion, verdicts and what applying one does. -/

namespace Sys2Proof.Machine

open Host

/-! ### Notes (R379, R381) -/

/-- This package's incarnation, folio 0x6400.03. -/
def incarnation (s : State) : Nat := getF s 0x6400 0x03

/-- Transmitters may carry words: the package is in service. -/
def speaking (s : State) : Bool := decide (s.power.phase = .running) && !s.link.dark

/-- A kettle word of NOTE `note` arrives (R379): RSVD bits or an unknown NOTE make it a check failure; `f` acts on its body. -/
def kettleWord (t l : Nat) (w : BitVec 256) (note : Nat) (f : State → State) (s : State) : State :=
  recvWord (atTime t s) l w 4 linkLive (fun s =>
    if fld w 117 96 ≠ 0 ∨ 5 ≤ fld w 239 236 then incF s 0x4805 l
    else if fld w 239 236 ≠ note then s else f s)

/-- A flooded note (R381): accepted from a peer of this volume when not seen in the last 16 ms; acted on, then sent on every such link
except the one it arrived on. -/
def floodedNote (t l : Nat) (w : BitVec 256) (note : Nat) (act : State → State) (s : State) : State :=
  kettleWord t l w note (fun s =>
    let o := fld w 235 220
    let id := fld w 203 188
    if volumeOf (linkOf s l).peerEndpoint ≠ volumeOf (ownEndpoint s) then s
    else if (freshNotes s).any (fun n => decide (n.1 = o) && decide (n.2.1 = id)) then s
    else
      let s := act { s with kettle := { s.kettle with notes := freshNotes s ++ [(o, id, s.now)] } }
      if speaking s then
        ((noteLinks s).filter (fun k => decide (k ≠ l))).foldl (fun s k => sendWord s k 4 (place (fld w 239 96) 239 96)) s
      else s) s

/-! ### Applying a verdict (R386, R388) -/

/-- Links to a dead subject: 8–63 are FENCED, 0–7 are fenced logically (R388). -/
def linksDead (s : State) (e : Nat) : State :=
  let hit := tkeys s.link.links (fun _ x => decide (x.peerEndpoint = e) && !decide (x.mode = .fenced))
  let s := hit.foldl (fun s l => if 8 ≤ l then fenceLink s l else if (linkOf s l).mode = .disabled then s else enterDown s l) s
  let keep := s.kettle.logical.filter (fun f => decide (f.1 ≠ e))
  { s with kettle := { s.kettle with logical := keep ++ [(e, s.now + getF s 0x6400 0x04 * 1000000)] } }

/-- Members of a joint job's scope (R393): the ring list, or the binding. -/
def scopeMembers (s : State) (j : Nat) : List Nat := match (job s j).plan with
  | some p => p.members
  | none => bindingPeers s

/-- Joint jobs of which an endpoint is a member are torn down, with TEARDOWN flooded. -/
def teardownJoint (s : State) (e : Nat) : State :=
  ((jobNumbers s).filter (fun j => (job s j).joint && (scopeMembers s j).contains e)).foldl tearDownJob s

/-- The ADOPTERS list of a package names this one, for a job it runs alone (R386, R399). -/
def adoptsFor (s : State) (j e : Nat) : Bool :=
  let v := tget 0 (imageOf s j).adopters e
  decide ((job s j).mode = .running) && !((job s j).joint)
    && [nfld v 15 0, nfld v 31 16, nfld v 47 32, nfld v 63 48].contains (ownEndpoint s)

/-- Own suspicion of a subject and what was heard about it are cleared. -/
def dropSuspicion (s : State) (e : Nat) : State :=
  { s with kettle := { s.kettle with suspicions := s.kettle.suspicions.filter (fun x => decide (x.subject ≠ e)),
                                     heard := s.kettle.heard.filter (fun x => decide (x.2.1 ≠ e)) } }

/-- Step 1 of R386: the dead table holds the 64 latest verdicts, and traffic of the subject is discarded from now on. [DESIGN CHOICE: log 37] -/
def enterDead (s : State) (e inc : Nat) : State :=
  let d := s.kettle.dead ++ [(e, inc)]
  let k := { s.kettle with dead := d.drop (d.length - 64), applying := true,
                           discard := s.kettle.discard.filter (fun x => decide (x.1 ≠ e)) ++ [(e, inc)] }
  incF { s with kettle := k } 0x6401 0x03

/-- A verdict is applied (R386), its steps in order. It opens a route epoch (R282). [DESIGN CHOICE: log 37] -/
def applyDead (s : State) (e inc : Nat) : State :=
  let s := enterDead (dropSuspicion s e) e inc
  let s := fabricDead s e
  let s := spansDead (tiersDead (handoffsDead s e) e) e
  let s := linksDead s e
  let s := teardownJoint s e
  let mine := (jobNumbers s).any (fun j => adoptsFor s j e)
  let adopt := if mine then s.kettle.adopt.filter (fun x => decide (x.1 ≠ e)) ++ [(e, inc)] else s.kettle.adopt
  noteChange { s with kettle := { s.kettle with applying := false, adopt := adopt } }

/-! ### Suspicion and verdict (R382 to R385) -/

/-- This package suspects a subject with an incarnation. [DEDUCED: log 36] -/
def suspicionOf (s : State) (e inc : Nat) : Option Suspicion :=
  s.kettle.suspicions.find? (fun x => decide (x.subject = e) && decide (x.incarnation = inc))

/-- N of R384: packages with a link to the subject at the last route epoch that are not declared dead. -/
def neighboursOf (s : State) (e : Nat) : List Nat :=
  let l := s.kettle.topology.filterMap (fun p => if p.1 = e then some p.2 else if p.2 = e then some p.1 else none)
  ((ownEndpoint s :: l).eraseDups).filter (fun x => !(isDead s x))

/-- No verdict (R385): the links to the subject are fenced as units. The spec gives the log entry no cause code. [DESIGN CHOICE: log 26] -/
def noVerdict (s : State) (e : Nat) : State :=
  let s := dropSuspicion s e
  let ls := linksIn s (fun m => linkLive m || decide (m = .retrain))
  let s := (ls.filter (fun l => decide ((linkOf s l).peerEndpoint = e))).foldl (fun s l => fence s (unitLink l) 6) s
  incF (draw (logErr s (freshOf s % 256) 0 1 none e 0)) 0x6401 0x04

/-- The majority of R384 is tested; a verdict reached here is flooded, counted and applied. -/
def evaluate (s : State) (e : Nat) : State := match s.kettle.suspicions.find? (fun x => decide (x.subject = e)) with
  | none => s
  | some x =>
    let n := neighboursOf s e
    let v := (n.filter (fun k => x.voters.contains k || decide (k = ownEndpoint s))).length
    if n.length / 2 < v then applyDead (incF (floodNote s 3 e x.incarnation 0 0) 0x6401 0x02) e x.incarnation else s

/-- Links to a neighbour in another volume enter FENCED at once (R389). -/
def fenceForeign (s : State) (e : Nat) : State :=
  let ls := linksIn s (fun m => linkLive m || decide (m = .retrain))
  (ls.filter (fun l => decide ((linkOf s l).peerEndpoint = e))).foldl fenceLink s

/-- What is known of a neighbour; nothing has been heard of one not listed. [DEDUCED: log 36] -/
def neighbourOf (s : State) (e : Nat) : Neighbour := tget { incarnation := 0, pulseNs := 0, seenNs := none, suspectNs := none } s.kettle.neighbours e

/-- This package suspects a neighbour: SUSPECT is flooded, and the notes heard before count. [DEDUCED: log 169] -/
def suspect (s : State) (e : Nat) : State :=
  let inc := (neighbourOf s e).incarnation
  let s := incF s 0x6401 0x01
  if volumeOf e ≠ volumeOf (ownEndpoint s) then
    let n := neighbourOf s e
    fenceForeign { s with kettle := { s.kettle with neighbours := tput s.kettle.neighbours e { n with suspectNs := some s.now } } } e
  else
    let s := floodNote s 1 e inc 0 0
    let votes := (s.kettle.heard.filter (fun x => decide (x.2.1 = e) && decide (x.2.2.1 = inc))).map (fun x => x.1)
    let x : Suspicion := { subject := e, incarnation := inc, sinceNs := s.now, voters := votes, seen := false }
    evaluate { s with kettle := { s.kettle with suspicions := s.kettle.suspicions ++ [x] } } e

/-- SUSPECT_TIMEOUT (R382): no good PULSE from a neighbour for folio 0x6400.02 µs. [DEDUCED: log 169] -/
def execSuspectTimeout (t subject : Nat) (s : State) : Outcome State Fault Refusal :=
  let s := atTime t s
  let linked := s.kettle.epochLinks.any (fun x => decide (x.2 = subject))
  let silent := decide ((neighbourOf s subject).pulseNs + getF s 0x6400 0x02 * 1000 ≤ s.now)
  let again := s.kettle.suspicions.any (fun x => decide (x.subject = subject))
    || s.kettle.dead.contains (subject, (neighbourOf s subject).incarnation) || (neighbourOf s subject).suspectNs.isSome
  if speaking s = false ∨ linked = false ∨ silent = false ∨ again = true then .next s else .next (suspect s subject)

/-- VERDICT_TIMEOUT (R385): 1 ms since the own suspicion. -/
def execVerdictTimeout (t subject : Nat) (s : State) : Outcome State Fault Refusal :=
  let s := atTime t s
  if s.kettle.suspicions.any (fun x => decide (x.subject = subject) && decide (x.sinceNs + 1000000 ≤ s.now)) then .next (noVerdict s subject)
  else .next s

/-! ### Heartbeats (R380) -/

/-- PULSE_TIMER (R380): a PULSE on every link in UP or ACTIVE. -/
def execPulseTimer (t : Nat) (s : State) : Outcome State Fault Refusal :=
  let s := atTime t s
  if speaking s = false then .next s else
  let body := place (ownEndpoint s) 235 220 + place (incarnation s) 187 156
  .next ((linksIn s linkLive).foldl (fun s l => sendWord s l 4 body) s)

/-- A good PULSE of a neighbour (R380): another incarnation than the dead one ends the discarding of its traffic (R386), and a link that
came back to the dead incarnation is FENCED again (R388). [DEDUCED: log 36, 169] -/
def takePulse (l e inc : Nat) (s : State) : State :=
  let n := neighbourOf s e
  let back := s.kettle.discard.any (fun x => decide (x.1 = e) && decide (x.2 ≠ inc))
  let k := { s.kettle with neighbours := tput s.kettle.neighbours e { n with incarnation := inc, pulseNs := s.now, suspectNs := none }, lastPulseNs := s.now,
                           discard := if back then s.kettle.discard.filter (fun x => decide (x.1 ≠ e)) else s.kettle.discard }
  let s : State := { s with kettle := k }
  let s : State := if back then
      { s with fabric := { s.fabric with deadEndpoints := s.fabric.deadEndpoints.filter (fun x => decide (x ≠ e)) } }
    else s
  if 8 ≤ l ∧ s.kettle.dead.contains (e, inc) = true ∧ volumeOf e = volumeOf (ownEndpoint s) then fenceLink s l else s

/-- PULSE (R380). -/
def execPulse (t link : Nat) (word : BitVec 256) (s : State) : Outcome State Fault Refusal :=
  .next (kettleWord t link word 0 (takePulse link (fld word 235 220) (fld word 187 156)) s)

/-! ### Notes that arrive -/

/-- SEEN is flooded for a subject that was heard within 200 µs, at most once in any 200 µs (R383). -/
def answerSeen (s : State) (e inc : Nat) : State := match tfind s.kettle.neighbours e with
  | none => s
  | some n =>
    let due := match n.seenNs with
      | some t => decide (t + 200000 ≤ s.now)
      | none => true
    if n.incarnation = inc ∧ s.now ≤ n.pulseNs + 200000 ∧ due = true then
      floodNote { s with kettle := { s.kettle with neighbours := tput s.kettle.neighbours e { n with seenNs := some s.now } } } 2 e inc 0 0
    else s

/-- SUSPECT from an origin (R383, R384). [DEDUCED: log 36] -/
def hearSuspect (o e inc : Nat) (s : State) : State :=
  let s := answerSeen s e inc
  let s : State := { s with kettle := { s.kettle with
    heard := s.kettle.heard.filter (fun x => !(decide (x.1 = o) && decide (x.2.1 = e))) ++ [(o, e, inc, s.now)],
    suspicions := s.kettle.suspicions.map (fun x => if x.subject = e ∧ x.incarnation = inc then
      { x with voters := if x.voters.contains o then x.voters else x.voters ++ [o] } else x) } }
  if (suspicionOf s e inc).isSome then evaluate s e else s

/-- SUSPECT (R384). -/
def execSuspect (t link : Nat) (word : BitVec 256) (s : State) : Outcome State Fault Refusal :=
  .next (floodedNote t link word 1 (hearSuspect (fld word 235 220) (fld word 219 204) (fld word 187 156)) s)

/-- SEEN (R383): no verdict is reached about a subject that another package still hears (R385). -/
def execSeen (t link : Nat) (word : BitVec 256) (s : State) : Outcome State Fault Refusal :=
  .next (floodedNote t link word 2 (fun s =>
    if (suspicionOf s (fld word 219 204) (fld word 187 156)).isSome then noVerdict s (fld word 219 204) else s) s)

/-- The verdict names this package: it makes it true (R387). -/
def dieBy (s : State) : State := enterReset 5 s

/-- A DEAD note acts once for a subject and incarnation (R386, R387, Table 18-5), and within the volume of its subject alone (R389). -/
def hearDead (e inc : Nat) (s : State) : State :=
  if e = ownEndpoint s then (if inc = incarnation s then dieBy s else s)
  else if s.kettle.dead.contains (e, inc) ∨ volumeOf e ≠ volumeOf (ownEndpoint s) then s
  else applyDead s e inc

/-- DEAD (R386). -/
def execDead (t link : Nat) (word : BitVec 256) (s : State) : Outcome State Fault Refusal :=
  .next (floodedNote t link word 3 (hearDead (fld word 219 204) (fld word 187 156)) s)

/-- ISOLATION_TIMEOUT (R387, R15): 2 ms without a good PULSE on any link of a package that has one. [DEDUCED: log 36] -/
def execIsolationTimeout (t : Nat) (s : State) : Outcome State Fault Refusal :=
  let s := atTime t s
  let old := tkeys s.link.links (fun _ x => linkLive x.mode && decide (x.sinceNs + 2000000 ≤ s.now))
  let failedLong := s.err.failed && decide (s.err.failedNs + 2000000 ≤ s.now)
  if s.power.phase = .running ∧ (0 < s.kettle.lastPulseNs ∨ old ≠ [] ∨ failedLong = true) ∧ s.kettle.lastPulseNs + 2000000 ≤ s.now then
    .next (dieBy s)
  else .next s

/-- TEARDOWN (R393): a joint job of that image is torn down here; the note is forwarded. -/
def execTeardown (t link : Nat) (word : BitVec 256) (s : State) : Outcome State Fault Refusal :=
  .next (floodedNote t link word 4 (fun s =>
    let j := fld word 123 118
    if runsImage s j (fld word 155 124) = true ∧ (job s j).joint = true then tearDown s j .restart false else s) s)

end Sys2Proof.Machine
end

