-- ==== Sys2Proof/Machine/Epoch.lean ====
section
/-! DEFINITION. The route epoch (R282): routes and path delays, links that return to service, ring plans, joint restarts and adoptions. -/

namespace Sys2Proof.Machine

open Host

/-! ### Routes (R282, R283) -/

/-- A link in RETRAIN stays in its routes (R320). -/
def routable (m : LinkMode) : Bool := linkLive m || decide (m = .retrain)

/-- Links of this package in UP, ACTIVE or RETRAIN, with the delays measured (R319). -/
def ownEdges (s : State) : List LinkEdge :=
  (linksIn s routable).map (fun l => { source := ownEndpoint s, link := l, peer := (linkOf s l).peerEndpoint, delayNs := getF s 0x4803 l })

/-- All links of the volume and its neighbours; what the agent says of this package's own links is not used. -/
def allEdges (s : State) (v : EpochView) : List LinkEdge := ownEdges s ++ v.edges.filter (fun e => decide (e.source ≠ ownEndpoint s))

/-- The better of two routes from one package: less delay, then the lower outgoing link number. [DEDUCED: log 40] -/
def betterRoute (a b : Route) : Route :=
  if b.delayNs < a.delayNs ∨ (b.delayNs = a.delayNs ∧ b.link < a.link) then b else a

/-- A route to `dest` that begins with a link: 150 ns for each package that forwards (R283). The 200 ns of the path stand in the routes
kept so far. -/
def routeOver (best : Tbl Route) (dest : Nat) (e : LinkEdge) : Option Route :=
  if e.peer = dest then some { delayNs := e.delayNs + 200, hops := 1, link := e.link, path := [e] }
  else (tfind best e.peer).map (fun r => { delayNs := e.delayNs + 150 + r.delayNs, hops := r.hops + 1, link := e.link, path := e :: r.path })

/-- One round over all links: the best route known from every package to `dest`. -/
def routeRound (edges : List LinkEdge) (dest : Nat) (best : Tbl Route) : Tbl Route :=
  edges.foldl (fun acc e => match routeOver best dest e with
    | none => acc
    | some r => tput acc e.source (match tfind acc e.source with
      | none => r
      | some q => betterRoute q r)) []

/-- Least-delay routes from every package to `dest`; as many rounds as there are packages are enough. [DEDUCED: log 40] -/
def routesTo (edges : List LinkEdge) (dest : Nat) : Nat → Tbl Route
  | 0 => []
  | n + 1 => routeRound edges dest (routesTo edges dest n)

/-- Packages that some link reaches. -/
def reachable (edges : List LinkEdge) (own : Nat) : List Nat := ((edges.map (fun e => e.peer)).eraseDups).filter (fun e => decide (e ≠ own))

/-- The routes of this package at an epoch. [DEDUCED: log 40] -/
def epochRoutes (s : State) (v : EpochView) : Tbl Route :=
  let edges := allEdges s v
  let dests := reachable edges (ownEndpoint s)
  dests.foldl (fun t d => match tfind (routesTo edges d (dests.length + 1)) (ownEndpoint s) with
    | some r => tput t d r
    | none => t) []

/-- New ordered requests to a destination whose route changed wait for the ordered requests outstanding there (R284). [DEDUCED: log 41] -/
def holdChanged (s : State) (old new : Tbl Route) : State :=
  let moved := old.filter (fun e => match tfind new e.1 with
    | some r => decide (r.path.map (fun l => (l.source, l.link)) ≠ e.2.path.map (fun l => (l.source, l.link)))
    | none => true)
  moved.foldl (fun s e =>
    if orderedOut s e.1 ∧ s.fabric.holding.contains e.1 = false then
      incF { s with fabric := { s.fabric with holding := s.fabric.holding ++ [e.1] } } 0x4032 0x02
    else s) s

/-! ### Links in service (Table 14-6) -/

/-- Links in UP enter ACTIVE; the delays in force are the ones measured. -/
def activate (s : State) : State :=
  let up := linksIn s (fun m => decide (m = .up))
  let s := up.foldl (fun s l => modLink s l (fun x => { x with mode := .active, sinceNs := s.now })) s
  (linksIn s linkLive).foldl (fun s l => modLink s l (fun x => { x with usedNs := getF s 0x4803 l })) s

/-- A transaction waiting in the transmit path of a link that no longer lies on its route. [DEDUCED: log 41] -/
def strayed (s : State) (l : Nat) (i : LinkItem) : Bool := match routeLink s (hDest i.header) with
  | some k => decide (k ≠ l)
  | none => false

/-- Transactions that wait on a link move to the link of their new route. [DEDUCED: log 41, 109] -/
def rerouteEgress (s : State) : State :=
  (linksIn s (fun _ => true)).foldl (fun s l =>
    let stray := (linkOf s l).egress.filter (strayed s l)
    let s := modLink s l (fun x => { x with egress := x.egress.filter (fun i => !(strayed s l i)) })
    stray.foldl (fun s i => routeOut s i.plane i.header i.payload) s) s

/-! ### Binding, restarts and adoption (R266, R394, R399) -/

/-- The binding lists are compared once, at the first route epoch after reset (R266). [DEDUCED: log 42] -/
def checkBinding (s : State) (differing : List Nat) : State :=
  if s.fabric.bindingChecked then s else
  let bad := (bindingPeers s).filter (fun e => differing.contains e)
  let s := bad.foldl (fun s e => logErr s 0x33 0 1 none e 0) s
  { s with fabric := { s.fabric with bindingChecked := true, bindingAlone := s.fabric.bindingAlone || decide (bad ≠ []) } }

/-- Ring number shown for a job by folio 0x3810.jj [23:16]: 0x00–0x03 for a ring, 0xFF for none. -/
def shownRing (s : State) (j : Nat) : Option Nat :=
  let r := nfld (getF s 0x3810 j) 23 16
  if r < 4 then some r else none

/-- The conditions on which a joint job restarts here (R184, R394). [DEDUCED: log 42] -/
def rejoins (s : State) (ready : List Nat) (j : Nat) : Bool := match shownRing s j with
  | some n => ready.contains j && (planOf s n).valid && (match s.span.ringJob.getD n none with
      | none => true
      | some k => decide (k = j)) && (planOf s n).members.all (fun e => decide (volumeOf e = volumeOf (ownEndpoint s)))
  | none => ready.contains j

/-- Joint jobs that wait for an epoch. -/
def waitingJobs (s : State) : List Nat := tkeys s.jobs (fun _ x => decide (x.mode = .tornDown) && decide (x.wait = .epoch))

/-- Joint jobs torn down restart at the first epoch at which their conditions hold (R394); a job of a ring waits for the plan of the
epoch (R192). [DEDUCED: log 140] -/
def rejoinJobs (s : State) (ready : List Nat) : State :=
  ((waitingJobs s).filter (fun j => (shownRing s j).isNone && rejoins s ready j)).foldl restartJob s

/-- Jobs of a ring restart on its new plan (R192, R394). [DEDUCED: log 140] -/
def rejoinRing (s : State) (n : Nat) (ready : List Nat) : State :=
  ((waitingJobs s).filter (fun j => decide (shownRing s j = some n) && rejoins s ready j)).foldl restartJob s

/-! ### Planning rings (R183) -/

/-- Packages met on a walk along links `l` of each package, from this one on, as far as links are in service. -/
def ringWalk (edges : List LinkEdge) (l : Nat) : Nat → List Nat → Nat → List Nat
  | 0, seen, _ => seen
  | fuel + 1, seen, e => match edges.find? (fun x => decide (x.source = e) && decide (x.link = l)) with
    | some x => if seen.contains x.peer then seen else ringWalk edges l fuel (seen ++ [x.peer]) x.peer
    | none => seen

/-- This package is the live member of ring n with the lowest endpoint number, and so plans it. -/
def plansRing (s : State) (v : EpochView) (n : Nat) : Bool :=
  let own := ownEndpoint s
  let l := ringWalk (allEdges s v) (2 * n) 16 (ringWalk (allEdges s v) (2 * n + 1) 16 [own] own) own
  decide (1 < l.length) && l.all (fun e => decide (own ≤ e))

/-- The share of each package declared dead since the last epoch is adopted (R399): its slots are to be read. -/
def beginAdoptions (s : State) : State :=
  let work := s.kettle.adopt.flatMap (fun a => ((jobNumbers s).filter (fun j => adoptsFor s j a.1)).map (fun j => (a.1, j)))
  { s with kettle := { s.kettle with adopt := [], adopting := s.kettle.adopting ++ work.filter (fun p => !(s.kettle.adopting.contains p)) } }

/-- What the kettle keeps of an epoch (R382, R384): this package's links, and which packages have links to which. -/
def noteEpoch (s : State) (v : EpochView) : State :=
  let links := (linksIn s linkLive).map (fun l => (l, (linkOf s l).peerEndpoint))
  { s with kettle := { s.kettle with epochLinks := links, topology := (allEdges s v).map (fun e => (e.source, e.peer)) } }

/-- A route epoch opens (R282). -/
def openEpoch (s : State) (v : EpochView) : State :=
  let s := incF { s with fabric := { s.fabric with epochDueNs := none } } 0x4000 0x04
  let new := epochRoutes s v
  let s := holdChanged s s.fabric.routes new
  let s := checkBinding { s with fabric := { s.fabric with routes := new } } v.differing
  let s := noteEpoch (rerouteEgress (activate s)) v
  let s := runLinks s
  let s := ((List.range 4).filter (plansRing s v)).foldl startPlan (rejoinJobs s v.bindingReady)
  beginAdoptions s

/-- When the epoch opens: 1 ms after the last change of link state or verdict in the volume, here or elsewhere. [DEDUCED: log 40] -/
def epochDue (s : State) (v : EpochView) : Option Nat := match s.fabric.epochDueNs, v.changedNs with
  | some d, some c => some (max d (c + 1000000))
  | some d, none => some d
  | none, some c => some (c + 1000000)
  | none, none => none

/-- An epoch of another volume: the routes to endpoints outside this volume are computed anew (R282). [DEDUCED: log 40] -/
def foreignEpoch (s : State) (v : EpochView) : State :=
  let inside (e : Nat × Route) : Bool := decide (volumeOf e.1 = volumeOf (ownEndpoint s))
  let new := s.fabric.routes.filter inside ++ (epochRoutes s v).filter (fun e => !(inside e))
  let new := new.foldl (fun t e => tput t e.1 e.2) []
  let s := holdChanged s s.fabric.routes new
  runLinks (rerouteEgress { s with fabric := { s.fabric with routes := new } })

/-- The delay of a link of a path moves in use where it has changed by more than 20 ns (R283). -/
def freshDelay (edges : List LinkEdge) (e : LinkEdge) : LinkEdge :=
  match edges.find? (fun x => decide (x.source = e.source) && decide (x.link = e.link)) with
  | some x => if e.delayNs + 20 < x.delayNs ∨ x.delayNs + 20 < e.delayNs then { e with delayNs := x.delayNs } else e
  | none => e

/-- Path delays follow the delays of their links (R283); paths stay. -/
def freshRoutes (s : State) (v : EpochView) : State :=
  let one (r : Route) : Route :=
    let p := r.path.map (freshDelay (allEdges s v))
    { r with delayNs := (r.delayNs + (p.map (fun e => e.delayNs)).sum) - (r.path.map (fun e => e.delayNs)).sum, path := p }
  { s with fabric := { s.fabric with routes := s.fabric.routes.map (fun e => (e.1, one e.2)) } }

/-- ROUTE_EPOCH (R282): 1 ms after the last change of link state or verdict in the volume; at an epoch of another volume the routes out of
this one are computed anew; otherwise changed link delays alone are taken over. [DEDUCED: log 40, 42] -/
def execRouteEpoch (t : Nat) (view : EpochView) (s : State) : Outcome State Fault Refusal :=
  let s := atTime t s
  if speaking s = false then .next s else
  match epochDue s view with
  | some d => .next (if d ≤ s.now then openEpoch s view else freshRoutes s view)
  | none => .next (if view.otherVolume then foreignEpoch s view else freshRoutes s view)

/-- RING_PLAN (R183): a frame arrives on the upstream link of its ring. A plan that completes may let jobs restart (R192, R394): `ready`
are those that start on every member. [DESIGN CHOICE: log 80] -/
def execRingPlan (t : Nat) (header : BitVec 512) (plan : PlanIn) (s : State) : Outcome State Fault Refusal :=
  let s := atTime t s
  if deadSource s (fld header 503 488) then .next (incF s 0x6401 0x05) else
  let n := fld header 295 294
  let l := (List.range (plan.members.length / 2)).map (fun k => ofBytesLE ((plan.members.drop (2 * k)).take 2))
  let own := ownEndpoint s
  if fld header 511 504 ≠ 0x20 ∨ fld header 293 293 = 0 ∨ fld header 252 221 ≠ plan.members.length ∨ plan.members.length % 2 = 1
    ∨ l = [] ∨ 16 < l.length then .next s
  else if l.contains own then
    if l.head? = some own then
      .next (if (planOf s n).planning then rejoinRing (sendPlan (completePlan s n l) n l) n plan.ready else s)
    else .next (rejoinRing (sendPlan (completePlan s n l) n l) n plan.ready)
  else if l.length = 16 then .next s
  else .next (sendPlan s n (l ++ [own]))

end Sys2Proof.Machine
end

