-- ==== Sys2Proof/Machine/Views.lean ====
section
/-! DEFINITION. Reading folios (R409, R410): the folios whose value is computed from the rest of the state, descriptors, and the value that
each interface sees. -/

namespace Sys2Proof.Machine

open Host

/-! ### Helpers -/

/-- The number whose bit k is set when `p k`, for k < n. -/
def bitsOf (n : Nat) (p : Nat → Bool) : Nat := ((List.range n).map (fun k => if p k then 2 ^ k else 0)).foldl (· + ·) 0

/-- 64-bit word k of a number. -/
def word64 (v k : Nat) : Nat := v / 2 ^ (64 * k) % 2 ^ 64

/-- Code of a wait or trap in a status word. -/
def waits (q : Sequencer) : Bool := decide (q.waiting ≠ .none)

/-! ### Identity, journal and descriptors -/

/-- A journal entry as 384 bits (Table 19-4). -/
def journalWord (e : JournalEntry) : Nat :=
  place e.timeNs 383 320 + place e.prior 319 256 + place e.value 255 192 + place e.seq 191 160 + place e.index 159 144 + place e.sub 143 136
  + place e.origin 135 120 + place e.source 119 116 + place e.result 115 108 + place (b2n e.sameCycle) 107 107

/-- JOURNAL_WORD n: the entry whose SEQ the interface selected; zero when it is not held (R414). -/
def journalView (s : State) (iface n : Nat) : Nat := match s.dict.journal.find? (fun e => decide (e.seq = getIf s iface 0x1010 0x04)) with
  | some e => word64 (journalWord e) (n - 1)
  | none => 0

/-- TYPE of a descriptor. -/
def typeCode (w : Nat) : Nat := if w = 8 then 1 else if w = 16 then 2 else if w = 32 then 3 else 4

/-- ACCESS of a descriptor. -/
def accessCode : FolioAccess → Nat
  | .ro => 1
  | .rw => 2
  | .rw1c => 3
  | .wo => 4
  | .rov => 5

/-- The four descriptor words of a folio (R409, Table 19-2): descriptor, reset value in force, least and greatest value; all zero where the
selector stands at its reset value (Table 19-11). [DESIGN CHOICE: log 16] -/
def descriptor (s : State) (idx sub n : Nat) : Nat := match folioRow idx sub with
  | none => if n = 0 ∨ folioKey idx sub = 0 then 0 else Config.unstated idx sub (n - 1) % 2 ^ 64
  | some r =>
    if n = 0 then
      place (typeCode r.width) 63 56 + place (accessCode r.access) 55 48 + place (b2n r.perInterface) 47 47 + place (b2n r.img) 46 46
      + place (b2n (tfind s.dict.overrides (folioKey idx sub)).isSome) 45 45 + place (b2n r.range.isSome) 44 44 + place (b2n r.ruled) 43 43
    else if n = 1 then resetValue s.dict idx sub
    else match r.range with
      | some (a, b) => if n = 2 then a else b
      | none => Config.unstated idx sub (n - 1) % 2 ^ 64

/-- Folios 0x1000 to 0x1030. -/
def viewIdentity (s : State) (iface idx sub : Nat) : Option Nat :=
  if idx = 0x1000 ∧ sub = 0x08 then some s.now
  else if idx = 0x1011 then some (journalView s iface sub)
  else if idx = 0x1030 ∧ 1 ≤ sub then
    let d := getIf s iface 0x1030 0x00
    some (descriptor s (nfld d 23 8) (nfld d 7 0) (sub - 1))
  else none

/-! ### Signatures, leaves, tiers and steps -/

/-- LOAN_ENTRY (Table 10-4) as 128 bits; zero for an entry not in use. -/
def loanWord (s : State) (e : Nat) : Nat := match tfind s.tier.loans e with
  | none => 0
  | some x =>
    place x.lender 127 112 + place x.kind 111 110 + place 1 109 109 + place (b2n x.recalled) 108 108 + place (b2n x.dead) 107 107
    + place (b2n x.bestEffort) 106 106 + place x.sizeGib 95 84 + place x.remoteBase 83 48 + place x.loanId 47 32 + place (loanUsedPages s e) 31 0

/-- TIPIN_PINNED: pinned counts in the lanes of the resident versions. -/
def pinnedWord (s : State) (ss : Nat) : Nat :=
  ((List.range 4).map (fun k =>
    let v := (tipinLanes s ss).getD k 0
    if v = 0 then 0 else pinCount s ss v % 65536 * 2 ^ (16 * k))).foldl (· + ·) 0

/-- The job that an interface views through folios 0x2060.09 and 0x2060.0A. -/
def peerJob (s : State) (iface : Nat) : Nat := getIf s iface 0x2060 0x0B

/-- Folios 0x2000 to 0x2FFF. -/
def viewSig (s : State) (iface idx sub : Nat) : Option Nat :=
  if idx = 0x2000 ∧ sub = 2 then some (sigInUse s)
  else if idx = 0x2400 ∧ sub = 3 then some (cwUsed s)
  else if idx = 0x2400 ∧ sub = 8 then some (b2n (decide (s.cw.sweeping ≠ [])))
  else if idx = 0x2021 then some (liveCount s sub)
  else if idx = 0x2040 ∧ 1 ≤ sub then some (word64 (tget 0 s.dict.snaps iface) (sub - 1))
  else if idx = 0x2060 ∧ sub = 0x09 then
    some (if (job s (peerJob s iface)).mode = .running then imageIdOf s (peerJob s iface) else 0)
  else if idx = 0x2060 ∧ sub = 0x0A then some (tget 0 s.dict.jobPeers (peerJob s iface))
  else if idx = 0x2404 then some (groupsFree s sub)
  else if idx = 0x2451 then some (word64 (loanWord s sub) 0)
  else if idx = 0x2452 then some (word64 (loanWord s sub) 1)
  else if idx = 0x280D then some (splitWord s sub)
  else if idx = 0x2823 then some (pinnedWord s sub)
  else none

/-! ### Quires, sequencers and columns -/

/-- Free staging units of a half (Table 5-8): the 152 of its banks 13 to 31, less those that memory of jobs that run steps takes. [DEDUCED: log 51] -/
def stagingFree (s : State) (h : Nat) : Nat :=
  let base := 0xF00080000000 + h * 0x10000000 + 0x6800000
  let held := ((List.range 64).filter (stepping s)).flatMap (fun j => (imageOf s j).memory)
  (List.range 152).countP (fun k => !(held.any (fun r => overlaps (base + k * 2 ^ 20) (2 ^ 20) r.1 r.2)))

/-- QUIRE_STATUS. -/
def quireStatus (s : State) (q : Nat) : Nat :=
  let x := quire s q
  place (b2n x.job.isSome) 15 15 + place (b2n (fencedU s (unitQuire q))) 14 14 + place (b2n x.mismatch) 13 13 + place (x.job.getD 0) 5 0

/-- SEQ_STATUS. -/
def seqStatus (s : State) (q : Nat) : Nat :=
  let x := quire s q
  place (b2n x.running) 31 31 + place (b2n x.frozen) 30 30 + place (b2n x.trap.isSome) 29 29 + place (b2n (waits x)) 28 28
    + place (x.trap.getD 0) 27 20 + place x.sp 11 0

/-- The init engine has left reset and the next reset has not begun: initialisation and what follows it. -/
def initialised (s : State) : Bool := s.power.phase ∈ [PowerPhase.running, .entry, .failing]

/-- COLUMN_STATUS; columns whose number is a multiple of 16 are wide, which initialisation sets. -/
def columnStatus (s : State) (c : Nat) : Nat :=
  let g := gutter s c
  let x := g.seq
  place (b2n x.job.isSome) 31 31 + place (b2n (fencedU s (unitColumn c))) 30 30 + place (b2n x.running) 29 29
    + place (b2n (decide (g.held ≠ []))) 28 28 + place (b2n g.refreshPause) 27 27 + place (b2n x.mismatch) 26 26
    + place (b2n x.trap.isSome) 25 25 + place (x.job.getD 0) 24 19 + place (x.trap.getD 0) 18 11 + place (b2n (initialised s && decide (c % 16 = 0))) 10 10
    + place x.sp 9 0

/-- Four steer registers from 4n on, the first in the low bits (R138). -/
def steerWord (l : List Nat) (n : Nat) : Nat := ((List.range 4).map (fun k => l.getD (4 * n + k) 0 % 65536 * 2 ^ (16 * k))).foldl (· + ·) 0

/-- Folios 0x3000 to 0x37FF. -/
def viewUnits (s : State) (idx sub : Nat) : Option Nat :=
  if idx = 0x3000 then
    if sub = 2 then some (bitsOf 64 (fun k => quireFree s k))
    else if sub = 3 then some (bitsOf 64 (fun k => quireFree s (64 + k)))
    else if sub = 4 then some (bitsOf 64 (fun k => fencedU s (unitQuire k)))
    else if sub = 5 then some (bitsOf 64 (fun k => fencedU s (unitQuire (64 + k)))) else none
  else if idx = 0x3001 then some (bitsOf 64 (fun k => (job s sub).quires.contains k))
  else if idx = 0x3002 then some (bitsOf 64 (fun k => (job s sub).quires.contains (64 + k)))
  else if idx = 0x3003 then some (job s sub).quires.length
  else if idx = 0x3010 then some (quireStatus s sub)
  else if idx = 0x3020 then some (stagingFree s sub)
  else if idx = 0x3110 then some (seqStatus s sub)
  else if 0x3120 ≤ idx ∧ idx ≤ 0x3123 then some (steerWord (job s sub).steer0 (idx - 0x3120))
  else if 0x3124 ≤ idx ∧ idx ≤ 0x3127 then some (steerWord (job s sub).steer1 (idx - 0x3124))
  else if idx = 0x3400 ∧ sub = 6 then some (bitsOf 64 (bundleFree s))
  else if idx = 0x3401 then some (bitsOf 64 (fun k => (job s sub).columns.contains (16 * k)))
  else if idx = 0x3402 then some (job s sub).columns.length
  else if 0x3410 ≤ idx ∧ idx ≤ 0x3413 then some (columnStatus s ((idx - 0x3410) * 256 + sub))
  else none

/-! ### Fabric, queues and links -/

/-- Code of STATE of a translation entry. -/
def xlateCode : XlateState → Nat
  | .active => 0
  | .draining => 1
  | .ending => 2

/-- A translation entry as 256 bits (Table 12-7). -/
def xlateWord (e : XlateEntry) : Nat :=
  place e.base 255 220 + place e.pagesM1 219 192 + place e.target 191 156 + place e.srcEndpoint 155 140 + place e.srcMask 139 124
  + place e.srcJob 123 118 + place (b2n e.anyJob) 117 117 + place e.ownerJob 116 111 + place (b2n e.firmware) 110 110 + place e.masters 109 104
  + place (b2n e.read) 103 103 + place (b2n e.write) 102 102 + place (b2n e.atomic) 101 101 + place (b2n e.valid) 100 100
  + place (xlateCode e.state) 99 98 + place e.refusals 31 0

/-- An outbound entry as 128 bits (Table 12-2). -/
def outWord (e : OutEntry) : Nat :=
  place e.endpoint 127 112 + place e.offsetBase 111 64 + place e.ownerJob 63 58 + place (b2n e.firmware) 57 57 + place (b2n e.cacheable) 56 56
  + place (b2n e.ordered) 55 55 + place (b2n e.valid) 54 54

/-- QUARANTINE. -/
def quarantineWord (s : State) (k : Nat) : Nat := match tfind s.fabric.quarantine k with
  | some q => place 1 63 63 + place q.source 47 32 + place q.srcJob 31 26 + place q.master 15 0
  | none => 0

/-- Code of STATE of a region entry. -/
def regionCode : RegionMode → Nat
  | .free => 0
  | .active => 1
  | .draining => 2
  | .revoked => 3

/-- A region entry as 128 bits (Table 13-2). -/
def regionWord (x : Region) : Nat :=
  place x.base 127 92 + place x.pagesM1 91 64 + place x.pd 63 57 + place (regionCode x.mode) 56 55 + place (b2n x.read) 54 54
  + place (b2n x.write) 53 53 + place (b2n x.atomic) 52 52 + place (b2n x.host) 51 51 + place x.generation 50 43 + place x.tag 42 33
  + place x.xlate 32 17

/-- A word of an entry that an interface selected: the entry's own, but the RW fields as the interface last wrote them when it has written
the word since it selected the entry (R7, R408). [DEDUCED: log 43] -/
def stagedView (s : State) (iface idx n w : Nat) : Nat :=
  if s.dict.staged.contains (ifKey iface idx n) then
    let m := folioMask idx n
    (getIf s iface idx n &&& m) ||| (w - (w &&& m))
  else w

/-- QP_WORD n: the context of the selected queue pair when it is created, else what the interface staged (R408). [DEDUCED: log 43] -/
def qpView (s : State) (iface n : Nat) : Option Nat :=
  let x := qp s (getIf s iface 0x4101 0x00)
  if x.made then some (stagedView s iface 0x4101 n (word64 (contextWord x) (n - 1))) else none

/-- REGION_WORD n: the selected entry when it is in use, else what the interface staged. [DEDUCED: log 43] -/
def regionView (s : State) (iface n : Nat) : Option Nat :=
  let x := regionOf s (getIf s iface 0x4102 0x00)
  if x.mode = .free then none else some (stagedView s iface 0x4102 n (word64 (regionWord x) (n - 1)))

/-- Path delay and hops to the endpoint that an interface selected; its own endpoint is reached without a link. -/
def pathView (s : State) (iface sub : Nat) : Nat :=
  let e := getIf s iface 0x4002 0x00
  match tfind s.fabric.routes e with
  | some r => if sub = 1 then r.delayNs else r.hops
  | none => if sub = 1 ∧ e ≠ ownEndpoint s then 0xFFFFFFFF else 0

/-- Folios 0x4000 to 0x5FFF. -/
def viewFabric (s : State) (iface idx sub : Nat) : Option Nat :=
  if idx = 0x4000 ∧ sub = 2 then some (ownEndpoint s / 2 ^ 12)
  else if idx = 0x4002 ∧ 1 ≤ sub then some (pathView s iface sub)
  else if idx = 0x4010 ∧ 1 ≤ sub then some (word64 (xlateWord (tget XlateEntry.zero s.fabric.xlate (getIf s iface 0x4010 0))) (sub - 1))
  else if idx = 0x4011 ∧ 1 ≤ sub then some (word64 (outWord (outboundOf s (getIf s iface 0x4011 0))) (sub - 1))
  else if idx = 0x4020 then some (quarantineWord s sub)
  else if idx = 0x4100 ∧ sub = 2 then some (resultsFree s)
  else if idx = 0x4101 ∧ 1 ≤ sub ∧ sub ≤ 4 then qpView s iface sub
  else if idx = 0x4102 ∧ 1 ≤ sub ∧ sub ≤ 2 then regionView s iface sub
  else if idx = 0x4801 then some (linkStateWord s sub)
  else if idx = 0x5049 then some (cvuResult s sub)
  else none

/-! ### Errors, kettle and flash -/

/-- An error-log entry as 256 bits (Table 17-2). [DEDUCED: log 51] -/
def errWord (e : ErrEntry) : Nat :=
  place e.timeNs 255 192 + place e.unit 191 176 + place e.cause 175 168 + place e.plane 167 166 + place (b2n e.nested) 165 165
  + place (b2n e.fence) 164 164 + place (e.job.getD 0) 163 158 + place (b2n e.job.isSome) 157 157 + place e.address 127 80
  + place e.master 79 64 + place e.detail 63 32 + place e.seq 31 0

/-- ERRLOG_WORD n: the place that the interface selected; a place never written reads as zero. -/
def errView (s : State) (iface n : Nat) : Nat := match tfind s.err.log (getIf s iface 0x6000 0x05) with
  | some e => word64 (errWord e) n
  | none => 0

/-- ADDRLOG_WORD n: the memory and entry that the interface selected (Table 17-5a). -/
def addrView (s : State) (iface n : Nat) : Nat :=
  let k := getIf s iface 0x6007 0x00
  match (tget [] s.err.addrLogs (nfld k 15 8))[nfld k 5 0]? with
  | some e =>
    word64 (place e.address 127 80 + place e.count 79 64 + place 1 63 63 + place (b2n e.uncorrectable) 62 62 + place e.lastNs 47 0) n
  | none => 0

/-- Code of a unit's slot. -/
def slotCode : Slot → Nat
  | .idle => 0
  | .handling => 1
  | .pending => 2

/-- UNIT_STATUS, UNIT_CORRECTED and UNIT_UNCORRECTABLE of the unit that the interface selected. -/
def unitView (s : State) (iface sub : Nat) : Nat :=
  let x := unitOf s (getIf s iface 0x6020 0x00)
  if sub = 1 then
    place (slotCode x.slot) 31 30 + place (b2n x.fenced) 29 29 + place (b2n x.selfTest) 28 28 + place x.reason 23 16
      + place (min x.hour 65535) 15 0
  else if sub = 2 then x.corrected else x.uncorrectable

/-- DEAD_TABLE entry k. -/
def deadWord (s : State) (k : Nat) : Nat := match s.kettle.dead[k]? with
  | some (e, inc) => place 1 63 63 + place inc 47 16 + place e 15 0
  | none => 0

/-- Folios 0x6000 to 0x7FFF. -/
def viewRest (s : State) (iface idx sub : Nat) : Option Nat :=
  if idx = 0x6000 ∧ 6 ≤ sub ∧ sub ≤ 9 then some (errView s iface (sub - 6))
  else if idx = 0x6007 ∧ 1 ≤ sub ∧ sub ≤ 2 then some (addrView s iface (sub - 1))
  else if idx = 0x6010 ∧ sub = 2 then some s.fabric.frozen.length
  else if idx = 0x6020 ∧ 1 ≤ sub then some (unitView s iface sub)
  else if idx = 0x6402 then some (deadWord s sub)
  else if 0x7040 ≤ idx ∧ idx ≤ 0x7047 then some (word64 (healthBits s sub) (idx - 0x7040))
  else none

/-! ### The value read -/

/-- The value of a folio that follows from the rest of the state, as interface `iface` sees it; none for a folio that holds its own. -/
def viewOf (s : State) (iface idx sub : Nat) : Option Nat :=
  if idx < 0x2000 then viewIdentity s iface idx sub
  else if idx < 0x3000 then viewSig s iface idx sub
  else if idx < 0x3800 then viewUnits s idx sub
  else if idx < 0x6000 then viewFabric s iface idx sub
  else viewRest s iface idx sub

/-- A read of a folio through an interface (R410): zero for a WO folio, its own copy of a per-interface folio. -/
def readFolio (s : State) (iface idx sub : Nat) : Nat := match folioRow idx sub with
  | none => 0
  | some r =>
    if r.access = .wo then 0
    else match viewOf s iface idx sub with
      | some v => v % 2 ^ r.width
      | none => if r.perInterface then getIf s iface idx sub else getF s idx sub

end Sys2Proof.Machine
end

