-- ==== Sys2Proof/Machine/Dict.lean ====
section
/-! DEFINITION. The folio dictionary, the commands (chapter 19): writes and what they start, the change journal, the management window
(R415), the management port (R418 to R422), and the requests that reach memory through the fabric (R273). -/

namespace Sys2Proof.Machine

open Host

/-! ### What a write starts -/

/-- Writing 0x01 to folio 0x5402.01 zeroes every high-water mark (R356). [DEDUCED: log 51] -/
def hwmClearAction (s : State) : State :=
  let s := (List.range 64).foldl (fun s k => setF (setF (setF (setF s 0x5425 k 0) 0x5440 k 0) 0x5441 k 0) 0x5442 k 0) s
  { s with traffic := { s.traffic with alarmed := [] } }

/-- QP_COMMAND through an interface: the staged context, reset or destroy (R294, R296, R303). -/
def qpCommand (iface v : Nat) (s : State) : State :=
  let q := getIf s iface 0x4101 0x00
  if v = 1 then createQp s q (contextOf (stagedQp s iface)) else if v = 2 then resetQp s q else destroyQp s q

/-- REGION_COMMAND through an interface (R293, R304). -/
def regionCommand (iface v : Nat) (s : State) : State :=
  let r := getIf s iface 0x4102 0x00
  if v = 1 then registerRegion s r (getIf s iface 0x4102 0x01) (getIf s iface 0x4102 0x02) else revokeRegion s r

/-- CVU_COMMAND (R340, R342). -/
def cvuCommand (u v : Nat) (s : State) : State :=
  if v = 1 then cvuStartAction u s else if v = 2 then cvuRunAction u s else cvuStopAction u s

/-- JOB_COMMAND (R347, R349). -/
def jobCommand (jb v : Nat) (s : State) : State := if v = 3 then endAction jb s else startAction (decide (v = 2)) jb s

/-- INJECT (R373). -/
def injectCommand (v : Nat) (s : State) : State :=
  let u := nfld v 31 16
  if nfld v 15 8 = 1 then injectCorrectableAction u s
  else if nfld v 15 8 = 2 then injectUncorrectableAction u s else injectPathAction u s

/-- The action of a write to a WO folio below index 0x5000 (R411). -/
def startLow (s : State) (iface idx sub v : Nat) : State :=
  if idx = 0x2031 then countClearAction s
  else if idx = 0x2060 then moveNow (rebalanceAction v s) (sigE s (nfld v 15 0)).job.toNat
  else if idx = 0x2450 then loanRecallAction v s
  else if idx = 0x2824 then tipinAction sub (setF s 0x2824 sub v)
  else if idx = 0x4021 then quarantineClearAction v s
  else if idx = 0x4101 then qpCommand iface v s
  else if idx = 0x4102 then regionCommand iface v s
  else if idx = 0x4811 then (if v = 1 then bypassOpenAction sub s else bypassCloseAction sub s)
  else s

/-- The action of a write to a WO folio from index 0x5000 on. -/
def startHigh (s : State) (idx sub v : Nat) : State :=
  if idx = 0x5044 then cvuFeedAction sub v s
  else if idx = 0x5045 then cvuFeedByteAction sub v s
  else if idx = 0x5048 then cvuCommand sub v s
  else if idx = 0x5402 then hwmClearAction s
  else if idx = 0x5412 then jobCommand sub v s
  else if idx = 0x6007 then addrlogClearAction v s
  else if idx = 0x6010 then releaseAction v s
  else if idx = 0x6021 then reinstateAction v s
  else if idx = 0x6030 then injectCommand v s
  else if idx = 0x6415 then bookmarkNowAction sub s
  else if idx = 0x7000 then discardAction v s
  else if idx = 0x7030 then bookmarkDiscardAction v s
  else if idx = 0x7810 then enterReset 4 s
  else if idx = 0x7C30 then quoteAction s
  else if idx = 0x7C40 then updateAction v s
  else s

/-! ### What a stored value brings about -/

/-- Folio 0x4802.ll has been written: bit [1] disables the link or returns it to DOWN (Table 14-6). [DEDUCED: log 50] -/
def linkControlled (l old v : Nat) (s : State) : State :=
  if nbit v 1 = true ∧ nbit old 1 = false then disableLink s l
  else if nbit v 1 = false ∧ nbit old 1 = true then enableLink s l else s

/-- A policer's buckets are set full (R354). -/
def refillPolicer (p : Nat) (s : State) : State := { s with traffic := { s.traffic with policers := tdel s.traffic.policers p } }

/-- What follows from a write of an RW folio that held `old`. -/
def afterStore (s : State) (idx sub old v : Nat) : State :=
  if idx = 0x2450 ∧ sub = 1 then fitLent 0 s
  else if idx = 0x2450 ∧ sub = 2 then fitLent 1 s
  else if idx = 0x2420 ∧ (sub = 1 ∨ sub = 2) ∧ v < old then fitShares (sub - 1) .lpddr6 v s
  else if idx = 0x7031 ∧ (sub = 1 ∨ sub = 2) ∧ v < old then fitShares (sub - 1) .flash v s
  else if idx = 0x7010 then bookPumps (flashStateUpdate (showDirty (flashPump s.flash.waiting.length s)))
  else if idx = 0x4802 then linkControlled sub old v s
  else if idx = 0x5420 then shaperAction sub s
  else if idx = 0x5421 then shaperAction (64 + sub) s
  else if idx = 0x5430 ∨ idx = 0x5431 ∨ idx = 0x5432 then refillPolicer sub s
  else s

/-- An interface wrote a selector or a staging word of folios 0x4101 and 0x4102 (Table 19-1): after a new selection the words show the
entry again. [DEDUCED: log 43] -/
def noteStaged (s : State) (iface idx sub : Nat) : State :=
  if idx ≠ 0x4101 ∧ idx ≠ 0x4102 then s else
  let rest := s.dict.staged.filter (fun k => !(if sub = 0 then decide (k / 256 = ifKey iface idx 0 / 256) else decide (k = ifKey iface idx sub)))
  { s with dict := { s.dict with staged := if sub = 0 then rest else ifKey iface idx sub :: rest } }

/-- Store a value that an interface wrote to an RW folio: its own copy of a per-interface one (R408). -/
def storeFolio (s : State) (r : FolioRow) (iface idx sub v : Nat) : State :=
  let v := v &&& r.mask
  if idx = 0x2060 ∧ sub = 0x0A then { s with dict := { s.dict with jobPeers := tput s.dict.jobPeers (peerJob s iface) v } }
  else if idx = 0x6000 ∧ sub = 0x03 then tailAction v s
  else if r.perInterface then
    let s := noteStaged (setIf s iface idx sub v) iface idx sub
    if idx = 0x2040 then { s with dict := { s.dict with snaps := tput s.dict.snaps iface (entryWord (sigE s v)) } } else s
  else afterStore (setF s idx sub v) idx sub (getF s idx sub) v

/-- A RW1C write: ones clear, but a bit that the hardware sets in the same cycle ends up set (R7). -/
def clearBits (old v hw : Nat) : Nat := (old - (old &&& v)) ||| hw

/-- The bits of CVU_STATUS that the hardware has set at this very local time, with those that the write's own cycle brings (R7). -/
def setNow (s : State) (u hw : Nat) : Nat := match tfind s.press.cvuSet u with
  | some (at_, b) => if at_ = s.now then hw ||| b else hw
  | none => hw

/-- A write with result 0x00 is applied (R411). Of the RO/V folios only CVU_STATUS has bits that a write clears. -/
def applyWrite (s : State) (iface idx sub v hw : Nat) : State := match folioRow idx sub with
  | none => s
  | some r => match r.access with
    | .wo => if idx < 0x5000 then startLow s iface idx sub v else startHigh s idx sub v
    | .rw => storeFolio s r iface idx sub v
    | .rw1c => setF s idx sub (clearBits (getF s idx sub) v (hw &&& r.mask))
    | .rov => setF s idx sub (clearBits (getF s idx sub) (v &&& 6) (setNow s sub (hw &&& 6)))
    | .ro => s

/-- What a refused write leaves where its chapter shows the refusal (R347, R375, R341, R342). [DEDUCED: log 49] -/
def refusalNote (s : State) (idx sub v result : Nat) : State :=
  if result ≠ 0x13 ∧ result ≠ 0x12 then s
  else if idx = 0x5412 ∧ (v = 1 ∨ v = 2) then startRefusedNote s sub
  else if idx = 0x6021 then (match reinstateRefusal s v with
    | some c => setF s 0x6021 0x02 c
    | none => s)
  else if 0x5040 ≤ idx ∧ idx ≤ 0x5048 then cvuRefused s sub
  else s

/-! ### A write (R411, R414, R417) -/

/-- PRIOR of a journal entry: the writing interface's own copy of a per-interface folio, zero for a WO folio or none. [DEDUCED: log 44] -/
def priorOf (s : State) (iface idx sub : Nat) : Nat := match folioRow idx sub with
  | none => 0
  | some r => if r.perInterface then getIf s iface idx sub else readFolio s iface idx sub

/-- The result of a write through an interface (Table 19-3). -/
def decideWrite (s : State) (idx sub : Nat) (req : FolioReq) : Nat :=
  if req.malformed then 0x15
  else writeResult s req.iface idx sub req.width req.value (frozenOf s 5 req.iface).isSome

/-- The write is journalled, and shown in folios 0x1018, 0x1019 and 0x101A of its interface. [DEDUCED: log 44, 120] -/
def recordWrite (s : State) (idx sub : Nat) (req : FolioReq) (result : Nat) : State :=
  let s := journal s { timeNs := s.now, prior := priorOf s req.iface idx sub, value := req.value % 2 ^ 64, seq := 0, index := idx, sub := sub,
                       origin := req.origin, source := req.iface, result := result, sameCycle := req.sameCycle }
  let s := incF (setF s 0x1018 req.iface (place result 31 24 + place idx 23 8 + place sub 7 0)) 0x1019 req.iface
  if result = 0x00 ∨ result = 0x01 then s else incF s 0x101A req.iface

/-- One write of a folio: decided, journalled, applied, and its result reported. No interface is answered before the images are verified
and the overrides applied (R407, R461, Table 19-9). [DEDUCED: log 44, 120] -/
def folioWrite (idx sub : Nat) (req : FolioReq) (s : State) : State :=
  if answersTo s req.iface = false then s else
  let result := decideWrite s idx sub req
  let s := emit (recordWrite s idx sub req result) (.folioResult req.iface idx sub result)
  if result = 0x00 then applyWrite s req.iface idx sub req.value req.hwSets else refusalNote s idx sub req.value result

/-- FOLIO_WRITE (R411). -/
def execFolioWrite (t idx sub : Nat) (req : FolioReq) (s : State) : Outcome State Fault Refusal := .next (folioWrite idx sub req (atTime t s))

/-! ### Writes with a row of their own -/

/-- The same request with the value that its row's name gives. -/
def FolioReq.withValue (req : FolioReq) (v : Nat) : FolioReq := { req with value := v }

/-- COUNT_CLEAR (R51). -/
def execCountClear (t : Nat) (req : FolioReq) (s : State) : Outcome State Fault Refusal :=
  .next (folioWrite 0x2031 0x01 (req.withValue 1) (atTime t s))

/-- SNAP_INDEX (R51): the value is a signature number. -/
def execSnapIndex (t : Nat) (req : FolioReq) (s : State) : Outcome State Fault Refusal := .next (folioWrite 0x2040 0x00 req (atTime t s))

/-- TIPIN_LOAD (R100): the value is a version. -/
def execTipinLoad (t slot : Nat) (req : FolioReq) (s : State) : Outcome State Fault Refusal := .next (folioWrite 0x2824 slot req (atTime t s))

/-- REBALANCE (R206). -/
def execRebalance (t : Nat) (req : FolioReq) (s : State) : Outcome State Fault Refusal := .next (folioWrite 0x2060 0x07 req (atTime t s))

/-- LOAN_RECALL (R237): the value is a loan identifier. -/
def execLoanRecall (t : Nat) (req : FolioReq) (s : State) : Outcome State Fault Refusal := .next (folioWrite 0x2450 0x06 req (atTime t s))

/-- DISCARD_RANGE (R250). -/
def execDiscardRange (t : Nat) (req : FolioReq) (s : State) : Outcome State Fault Refusal := .next (folioWrite 0x7000 0x08 req (atTime t s))

/-- BOOKMARK_DISCARD (R250): the value is a slot. -/
def execBookmarkDiscard (t : Nat) (req : FolioReq) (s : State) : Outcome State Fault Refusal := .next (folioWrite 0x7030 0x05 req (atTime t s))

/-- QUARANTINE_CLEAR (R274): the value is an entry number. -/
def execQuarantineClear (t : Nat) (req : FolioReq) (s : State) : Outcome State Fault Refusal := .next (folioWrite 0x4021 0x01 req (atTime t s))

/-- QP_CREATE (R294). -/
def execQpCreate (t : Nat) (req : FolioReq) (s : State) : Outcome State Fault Refusal :=
  .next (folioWrite 0x4101 0x05 (req.withValue 1) (atTime t s))

/-- QP_RESET (R296). -/
def execQpReset (t : Nat) (req : FolioReq) (s : State) : Outcome State Fault Refusal :=
  .next (folioWrite 0x4101 0x05 (req.withValue 2) (atTime t s))

/-- QP_DESTROY (R303). -/
def execQpDestroy (t : Nat) (req : FolioReq) (s : State) : Outcome State Fault Refusal :=
  .next (folioWrite 0x4101 0x05 (req.withValue 3) (atTime t s))

/-- REGION_REGISTER (R293). -/
def execRegionRegister (t : Nat) (req : FolioReq) (s : State) : Outcome State Fault Refusal :=
  .next (folioWrite 0x4102 0x03 (req.withValue 1) (atTime t s))

/-- REGION_REVOKE (R304). -/
def execRegionRevoke (t : Nat) (req : FolioReq) (s : State) : Outcome State Fault Refusal :=
  .next (folioWrite 0x4102 0x03 (req.withValue 2) (atTime t s))

/-- LINK_DISABLE (R318): bit [1] of the value is set. -/
def execLinkDisable (t link : Nat) (req : FolioReq) (s : State) : Outcome State Fault Refusal :=
  .next (folioWrite 0x4802 link (req.withValue (setFld req.value 1 1 1)) (atTime t s))

/-- LINK_ENABLE (R318, R375): bit [1] of the value is clear. -/
def execLinkEnable (t link : Nat) (req : FolioReq) (s : State) : Outcome State Fault Refusal :=
  .next (folioWrite 0x4802 link (req.withValue (setFld req.value 0 1 1)) (atTime t s))

/-- BYPASS_OPEN (R323). -/
def execBypassOpen (t ring : Nat) (req : FolioReq) (s : State) : Outcome State Fault Refusal :=
  .next (folioWrite 0x4811 ring (req.withValue 1) (atTime t s))

/-- BYPASS_CLOSE (R322). -/
def execBypassClose (t ring : Nat) (req : FolioReq) (s : State) : Outcome State Fault Refusal :=
  .next (folioWrite 0x4811 ring (req.withValue 2) (atTime t s))

/-- CVU_FEED (R342). -/
def execCvuFeed (t unit : Nat) (req : FolioReq) (s : State) : Outcome State Fault Refusal := .next (folioWrite 0x5044 unit req (atTime t s))

/-- CVU_FEED_BYTE (R342). -/
def execCvuFeedByte (t unit : Nat) (req : FolioReq) (s : State) : Outcome State Fault Refusal := .next (folioWrite 0x5045 unit req (atTime t s))

/-- CVU_START (R340). -/
def execCvuStart (t unit : Nat) (req : FolioReq) (s : State) : Outcome State Fault Refusal :=
  .next (folioWrite 0x5048 unit (req.withValue 1) (atTime t s))

/-- CVU_RUN_DMA (R342). -/
def execCvuRunDma (t unit : Nat) (req : FolioReq) (s : State) : Outcome State Fault Refusal :=
  .next (folioWrite 0x5048 unit (req.withValue 2) (atTime t s))

/-- CVU_STOP_DMA (R342). -/
def execCvuStopDma (t unit : Nat) (req : FolioReq) (s : State) : Outcome State Fault Refusal :=
  .next (folioWrite 0x5048 unit (req.withValue 3) (atTime t s))

/-- JOB_START_LATENCY_CRITICAL (R347). -/
def execJobStartLatencyCritical (t jb : Nat) (req : FolioReq) (s : State) : Outcome State Fault Refusal :=
  .next (folioWrite 0x5412 jb (req.withValue 1) (atTime t s))

/-- JOB_START_BEST_EFFORT (R347). -/
def execJobStartBestEffort (t jb : Nat) (req : FolioReq) (s : State) : Outcome State Fault Refusal :=
  .next (folioWrite 0x5412 jb (req.withValue 2) (atTime t s))

/-- JOB_END (R349). -/
def execJobEnd (t jb : Nat) (req : FolioReq) (s : State) : Outcome State Fault Refusal :=
  .next (folioWrite 0x5412 jb (req.withValue 3) (atTime t s))

/-- SHAPER_WRITE (R352): shaper `queue` of a job, or 64 and 65 for the classes. -/
def execShaperWrite (t queue : Nat) (req : FolioReq) (s : State) : Outcome State Fault Refusal :=
  .next (if queue < 64 then folioWrite 0x5420 queue req (atTime t s) else folioWrite 0x5421 (queue - 64) req (atTime t s))

/-- POLICER_WRITE (R354): word 0 to 2 of a policer, folios 0x5430.pp to 0x5432.pp. -/
def execPolicerWrite (t word policer : Nat) (req : FolioReq) (s : State) : Outcome State Fault Refusal :=
  .next (folioWrite (0x5430 + word % 3) policer req (atTime t s))

/-- HWM_CLEAR (R356). -/
def execHwmClear (t : Nat) (req : FolioReq) (s : State) : Outcome State Fault Refusal :=
  .next (folioWrite 0x5402 0x01 (req.withValue 1) (atTime t s))

/-- ERRLOG_TAIL_WRITE (R365): the value is the new TAIL. -/
def execErrlogTailWrite (t : Nat) (req : FolioReq) (s : State) : Outcome State Fault Refusal := .next (folioWrite 0x6000 0x03 req (atTime t s))

/-- ADDRLOG_CLEAR (R366): the value is a memory code. -/
def execAddrlogClear (t : Nat) (req : FolioReq) (s : State) : Outcome State Fault Refusal := .next (folioWrite 0x6007 0x03 req (atTime t s))

/-- FREEZE_RELEASE (R369). -/
def execFreezeRelease (t : Nat) (req : FolioReq) (s : State) : Outcome State Fault Refusal := .next (folioWrite 0x6010 0x01 req (atTime t s))

/-- REINSTATE (R375): the value is a unit identifier. -/
def execReinstate (t : Nat) (req : FolioReq) (s : State) : Outcome State Fault Refusal := .next (folioWrite 0x6021 0x01 req (atTime t s))

/-- INJECT_CORRECTABLE (R373). -/
def execInjectCorrectable (t unit : Nat) (req : FolioReq) (s : State) : Outcome State Fault Refusal :=
  .next (folioWrite 0x6030 0x01 (req.withValue (place unit 31 16 + place 1 15 8)) (atTime t s))

/-- INJECT_UNCORRECTABLE (R373). -/
def execInjectUncorrectable (t unit : Nat) (req : FolioReq) (s : State) : Outcome State Fault Refusal :=
  .next (folioWrite 0x6030 0x01 (req.withValue (place unit 31 16 + place 2 15 8)) (atTime t s))

/-- INJECT_PATH (R373). -/
def execInjectPath (t unit : Nat) (req : FolioReq) (s : State) : Outcome State Fault Refusal :=
  .next (folioWrite 0x6030 0x01 (req.withValue (place unit 31 16 + place 3 15 8)) (atTime t s))

/-- BOOKMARK_NOW (R395). -/
def execBookmarkNow (t jb : Nat) (req : FolioReq) (s : State) : Outcome State Fault Refusal :=
  .next (folioWrite 0x6415 jb (req.withValue 1) (atTime t s))

/-- RESET_COMMAND (R438). -/
def execResetCommand (t : Nat) (req : FolioReq) (s : State) : Outcome State Fault Refusal :=
  .next (folioWrite 0x7810 0x02 (req.withValue 0xA5) (atTime t s))

/-- UPDATE_FIRMWARE (R462). -/
def execUpdateFirmware (t : Nat) (req : FolioReq) (s : State) : Outcome State Fault Refusal :=
  .next (folioWrite 0x7C40 0x02 (req.withValue 1) (atTime t s))

/-- UPDATE_CONFIGURATION (R462). -/
def execUpdateConfiguration (t : Nat) (req : FolioReq) (s : State) : Outcome State Fault Refusal :=
  .next (folioWrite 0x7C40 0x02 (req.withValue 2) (atTime t s))

/-- QUOTE_COMMAND (R465). -/
def execQuoteCommand (t : Nat) (req : FolioReq) (s : State) : Outcome State Fault Refusal :=
  .next (folioWrite 0x7C30 0x06 (req.withValue 1) (atTime t s))

/-! ### The management window (R415) -/

/-- A fabric request to the management window is malformed for its interface: anything but a LOAD or STORE of exactly the folio's width,
or a BYTE or RSVD field that is not zero. [DEDUCED: log 45] -/
def windowMalformed (h : BitVec 256) (idx sub len : Nat) : Bool :=
  let bytes := match folioRow idx sub with
    | some r => decide (len * 8 ≠ r.width)
    | none => !([1, 2, 4, 8].contains len)
  decide (hType h = 3) || bytes || decide (nfld (hOffset h) 39 32 ≠ 0) || decide (nfld (hOffset h) 7 0 ≠ 0) || !decide (fld h 106 104 = 0)
    || !decide (fld h 63 0 = 0)

/-- Status of the answer to a write or read with a result (R415). [DEDUCED: log 45] -/
def windowStatus (result : Nat) : Nat :=
  if result = 0x00 ∨ result = 0x01 then 0 else if result = 0x12 ∨ result = 0x13 then 9 else if result = 0x14 then 4 else 7

/-- Number of the arbitration cycle, 16 network-on-chip cycles at 1.8 GHz, in which a local time lies (R412). [DESIGN CHOICE: log 167] -/
def arbCycle (ns : Nat) : Nat := ns * 9 / 80

/-- Another interface's write was decided in this arbitration cycle (Table 19-4). [DESIGN CHOICE: log 167] -/
def cycleShared (s : State) (iface : Nat) : Bool :=
  s.dict.journal.any (fun e => decide (e.source < 4) && decide (e.source ≠ iface) && decide (arbCycle e.timeNs = arbCycle s.now))

/-- A request to the management window. [DEDUCED: log 44, 45] -/
def windowAccess (s : State) (h : BitVec 256) (payload : List Byte) : State :=
  let idx := nfld (hOffset h) 31 16
  let sub := nfld (hOffset h) 15 8
  let n := if hType h = 1 then hLenM1 h + 1 else payload.length
  let bad := windowMalformed h idx sub n || (decide (hType h ≠ 1) && decide (n ≠ hLenM1 h + 1))
  if hType h = 1 then
    if bad = true ∨ (folioRow idx sub).isNone = true then refuseTx s h 7
    else respond s h 4 0 (toBytesLE n (readFolio s 0 idx sub))
  else
    let req : FolioReq := { iface := 0, origin := hSource h, width := 8 * n, value := ofBytesLE payload, sameCycle := cycleShared s 0,
                            malformed := bad, hwSets := 0 }
    let st := windowStatus (decideWrite s idx sub req)
    let s := folioWrite idx sub req s
    if st = 0 then respond s h 5 0 [] else refuseTx s h st

/-- A LOAD, STORE or ATOMIC of type `type` arrives (R273). -/
def memoryRequest (type : Nat) (s : State) (h : BitVec 256) (payload : List Byte) (read : TargetRead) (back : List (Nat × List Byte)) : State :=
  if hType h ≠ type ∨ hDest h ≠ ownEndpoint s then refuseUnknown s h
  else if deadSource s (hSource h) then incF s 0x6401 0x05
  else if 0xFF0000000000 ≤ hOffset h then (if answersTo s 0 then windowAccess s h payload else s)
  else serveRequest s h payload read back

/-- LOAD (R273): `read` is what the read of the target meets, `back` what members return for recalled lines. -/
def execLoad (t : Nat) (header : BitVec 256) (read : TargetRead) (back : List (Nat × List Byte)) (s : State) : Outcome State Fault Refusal :=
  .next (memoryRequest 1 (atTime t s) header [] read back)

/-- STORE (R273). -/
def execStore (t : Nat) (header : BitVec 256) (payload : List Byte) (back : List (Nat × List Byte)) (s : State) : Outcome State Fault Refusal :=
  .next (memoryRequest 2 (atTime t s) header payload TargetRead.clean back)

/-- ATOMIC (R271). -/
def execAtomic (t : Nat) (header : BitVec 256) (payload : List Byte) (read : TargetRead) (back : List (Nat × List Byte)) (s : State) :
    Outcome State Fault Refusal :=
  .next (memoryRequest 3 (atTime t s) header payload read back)

/-- EGRESS_DEPARTURE (R351): tokens have come in. -/
def execEgressDeparture (t : Nat) (s : State) : Outcome State Fault Refusal := .next (runLinks (atTime t s))

/-! ### The management port (R418 to R422) -/

/-- The broadcast address. -/
def broadcastMac : Nat := 0xFFFFFFFFFFFF

/-- The port's own MAC address. -/
def ownMac (s : State) : Nat := getF s 0x1040 0x01 % 2 ^ 48

/-- A frame reaches Plithen (R418). -/
def frameHere (s : State) (dest ethertype : Nat) : Bool := (decide (dest = ownMac s) || decide (dest = broadcastMac)) && decide (ethertype = 0x88B5)

/-- A discarded frame is counted (R418, R420). -/
def discardFrame (s : State) : State := incF s 0x1040 0x04

/-- An octet string of a MAC address or EtherType, most significant octet first. -/
def toBytesBE (n v : Nat) : List Byte := (toBytesLE n v).reverse

/-- Send a PDU: header and values, padded with zero to the 46-byte minimum. -/
def sendPdu (s : State) (dest header : Nat) (values : List Nat) : State :=
  let pdu := toBytesLE 16 header ++ values.flatMap (toBytesLE 8)
  emit s (.frame (toBytesBE 6 dest ++ toBytesBE 6 (ownMac s) ++ toBytesBE 2 0x88B5 ++ pdu ++ List.replicate (46 - pdu.length) 0))

/-- Header of a response (Table 19-7). -/
def responseHeader (q op status done : Nat) : Nat :=
  place 1 127 120 + place op 119 112 + place (nfld q 111 96) 111 96 + place (nfld q 95 88) 95 88 + place status 87 80 + place done 79 72
  + place (nfld q 71 56) 71 56 + place (nfld q 55 48) 55 48

/-- A request PDU is malformed (R419, R420); `bytes` is the length of the frame's payload. [DEDUCED: log 46] -/
def pduBad (q bytes : Nat) : Bool :=
  let n := nfld q 95 88
  let want := if nfld q 119 112 = 2 then 16 + 8 * n else 16
  decide (nfld q 127 120 ≠ 1) || decide (n = 0) || decide (32 < n) || decide (nfld q 47 0 ≠ 0) || decide (bytes ≠ max 46 want)
    || decide (256 < nfld q 55 48 + n)

/-- Read folios in order until one does not exist. -/
def readRun (s : State) (idx : Nat) : List Nat → List Nat
  | [] => []
  | k :: r => if (folioRow idx k).isSome then readFolio s 2 idx k :: readRun s idx r else []

/-- Write folios in order until the first failure: the state, how many were handled, the result. -/
def writeRun (origin idx : Nat) : List (Nat × Nat) → State → Nat → State × Nat × Nat
  | [], s, d => (s, d, 0)
  | (k, v) :: r, s, d =>
    let w := folioWidth idx k
    let req : FolioReq := { iface := 2, origin := origin, width := w, value := v, sameCycle := cycleShared s 2, malformed := false, hwSets := 0 }
    let x := decideWrite s idx k req
    let s := folioWrite idx k req s
    if x = 0x00 ∨ x = 0x01 then writeRun origin idx r s (d + 1) else (s, d, x)

/-- Carry out a well-formed request: the state, the response's header and values. [DEDUCED: log 46] -/
def plithenServe (s : State) (mac q : Nat) (payload : List Byte) : State × Nat × List Nat :=
  let op := nfld q 119 112
  let idx := nfld q 71 56
  let subs := (List.range (nfld q 95 88)).map (fun k => nfld q 55 48 + k)
  if op = 1 then
    let vs := readRun s idx subs
    (s, responseHeader q 0x81 (if vs.length = subs.length then 0 else 0x10) vs.length, vs)
  else if op = 2 then
    let vs := (List.range subs.length).map (fun k => ofBytesLE ((payload.drop (16 + 8 * k)).take 8))
    let (s, d, x) := writeRun (mac % 65536) idx (subs.zip vs) s 0
    (s, responseHeader q 0x82 x d, [])
  else (s, responseHeader q 0x83 0 subs.length, subs.flatMap (fun k => (List.range 4).map (descriptor s idx k)))

/-- Keep a response for its requester; the entry used least recently makes room (R421). [DEDUCED: log 48] -/
def keepResponse (s : State) (mac q header : Nat) (values : List Nat) : State :=
  let l := s.dict.cache.filter (fun c => decide (c.mac ≠ mac))
  let l := l.drop (l.length - 15)
  let c : PlithenCached := { mac := mac, seq := nfld q 111 96, header := BitVec.ofNat 128 header, values := values }
  { s with dict := { s.dict with cache := l ++ [c] } }

/-- A request PDU is answered (R420, R421): from the cache when its SEQ is the requester's last. An operation that is none of the three is
malformed; what its response shows as OP is not stated. [DEDUCED: log 48] -/
def plithenAnswer (s : State) (mac : Nat) (payload : List Byte) : State :=
  let q := ofBytesLE (payload.take 16)
  match s.dict.cache.find? (fun c => decide (c.mac = mac) && decide (c.seq = nfld q 111 96)) with
  | some c =>
    let s := { s with dict := { s.dict with cache := s.dict.cache.filter (fun x => decide (x.mac ≠ mac)) ++ [c] } }
    sendPdu s mac c.header.toNat c.values
  | none =>
    let op := nfld q 119 112
    let known := decide (1 ≤ op) && decide (op ≤ 3)
    let r : State × Nat × List Nat :=
      if known = false then (draw s, responseHeader q (freshOf s % 256) 0x15 0, [])
      else if pduBad q payload.length then (s, responseHeader q (0x80 + op) 0x15 0, [])
      else plithenServe s mac q payload
    sendPdu (keepResponse r.1 mac q r.2.1 r.2.2) mac r.2.1 r.2.2

/-- OP of a PDU. -/
def pduOp (payload : List Byte) : Nat := nfld (ofBytesLE (payload.take 16)) 119 112

/-- PLITHEN_READ (R420); a PDU of an operation that Plithen does not know is answered here too. [DEDUCED: log 46, 48] -/
def execPlithenRead (t dest source : Nat) (payload : List Byte) (s : State) : Outcome State Fault Refusal :=
  let s := atTime t s
  .next (if answering s = false ∨ pduOp payload = 2 ∨ pduOp payload = 3 then s
    else if frameHere s dest 0x88B5 then plithenAnswer s source payload else discardFrame s)

/-- PLITHEN_WRITE (R420): a broadcast one is discarded and counted. -/
def execPlithenWrite (t dest source : Nat) (payload : List Byte) (s : State) : Outcome State Fault Refusal :=
  let s := atTime t s
  .next (if answering s = false ∨ pduOp payload ≠ 2 then s
    else if frameHere s dest 0x88B5 = true ∧ dest ≠ broadcastMac then plithenAnswer s source payload else discardFrame s)

/-- PLITHEN_DESCRIBE (R420). -/
def execPlithenDescribe (t dest source : Nat) (payload : List Byte) (s : State) : Outcome State Fault Refusal :=
  let s := atTime t s
  .next (if answering s = false ∨ pduOp payload ≠ 3 then s
    else if frameHere s dest 0x88B5 then plithenAnswer s source payload else discardFrame s)

/-- FRAME_DISCARD (R418, R420): another destination or EtherType, or a broadcast WRITE. -/
def execFrameDiscard (t dest ethertype : Nat) (payload : List Byte) (s : State) : Outcome State Fault Refusal :=
  let s := atTime t s
  .next (if answering s = false then s
    else if frameHere s dest ethertype = false ∨ (dest = broadcastMac ∧ pduOp payload = 2) then discardFrame s else s)

/-- ANNOUNCE_TIMER (R422). What its header gives for SEQ, STATUS, DONE, INDEX and SUBINDEX is not stated. [DESIGN CHOICE: log 47] -/
def execAnnounceTimer (t : Nat) (s : State) : Outcome State Fault Refusal :=
  let s := atTime t s
  if answering s = false ∨ getF s 0x1040 0x05 = 0 then .next s else
  let f := freshOf s % 2 ^ 56
  let h := place 1 127 120 + place 0x90 119 112 + place (nfld f 15 0) 111 96 + place 3 95 88 + place (nfld f 55 16) 87 48
  .next (sendPdu (draw s) broadcastMac h [getF s 0x4000 0x01, getF s 0x1000 0x01, getF s 0x1000 0x05])

end Sys2Proof.Machine
end

