-- ==== Sys2Proof/Machine/Dispatch.lean ====
section
/-! DEFINITION. The one place where a command meets its meaning. -/

namespace Sys2Proof.Machine

open Host

/-- What a command does to everything but the queue. -/
def exec (i : Instr) (s : State) : Host.Outcome State Fault Refusal :=
  match i with
  | .admissionRequest t src request => Sys2Proof.Machine.execAdmissionRequest t src request s
  | .promptReadComplete t sig ok words => Sys2Proof.Machine.execPromptReadComplete t sig ok words s
  | .homeAck t message => Sys2Proof.Machine.execHomeAck t message s
  | .endAck t message => Sys2Proof.Machine.execEndAck t message s
  | .cancel t message => Sys2Proof.Machine.execCancel t message s
  | .unsizedMessage t => Sys2Proof.Machine.execUnsizedMessage t s
  | .lifetimeExpiry t sig => Sys2Proof.Machine.execLifetimeExpiry t sig s
  | .budgetExpiry t sig => Sys2Proof.Machine.execBudgetExpiry t sig s
  | .prefillOffer t endpoint jb queueUs rate => Sys2Proof.Machine.execPrefillOffer t endpoint jb queueUs rate s
  | .prefillOfferSend t jb dests => Sys2Proof.Machine.execPrefillOfferSend t jb dests s
  | .countClear t req => Sys2Proof.Machine.execCountClear t req s
  | .snapIndex t req => Sys2Proof.Machine.execSnapIndex t req s
  | .boundaryPhase t jb b => Sys2Proof.Machine.execBoundaryPhase t jb b s
  | .composeFreeze t jb => Sys2Proof.Machine.execComposeFreeze t jb s
  | .stepPhaseStart t jb => Sys2Proof.Machine.execStepPhaseStart t jb s
  | .freezeRoutineReturn t jb routine writes => Sys2Proof.Machine.execFreezeRoutineReturn t jb routine writes s
  | .windowEnd t jb busy => Sys2Proof.Machine.execWindowEnd t jb busy s
  | .stepCarried t jb => Sys2Proof.Machine.execStepCarried t jb s
  | .splitSizing t jb => Sys2Proof.Machine.execSplitSizing t jb s
  | .stepCommit t jb prompt => Sys2Proof.Machine.execStepCommit t jb prompt s
  | .tipinLoad t slot req => Sys2Proof.Machine.execTipinLoad t slot req s
  | .tipinLoadDone t ss image => Sys2Proof.Machine.execTipinLoadDone t ss image s
  | .nop t id => Sys2Proof.Machine.execNop t id s
  | .lpBegin t id => Sys2Proof.Machine.execLpBegin t id s
  | .loopEnd t id => Sys2Proof.Machine.execLoopEnd t id s
  | .jmpSt t id => Sys2Proof.Machine.execJmpSt t id s
  | .arBase t id => Sys2Proof.Machine.execArBase t id s
  | .arStride t id => Sys2Proof.Machine.execArStride t id s
  | .halt t id => Sys2Proof.Machine.execHalt t id s
  | .bar t id => Sys2Proof.Machine.execBar t id s
  | .barRelease t jb bar => Sys2Proof.Machine.execBarRelease t jb bar s
  | .sigPost t id => Sys2Proof.Machine.execSigPost t id s
  | .sigWait t id => Sys2Proof.Machine.execSigWait t id s
  | .sigWaitRelease t id => Sys2Proof.Machine.execSigWaitRelease t id s
  | .waitLimitTrap t id => Sys2Proof.Machine.execWaitLimitTrap t id s
  | .ctlCall t id => Sys2Proof.Machine.execCtlCall t id s
  | .ctlCallReturn t id k ok core copy writes ops => Sys2Proof.Machine.execCtlCallReturn t id k ok core copy writes ops s
  | .guRun t id => Sys2Proof.Machine.execGuRun t id s
  | .mmaBlk t id f => Sys2Proof.Machine.execMmaBlk t id f s
  | .combAdd t id bad differs => Sys2Proof.Machine.execCombAdd t id bad differs s
  | .cvt t id f => Sys2Proof.Machine.execCvt t id f s
  | .dmaLd t id f => Sys2Proof.Machine.execDmaLd t id f s
  | .dmaSt t id f => Sys2Proof.Machine.execDmaSt t id f s
  | .gathLd t id f => Sys2Proof.Machine.execGathLd t id f s
  | .transferComplete t id => Sys2Proof.Machine.execTransferComplete t id s
  | .kvPut t id bad => Sys2Proof.Machine.execKvPut t id bad s
  | .selFeed t id bad => Sys2Proof.Machine.execSelFeed t id bad s
  | .stitchRefetchDone t id ok => Sys2Proof.Machine.execStitchRefetchDone t id ok s
  | .gvLd t id bad corrected => Sys2Proof.Machine.execGvLd t id bad corrected s
  | .gvSt t stitch => Sys2Proof.Machine.execGvSt t stitch s
  | .gvGld t id bad corrected => Sys2Proof.Machine.execGvGld t id bad corrected s
  | .gvOp t stitch => Sys2Proof.Machine.execGvOp t stitch s
  | .gvRed t stitch => Sys2Proof.Machine.execGvRed t stitch s
  | .attRun t id bad corrected => Sys2Proof.Machine.execAttRun t id bad corrected s
  | .attComb t id bad corrected => Sys2Proof.Machine.execAttComb t id bad corrected s
  | .spotCheck t column differs => Sys2Proof.Machine.execSpotCheck t column differs s
  | .ordinaryAccess t column id beats slot => Sys2Proof.Machine.execOrdinaryAccess t column id beats slot s
  | .spanEnd t column => Sys2Proof.Machine.execSpanEnd t column s
  | .refreshDue t column => Sys2Proof.Machine.execRefreshDue t column s
  | .refreshComplete t column => Sys2Proof.Machine.execRefreshComplete t column s
  | .broadcastWrite t cls index jb addr data => Sys2Proof.Machine.execBroadcastWrite t cls index jb addr data s
  | .routeEpoch t view => Sys2Proof.Machine.execRouteEpoch t view s
  | .ringPlan t header plan => Sys2Proof.Machine.execRingPlan t header plan s
  | .query t m payload => Sys2Proof.Machine.execQuery t m payload s
  | .acc t m payload => Sys2Proof.Machine.execAcc t m payload s
  | .output t m payload => Sys2Proof.Machine.execOutput t m payload s
  | .blockReq t m => Sys2Proof.Machine.execBlockReq t m s
  | .block t m payload => Sys2Proof.Machine.execBlock t m payload s
  | .kvPutMessage t m payload => Sys2Proof.Machine.execKvPutMessage t m payload s
  | .attend t header payload ready => Sys2Proof.Machine.execAttend t header payload ready s
  | .partials t header payload => Sys2Proof.Machine.execPartials t header payload s
  | .spanRefuse t header => Sys2Proof.Machine.execSpanRefuse t header s
  | .remoteTimeout t jb => Sys2Proof.Machine.execRemoteTimeout t jb s
  | .offer t header words readable => Sys2Proof.Machine.execOffer t header words readable s
  | .accept t call => Sys2Proof.Machine.execAccept t call s
  | .leaf t header object => Sys2Proof.Machine.execLeaf t header object s
  | .resend t call => Sys2Proof.Machine.execResend t call s
  | .confirm t header => Sys2Proof.Machine.execConfirm t header s
  | .confirmDelivered t sig => Sys2Proof.Machine.execConfirmDelivered t sig s
  | .confirmUndeliverable t sig => Sys2Proof.Machine.execConfirmUndeliverable t sig s
  | .leaseExpiry t sig => Sys2Proof.Machine.execLeaseExpiry t sig s
  | .claim t header => Sys2Proof.Machine.execClaim t header s
  | .handoffProbeTimer t sig => Sys2Proof.Machine.execHandoffProbeTimer t sig s
  | .handoffProbe t header => Sys2Proof.Machine.execHandoffProbe t header s
  | .probeReply t header => Sys2Proof.Machine.execProbeReply t header s
  | .rebalance t req => Sys2Proof.Machine.execRebalance t req s
  | .demotionPass t => Sys2Proof.Machine.execDemotionPass t s
  | .tierMoveComplete t jb group outcome read => Sys2Proof.Machine.execTierMoveComplete t jb group outcome read s
  | .advertTimer t => Sys2Proof.Machine.execAdvertTimer t s
  | .lenderListPoll t => Sys2Proof.Machine.execLenderListPoll t s
  | .advert t header => Sys2Proof.Machine.execAdvert t header s
  | .request t header => Sys2Proof.Machine.execRequest t header s
  | .grant t header => Sys2Proof.Machine.execGrant t header s
  | .recall t header => Sys2Proof.Machine.execRecall t header s
  | .release t header => Sys2Proof.Machine.execRelease t header s
  | .loanRecall t req => Sys2Proof.Machine.execLoanRecall t req s
  | .lpddr6RefreshRateRead t channel rate => Sys2Proof.Machine.execLpddr6RefreshRateRead t channel rate s
  | .lpddr6EccCountRead t channel count => Sys2Proof.Machine.execLpddr6EccCountRead t channel count s
  | .lpddr6Retrain t channel => Sys2Proof.Machine.execLpddr6Retrain t channel s
  | .flashWrite t id page data => Sys2Proof.Machine.execFlashWrite t id page data s
  | .flashRead t id page effort => Sys2Proof.Machine.execFlashRead t id page effort s
  | .flashProgramComplete t ch ok => Sys2Proof.Machine.execFlashProgramComplete t ch ok s
  | .flashReclaim t ch read => Sys2Proof.Machine.execFlashReclaim t ch read s
  | .flashEraseComplete t ch u ok => Sys2Proof.Machine.execFlashEraseComplete t ch u ok s
  | .flashTempSample t temps => Sys2Proof.Machine.execFlashTempSample t temps s
  | .flashRebuildComplete t => Sys2Proof.Machine.execFlashRebuildComplete t s
  | .discardRange t req => Sys2Proof.Machine.execDiscardRange t req s
  | .bookmarkDiscard t req => Sys2Proof.Machine.execBookmarkDiscard t req s
  | .bookmarkCommit t slot gen => Sys2Proof.Machine.execBookmarkCommit t slot gen s
  | .outboundAccess t cls index jb op aop addr len data dst => Sys2Proof.Machine.execOutboundAccess t cls index jb op aop addr len data dst s
  | .load t header read back => Sys2Proof.Machine.execLoad t header read back s
  | .store t header payload back => Sys2Proof.Machine.execStore t header payload back s
  | .atomic t header payload read back => Sys2Proof.Machine.execAtomic t header payload read back s
  | .loadResp t header payload => Sys2Proof.Machine.execLoadResp t header payload s
  | .storeAck t header => Sys2Proof.Machine.execStoreAck t header s
  | .atomicResp t header payload => Sys2Proof.Machine.execAtomicResp t header payload s
  | .refuse t header => Sys2Proof.Machine.execRefuse t header s
  | .thaw t header => Sys2Proof.Machine.execThaw t header s
  | .bindingCoherence t kind member line data back => Sys2Proof.Machine.execBindingCoherence t kind member line data back s
  | .transactionTimeout t tag => Sys2Proof.Machine.execTransactionTimeout t tag s
  | .quarantineClear t req => Sys2Proof.Machine.execQuarantineClear t req s
  | .sendDoorbell t q cls index jb value host => Sys2Proof.Machine.execSendDoorbell t q cls index jb value host s
  | .receiveDoorbell t q cls index jb value host => Sys2Proof.Machine.execReceiveDoorbell t q cls index jb value host s
  | .completionDoorbell t q cls index jb value => Sys2Proof.Machine.execCompletionDoorbell t q cls index jb value s
  | .hostQueueSend t q host => Sys2Proof.Machine.execHostQueueSend t q host s
  | .write t header qheader payload imm => Sys2Proof.Machine.execWrite t header qheader payload imm s
  | .send t header qheader payload imm => Sys2Proof.Machine.execSend t header qheader payload imm s
  | .readReq t header qheader bad => Sys2Proof.Machine.execReadReq t header qheader bad s
  | .readResp t header qheader payload => Sys2Proof.Machine.execReadResp t header qheader payload s
  | .atomicReq t header qheader args => Sys2Proof.Machine.execAtomicReq t header qheader args s
  | .queueAtomicResp t header qheader payload => Sys2Proof.Machine.execQueueAtomicResp t header qheader payload s
  | .ack t header qheader payload => Sys2Proof.Machine.execAck t header qheader payload s
  | .nak t header qheader payload => Sys2Proof.Machine.execNak t header qheader payload s
  | .ackTimer t q => Sys2Proof.Machine.execAckTimer t q s
  | .repeatTimeout t q psn => Sys2Proof.Machine.execRepeatTimeout t q psn s
  | .rnrRetry t q msn => Sys2Proof.Machine.execRnrRetry t q msn s
  | .qpCreate t req => Sys2Proof.Machine.execQpCreate t req s
  | .qpReset t req => Sys2Proof.Machine.execQpReset t req s
  | .qpDestroy t req => Sys2Proof.Machine.execQpDestroy t req s
  | .regionRegister t req => Sys2Proof.Machine.execRegionRegister t req s
  | .regionRevoke t req => Sys2Proof.Machine.execRegionRevoke t req s
  | .revokeTimeout t region => Sys2Proof.Machine.execRevokeTimeout t region s
  | .linkTransactionReceive t link header payload check corrected uncorrectable => Sys2Proof.Machine.execLinkTransactionReceive t link header payload check corrected uncorrectable s
  | .idle t link word => Sys2Proof.Machine.execIdle t link word s
  | .idleTimer t link => Sys2Proof.Machine.execIdleTimer t link s
  | .linkNak t link word => Sys2Proof.Machine.execLinkNak t link word s
  | .credit t link word => Sys2Proof.Machine.execCredit t link word s
  | .creditTimer t link => Sys2Proof.Machine.execCreditTimer t link s
  | .linkProbe t link word => Sys2Proof.Machine.execLinkProbe t link word s
  | .echo t link word => Sys2Proof.Machine.execEcho t link word s
  | .linkProbeTimer t link => Sys2Proof.Machine.execLinkProbeTimer t link s
  | .param t link word => Sys2Proof.Machine.execParam t link word s
  | .linkDisable t link req => Sys2Proof.Machine.execLinkDisable t link req s
  | .linkEnable t link req => Sys2Proof.Machine.execLinkEnable t link req s
  | .lightDetected t link => Sys2Proof.Machine.execLightDetected t link s
  | .trainingComplete t link => Sys2Proof.Machine.execTrainingComplete t link s
  | .testingComplete t link => Sys2Proof.Machine.execTestingComplete t link s
  | .measuringComplete t link => Sys2Proof.Machine.execMeasuringComplete t link s
  | .trainingTimeout t link cause => Sys2Proof.Machine.execTrainingTimeout t link cause s
  | .lightLost t link => Sys2Proof.Machine.execLightLost t link s
  | .lossOfLock t link => Sys2Proof.Machine.execLossOfLock t link s
  | .retrainTimeout t link => Sys2Proof.Machine.execRetrainTimeout t link s
  | .linkSilenceTimeout t link => Sys2Proof.Machine.execLinkSilenceTimeout t link s
  | .replayLimit t link => Sys2Proof.Machine.execReplayLimit t link s
  | .holdoffExpiry t link => Sys2Proof.Machine.execHoldoffExpiry t link s
  | .fenceHoldExpiry t link => Sys2Proof.Machine.execFenceHoldExpiry t link s
  | .laserSourceFault t engine removed => Sys2Proof.Machine.execLaserSourceFault t engine removed s
  | .laserSourceReady t engine tempC => Sys2Proof.Machine.execLaserSourceReady t engine tempC s
  | .bypassOpen t ring req => Sys2Proof.Machine.execBypassOpen t ring req s
  | .bypassClose t ring req => Sys2Proof.Machine.execBypassClose t ring req s
  | .bypassMoveComplete t ring => Sys2Proof.Machine.execBypassMoveComplete t ring s
  | .caseObject t j stride half raw => Sys2Proof.Machine.execCaseObject t j stride half raw s
  | .openObject t half obj => Sys2Proof.Machine.execOpenObject t half obj s
  | .keyZeroed t jb => Sys2Proof.Machine.execKeyZeroed t jb s
  | .cvuFeed t unit req => Sys2Proof.Machine.execCvuFeed t unit req s
  | .cvuFeedByte t unit req => Sys2Proof.Machine.execCvuFeedByte t unit req s
  | .cvuStart t unit req => Sys2Proof.Machine.execCvuStart t unit req s
  | .cvuRunDma t unit req => Sys2Proof.Machine.execCvuRunDma t unit req s
  | .cvuStopDma t unit req => Sys2Proof.Machine.execCvuStopDma t unit req s
  | .cvuDmaComplete t u status done data => Sys2Proof.Machine.execCvuDmaComplete t u status done data s
  | .jobStartLatencyCritical t jb req => Sys2Proof.Machine.execJobStartLatencyCritical t jb req s
  | .jobStartBestEffort t jb req => Sys2Proof.Machine.execJobStartBestEffort t jb req s
  | .jobStartComplete t jb image others => Sys2Proof.Machine.execJobStartComplete t jb image others s
  | .jobEnd t jb req => Sys2Proof.Machine.execJobEnd t jb req s
  | .jobEndComplete t jb => Sys2Proof.Machine.execJobEndComplete t jb s
  | .catchwordSweepDone t jb => Sys2Proof.Machine.execCatchwordSweepDone t jb s
  | .yieldedJobRestart t jb => Sys2Proof.Machine.execYieldedJobRestart t jb s
  | .shaperWrite t queue req => Sys2Proof.Machine.execShaperWrite t queue req s
  | .policerWrite t word policer req => Sys2Proof.Machine.execPolicerWrite t word policer req s
  | .egressDeparture t => Sys2Proof.Machine.execEgressDeparture t s
  | .hwmClear t req => Sys2Proof.Machine.execHwmClear t req s
  | .handlingEnd t unit => Sys2Proof.Machine.execHandlingEnd t unit s
  | .handlingLimitExpiry t unit => Sys2Proof.Machine.execHandlingLimitExpiry t unit s
  | .ceHourRollover t => Sys2Proof.Machine.execCeHourRollover t s
  | .nocHopRetrainDone t half hop => Sys2Proof.Machine.execNocHopRetrainDone t half hop s
  | .errlogTailWrite t req => Sys2Proof.Machine.execErrlogTailWrite t req s
  | .addrlogClear t req => Sys2Proof.Machine.execAddrlogClear t req s
  | .freezeRelease t req => Sys2Proof.Machine.execFreezeRelease t req s
  | .thawWaitEnd t cls index => Sys2Proof.Machine.execThawWaitEnd t cls index s
  | .reinstate t req => Sys2Proof.Machine.execReinstate t req s
  | .reinstateSelfTestDone t unit ok checker => Sys2Proof.Machine.execReinstateSelfTestDone t unit ok checker s
  | .injectCorrectable t unit req => Sys2Proof.Machine.execInjectCorrectable t unit req s
  | .injectUncorrectable t unit req => Sys2Proof.Machine.execInjectUncorrectable t unit req s
  | .injectPath t unit req => Sys2Proof.Machine.execInjectPath t unit req s
  | .unitProofComplete t unit ok checker => Sys2Proof.Machine.execUnitProofComplete t unit ok checker s
  | .pulseTimer t => Sys2Proof.Machine.execPulseTimer t s
  | .pulse t link word => Sys2Proof.Machine.execPulse t link word s
  | .suspectTimeout t subject => Sys2Proof.Machine.execSuspectTimeout t subject s
  | .suspect t link word => Sys2Proof.Machine.execSuspect t link word s
  | .seen t link word => Sys2Proof.Machine.execSeen t link word s
  | .dead t link word => Sys2Proof.Machine.execDead t link word s
  | .verdictTimeout t subject => Sys2Proof.Machine.execVerdictTimeout t subject s
  | .isolationTimeout t => Sys2Proof.Machine.execIsolationTimeout t s
  | .teardown t link word => Sys2Proof.Machine.execTeardown t link word s
  | .bookmarkNow t jb req => Sys2Proof.Machine.execBookmarkNow t jb req s
  | .bookmarkReadComplete t jb writer seen => Sys2Proof.Machine.execBookmarkReadComplete t jb writer seen s
  | .keepaliveTimer t sig => Sys2Proof.Machine.execKeepaliveTimer t sig s
  | .folioWrite t idx sub req => Sys2Proof.Machine.execFolioWrite t idx sub req s
  | .plithenRead t dest source payload => Sys2Proof.Machine.execPlithenRead t dest source payload s
  | .plithenWrite t dest source payload => Sys2Proof.Machine.execPlithenWrite t dest source payload s
  | .plithenDescribe t dest source payload => Sys2Proof.Machine.execPlithenDescribe t dest source payload s
  | .frameDiscard t dest ethertype payload => Sys2Proof.Machine.execFrameDiscard t dest ethertype payload s
  | .announceTimer t => Sys2Proof.Machine.execAnnounceTimer t s
  | .telemetryRead t west east => Sys2Proof.Machine.execTelemetryRead t west east s
  | .powerLimitCheck t => Sys2Proof.Machine.execPowerLimitCheck t s
  | .thermalSample t west east control dram => Sys2Proof.Machine.execThermalSample t west east control dram s
  | .vrhotAssert t east => Sys2Proof.Machine.execVrhotAssert t east s
  | .vrhotEnd t east => Sys2Proof.Machine.execVrhotEnd t east s
  | .localTimeCorrection t left => Sys2Proof.Machine.execLocalTimeCorrection t left s
  | .ucieModuleFail t module => Sys2Proof.Machine.execUcieModuleFail t module s
  | .powerOn => Sys2Proof.Machine.execPowerOn s
  | .powerLoss journalled => Sys2Proof.Machine.execPowerLoss journalled s
  | .pinReset t heldNs => Sys2Proof.Machine.execPinReset t heldNs s
  | .resetCommand t req => Sys2Proof.Machine.execResetCommand t req s
  | .watchdogExpiry t => Sys2Proof.Machine.execWatchdogExpiry t s
  | .powerFail t => Sys2Proof.Machine.execPowerFail t s
  | .powerFailPathComplete t flush => Sys2Proof.Machine.execPowerFailPathComplete t flush s
  | .initEngineStart flush pufOk failed => Sys2Proof.Machine.execInitEngineStart flush pufOk failed s
  | .memoryFillComplete t => Sys2Proof.Machine.execMemoryFillComplete t s
  | .imagesVerified t found => Sys2Proof.Machine.execImagesVerified t found s
  | .stackTrainingComplete t large => Sys2Proof.Machine.execStackTrainingComplete t large s
  | .lpddr6TrainingComplete t l f => Sys2Proof.Machine.execLpddr6TrainingComplete t l f s
  | .perstAssert t => Sys2Proof.Machine.execPerstAssert t s
  | .pcieL0Reached t rate width flit unmasked => Sys2Proof.Machine.execPcieL0Reached t rate width flit unmasked s
  | .hostReadTimeout t who => Sys2Proof.Machine.execHostReadTimeout t who s
  | .updateFirmware t req => Sys2Proof.Machine.execUpdateFirmware t req s
  | .updateConfiguration t req => Sys2Proof.Machine.execUpdateConfiguration t req s
  | .updateComplete t image readBack => Sys2Proof.Machine.execUpdateComplete t image readBack s
  | .quoteCommand t req => Sys2Proof.Machine.execQuoteCommand t req s
  | .quoteSigned t refused => Sys2Proof.Machine.execQuoteSigned t refused s
  | .tapExtest t => Sys2Proof.Machine.execTapExtest t s
  | .tapInstructionExit t => Sys2Proof.Machine.execTapInstructionExit t s
  | .ijtagAccess t instrument => Sys2Proof.Machine.execIjtagAccess t instrument s
  | .swapOutBegin t sig => Sys2Proof.Machine.execSwapOutBegin t sig s
  | .swapOutConfirmed t sig => Sys2Proof.Machine.execSwapOutConfirmed t sig s
  | .swapInGroupRead t sig objects => Sys2Proof.Machine.execSwapInGroupRead t sig objects s
  | .swapRegionReleased t jb => Sys2Proof.Machine.execSwapRegionReleased t jb s
  | .pfailRelease t => Sys2Proof.Machine.execPfailRelease t s
  | .startupCheckersProved t failed => Sys2Proof.Machine.execStartupCheckersProved t failed s

end Sys2Proof.Machine
end

