-- ==== Sys2Proof/Machine/Step.lean ====
section
/-! DEFINITION. One step of the block: the command at the front of the queue, or idling. -/

namespace Sys2Proof.Machine

open Host

/-- A command in front of the queue takes effect with the queue's rest. On an empty queue the block idles: local time counts one
nanosecond while the init engine runs (R430). [DESIGN CHOICE: log 1, 2, 5] -/
def step (s : State) : Host.Outcome State Fault Refusal := match s.pending with
  | c :: r => exec c { s with pending := r }
  | [] => .next (tickIdle s)

/-- `s` with the command that a word spells put in front of its queue; `s` itself where the word spells none. [DESIGN CHOICE: log 1] -/
def State.withFetchWord (s : State) (nbits w : Nat) : State := match decodeTableWord nbits w with
  | some c => { s with pending := c :: s.pending }
  | none => s

end Sys2Proof.Machine
end

