-- ==== Sys2Proof/Safety.lean ====
section
/-! DEFINITION. What counts as a good state and a safe run of the block, and the vocabulary of claims: the state a command answers, what
it leaves unchanged, and the taking of a folio write. -/

namespace Sys2Proof.Machine

open Host

/-- The memory of a state has its canonical form: addresses strictly rising, no entry equal to what an unlisted address reads as. -/
def State.MemOk (s : State) : Prop := Memory.wf s.mem = true

/-- `n` steps all answer a next state. -/
def safeFor : Nat → State → Prop
  | 0, _ => True
  | n + 1, s => match step s with
    | .next s2 => safeFor n s2
    | .fault _ => False
    | .refused _ => False

/-- The outcome is a next state, and `p` holds of it. -/
def Gives (o : Outcome State Fault Refusal) (p : State → Prop) : Prop := ∃ u, o = .next u ∧ p u

/-- The parts of the state: one for each field. -/
inductive Part where
  | pending | now | out | free | mem | dict | sig | cw | jobs | starts | quires | gutters | handoff | span | tier | flash | fabric
  | queue | link | press | traffic | err | kettle | power | boot
  deriving DecidableEq, Repr

/-- A part is the same in two states; memory is compared byte by byte, as it reads. -/
def Part.Same (s u : State) : Part → Prop
  | .pending => u.pending = s.pending
  | .now => u.now = s.now
  | .out => u.out = s.out
  | .free => u.freeCtr = s.freeCtr
  | .mem => ∀ a, memGet u.mem a = memGet s.mem a
  | .dict => u.dict = s.dict
  | .sig => u.sig = s.sig
  | .cw => u.cw = s.cw
  | .jobs => u.jobs = s.jobs
  | .starts => u.starts = s.starts
  | .quires => u.quires = s.quires
  | .gutters => u.gutters = s.gutters
  | .handoff => u.handoff = s.handoff
  | .span => u.span = s.span
  | .tier => u.tier = s.tier
  | .flash => u.flash = s.flash
  | .fabric => u.fabric = s.fabric
  | .queue => u.queue = s.queue
  | .link => u.link = s.link
  | .press => u.press = s.press
  | .traffic => u.traffic = s.traffic
  | .err => u.err = s.err
  | .kettle => u.kettle = s.kettle
  | .power => u.power = s.power
  | .boot => u.boot = s.boot

/-- Every part but the listed ones is the same in both states. -/
def KeepsBut (l : List Part) (s u : State) : Prop := ∀ p, p ∉ l → p.Same s u

/-- Byte `k` of memory is one of the `n` bytes that a store of device address `a` reaches. -/
def Stored (s : State) (a n k : Nat) : Prop := ∃ i, i < n ∧ canon s (a + i) = some k

/-- Every folio but the listed ones holds the same value in both states, and so does the rest of the dictionary: per-interface copies,
journal, response cache. Subindices have 8 bits (R406). -/
def FoliosBut (l : List (Nat × Nat)) (s u : State) : Prop :=
  u.dict = { s.dict with folios := u.dict.folios } ∧
  ∀ idx sub, sub < 256 → (idx, sub) ∉ l → getF u idx sub = getF s idx sub

/-- A control word arrives that link `l` takes: the link is in a state that takes its kind, and its OWN_CHECK holds (R314). -/
abbrev GoodWord (s : State) (l : Nat) (w : BitVec 256) (kind : Nat) (ok : LinkMode → Bool) : Prop :=
  ok (linkOf s l).mode = true ∧ fld w 255 248 = 0xF0 ∧ fld w 247 240 = kind ∧ (ownCheck w).toNat = fld w 95 64

/-- After a control word a live link sends what waited for replay room or credit (R313, R314). -/
def goOn (s : State) (l : Nat) : State := if linkLive (linkOf s l).mode then runLink s l else s

/-- What every control word taken does: its ACK frees the replay buffer, and a live link has heard something good. -/
def wordTaken (s : State) (l : Nat) (w : BitVec 256) : State :=
  if linkLive (linkOf s l).mode then heardGood (takeLinkAck s l (fld w 47 32)) l else s

/-- A kettle word of code `note` arrives that the link takes: no reserved bit, a NOTE code of Table 18-1 (R379). -/
abbrev GoodNote (s : State) (l : Nat) (w : BitVec 256) (note : Nat) : Prop :=
  GoodWord s l w 4 linkLive ∧ fld w 117 96 = 0 ∧ fld w 239 236 = note ∧ note < 5

/-- A flooded note is new and comes from this package's own volume (R381). -/
abbrev NewNote (s : State) (l : Nat) (w : BitVec 256) : Prop :=
  volumeOf (linkOf s l).peerEndpoint = volumeOf (ownEndpoint s) ∧
  (freshNotes s).any (fun n => decide (n.1 = fld w 235 220) && decide (n.2.1 = fld w 203 188)) = false

/-- A new note is entered, so that a repeat of it is known (R381). -/
def noteEntered (s : State) (w : BitVec 256) : State :=
  { s with kettle := { s.kettle with notes := freshNotes s ++ [(fld w 235 220, fld w 203 188, s.now)] } }

/-- A note just acted on is passed on along every link but the one it came on (R381). -/
def notePassed (s : State) (l : Nat) (w : BitVec 256) : State :=
  if speaking s then ((noteLinks s).filter (fun k => decide (k ≠ l))).foldl (fun s k => sendWord s k 4 (place (fld w 239 96) 239 96)) s else s

/-- A short handoff message of type `type` is taken: right type, live source, no reserved bit (R199, R213). -/
abbrev GoodShort (s : State) (h : BitVec 1024) (type : Nat) : Prop :=
  fld h 511 504 = type ∧ deadSource s (fld h 503 488) = false ∧ shortBad h = false

/-- A response of type `type` reaches the outstanding transaction `o` that it answers. -/
abbrev Answering (s : State) (h : BitVec 256) (type : Nat) (o : Outstanding) : Prop :=
  hType h = type ∧ hDest h = ownEndpoint s ∧ deadSource s (hSource h) = false ∧ answers s h = some o

/-- A folio write is accepted: its interface is answered and the first result of Table 19-3 that applies is 0x00. -/
abbrev Accepted (s : State) (idx sub : Nat) (req : FolioReq) : Prop :=
  answersTo s req.iface = true ∧ decideWrite s idx sub req = 0x00

/-- A write of a folio with its result is journalled, counted and reported (R411, R414, R417). -/
def writeReported (s : State) (idx sub : Nat) (req : FolioReq) (result : Nat) : State :=
  emit (recordWrite s idx sub req result) (.folioResult req.iface idx sub result)

end Sys2Proof.Machine
end

