-- ==== Sys2Proof/Certificates/Slice0/Obligations.lean ====
section
/-! DEFINITION. The statements for the provers. -/

open Host Sys2Proof Sys2Proof.Machine

/-! ### The block as a whole -/

/-- The command at the front of the queue is the one that runs, on the queue's rest. -/
def Obligations.StepRunsFrontCommand : Prop :=
  ∀ (c : Instr) (r : List Instr) (s : State), s.pending = c :: r → step s = exec c { s with pending := r }

/-- With nothing waiting the block idles: local time counts one nanosecond while the init engine or the power-fail path runs and stands
still otherwise, and nothing else changes (the tick is the model's choice, log entry 2). -/
def Obligations.EmptyQueueIdles : Prop :=
  ∀ s : State, s.pending = [] → Gives (step s) (fun u =>
    u.now = s.now + (if s.power.phase = .running ∨ s.power.phase = .entry ∨ s.power.phase = .failing then 1 else 0) ∧ KeepsBut [.now] s u)

/-- Whatever command meets whatever state, the block answers a next state: nothing stops it. -/
def Obligations.EveryCommandCompletes : Prop := ∀ (c : Instr) (s : State), Gives (exec c s) (fun _ => True)

/-- No run stops, from any state and for any number of steps. -/
def Obligations.NoRunStops : Prop := ∀ (n : Nat) (s : State), safeFor n s

/-- Every step keeps the canonical form of memory. -/
def Obligations.MemoryFormKept : Prop := ∀ s u : State, s.MemOk → step s = .next u → u.MemOk

/-- Reset memory has the canonical form, lists nothing, and every byte of it reads zero (the zero is the model's choice, log entry 3). -/
def Obligations.ResetMemoryForm : Prop := State.reset.MemOk ∧ State.reset.mem = [] ∧ ∀ a : Nat, readByte State.reset a = 0

/-- A command changes everything but the queue: what waits behind it stays as it is. -/
def Obligations.CommandsLeaveQueue : Prop := ∀ (c : Instr) (s u : State), exec c s = .next u → u.pending = s.pending

/-- After reset every folio holds the Reset value of its own row, local time is zero, no signature, job or sequencer is in use, every
link is dark and DISABLED, every bypass is closed, and no interface is answered. -/
def Obligations.ResetState : Prop :=
  (∀ idx sub : Nat, getF State.reset idx sub = folioReset idx sub) ∧
  State.reset.now = 0 ∧ State.reset.pending = [] ∧ State.reset.dict.journal = [] ∧
  (∀ n : Nat, (sigE State.reset n).state = .free) ∧
  (∀ j : Nat, (job State.reset j).mode = .free) ∧
  (∀ i : Nat, (seqOf State.reset i).running = false) ∧
  (∀ l : Nat, (linkOf State.reset l).mode = .disabled) ∧ State.reset.link.dark = true ∧
  (∀ n : Nat, (bypassOf State.reset n).closed = true) ∧
  State.reset.power.phase = .held ∧ answering State.reset = false ∧
  getF State.reset 0x1010 0x02 = 1 ∧ getF State.reset 0x7800 0x00 = 16 ∧ getF State.reset 0x7800 0x01 = 16 ∧
  getF State.reset 0x6400 0x05 = folioReset 0x6400 0x05

/-! ### Chapter 2: signatures and admission -/

/-- The commands of chapter 2, each where it acts. -/
def Obligations.SignatureCommandsComplete : Prop :=
  (∀ (t src : Nat) (request : BitVec 512) (s : State), let b := atTime t s
    deadSource b src = false →
      exec (.admissionRequest t src request) s = .next (admitRequest b src none (delayUs b src) request)) ∧
  (∀ (t sig : Nat) (ok : Bool) (words : List Nat) (s : State), let b := atTime t s
    (sigE b sig).state = .admitting →
      exec (.promptReadComplete t sig ok words) s = .next (admitNext (admitRead b sig ok words) (sigE b sig).job.toNat)) ∧
  (∀ (t sig : Nat) (s : State), let b := atTime t s
    (sigE b sig).state ≠ .free → (sigA b sig).bornNs + getF b 0x2010 0x05 * 1000000000 ≤ b.now →
      exec (.lifetimeExpiry t sig) s = .next (stopSig b sig 3 false)) ∧
  (∀ (t : Nat) (m : BitVec 256) (s : State), let b := atTime t s
    fld m 255 248 = 3 → deadSource b (fld m 207 192) = false → homeOk b m = true → exec (.homeAck t m) s = .next (homeAck b m)) ∧
  (∀ (t : Nat) (m : BitVec 256) (s : State), let b := atTime t s
    fld m 255 248 = 4 → deadSource b (fld m 207 192) = false → homeOk b m = true → exec (.endAck t m) s = .next (homeEndAck b m)) ∧
  (∀ (t : Nat) (m : BitVec 256) (s : State), let b := atTime t s
    fld m 255 248 = 2 → deadSource b (fld m 207 192) = false → homeOk b m = true → exec (.cancel t m) s = .next (stopSig b (fld m 223 208) 2 true)) ∧
  (∀ (t q : Nat) (host : List (Nat × List Byte)) (s : State), let b := hostFill (atTime t s) host
    exec (.hostQueueSend t q host) s = .next (serveHost b q)) ∧
  (∀ (t jb : Nat) (dests : List Nat) (s : State), let b := atTime t s
    roleActive b = 0 → (job b jb).mode = .running →
      exec (.prefillOfferSend t jb dests) s = .next (dests.foldl (fun u d =>
        transmit u (.message 1 d (prefillOfferHeader u jb (freshOf b % 2 ^ 32) (freshOf (draw b) % 2 ^ 32)) [])) (draw (draw b))))

/-- BUDGET_EXPIRY: a latency-critical signature whose budget is used up before it drains becomes OVERDUE and is counted for its job; in any
other case nothing happens. No other entry, no other field of the entry, no other folio and no byte of memory changes. -/
def Obligations.BudgetExpiryMarksOverdue : Prop :=
  ∀ (t sig : Nat) (s : State), let b := atTime t s
    let j := (sigE b sig).job.toNat
    (beforeDraining (sigE b sig).state = true → (sigE b sig).bestEffort = false → (sigE b sig).overdue = false → remaining b sig = some 0 →
      Gives (exec (.budgetExpiry t sig) s) (fun u =>
        sigE u sig = { sigE s sig with overdue := true } ∧ (∀ n, n ≠ sig → sigE u n = sigE s n) ∧ (∀ n, sigA u n = sigA s n) ∧
        getF u 0x2022 j = (getF s 0x2022 j + 1) % 2 ^ folioWidth 0x2022 j ∧
        FoliosBut [(0x2022, j)] s u ∧ KeepsBut [.now, .sig, .dict] s u)) ∧
    (¬(beforeDraining (sigE b sig).state = true ∧ (sigE b sig).bestEffort = false ∧ (sigE b sig).overdue = false ∧ remaining b sig = some 0) →
      exec (.budgetExpiry t sig) s = .next b)

/-- An entry that becomes FREE keeps every field but STATE, and every other entry stays as it is. -/
def Obligations.FreeEntryKeepsFields : Prop :=
  ∀ (s : State) (n : Nat), let u := setSigState s n .free
    sigE u n = { sigE s n with state := .free } ∧ ∀ m, m ≠ n → sigE u m = sigE s m

/-- A signature whose cancel is pending and that enters a state in which its holder applies it drains with reason 2 (R34); at any other
package, and without a pending cancel, only STATE changes. -/
def Obligations.PendingCancelApplied : Prop :=
  ∀ (s : State) (n : Nat) (st : SigState),
    (st = .queued ∨ st = .prefilling ∨ st = .rebuilding ∨ st = .decoding ∨ st = .preempted) →
    ((sigE s n).cancelPending = true → (sigA s n).holder = true → enterState s n st = drain (setSigState s n st) n 2) ∧
    ((sigE s n).cancelPending = false ∨ (sigA s n).holder = false → enterState s n st = setSigState s n st)

/-- KEEPALIVE_TIMER: a holder that has sent no notice for folio 0x6400.05 ms sends TOKENS with COUNT 0 and POSITION = DELIVERED, or the END
notice of an ENDED entry again; it sends nothing for an entry in FREE, ADMITTING or HANDOFF_IN, before that time, or of which it is not the
holder, or whose decode stream has passed to another package (superseded). -/
def Obligations.KeepaliveNotice : Prop :=
  ∀ (t sig : Nat) (s : State), let b := atTime t s
    let due := (sigA b sig).holder = true ∧ (sigA b sig).superseded = none ∧ (sigA b sig).noticeNs + getF b 0x6400 0x05 * 1000000 ≤ b.now
    (due → (sigE b sig).state ≠ .ended → (sigE b sig).state ≠ .free → (sigE b sig).state ≠ .admitting → (sigE b sig).state ≠ .handoffIn →
      exec (.keepaliveTimer t sig) s = .next (notify b sig 3 0 0 (sigE b sig).delivered.toNat (budgetField (remaining b sig)) [])) ∧
    (due → (sigE b sig).state = .ended →
      exec (.keepaliveTimer t sig) s =
        .next (notify b sig 4 (sigE b sig).endReason.toNat 0 (sigE b sig).genLen.toNat (budgetField (remaining b sig)) [])) ∧
    (¬due ∨ (sigE b sig).state = .free ∨ (sigE b sig).state = .admitting ∨ (sigE b sig).state = .handoffIn →
      exec (.keepaliveTimer t sig) s = .next b)

/-- PREFILL_OFFER from a live source takes the place of the offer that the same endpoint made for the same job, stamped with the time of its
arrival, and UNSIZED_MESSAGE is counted in folio 0x2050.02; neither changes anything else. -/
def Obligations.OffersAndBadMessagesKept : Prop :=
  (∀ (t endpoint jb queueUs rate : Nat) (s : State), let b := atTime t s
    let kept := s.sig.offers.filter (fun x => !(decide (x.endpoint = endpoint) && decide (x.job = jb)))
    deadSource b endpoint = false →
      exec (.prefillOffer t endpoint jb queueUs rate) s =
        .next { b with sig := { s.sig with offers :=
          kept ++ [{ endpoint := endpoint, job := jb, queueUs := queueUs, rate := rate, receivedNs := max s.now t }] } }) ∧
  (∀ (t : Nat) (s : State), let b := atTime t s
    exec (.unsizedMessage t) s = .next (incF b 0x2050 0x02) ∧
    getF (incF b 0x2050 0x02) 0x2050 0x02 = (getF s 0x2050 0x02 + 1) % 2 ^ folioWidth 0x2050 0x02 ∧
    FoliosBut [(0x2050, 0x02)] s (incF b 0x2050 0x02) ∧ KeepsBut [.now, .dict] s (incF b 0x2050 0x02))

/-! ### Chapter 3: leaves, prefixes and swaps -/

/-- The swap commands, each where it acts. -/
def Obligations.SwapCommandsComplete : Prop :=
  (∀ (t sig r : Nat) (offs : List Nat) (s : State), let b := atTime t s
    let j := (sigE b sig).job.toNat
    (sigE b sig).state = .swappingOut → stepHolds b sig = false → (job b j).swapped.any (fun o => decide (o.1 = sig)) = false →
    privateGroups b sig ≠ [] → swapRegion b j = some r →
    placeSwap b (swapSize b j) (swapGroupBytes b j) (privateGroups b sig).length ((job b j).swapped.map (fun o => (o.2.2.1, o.2.2.2))) = some offs →
      exec (.swapOutBegin t sig) s = .next (swapGroups (draw b) sig r ((privateGroups b sig).zip offs))) ∧
  (∀ (t sig : Nat) (s : State), let b := atTime t s
    (sigE b sig).state = .swappingOut → (job b (sigE b sig).job.toNat).swapped.any (fun o => decide (o.1 = sig)) = true →
      exec (.swapOutConfirmed t sig) s = .next (match (sigA (freeSwapped b sig) sig).drainAfterSwap with
        | some reason => drain (modA (freeSwapped b sig) sig (fun a => { a with drainAfterSwap := none })) sig reason
        | none => enterState (freeSwapped b sig) sig .preempted)) ∧
  (∀ (t sig p g : Nat) (ps gs : List Nat) (objects : List (List Byte)) (raws : List (List Byte)) (u s : State), let b := atTime t s
    let j := (sigE b sig).job.toNat
    (sigE b sig).state = .swappingIn → (sigA b sig).swapLeft = p :: ps → (sigA b sig).handoffGroups = g :: gs →
    openAll b j ((leafOf b j g 0).column / 512) objects = (u, some raws) → objects.length = layerCount u j →
      exec (.swapInGroupRead t sig objects) s =
        .next (swapNext (modA (placeSwapped u sig p g raws) sig (fun a => { a with swapLeft := ps, handoffGroups := gs, swapRetries := 0 })) sig)) ∧
  (∀ (t jb : Nat) (s : State), let b := atTime t s
    (job b jb).swapLeft ≠ [] → Gives (exec (.swapRegionReleased t jb) s) (fun u =>
      u.out = s.out ++ [.swapReleased jb] ∧ job u jb = { job s jb with swapLeft := [] } ∧ (∀ k, k ≠ jb → job u k = job s k) ∧
      KeepsBut [.now, .out, .jobs] s u))

/-- A group read of a swap-in that fails is made again while fewer than folio 0x2410.02 repeats have been made; after that it is logged as
an uncorrectable error of the swap path, counted in folio 0x243E of the job, and the job is torn down (R77, R240). -/
def Obligations.SwapInReadRepeats : Prop :=
  ∀ (t sig p g : Nat) (ps gs : List Nat) (objects : List (List Byte)) (u s : State), let b := atTime t s
    let j := (sigE b sig).job.toNat
    (sigE b sig).state = .swappingIn → (sigA b sig).swapLeft = p :: ps → (sigA b sig).handoffGroups = g :: gs →
    openAll b j ((leafOf b j g 0).column / 512) objects = (u, none) →
    ((sigA b sig).swapRetries < getF u 0x2410 0x02 →
      exec (.swapInGroupRead t sig objects) s =
        .next (readSwapped (incF (modA u sig (fun a => { a with swapRetries := a.swapRetries + 1 })) 0x2409 j) sig p)) ∧
    (getF u 0x2410 0x02 ≤ (sigA b sig).swapRetries →
      exec (.swapInGroupRead t sig objects) s = .next (tearDownJob (voidStep (logErr (incF u 0x243E j) 0x38 0 0 (some j) g 0) j) j))

/-- Where an element lies in a leaf's payload (R54), and that no two elements of a leaf lie at the same place or overlap. -/
def Obligations.LeafElementPlaces : Prop :=
  (∀ (i : JobImage) (h k t d : Nat), leafBit i h k t d = (((h * 2 + k) * i.leafSize + t) * i.headDim + d) * kvBits i.fmt) ∧
  (∀ (i : JobImage) (h k t d h2 k2 t2 d2 : Nat), k < 2 → k2 < 2 → t < i.leafSize → t2 < i.leafSize → d < i.headDim → d2 < i.headDim →
    (h, k, t, d) ≠ (h2, k2, t2, d2) →
      leafBit i h k t d + kvBits i.fmt ≤ leafBit i h2 k2 t2 d2 ∨ leafBit i h2 k2 t2 d2 + kvBits i.fmt ≤ leafBit i h k t d)

/-- Where a block's scales lie in a leaf's scale record (R55), and that the scales of two blocks never overlap. -/
def Obligations.LeafScalePlaces : Prop :=
  (∀ (i : JobImage) (h k t b : Nat),
    leafScaleByte i h k t b = ((h * 2 + k) * i.leafSize + t) * (i.headDim / 32) * kvScale i.fmt + b * kvScale i.fmt) ∧
  (∀ (i : JobImage) (h k t b h2 k2 t2 b2 : Nat), k < 2 → k2 < 2 → t < i.leafSize → t2 < i.leafSize → b < i.headDim / 32 → b2 < i.headDim / 32 →
    (h, k, t, b) ≠ (h2, k2, t2, b2) →
      leafScaleByte i h k t b + kvScale i.fmt ≤ leafScaleByte i h2 k2 t2 b2 ∨ leafScaleByte i h2 k2 t2 b2 + kvScale i.fmt ≤ leafScaleByte i h k t b)


/-! ### Chapter 4: step composition -/

/-- The commands of a step window, each where it acts. -/
def Obligations.StepWindowCommandsComplete : Prop :=
  (∀ (t jb : Nat) (s : State), let b := atTime t s
    stepping b jb = true → (job b jb).window ≠ 0 → (job b jb).inStep = false → (job b jb).sizedPeriod ≠ some (splitPeriod b jb) →
      exec (.splitSizing t jb) s = .next (sizeSplit jb b)) ∧
  (∀ (t jb : Nat) (x : BoundaryIn) (s : State), let b := atTime t s
    stepping b jb = true → windowEnd b jb ≤ b.now → partRuns (job b jb).gen = false → partRuns (job b jb).prompt = false →
    (job b jb).awaiting = none → (job b jb).freezeOut = [] →
      exec (.boundaryPhase t jb x) s = .next (runBoundary b jb x)) ∧
  (∀ (t jb : Nat) (s : State), let b := atTime t s
    stepping b jb = true → (job b jb).window ≠ 0 → windowStart b jb (nextFreeze (job b jb)) ≤ b.now + getF b 0x2810 0x01 * 1000 →
      exec (.composeFreeze t jb) s = .next (freezeWindow jb b)) ∧
  (∀ (t jb : Nat) (s : State), let b := atTime t s
    stepping b jb = true → (job b jb).window ≠ 0 → (job b jb).inStep = false → (job b jb).awaiting = none →
    (job b jb).windowNs + betaNs b jb ≤ b.now →
      exec (.stepPhaseStart t jb) s = .next (startPhase jb b)) ∧
  (∀ (t jb : Nat) (busy : List Nat) (s : State), let b := atTime t s
    stepping b jb = true → windowEnd b jb ≤ b.now → (job b jb).inStep = true → (job b jb).ended = false →
    (partRuns (job b jb).gen = true ∨ partRuns (job b jb).prompt = true) →
      exec (.windowEnd t jb busy) s = .next (endWindow jb busy b)) ∧
  (∀ (t jb : Nat) (s : State), let b := atTime t s
    stepping b jb = true → (job b jb).ended = true → allStopped b jb = true →
      exec (.stepCarried t jb) s = .next (settleOverrun ((job (carryPart (carryPart b jb false) jb true) jb).columns.foldl
        (fun u c => stopSeq u (128 + c)) (carryPart (carryPart b jb false) jb true)) jb)) ∧
  (∀ (t jb : Nat) (prompt : Bool) (r : StepRun) (s : State), let b := atTime t s
    stepping b jb = true → (partOf (job b jb) prompt).run = some r → r.started = true → planQuires b jb r.plan ≠ [] →
    committing b jb r = true →
      exec (.stepCommit t jb prompt) s = .next (if r.barred then voidStep b jb else commitPart b jb prompt r)) ∧
  (∀ (t ss : Nat) (image : ImageInfo) (s : State), let b := atTime t s
    getF b 0x2826 ss = 1 → (tipinLanes b ss).contains 0 = true → (tipinLanes b ss).contains (getF b 0x2824 ss) = false →
    nbit (getF b 0x2820 ss) 7 = true → ownedCode b 4 (readAt b (getF b 0x2825 ss) (some (getF b 0x2820 ss % 64)) image) = 0 →
      exec (.tipinLoadDone t ss image) s = .next (setF (setF b 0x2822 ss (setFld (getF b 0x2822 ss) (getF b 0x2824 ss)
        (16 * (tipinLanes b ss).idxOf 0 + 15) (16 * (tipinLanes b ss).idxOf 0))) 0x2826 ss 2))

/-- FREEZE_ROUTINE_RETURN of a routine that is out takes it off the list, keeps its steer values SR4 to SR15 and writes the job's gather
tables in staging, in the order given and nowhere else; a boundary phase that waits starts once the last has returned (R140). -/
def Obligations.FreezeRoutineReturns : Prop :=
  ∀ (t jb routine : Nat) (steer : List (Nat × Nat)) (tables : List (Nat × List Byte)) (s : State), let b := atTime t s
    let put (l : List Nat) (w : Nat × Nat) : List Nat := if 4 ≤ w.1 ∧ w.1 ≤ 15 then l.set (w.1 - 4) (w.2 % 65536) else l
    let r := tables.foldl (fun u w => if inStaging u jb w.1 w.2.length then writeBytes u w.1 w.2 else u)
      (modJob b jb (fun x => { x with freezeOut := x.freezeOut.erase routine, freezeSteer := steer.foldl put x.freezeSteer }))
    (job b jb).freezeOut.contains routine = true →
    ((job b jb).awaiting = none → exec (.freezeRoutineReturn t jb routine ⟨steer, tables⟩) s = .next r) ∧
    (∀ x, (job b jb).awaiting = some x → (job b jb).freezeOut = [routine] → stepping b jb = true →
      exec (.freezeRoutineReturn t jb routine ⟨steer, tables⟩) s = .next (runBoundary r jb x)) ∧
    (∀ x y z, (job b jb).awaiting = some x → (job b jb).freezeOut.erase routine = y :: z →
      exec (.freezeRoutineReturn t jb routine ⟨steer, tables⟩) s = .next r)

/-! ### Chapters 5 and 6: stitches -/

/-- The stitches that a quire runs on its SRAM and its DMA engine, each at a quire whose next stitch it is and whose operands are legal. -/
def Obligations.QuireStitchesComplete : Prop :=
  (∀ (t q j : Nat) (f : MmaFault) (s : State), let b := atTime t s
    let w := stitchAt (seqOf b q)
    issues b q 0x20 = true → discards b q 0x20 = false → (quire b q).job = some j → pairOk (fld w 119 116) (fld w 115 112) (fld w 111 108) = true →
    (mmaRanges (quire b q) w).all (fun r => localOk r.1 r.2) = true → f.bad = none →
      exec (.mmaBlk t q f) s = .next (
        let r := (List.range (fld w 93 88)).foldl (tilePass q j w f) (addF b 0x3015 q (if banksMeet (quire b q) w then f.waits else 0), 0)
        afterMismatch (advance r.1 q) q j r.2)) ∧
  (∀ (t q j : Nat) (s : State), let b := atTime t s
    let w := stitchAt (seqOf b q)
    let l := localBase (quire b q) (fld w 119 116)
    let r := localBase (quire b q) (fld w 115 112)
    let d := localBase (quire b q) (fld w 111 108)
    let word (a k : Nat) : Word32 := BitVec.ofNat 32 (readNat b (quireAddr q (a + 4 * k)) 4)
    issues b q 0x21 = true → discards b q 0x21 = false → (quire b q).job = some j → (combRanges (quire b q) w).all (fun x => localOk x.1 x.2) = true →
      exec (.combAdd t q none none) s = .next (advance (writeBytes b (quireAddr q d)
        ((List.range (fld w 107 102 * 65536 / 4)).flatMap (fun k => toBytesLE 4 (fadd32 (word l k) (word r k)).toNat))) q)) ∧
  (∀ (t q j : Nat) (s : State), let b := atTime t s
    let w := stitchAt (seqOf b q)
    let a := localBase (quire b q) (fld w 119 116)
    let d := localBase (quire b q) (fld w 115 112)
    let wd := fmtBits (fld w 111 108) / 8
    let row (r : Nat) : List Machine.Num := (List.range 128).map (fun k => elemDecode (fld w 111 108) (readNat b (quireAddr q (a + (r * 128 + k) * wd)) wd))
    issues b q 0x22 = true → discards b q 0x22 = false → (quire b q).job = some j → (cvtRanges (quire b q) w).all (fun x => localOk x.1 x.2) = true →
      exec (.cvt t q ⟨none, none⟩) s = .next (advance (storeRows b q (fld w 107 104) d ((List.range (fld w 103 98 * 128)).map row)) q)) ∧
  (∀ (t q j : Nat) (f : DmaFault) (s : State), let b := atTime t s
    let w := stitchAt (seqOf b q)
    let n := fld w 95 80 * 64
    issues b q 0x30 = true → discards b q 0x30 = false → (quire b q).job = some j → (quire b q).transfers.length < 8 →
    (dmaRows (quire b q) w).all (fun r => localOk r.1 n && dmaOk b j false r.2 n) = true →
      exec (.dmaLd t q f) s =
        .next (launchTransfer b q j (fld w 31 28) n true ((dmaRows (quire b q) w).map (fun r => (r.1.toNat, r.2.toNat))) f)) ∧
  (∀ (t q j : Nat) (f : DmaFault) (s : State), let b := atTime t s
    let w := stitchAt (seqOf b q)
    let n := fld w 95 80 * 64
    issues b q 0x31 = true → discards b q 0x31 = false → (quire b q).job = some j → (quire b q).transfers.length < 8 →
    (dmaRows (quire b q) w).all (fun r => localOk r.1 n && dmaOk b j true r.2 n) = true →
      exec (.dmaSt t q f) s =
        .next (launchTransfer b q j (fld w 31 28) n false ((dmaRows (quire b q) w).map (fun r => (r.1.toNat, r.2.toNat))) f)) ∧
  (∀ (t q j : Nat) (f : DmaFault) (s : State), let b := atTime t s
    let w := stitchAt (seqOf b q)
    let n := fld w 86 71 * 64
    let cnt := countOf b q (fld w 107 92) (nbit w.toNat 91) (fld w 90 87)
    let table := ea (quire b q) (fld w 115 112)
    let base := ea (quire b q) (fld w 111 108)
    let dst := ea (quire b q) (fld w 119 116) % 0x800000
    issues b q 0x32 = true → discards b q 0x32 = false → (quire b q).job = some j → (quire b q).transfers.length < 8 → (0 < cnt → dmaOk b j false (table : Int) (8 * cnt) = true) →
      exec (.gathLd t q f) s = .next (issueTransfer b q j
        ⟨[], fld w 70 67, true, [], f, some ⟨(quire b q).sp, table, cnt, base, dst, n⟩⟩)) ∧
  (∀ (t q j : Nat) (s : State), let b := atTime t s
    let w := stitchAt (seqOf b q)
    let n := fld w 103 88
    let src := localBase (quire b q) (fld w 119 116)
    let m := ea (quire b q) (fld w 115 112)
    issues b q 0x33 = true → discards b q 0x33 = false → (quire b q).job = some j → (putRanges (quire b q) w).all (fun x => localOk x.1 x.2) = true →
    dmaOk b j false (m : Int) (16 * n) = true → (List.range n).any (fun p => mapBad b j (mapAt b m p)) = false →
      exec (.kvPut t q none) s = .next (stopAfter (advance ((List.range n).foldl (putPosition q j w src m) b) q) q)) ∧
  (∀ (t q j : Nat) (s : State), let b := atTime t s
    let w := stitchAt (seqOf b q)
    let n := fld w 71 56
    let src := localBase (quire b q) (fld w 119 116)
    let m := ea (quire b q) (fld w 115 112)
    issues b q 0x34 = true → discards b q 0x34 = false → (quire b q).job = some j → (feedRanges (quire b q) w).all (fun x => localOk x.1 x.2) = true →
    dmaOk b j false (m : Int) (16 * n) = true →
      exec (.selFeed t q none) s = .next (stopAfter (advance ((List.range n).foldl (feedRow q j (match (job b j).prompt.run with
        | some r => (planQuires b j r.plan).contains q
        | none => false) w src m) b) q) q)) ∧
  (∀ (t q : Nat) (x : Transfer) (r : List Transfer) (s : State), let b := atTime t s
    let u := raiseEvent (modSeq (x.moves.foldl runMove b) q (fun y => { y with transfers := r })) q x.event 1
    quireWaits b q = false → (quire b q).transfers = x :: r →
      exec (.transferComplete t q) s = .next (match (quire u q).job with
        | some j => beginTransfer u q j
        | none => u))

/-- The stitches and events of both sequencer kinds that reach beyond the sequencer's own registers, each where it acts. -/
def Obligations.SequencerStitchesComplete : Prop :=
  (∀ (t c : Nat) (s : State), let b := atTime t s
    issues b (128 + c) 0x05 = true → exec (.halt t (128 + c)) s = .next (haltColumn b c)) ∧
  (∀ (t q j : Nat) (s : State), let b := atTime t s
    let w := stitchAt (seqOf b q)
    issues b q 0x14 = true → (quire b q).job = some j → exec (.guRun t q) s = .next (advance
      ((((job b j).columns.drop (fld w 119 110)).take (fld w 109 99)).foldl
        (startColumn (fld w 98 89) (if nbit w.toNat 84 then some (q, fld w 88 85) else none) (inPromptPart b j q)) b) q)) ∧
  (∀ (t id j : Nat) (s : State), let b := atTime t s
    let w := stitchAt (seqOf b id)
    issues b id 0x10 = true → (seqOf b id).job = some j → exec (.bar t id) s = .next (modSeq
      (modJob b j (fun x => { x with barriers := tput x.barriers (fld w 119 116) (tget [] x.barriers (fld w 119 116) ++ [id]) })) id
      (fun q => { q with waiting := .bar (fld w 119 116) (fld w 115 105), waitSteps := 0 }))) ∧
  (∀ (t jb bar : Nat) (s : State), let b := atTime t s
    let l := tget [] (job b jb).barriers bar
    let n := barParties b (l.headD 0)
    0 < n → n ≤ l.length → (l.take n).all (barReady b bar n) = true →
      exec (.barRelease t jb bar) s =
        .next ((l.take n).foldl endWait (modJob b jb (fun x => { x with barriers := tset [] x.barriers bar (l.drop n) })))) ∧
  (∀ (t id j k : Nat) (s : State), let b := atTime t s
    let w := stitchAt (seqOf b id)
    issues b id 0x11 = true → (seqOf b id).job = some j →
    (if nbit w.toNat 115 then (job b j).columns[fld w 114 105]?.map (· + 128) else (job b j).quires[fld w 114 105]?) = some k →
      exec (.sigPost t id) s = .next (advance (raiseEvent b k (fld w 119 116) (fld w 104 89)) id)) ∧
  (∀ (t id : Nat) (s : State), let b := atTime t s
    issues b id 0x12 = true → exec (.sigWait t id) s = .next (sigWait b id (stitchAt (seqOf b id)))) ∧
  (∀ (t id e v : Nat) (clear : Bool) (s : State), let b := atTime t s
    let q := seqOf b id
    q.waiting = .sig e v clear → q.running = true → q.stopped = false → q.frozen = false → q.trap = none → v ≤ q.events.getD e 0 →
      exec (.sigWaitRelease t id) s = .next (setSeq b id (sigPass id e v clear q))) ∧
  (∀ (t id : Nat) (s : State), let b := atTime t s
    let w := stitchAt (seqOf b id)
    issues b id 0x13 = true → exec (.ctlCall t id) s = .next (modSeq b id (fun q => { q with sp := spWrap id (q.sp + 1), calls := q.calls ++
      [{ routine := fld w 119 108, arg := ea q (fld w 107 104), event := fld w 103 100, startNs := b.now }] }))) ∧
  (∀ (t id k core j : Nat) (c : CtlCall) (writes : List (Nat × List Byte)) (ops : List SpanOp) (s : State), let b := atTime t s
    (seqOf b id).calls[k]? = some c → (seqOf b id).job = some j →
      exec (.ctlCallReturn t id k true core 0 writes ops) s =
        .next (callReturned id j c writes ops (modSeq b id (fun q => { q with calls := q.calls.eraseIdx k })))) ∧
  (∀ (t id : Nat) (s : State), let b := atTime t s
    let q := seqOf b id
    q.running = true → q.waiting ≠ .none → getF b 0x3100 0x03 < q.waitSteps →
      exec (.waitLimitTrap t id) s = .next (trapSeq b id 0x16)) ∧
  (∀ (t id : Nat) (s : State), let b := atTime t s
    issuing (seqOf b id) = true → exec (.stitchRefetchDone t id true) s =
      .next (correctableAt (refetch (if id < 128 then incF b 0x3111 id else b) id) (seqUnit id) (storeMemory id)
        (seqUnit id * 2 ^ 32 + (seqOf b id).sp * 16)))

/-- A stitch that only moves the stitch pointer, opens or closes a loop, or writes an address register changes the sequencer that runs it
as its rule says, and nothing else (the last two clauses: putting a sequencer back touches no other unit and no other kind of state). A
loop of count 0 is skipped whole; a fifth open level traps with cause 0x17, and a steer value of at least its limit with cause 0x11 (R142). The
stitch pointer has 12 bits in a quire and 10 bits in a gutter unit (R133). -/
def Obligations.SequencingStitchResults : Prop :=
  (∀ (t id : Nat) (s : State), let b := atTime t s
    let q := seqOf b id
    issues b id 0x00 = true → exec (.nop t id) s = .next (setSeq b id { q with sp := spWrap id (q.sp + 1) })) ∧
  (∀ (t id : Nat) (s : State), let b := atTime t s
    let q := seqOf b id
    let w := stitchAt q
    let n := countOf b id (fld w 107 92) (nbit w.toNat 91) (fld w 90 87)
    issues b id 0x01 = true →
    (n = 0 → exec (.lpBegin t id) s = .next (setSeq b id { q with sp := spWrap id (q.sp + fld w 119 108 + 1) })) ∧
    (n ≠ 0 → q.loops.length < 4 → exec (.lpBegin t id) s = .next (setSeq b id { q with
      sp := spWrap id (q.sp + 1), loops := q.loops ++ [{ start := q.sp + 1, endAt := q.sp + fld w 119 108, left := n, index := 0 }] })) ∧
    (n ≠ 0 → 4 ≤ q.loops.length → exec (.lpBegin t id) s = .next (trapSeq b id 0x17))) ∧
  (∀ (t id : Nat) (l : LoopLevel) (r : List LoopLevel) (s : State), let b := atTime t s
    let q := seqOf b id
    goesOn q = true → q.loops = r ++ [l] → q.sp = l.endAt + 1 →
    (1 < l.left → exec (.loopEnd t id) s = .next (setSeq b id { q with
      sp := l.start, loops := r ++ [{ l with index := l.index + 1, left := l.left - 1 }] })) ∧
    (l.left ≤ 1 → exec (.loopEnd t id) s = .next (setSeq b id { q with loops := r }))) ∧
  (∀ (t id : Nat) (s : State), let b := atTime t s
    let q := seqOf b id
    let w := stitchAt q
    let v := (steerView b id).getD (fld w 119 116) 0
    issues b id 0x02 = true →
    (v < fld w 91 84 → exec (.jmpSt t id) s = .next (setSeq b id { q with sp := spWrap id (fld w 115 104 + v * fld w 103 92) })) ∧
    (fld w 91 84 ≤ v → exec (.jmpSt t id) s = .next (trapSeq b id 0x11))) ∧
  (∀ (t id : Nat) (s : State), let b := atTime t s
    let q := seqOf b id
    let w := stitchAt q
    let a := q.aregs.set (fld w 119 116) { q.aregs.getD (fld w 119 116) ⟨0, 0, 0, 0, 0⟩ with base := BitVec.ofNat 48 (fld w 115 68) }
    issues b id 0x03 = true → exec (.arBase t id) s = .next (setSeq b id { q with sp := spWrap id (q.sp + 1), aregs := a })) ∧
  (∀ (t id : Nat) (s : State), let b := atTime t s
    let q := seqOf b id
    let w := stitchAt q
    let a := q.aregs.set (fld w 119 116) ⟨(q.aregs.getD (fld w 119 116) ⟨0, 0, 0, 0, 0⟩).base, BitVec.ofNat 24 (fld w 115 92),
      BitVec.ofNat 24 (fld w 91 68), BitVec.ofNat 24 (fld w 67 44), BitVec.ofNat 24 (fld w 43 20)⟩
    issues b id 0x04 = true → exec (.arStride t id) s = .next (setSeq b id { q with sp := spWrap id (q.sp + 1), aregs := a })) ∧
  (∀ (id : Nat) (q : Sequencer) (b : State), let u := setSeq b id q
    seqOf u id = q ∧ (∀ k, k ≠ id → seqOf u k = seqOf b k) ∧ KeepsBut [if id < 128 then .quires else .gutters] b u) ∧
  (∀ (c : Nat) (q : Sequencer) (b : State), let u := setSeq b (128 + c) q
    gutter u c = { gutter b c with seq := q } ∧ (∀ k, k ≠ c → gutter u k = gutter b k))

/-- The effective address of an address register: BASE plus, for each of four loop levels, its stride in 64-byte units times INDEX, modulo
2^48; a level that is not open counts as 0. A quire-local address is its low 23 bits, a device address all 48 (R135). -/
def Obligations.EffectiveAddress : Prop :=
  (∀ (q : Sequencer) (n : Nat), let a := q.aregs.getD n ⟨0, 0, 0, 0, 0⟩
    let i (l : Nat) : Int := match q.loops[l]? with
      | some x => (x.index : Int)
      | none => 0
    (ea q n : Int) = ((a.base.toNat : Int) + (a.s0.toInt * 64 * i 0 + a.s1.toInt * 64 * i 1 + a.s2.toInt * 64 * i 2 + a.s3.toInt * 64 * i 3)) % 2 ^ 48) ∧
  (∀ (q : Sequencer) (n : Nat), localBase q n = ea q n % 2 ^ 23 ∧ ea q n < 2 ^ 48)

/-- What a step phase that resumes nothing sets a sequencer to: SP at its entry, no loop open, every event counter zero, every address
register at the rank map's BASE with strides 0 (R134). Its job, store, entry and bases stay. -/
def Obligations.SequencerSetUp : Prop :=
  ∀ (run : Bool) (s : State) (i : Nat), let q := seqOf (setUp run s i) i
    q.sp = spWrap i (seqOf s i).entry ∧ q.loops = [] ∧ q.events = List.replicate 16 0 ∧
    q.aregs = (seqOf s i).bases.map (fun b => (⟨BitVec.ofNat 48 b, 0, 0, 0, 0⟩ : AddrReg)) ∧
    q.job = (seqOf s i).job ∧ q.store = (seqOf s i).store ∧ q.entry = (seqOf s i).entry ∧ q.bases = (seqOf s i).bases ∧
    KeepsBut [if i < 128 then .quires else .gutters] s (setUp run s i)

/-! ### Chapter 7: gutter units -/

/-- The gutter stitches, each at a column whose next stitch it is and whose operands are legal. -/
def Obligations.GutterStitchesComplete : Prop :=
  (∀ (t c j : Nat) (corrected : List Nat) (s : State), let b := atTime t s
    let w := stitchAt (seqOf b (128 + c))
    let m := colOffset b c (fld w 119 116)
    let sc := colOffset b c (fld w 115 112)
    let v := vecBytes (fld w 111 108) (fld w 94 86)
    issues b (128 + c) 0x80 = true → discards b (128 + c) 0x80 = false → (gutter b c).refreshPause = false → (seqOf b (128 + c)).job = some j →
    scratchOk (fld w 107 95) (32 * fld w 94 86) = true → fld w 111 108 ≠ 0xF → gutterOk b j c m v.1 = true →
    (0 < v.2 → gutterOk b j c sc v.2 = true) →
      exec (.gvLd t (128 + c) none corrected) s = .next (
        let u := correctColumn b c corrected
        advance (putScratch u c (fld w 107 95) (vecDecode (fld w 111 108) (fld w 94 86) (readBytes u (columnAddr c m) v.1)
          (readBytes u (columnAddr c sc) v.2))) (128 + c))) ∧
  (∀ (t c j : Nat) (s : State), let b := atTime t s
    let w := stitchAt (seqOf b (128 + c))
    let m := colOffset b c (fld w 119 116)
    let sc := colOffset b c (fld w 115 112)
    let v := vecBytes (fld w 111 108) (fld w 94 86)
    issues b (128 + c) 0x81 = true → discards b (128 + c) 0x81 = false → (gutter b c).refreshPause = false → (seqOf b (128 + c)).job = some j →
    scratchOk (fld w 107 95) (32 * fld w 94 86) = true → fld w 111 108 ≠ 0xF → gutterOk b j c m v.1 = true →
    (0 < v.2 → gutterOk b j c sc v.2 = true) →
      exec (.gvSt t ⟨128 + c, none⟩) s = .next (
        let blocks := (List.range (fld w 94 86)).map (fun k => encodeBlock (fld w 111 108) ((scratchWords b c (fld w 107 95 + 32 * k) 32).map f32))
        let u := writeBytes b (columnAddr c m) (blocks.flatMap (fun k => k.take (4 * fmtBits (fld w 111 108))))
        advance (writeBytes u (columnAddr c sc) (blocks.flatMap (fun k => k.drop (4 * fmtBits (fld w 111 108))))) (128 + c))) ∧
  (∀ (t c j : Nat) (corrected : List Nat) (s : State), let b := atTime t s
    let w := stitchAt (seqOf b (128 + c))
    let m := ea (gutter b c).seq (fld w 119 116) % 2 ^ 36
    let sc := ea (gutter b c).seq (fld w 115 112) % 2 ^ 36
    let v := vecBytes (fld w 111 108) (fld w 94 86)
    issues b (128 + c) 0x82 = true → discards b (128 + c) 0x82 = false → (gutter b c).refreshPause = false → (seqOf b (128 + c)).job = some j →
    scratchOk (fld w 107 95) (32 * fld w 94 86) = true → fld w 111 108 ≠ 0xF → c % 16 = 0 → groupViewOk b c m v.1 = true →
    (0 < v.2 → groupViewOk b c sc v.2 = true) →
    bundleFenced b c (viewPlaces m v.1 ++ viewPlaces sc v.2) = false →
      exec (.gvGld t (128 + c) none corrected) s = .next (
        let u := correctColumn b c corrected
        advance (putScratch u c (fld w 107 95) (vecDecode (fld w 111 108) (fld w 94 86) (readBytes u m v.1) (readBytes u sc v.2))) (128 + c))) ∧
  (∀ (t c j : Nat) (s : State), let b := atTime t s
    let w := stitchAt (seqOf b (128 + c))
    let n := 32 * fld w 76 68
    let x (k : Nat) : Word32 := tget 0 (gutter b c).scratch k
    issues b (128 + c) 0x88 = true → discards b (128 + c) 0x88 = false → (gutter b c).refreshPause = false → (seqOf b (128 + c)).job = some j →
    fld w 119 116 < 0xE → gvOpRanges w = true →
      exec (.gvOp t ⟨128 + c, none⟩) s = .next (advance (noteWork (putScratch b c (fld w 115 103) ((List.range n).map (fun e =>
        gvFunc (fld w 119 116) (x (fld w 102 90 + e)) (x (fld w 89 77 + e)) (x (fld w 89 77)) (x (fld w 115 103 + e))))) c) (128 + c))) ∧
  (∀ (t c j : Nat) (s : State), let b := atTime t s
    let w := stitchAt (seqOf b (128 + c))
    let xs := scratchWords b c (fld w 102 90) (32 * fld w 89 81)
    issues b (128 + c) 0x89 = true → discards b (128 + c) 0x89 = false → (gutter b c).refreshPause = false → (seqOf b (128 + c)).job = some j →
    fld w 119 116 < 3 → gvRedRanges w = true →
      exec (.gvRed t ⟨128 + c, none⟩) s = .next (advance (noteWork (putScratch b c (fld w 115 103)
        [if fld w 119 116 = 0 then tree32 xs else if fld w 119 116 = 1 then maxOf xs else tree32 (xs.map (fun x => fmul32 x x))]) c) (128 + c))) ∧
  (∀ (t c j : Nat) (l : List Nat) (corrected : List Nat) (s : State), let b := atTime t s
    let w := stitchAt (seqOf b (128 + c))
    issues b (128 + c) 0xA0 = true → discards b (128 + c) 0xA0 = false → (gutter b c).refreshPause = false → (seqOf b (128 + c)).job = some j →
    gutterOk b j c (colOffset b c (fld w 119 116)) 64 = true → columnList b c (colOffset b c (fld w 119 116)) 32 = some l →
      exec (.attRun t (128 + c) none corrected) s =
        .next (attendFrom c j (nbit w.toNat 115) (l.drop (gutter b c).attEntry) (correctColumn b c corrected))) ∧
  (∀ (t c j : Nat) (l : List Nat) (corrected : List Nat) (s : State), let b := atTime t s
    let w := stitchAt (seqOf b (128 + c))
    issues b (128 + c) 0xA1 = true → discards b (128 + c) 0xA1 = false → (gutter b c).refreshPause = false → (seqOf b (128 + c)).job = some j →
    c % 16 = 0 → fld w 115 112 ≤ 3 → gutterOk b j c (colOffset b c (fld w 119 116)) 64 = true → columnList b c (colOffset b c (fld w 119 116)) 16 = some l →
      exec (.attComb t (128 + c) none corrected) s = .next (combineFrom c j (fld w 115 112) l (correctColumn b c corrected)))

/-- The events of a column and the broadcast write, each where it acts. A spot check is counted and uses up one of the repeats that the
count of work has called for; one that differs sets the column's mismatch bit as well (R174). -/
def Obligations.ColumnEventsComplete : Prop :=
  (∀ (t c : Nat) (s : State), let b := atTime t s
    (gutter b c).repeats ≠ 0 → Gives (exec (.spotCheck t c false) s) (fun u =>
      gutter u c = { gutter s c with repeats := (gutter s c).repeats - 1 } ∧ (∀ d, d ≠ c → gutter u d = gutter s d) ∧
      getF u (0x3424 + c / 256) (c % 256) = (getF s (0x3424 + c / 256) (c % 256) + 1) % 2 ^ folioWidth (0x3424 + c / 256) (c % 256) ∧
      KeepsBut [.now, .gutters, .dict] s u ∧ FoliosBut [(0x3424 + c / 256, c % 256)] s u)) ∧
  (∀ (t c j : Nat) (s : State), let b := atTime t s
    let x := incF (modGutter b c (fun g => { g with repeats := g.repeats - 1 })) (0x3424 + c / 256) (c % 256)
    (gutter b c).repeats ≠ 0 → (gutter b c).seq.job = some j →
      exec (.spotCheck t c true) s = .next (unitEvent (uncorrectable
        (incF (modSeq x (128 + c) (fun q => { q with mismatch := true })) (0x3420 + c / 256) (c % 256)) (unitColumn c) 3 0 (some j)
        ((gutter b c).seq.sp % 1024) 0) j (unitColumn c))) ∧
  (∀ (t c id beats : Nat) (slot : Bool) (s : State),
    (ownsPort s c = false ∨ slot = true → Gives (exec (.ordinaryAccess t c id beats slot) s) (fun u =>
      u.out = s.out ++ [.columnData c id false] ∧ KeepsBut [.now, .out] s u)) ∧
    (ownsPort s c = true → slot = false → Gives (exec (.ordinaryAccess t c id beats slot) s) (fun u =>
      (gutter u c).held = (gutter s c).held ++ [{ id := id, beats := beats, sinceNs := max s.now t }] ∧
      u.out = s.out ++ [.columnData c id true] ∧ FoliosBut [(0x3414 + c / 256, c % 256)] s u ∧ KeepsBut [.now, .out, .gutters, .dict] s u))) ∧
  (∀ (t c : Nat) (s : State), let b := atTime t s
    let r := serveHeld c 64 (gutter b c).held b
    exec (.spanEnd t c) s = .next (modGutter r.1 c (fun g => { g with held := r.2 }))) ∧
  (∀ (t c : Nat) (s : State), ownsPort s c = true → (gutter s c).refreshPause = false → Gives (exec (.refreshDue t c) s) (fun u =>
    gutter u c = { gutter s c with refreshPause := true } ∧ FoliosBut [(0x341C + c / 256, c % 256)] s u ∧
    getF u (0x341C + c / 256) (c % 256) = (getF s (0x341C + c / 256) (c % 256) + 1) % 2 ^ folioWidth (0x341C + c / 256) (c % 256) ∧
    KeepsBut [.now, .gutters, .dict] s u)) ∧
  (∀ (t c : Nat) (s : State), Gives (exec (.refreshComplete t c) s) (fun u =>
    gutter u c = { gutter s c with refreshPause := false } ∧ (∀ d, d ≠ c → gutter u d = gutter s d) ∧ KeepsBut [.now, .gutters] s u)) ∧
  (∀ (t index jb addr : Nat) (data : List Byte) (s : State), let b := atTime t s
    inBroadcast addr = true → data ≠ [] → (addr - 0x180000000000) % 0x400000 + data.length ≤ 0x400000 → bundleOf b jb addr = true →
    (quire b index).job = some jb →
      exec (.broadcastWrite t 0 index jb addr data) s =
        .next ((storeMoves b 0 addr data.length).foldl (fun u m => writeBytes u m.dst data) b))

/-- The interleaved window: R153's formulas and their inverse, which undo each other. -/
def Obligations.InterleaveFormulas : Prop :=
  (∀ ci a : Nat, interleave ci a =
    (512 * (a / (512 * ci)) + a % (512 * ci) / 256 % 512, a % (512 * ci) / 256 / 512 * 256 + a % (512 * ci) % 256)) ∧
  (∀ ci c o : Nat, deinterleave ci c o = c / 512 * 512 * ci + (o / 256 * 512 + c % 512) * 256 + o % 256) ∧
  (∀ ci a : Nat, ci % 256 = 0 → 0 < ci → a < 1024 * ci →
    (interleave ci a).1 < 1024 ∧ (interleave ci a).2 < ci ∧ deinterleave ci (interleave ci a).1 (interleave ci a).2 = a) ∧
  (∀ ci c o : Nat, ci % 256 = 0 → c < 1024 → o < ci → interleave ci (deinterleave ci c o) = (c, o)) ∧
  (∀ ci a k : Nat, a % 4096 = 0 → k < 4096 → ci % 256 = 0 → 0 < ci →
    (interleave ci (a + k)).1 / 16 = (interleave ci a).1 / 16) ∧
  (∀ ci a : Nat, a % (512 * ci) + 131072 < 512 * ci → (interleave ci (a + 131072)).1 = (interleave ci a).1)

/-! ### Chapter 8: attention at distance -/

/-- The span messages and the late-host timer, each at a package that takes it; a message for another member of the ring goes on to it. -/
def Obligations.SpanMessagesComplete : Prop :=
  (∀ (t : Nat) (h : BitVec 512) (payload : List Byte) (ready : List Nat) (s : State), let b := atTime t s
    let l := (List.range (payload.length / 2)).map (fun k => ofBytesLE ((payload.drop (2 * k)).take 2))
    deadSource b (fld h 503 488) = false → fld h 511 504 = 0x20 → fld h 293 293 ≠ 0 → fld h 252 221 = payload.length → payload.length % 2 = 0 → l ≠ [] → l.length < 16 →
    l.contains (ownEndpoint b) = false →
      exec (.ringPlan t h ⟨payload, ready⟩) s = .next (sendPlan b (fld h 295 294) (l ++ [ownEndpoint b]))) ∧
  (∀ (t k : Nat) (h : BitVec 512) (payload bs : List Byte) (u s : State), let b := atTime t s
    let p := headerPass h
    let n := rowLengths (imageOf b p.job) h
    deadSource b (fld h 503 488) = false → spanOk b h 0x21 = true → fld h 252 221 = n.1 + n.2 → p.owner ≠ ownEndpoint b → overtaken b p = false →
    openSpan b p.job (n.1 + n.2) payload = (u, some bs) →
      exec (.query t ⟨ownEndpoint b, h, k⟩ payload) s = .next (takeQuery p bs n.1 (fld h 314 302) u)) ∧
  (∀ (t k : Nat) (h : BitVec 512) (payload bs : List Byte) (q : SpanPass) (u s : State), let b := atTime t s
    let p := headerPass h
    let i := imageOf b p.job
    let rows := p.qpos * i.qHeads
    deadSource b (fld h 503 488) = false → spanOk b h 0x22 = true → fld h 252 221 = rows * (64 + 4 * i.headDim) → findPass b p = some q →
    openSpan b p.job (rows * (64 + 4 * i.headDim)) payload = (u, some bs) →
      exec (.acc t ⟨ownEndpoint b, h, k⟩ payload) s =
        .next (runPass (keepRows (countHolders u p k) p.job 0 (rowsFrom i rows bs)) { q with acc := some (rowsFrom i rows bs) })) ∧
  (∀ (t k : Nat) (h : BitVec 512) (payload bs : List Byte) (q : SpanPass) (u s : State), let b := atTime t s
    let p := headerPass h
    deadSource b (fld h 503 488) = false → spanOk b h 0x23 = true → findPass b p = some q → q.owner = ownEndpoint b → openSpan b p.job (fld h 252 221) payload = (u, some bs) →
      exec (.output t ⟨ownEndpoint b, h, k⟩ payload) s = .next (putPass (countHolders u p k) { q with sent := true, output := some bs })) ∧
  (∀ (t k : Nat) (h : BitVec 512) (s : State), let b := atTime t s
    let p := headerPass h
    deadSource b (fld h 503 488) = false → spanOk b h 0x24 = true → p.owner ≠ ownEndpoint b → overtaken b p = false →
      exec (.blockReq t ⟨ownEndpoint b, h, k⟩) s = .next (runPass (openShard (dropOlder b p) p.job p.owner p.sig p.epoch p.anchor)
        { p with known := true, block := some (fld h 391 376) })) ∧
  (∀ (t k : Nat) (h : BitVec 512) (payload bs : List Byte) (q : SpanPass) (u s : State), let b := atTime t s
    let p := headerPass h
    let i := imageOf b p.job
    let l := blockLeaves b { q with spanHi := p.spanHi } (fld h 391 376) (fld h 503 488)
    deadSource b (fld h 503 488) = false → spanOk b h 0x25 = true → findPass b p = some q → p.owner = ownEndpoint b →
    q.awaits.contains (fld h 503 488) = true → fld h 252 221 = l.length * (payloadBytes i + scaleBytesOf i) → openSpan b p.job (fld h 252 221) payload = (u, some bs) →
      exec (.block t ⟨ownEndpoint b, h, k⟩ payload) s = .next (blockTaken q (l.map (fun x => x.1)) (fld h 503 488)
        (fillLeaves p.job p.layer l bs (countHolders u p k)))) ∧
  (∀ (t k : Nat) (h : BitVec 512) (payload bs : List Byte) (x : Shard) (u s : State), let b := atTime t s
    let p := headerPass h
    let i := imageOf b p.job
    let n := (rowLengths i h).2
    let v := openShard u p.job p.owner p.sig p.epoch p.anchor
    deadSource b (fld h 503 488) = false → spanOk b h 0x26 = true → fld h 252 221 = n → p.owner ≠ ownEndpoint b → overtaken b p = false →
    openSpan b p.job n payload = (u, some bs) →
    shardOf v p.job p.owner p.sig p.epoch = some x →
      exec (.kvPutMessage t ⟨ownEndpoint b, h, k⟩ payload) s = .next (takeRows (rollbackShard v x p.kvLen)
        ((shardOf (rollbackShard v x p.kvLen) p.job p.owner p.sig p.epoch).getD x) p.layer p.qp0
        (cutRows (fld h 314 302) ((kvRowBytes i).1 + (kvRowBytes i).2) bs))) ∧
  (∀ (t member k : Nat) (h : BitVec 512) (payload : List Byte) (s : State), let b := atTime t s
    deadSource b (fld h 503 488) = false → member ≠ ownEndpoint b →
      exec (.query t ⟨member, h, k⟩ payload) s = .next (relay b member h payload) ∧
      exec (.acc t ⟨member, h, k⟩ payload) s = .next (relay b member h payload) ∧
      exec (.output t ⟨member, h, k⟩ payload) s = .next (relay b member h payload) ∧
      exec (.blockReq t ⟨member, h, k⟩) s = .next (relay b member h []) ∧
      exec (.block t ⟨member, h, k⟩ payload) s = .next (relay b member h payload) ∧
      exec (.kvPutMessage t ⟨member, h, k⟩ payload) s = .next (relay b member h payload)) ∧
  (∀ (t : Nat) (h : BitVec 512) (payload bs : List Byte) (u s : State), let b := atTime t s
    let j := fld h 421 416
    deadSource b (fld h 503 488) = false → openSpan b j (fld h 252 221) payload = (u, some bs) → attendCode u h (some bs) = none →
      exec (.attend t h payload false) s = .next { u with span := { u.span with attends := u.span.attends ++
        [{ src := fld h 503 488, job := j, srcJob := nfld (ofBytesLE (payload.take 64)) 503 498, header := h, payload := bs }] } }) ∧
  (∀ (t : Nat) (h : BitVec 512) (payload bs : List Byte) (p : SpanPass) (a : HostAsk) (u s : State), let b := atTime t s
    let i := imageOf b p.job
    let n := p.qpos * i.qHeads
    let k := a.hi + 1 - a.lo
    let got := (List.range k).map (fun d => (a.hi - d, rowsFrom i n (bs.drop (d * n * (64 + 4 * i.headDim)))))
    deadSource b (fld h 503 488) = false → fld h 511 504 = 0x28 → fld h 423 422 = 0 → fld h 220 0 = 0 → askedPass b h = some (p, a) →
    fld h 252 221 = k * n * (64 + 4 * i.headDim) → openSpan b p.job (fld h 252 221) payload = (u, some bs) →
    a.late = false → a.retried = false →
      exec (.partials t h payload) s = .next (runPass (addF (got.foldl (fun u x => keepRows u p.job (x.1 + 1) x.2) u) 0x3816 p.job k)
        { p with spans := p.spans ++ got, asks := p.asks.filter (fun x => !decide (x = a)) })) ∧
  (∀ (t : Nat) (h : BitVec 512) (p : SpanPass) (a : HostAsk) (s : State), let b := atTime t s
    let late := passLate (incF b 0x3818 p.job) p a.sentNs (spansTier b p (askSpans a))
    deadSource b (fld h 503 488) = false → fld h 511 504 = 0x29 → fld h 423 422 = 0 → fld h 220 0 = 0 → askedPass b h = some (p, a) →
      (fld h 292 285 = 4 → a.retried = false → exec (.spanRefuse t h) s =
        .next (putPass late { p with asks := p.asks.map (fun x => if x = a then { a with retryDue := true } else x) })) ∧
      (fld h 292 285 ≠ 4 ∨ a.retried = true → exec (.spanRefuse t h) s =
        .next (runPass late
          { p with asks := p.asks.filter (fun x => !decide (x = a)), refused := p.refused ++ askSpans a, todo := p.todo ++ askSpans a }))) ∧
  (∀ (t jb : Nat) (s : State), let b := atTime t s
    exec (.remoteTimeout t jb) s = .next ((b.span.passes.filter (fun p => decide (p.job = jb))).foldl (fun u p =>
      putPass (p.asks.foldl (lateAsk p) (u, [])).1 { p with asks := (p.asks.foldl (lateAsk p) (u, [])).2 }) b))


/-! ### Chapter 9: handoffs -/

/-- The handoff messages and timers, each at a package that takes it. -/
def Obligations.HandoffCommandsComplete : Prop :=
  (∀ (t : Nat) (h : BitVec 1024) (words : List Nat) (readable : Bool) (s : State), let b := atTime t s
    fld h 1023 1016 = 0x10 → deadSource b (fld h 1015 1000) = false → fld h 817 816 = 0 → fld h 584 576 = 0 → fld h 415 0 = 0 →
      exec (.offer t h words readable) s = .next (onOffer b h words readable)) ∧
  (∀ (t n : Nat) (h : BitVec 1024) (objs : List (Nat × Nat × List Byte)) (s : State), let b := atTime t s
    GoodShort b h 0x11 → offered b h = some n → exec (.accept t ⟨h, objs⟩) s =
      .next (streamLeaves objs (modRecord b n (fun r => { r with fromGroup := some (fld h 407 384), accepted := true })) n (fld h 407 384))) ∧
  (∀ (t n : Nat) (h : BitVec 1024) (objs : List (Nat × Nat × List Byte)) (s : State), let b := atTime t s
    GoodShort b h 0x17 → offered b h = some n → exec (.resend t ⟨h, objs⟩) s = .next (sendLeaf objs b n (fld h 407 384) (fld h 383 376)).1) ∧
  (∀ (t n : Nat) (h : BitVec 1024) (object raw : List Byte) (r : HandoffIn) (u s : State), let b := atTime t s
    let p := fld h 407 384
    let l := fld h 383 376
    let j := (sigE b n).job.toNat
    GoodShort b h 0x12 → shortEntry b h = some n → incomingOf b n = some r → (sigE b n).state = .handoffIn → r.stopped = false →
    r.wanted.contains (p, l) = true → (sigE b n).ownerEpoch.toNat = fld h 455 424 →
    openObject b ((leafOf b j (r.groups.getD (p - r.fromGroup) 0) l).column / 512) object = (u, .ok raw) →
    raw.length = payloadBytes (imageOf u j) + scaleBytesOf (imageOf u j) → raw.length = fld h 366 335 →
      exec (.leaf t h object) s = .next (placeStreamLeaf u n p l (fld h 375 369) raw r)) ∧
  (∀ (t n : Nat) (h : BitVec 1024) (s : State), let b := atTime t s
    let j := (sigE b n).job.toNat
    let u := incF (dropRecord b n) 0x2061 j
    GoodShort b h 0x13 → shortEntry b h = some n → offered b h = some n →
      ((sigA u n).holder = true → (sigA b n).handoffKind ≠ 2 → exec (.confirm t h) s =
        .next (setSigState (modA u n (fun a => { a with probeAtNs := u.now + getF u 0x2060 0x03 * 1000 })) n .away)) ∧
      ((sigA b n).handoffKind = 2 → exec (.confirm t h) s =
        .next (freeEntry (modJob u j (fun x => { x with bookmark := { x.bookmark with requested := true } })) n)) ∧
      ((sigA u n).holder = false → (sigA b n).handoffKind ≠ 2 → exec (.confirm t h) s = .next (freeEntry u n))) ∧
  (∀ (t sig : Nat) (s : State), let b := atTime t s
    (sigA b sig).confirmWaiting = true → exec (.confirmDelivered t sig) s = .next (confirmDone b sig)) ∧
  (∀ (t sig : Nat) (r : HandoffIn) (s : State), let b := atTime t s
    (sigA b sig).confirmWaiting = true → incomingOf b sig = some r → exec (.confirmUndeliverable t sig) s =
      .next (modA (sendShort b r.sender 0x15 sig 0 0 0) sig (fun a => { a with probeAtNs := b.now + 2000000 }))) ∧
  (∀ (t sig : Nat) (r : ReleaseRecord) (s : State), let b := atTime t s
    recordOf b sig = some r →
      (r.leaseEndNs ≤ b.now → confirmQueued b sig = false → exec (.leaseExpiry t sig) s = .next (leaseExpired b sig r)) ∧
      (b.now < r.leaseEndNs ∨ confirmQueued b sig = true → exec (.leaseExpiry t sig) s = .next b)) ∧
  (∀ (t n : Nat) (h : BitVec 1024) (s : State), let b := atTime t s
    GoodShort b h 0x14 → shortEntry b h = some n →
      ((sigE b n).ownerEpoch.toNat < fld h 455 424 → exec (.claim t h) s = .next (claimed b n (fld h 503 488))) ∧
      (fld h 455 424 ≤ (sigE b n).ownerEpoch.toNat → exec (.claim t h) s = .next b)) ∧
  (∀ (t sig : Nat) (s : State), let b := atTime t s
    (sigE b sig).state = .away → (sigA b sig).probeAtNs ≤ b.now → exec (.handoffProbeTimer t sig) s =
      .next (modA (sendShort b (sigE b sig).peerEndpoint.toNat 0x15 sig 0 0 0) sig
        (fun a => { a with probeAtNs := b.now + getF b 0x2060 0x03 * 1000 }))) ∧
  (∀ (t n : Nat) (h : BitVec 1024) (s : State), let b := atTime t s
    GoodShort b h 0x15 → shortEntry b h = some n → exec (.handoffProbe t h) s =
      .next (transmit b (.message 1 (fld h 503 488) (shortHeader b 0x16 (fld h 487 472) n (sigE b n).ownerEpoch.toNat (fld h 423 418)
        (sigCode (sigE b n).state) 0 0 0 0 (fld h 334 271)) []))) ∧
  (∀ (t n : Nat) (h : BitVec 1024) (s : State), let b := atTime t s
    GoodShort b h 0x16 → shortEntry b h = some n →
      ((sigE b n).state = .away → fld h 417 414 = 0 → exec (.probeReply t h) s = .next (rebuild b n)) ∧
      ((sigE b n).state = .handoffIn → fld h 417 414 = 0 → exec (.probeReply t h) s = .next (claimed b n (fld h 503 488))))

/-- A handoff message, a span message, a loan message, a home message, an admission request or a prefill offer from a source declared dead
is counted in folio 0x6401.05 and has no other effect, whichever kind it is. -/
def Obligations.DeadSourceMessagesDropped : Prop :=
  (∀ (t src jb queueUs rate : Nat) (r : BitVec 512) (s : State), let b := atTime t s
    deadSource b src = true →
      exec (.admissionRequest t src r) s = .next (incF b 0x6401 0x05) ∧
      exec (.prefillOffer t src jb queueUs rate) s = .next (incF b 0x6401 0x05)) ∧
  (∀ (t : Nat) (m : BitVec 256) (s : State), let b := atTime t s
    deadSource b (fld m 207 192) = true →
    (fld m 255 248 = 2 → exec (.cancel t m) s = .next (incF b 0x6401 0x05)) ∧
    (fld m 255 248 = 3 → exec (.homeAck t m) s = .next (incF b 0x6401 0x05)) ∧
    (fld m 255 248 = 4 → exec (.endAck t m) s = .next (incF b 0x6401 0x05))) ∧
  (∀ (t member k : Nat) (h : BitVec 512) (payload : List Byte) (ready : Bool) (l : List Nat) (s : State), let b := atTime t s
    deadSource b (fld h 503 488) = true →
      exec (.ringPlan t h ⟨payload, l⟩) s = .next (incF b 0x6401 0x05) ∧ exec (.query t ⟨member, h, k⟩ payload) s = .next (incF b 0x6401 0x05) ∧
      exec (.acc t ⟨member, h, k⟩ payload) s = .next (incF b 0x6401 0x05) ∧ exec (.output t ⟨member, h, k⟩ payload) s = .next (incF b 0x6401 0x05) ∧
      exec (.blockReq t ⟨member, h, k⟩) s = .next (incF b 0x6401 0x05) ∧ exec (.block t ⟨member, h, k⟩ payload) s = .next (incF b 0x6401 0x05) ∧
      exec (.kvPutMessage t ⟨member, h, k⟩ payload) s = .next (incF b 0x6401 0x05) ∧
      exec (.attend t h payload ready) s = .next (incF b 0x6401 0x05) ∧ exec (.partials t h payload) s = .next (incF b 0x6401 0x05) ∧
      exec (.spanRefuse t h) s = .next (incF b 0x6401 0x05) ∧ exec (.advert t h) s = .next (incF b 0x6401 0x05) ∧
      exec (.request t h) s = .next (incF b 0x6401 0x05) ∧ exec (.grant t h) s = .next (incF b 0x6401 0x05) ∧
      exec (.recall t h) s = .next (incF b 0x6401 0x05) ∧ exec (.release t h) s = .next (incF b 0x6401 0x05)) ∧
  (∀ (t : Nat) (h : BitVec 1024) (object : List Byte) (objs : List (Nat × Nat × List Byte)) (s : State), let b := atTime t s
    deadSource b (fld h 503 488) = true →
    (fld h 511 504 = 0x11 → exec (.accept t ⟨h, objs⟩) s = .next (incF b 0x6401 0x05)) ∧
    (fld h 511 504 = 0x12 → exec (.leaf t h object) s = .next (incF b 0x6401 0x05)) ∧
    (fld h 511 504 = 0x13 → exec (.confirm t h) s = .next (incF b 0x6401 0x05)) ∧
    (fld h 511 504 = 0x14 → exec (.claim t h) s = .next (incF b 0x6401 0x05)) ∧
    (fld h 511 504 = 0x15 → exec (.handoffProbe t h) s = .next (incF b 0x6401 0x05)) ∧
    (fld h 511 504 = 0x16 → exec (.probeReply t h) s = .next (incF b 0x6401 0x05)) ∧
    (fld h 511 504 = 0x17 → exec (.resend t ⟨h, objs⟩) s = .next (incF b 0x6401 0x05)))

/-! ### Chapter 10: memory tiers and lending -/

/-- The commands of the tiers and of lending, each where it acts. -/
def Obligations.TierCommandsComplete : Prop :=
  (∀ (t : Nat) (s : State), let b := atTime t s
    exec (.demotionPass t) s = .next (emptyLoans (demotionPass b 0 []))) ∧
  (∀ (t jb group : Nat) (m : TierMove) (bad : List Nat) (objects : List (List Byte)) (s : State), let b := atTime t s
    let settled (u : State) : State := bookPumps (emptyLoans (pumpPasses u))
    let r := bad.foldl engineRepeat b
    b.tier.ending.any (fun e => decide (e.job = jb) && decide (e.group = group)) = false →
    moveOf b jb group = some m → m.started = true →
      exec (.tierMoveComplete t jb group 0 ⟨bad, objects⟩) s = .next (settled (moveDone r m objects)) ∧
      (∀ (a : Nat) (l : List Nat), bad = a :: l → exec (.tierMoveComplete t jb group 1 ⟨bad, objects⟩) s =
        .next (settled (
          let f := engineFault (l.foldl engineRepeat b) jb a
          if f.tier.moves.contains m then moveLost f m else f))) ∧
      exec (.tierMoveComplete t jb group 2 ⟨bad, objects⟩) s = .next (settled (abandonMove r m))) ∧
  (∀ (t jb group outcome : Nat) (read : MoveRead) (s : State), let b := atTime t s
    b.tier.ending.any (fun e => decide (e.job = jb) && decide (e.group = group)) = true →
      exec (.tierMoveComplete t jb group outcome read) s = .next (bookPumps (emptyLoans (pumpPasses (endWrites b jb group))))) ∧
  (∀ (t : Nat) (s : State), let b := atTime t s
    let recent := (b.tier.askers.filter (fun a => decide (b.now - a.2 ≤ 1000000000) && decide (volumeOf a.1 = volumeOf (ownEndpoint b)))).map (fun a => a.1)
    roleActive b ≠ 0xFF → exec (.advertTimer t) s = .next ((recent ++ bindingPeers b).eraseDups.foldl (fun u e =>
      (if roleActive b = 2 then [0, 1] else [0]).foldl (fun u k => sendLoan u e 0x30 0 k (freeGib u k) 0) u) b)) ∧
  (∀ (t : Nat) (s : State), let b := atTime t s
    let es := ((List.range 4).flatMap (fun k => (List.range 4).map (fun i => nfld (getF b 0x2453 k) (16 * i + 15) (16 * i)))).filter (fun e => decide (e ≠ 0))
    lenderList b = es ∧ exec (.lenderListPoll t) s = .next (es.foldl (fun u e => sendLoan u e 0x31 0 0 0 0) b)) ∧
  (∀ (t : Nat) (h : BitVec 512) (s : State), let b := atTime t s
    let src := fld h 503 488
    let u : State := { b with tier := { b.tier with askers := b.tier.askers.filter (fun a => decide (a.1 ≠ src)) ++ [(src, b.now)] } }
    deadSource b src = false → loanOk h 0x31 = true →
      (fld h 469 453 = 0 → exec (.request t h) s = .next u) ∧
      (fld h 469 453 ≠ 0 → volumeOf src ≠ volumeOf (ownEndpoint b) →
        exec (.request t h) s = .next (sendLoan u src 0x32 0 (fld h 471 470) 0 0)) ∧
      (fld h 469 453 ≠ 0 → volumeOf src = volumeOf (ownEndpoint b) → exec (.request t h) s = .next (grantLoan u src (fld h 471 470) (fld h 469 453)))) ∧
  (∀ (t k : Nat) (h : BitVec 512) (a : LoanAsked) (s : State), let b := atTime t s
    let e : LoanEntry := ⟨fld h 503 488, a.kind, false, false, a.bestEffort, fld h 469 453, fld h 452 417, fld h 487 472⟩
    deadSource b (fld h 503 488) = false → loanOk h 0x32 = true → b.tier.asked.find? (fun a => decide (a.lender = fld h 503 488) && decide (a.kind = fld h 471 470)) = some a →
    firstFrom (fun k => (tfind b.tier.loans k).isNone) 64 0 = some k → 1 ≤ fld h 469 453 → fld h 469 453 ≤ 1024 →
      exec (.grant t h) s =
        .next (loanWindows e 64 0 { b with tier := { b.tier with asked := b.tier.asked.erase a, loans := tput b.tier.loans k e } })) ∧
  (∀ (e : LoanEntry) (fuel k w : Nat) (o : OutEntry) (s : State), let u := loanWindows e fuel k s
    KeepsBut [.fabric] s u ∧ u.fabric = { s.fabric with outbound := u.fabric.outbound } ∧
    (tfind s.fabric.outbound w = some o → tfind u.fabric.outbound w = some o)) ∧
  (∀ (t : Nat) (h : BitVec 512) (s : State), let b := atTime t s
    let marked := b.tier.loans.map (fun x =>
      (x.1, if x.2.lender = fld h 503 488 ∧ x.2.loanId = fld h 487 472 then { x.2 with recalled := true } else x.2))
    deadSource b (fld h 503 488) = false → loanOk h 0x33 = true →
      exec (.recall t h) s = .next (emptyLoans (cancelInto { b with tier := { b.tier with loans := marked } }))) ∧
  (∀ (t : Nat) (h : BitVec 512) (r : LentRange) (s : State), let b := atTime t s
    deadSource b (fld h 503 488) = false → loanOk h 0x34 = true → b.tier.lent.find? (fun r => decide (r.loanId = fld h 487 472) && decide (r.borrower = fld h 503 488)) = some r →
      exec (.release t h) s = .next (reclaimLoan b r))

/-- An ADVERT takes the place of what the same lender last advertised of the same kind, and changes nothing else. -/
def Obligations.AdvertsRemembered : Prop :=
  ∀ (t : Nat) (h : BitVec 512) (s : State), deadSource s (fld h 503 488) = false → loanOk h 0x30 = true → Gives (exec (.advert t h) s) (fun u =>
    u.tier.adverts = s.tier.adverts.filter (fun x => !(decide (x.lender = fld h 503 488) && decide (x.kind = fld h 471 470)))
      ++ [{ lender := fld h 503 488, kind := fld h 471 470, freeGib := fld h 469 453, receivedNs := max s.now t }] ∧
    u.tier = { s.tier with adverts := u.tier.adverts } ∧ KeepsBut [.now, .tier] s u)

/-- What the controller reads of an LPDDR6 device: the refresh-rate indication (R224) and a retraining (R226) change the record of that
channel alone, and an on-die ECC count that has risen by n adds n correctable errors to the channel (R225). -/
def Obligations.Lpddr6Upkeep : Prop :=
  (∀ (t ch rate : Nat) (c : LpChannel) (s : State), lpChannel s ch = some c → Gives (exec (.lpddr6RefreshRateRead t ch rate) s) (fun u =>
    lpChannel u ch = some { c with refreshRate := rate } ∧ (∀ d, d ≠ ch → lpChannel u d = lpChannel s d) ∧ KeepsBut [.now, .tier] s u)) ∧
  (∀ (t ch : Nat) (c : LpChannel) (s : State), lpChannel s ch = some c → c.retrainedNs + 100000000 ≤ max s.now t →
    Gives (exec (.lpddr6Retrain t ch) s) (fun u =>
      lpChannel u ch = some { c with retrainedNs := max s.now t } ∧ (∀ d, d ≠ ch → lpChannel u d = lpChannel s d) ∧ KeepsBut [.now, .tier] s u)) ∧
  (∀ (t ch count : Nat) (c : LpChannel) (s : State), let b := atTime t s
    let r : State := { b with tier := { b.tier with channels := tput b.tier.channels ch { c with eccCount := count } } }
    lpChannel b ch = some c → exec (.lpddr6EccCountRead t ch count) s =
      .next ((List.range (count - c.eccCount)).foldl (fun u _ => correctable (incF u 0x6004 (0x10 + ch)) (unitLpddr ch)) r))

/-! ### Chapter 11: the flash tier -/

/-- The commands of the flash tier, each where it acts. -/
def Obligations.FlashCommandsComplete : Prop :=
  (∀ (t id page : Nat) (data : List Byte) (s : State), let b := atTime t s
    flashTakes b = true → page < flashPages b →
      exec (.flashWrite t id page data) s = .next (bookPumps (flashStateUpdate (showDirty (flashPump (b.flash.waiting.length + 1)
        { b with flash := { b.flash with waiting := b.flash.waiting ++
          [{ origin := .user id, page := page, channel := flashChannel b.flash page, slot := 0, seq := 0, confirmed := false,
             data := (data ++ List.replicate 4096 0).take 4096, prior := FlashMapEntry.zero }] } }))))) ∧
  (∀ (t id page : Nat) (data : List Byte) (s : State), let b := atTime t s
    flashTakes b = false ∨ flashPages b ≤ page →
      exec (.flashWrite t id page data) s = .next (bookPumps (emit b (.flashAck id false)))) ∧
  (∀ (t ch : Nat) (w : FlashWrite) (s : State), let b := atTime t s
    let stored := tput b.flash.sectors (w.channel * 2 ^ 30 + w.slot) (writtenSector w)
    let v : State := { b with flash := { b.flash with dirty := b.flash.dirty.erase w, sectors := stored } }
    let c := closeUnit v w.channel (w.slot / unitSectors b.flash.geometry)
    let u := if w.confirmed then c else flashAnswer c w true
    nextProgram b.flash ch = some w → exec (.flashProgramComplete t ch true) s =
      .next (bookPumps (flashStateUpdate (showDirty (flashPump u.flash.waiting.length u))))) ∧
  (∀ (t ch k : Nat) (read : ReclaimRead) (s : State), let b := atTime t s
    let r : State := { b with flash := { b.flash with reclaiming := if b.flash.reclaiming.contains ch then b.flash.reclaiming else ch :: b.flash.reclaiming } }
    (flashState b = 2 ∨ flashState b = 3 ∨ flashState b = 4) → reclaimWanted b ch = true → b.flash.flushing = false → chooseReclaim r ch = some k →
      (let u := (unitPages r.flash ch k).foldl (reclaimPage ch read) r
      (unitPages u.flash ch k = [] → exec (.flashReclaim t ch read) s =
        .next (bookPumps { u with flash := setFlashUnit u.flash ch k { flashUnit u.flash ch k with use := .erasing } })) ∧
      (unitPages u.flash ch k ≠ [] → exec (.flashReclaim t ch read) s = .next (bookPumps u)))) ∧
  (∀ (t ch k : Nat) (s : State), let b := atTime t s
    let e := flashUnit b.flash ch k
    let f := modFlashHealth b.flash ch (fun h => { h with eraseFails := min 65535 (h.eraseFails + 1) })
    let u := incF { b with flash := setFlashUnit b.flash ch k { e with use := .free, erases := e.erases + 1, valid := 0, next := 0 } } 0x7011 ch
    e.use = .erasing →
      exec (.flashEraseComplete t ch k true) s = .next (bookPumps (showDirty (flashPump u.flash.waiting.length (flashStateUpdate u)))) ∧
      exec (.flashEraseComplete t ch k false) s = .next (bookPumps (retireUnit { b with flash := f } ch k))) ∧
  (∀ (t : Nat) (temps : List Int) (s : State), let b := atTime t s
    2 ≤ flashState s → exec (.flashTempSample t temps) s = .next (checkpoint
      { b with flash := (s.flash.channels.zip temps).foldl (fun f e => modFlashHealth f e.1 (sampleHealth e.2)) s.flash })) ∧
  (∀ (t d : Nat) (s : State), let b := atTime t s
    let f : State := { b with flash := replayFlush b.flash }
    let o := f.flash.units.filter (fun e => decide (e.2.use = .opened))
    let r := setF (o.foldl (fun u e => closeUnit u (e.1 / 2 ^ 24) (e.1 % 2 ^ 24)) f) 0x7000 0x01 2
    let v := storeMap { r with flash := { r.flash with health := r.flash.healthSaved } } (r.flash.map.map (fun e => e.1))
    flashState b = 1 → v.flash.lastFlush = some d → exec (.flashRebuildComplete t) s =
      .next (initStage 10 (flashStateUpdate (setF v 0x7020 0x04 (2 ^ 31 + min d (2 ^ 24 - 1))))))

/-- FLASH_READ of a page inside the logical space once the map is rebuilt: a page that is not mapped, or that a discard of the
same time in the queue covers, reads as 4,096 zero bytes, a poisoned
page reports an uncorrectable read, a good one its data, one read after retries its data and a correctable error of its channel, and one
that decodes at no offset an uncorrectable error of its channel (the model's charge: log 170). A read that meets no second error of its
channel changes no map entry, no sector and no byte of memory. -/
def Obligations.FlashReadResults : Prop :=
  ∀ (t id page effort : Nat) (s : State), 2 ≤ flashState s → page < flashPages s →
    let m := tget FlashMapEntry.zero s.flash.map page
    (m.mapped = false ∨ discardQueued (atTime t s) t page = true → Gives (exec (.flashRead t id page effort) s) (fun u =>
      u.out = s.out ++ [.flashData id 0 (List.replicate 4096 0)] ∧ KeepsBut [.now, .out] s u)) ∧
    (m.mapped = true → discardQueued (atTime t s) t page = false → m.poisoned = true → Gives (exec (.flashRead t id page effort) s) (fun u =>
      u.out = s.out ++ [.flashData id 1 []] ∧ KeepsBut [.now, .out] s u)) ∧
    (m.mapped = true → discardQueued (atTime t s) t page = false → m.poisoned = false → flashEffort effort = 0 → Gives (exec (.flashRead t id page effort) s) (fun u =>
      u.out = s.out ++ [.flashData id 0 (flashPageData s.flash page)] ∧ KeepsBut [.now, .out] s u)) ∧
    (m.mapped = true → discardQueued (atTime t s) t page = false → m.poisoned = false → flashEffort effort = 1 → exec (.flashRead t id page effort) s =
      .next (emit (flashRetried (atTime t s) page) (.flashData id 0 (flashPageData s.flash page)))) ∧
    (m.mapped = true → discardQueued (atTime t s) t page = false → m.poisoned = false → flashEffort effort = 2 → exec (.flashRead t id page effort) s =
      .next (emit (flashFault (atTime t s) page 0) (.flashData id 1 []))) ∧
    (flashEffort effort ≠ 2 ∨ (unitOf s (unitFlash (flashChannel s.flash page))).slot = .idle → Gives (exec (.flashRead t id page effort) s) (fun u =>
      u.flash.map = s.flash.map ∧ u.flash.sectors = s.flash.sectors ∧ KeepsBut [.now, .out, .flash, .dict, .err] s u))

/-! ### Chapter 12: the fabric -/

/-- The commands of the fabric, each where it acts. -/
def Obligations.FabricCommandsComplete : Prop :=
  (∀ (t cls index jb op aop addr len : Nat) (data : List Byte) (dst : Option Nat) (s : State), let b := atTime t s
    let e := outboundOf b ((addr - 0xD00000000000) / 0x400000000)
    let off := (e.offsetBase + (addr - 0xD00000000000) % 0x400000000) % 2 ^ 48
    0xD00000000000 ≤ addr → addr < 0xE00000000000 → frozenOf b cls index = none → outboundRefused e cls jb = false →
      (op = 1 → dstRefused b cls jb dst len = false → exec (.outboundAccess t cls index jb op aop addr len data dst) s =
        .next ((msgPieces (off % 4096) len).foldl (issuePiece e cls index jb op aop off data dst) b)) ∧
      (op = 2 → exec (.outboundAccess t cls index jb op aop addr len data dst) s =
        .next ((msgPieces (off % 4096) data.length).foldl (issuePiece e cls index jb op aop off data dst) b)) ∧
      (op = 3 → atomicKept aop off data.length = true → exec (.outboundAccess t cls index jb op aop addr len data dst) s =
        .next (issuePiece e cls index jb op aop off data dst b (0, data.length)))) ∧
  (∀ (t : Nat) (h : BitVec 256) (read : TargetRead) (back : List (Nat × List Byte)) (s : State), let b := atTime t s
    hType h = 1 → hDest h = ownEndpoint b → deadSource b (hSource h) = false → hOffset h < 0xFF0000000000 →
      exec (.load t h read back) s = .next (serveRequest b h [] read back)) ∧
  (∀ (t : Nat) (h : BitVec 256) (payload : List Byte) (back : List (Nat × List Byte)) (s : State), let b := atTime t s
    hType h = 2 → hDest h = ownEndpoint b → deadSource b (hSource h) = false → hOffset h < 0xFF0000000000 →
      exec (.store t h payload back) s = .next (serveRequest b h payload TargetRead.clean back)) ∧
  (∀ (t : Nat) (h : BitVec 256) (payload : List Byte) (read : TargetRead) (back : List (Nat × List Byte)) (s : State), let b := atTime t s
    hType h = 3 → hDest h = ownEndpoint b → deadSource b (hSource h) = false → hOffset h < 0xFF0000000000 →
      exec (.atomic t h payload read back) s = .next (serveRequest b h payload read back)) ∧
  (∀ (t : Nat) (h : BitVec 256) (payload : List Byte) (o : Outstanding) (s : State), let b := atTime t s
    Answering b h 4 o → hStatus h = 0 → hType o.header ≠ 8 →
      exec (.loadResp t h payload) s = .next (completeTx b o 0 payload (some (hSource h)))) ∧
  (∀ (t : Nat) (h : BitVec 256) (o : Outstanding) (s : State), let b := atTime t s
    Answering b h 5 o → hStatus h = 0 →
      (hType o.header ≠ 8 → exec (.storeAck t h) s = .next (completeTx b o 0 [] (some (hSource h)))) ∧
      (hType o.header = 8 → exec (.storeAck t h) s = .next (thawAcked (completeTx b o 0 [] (some (hSource h))) o.master (hSource h)))) ∧
  (∀ (t : Nat) (h : BitVec 256) (payload : List Byte) (o : Outstanding) (s : State), let b := atTime t s
    Answering b h 6 o → hStatus h = 0 → hType o.header ≠ 8 →
      exec (.atomicResp t h payload) s = .next (completeTx b o 0 payload (some (hSource h)))) ∧
  (∀ (t : Nat) (h : BitVec 256) (o : Outstanding) (s : State), let b := atTime t s
    Answering b h 7 o → hStatus h ≠ 0 → hType o.header ≠ 8 → hMaster h / 2 ^ 13 ≠ 3 →
      exec (.refuse t h) s = .next (completeTx b o (hStatus h) [] (some (hSource h)))) ∧
  (∀ (t member line : Nat) (exclusive : Bool) (data : List Byte) (back : List (Nat × List Byte)) (s : State), let b := atTime t s
    (bindingPeers b).contains member = true → b.fabric.deadEndpoints.contains member = false →
    targetAllowed b (line / 64) 1 = true →
      exec (.bindingCoherence t (b2n exclusive) member line data back) s = .next (grantLine b member line exclusive back) ∧
      exec (.bindingCoherence t 2 member line data back) s = .next (returnLine b member line data)) ∧
  (∀ (t tag : Nat) (o : Outstanding) (s : State), let b := atTime t s
    b.fabric.outstanding.find? (fun o => decide (o.tag = tag)) = some o → o.issuedNs + getF b 0x4000 0x05 * 1000 ≤ b.now →
      exec (.transactionTimeout t tag) s = .next (emit (completeTx b o 0xA [] none) (.suspectPath o.dest))) ∧
  (∀ (t : Nat) (h : BitVec 256) (s : State), let b := atTime t s
    let keep (e : Nat × QuarantineEntry) : Bool :=
      !(decide (e.2.source = hSource h) && decide (e.2.srcJob = hSrcJob h) && decide (e.2.master = hMaster h))
    hType h = 8 → hDest h = ownEndpoint b → deadSource b (hSource h) = false → fld h 106 104 = 0 → fld h 63 0 = 0 → exec (.thaw t h) s =
      .next (respond { b with fabric := { b.fabric with quarantine := b.fabric.quarantine.filter keep } } h 5 0 [])) ∧
  (∀ (t : Nat) (view : EpochView) (d : Nat) (s : State), let b := atTime t s
    epochDue b view = some d → d ≤ b.now → speaking b = true → exec (.routeEpoch t view) s = .next (openEpoch b view))

/-- A request, or an answer, that is not for this package, and an outbound access by a frozen master, change nothing but local time. -/
def Obligations.StrangersIgnored : Prop :=
  (∀ (t : Nat) (h : BitVec 256) (payload : List Byte) (read : TargetRead) (back : List (Nat × List Byte)) (s : State), let b := atTime t s
    hDest h ≠ ownEndpoint s →
      exec (.load t h read back) s = .next b ∧ exec (.store t h payload back) s = .next b ∧ exec (.atomic t h payload read back) s = .next b ∧
      exec (.thaw t h) s = .next b ∧ exec (.loadResp t h payload) s = .next b ∧ exec (.storeAck t h) s = .next b ∧
      exec (.atomicResp t h payload) s = .next b ∧ exec (.refuse t h) s = .next b) ∧
  (∀ (t cls index jb op aop addr len : Nat) (data : List Byte) (dst : Option Nat) (s : State),
    (frozenOf s cls index).isSome = true → exec (.outboundAccess t cls index jb op aop addr len data dst) s = .next (atTime t s))

/-! ### Chapter 13: queues, keys and reliable delivery -/

/-- The commands and events of queue pairs, each where it acts. -/
def Obligations.QueueCommandsComplete : Prop :=
  (∀ (t q cls index jb value : Nat) (host : List (Nat × List Byte)) (s : State), let b := hostFill (atTime t s) host
    let u := modQp b q (fun x => { x with sqProd := indexTo x.sqProd x.sqLog value x.sqCons })
    mayRing b q cls jb = true → (qp b q).mode = .ready → exec (.sendDoorbell t q cls index jb value host) s = .next (
      if (qp u q).peerEndpoint = 0 then modQp u q (fun x => { x with bells := x.bells ++ [(x.sqProd, u.now)] }) else runSend u q)) ∧
  (∀ (t q cls index jb value : Nat) (host : List (Nat × List Byte)) (s : State), let b := hostFill (atTime t s) host
    let u := modQp b q (fun x => { x with rqProd := indexTo x.rqProd x.rqLog value x.recvDone })
    mayRing b q cls jb = true → (qp b q).mode = .ready →
      exec (.receiveDoorbell t q cls index jb value host) s = .next (pumpNotices (qp u q).notices.length u q)) ∧
  (∀ (t q cls index jb value : Nat) (s : State), let b := atTime t s
    let u := modQp b q (fun x => { x with cqCons := indexTo x.cqCons x.cqLog value x.cqCons })
    mayRing b q cls jb = true → (qp b q).mode = .ready →
      exec (.completionDoorbell t q cls index jb value) s = .next (pumpCompletions (qp u q).held.length u q)) ∧
  (∀ (t q cls index jb value : Nat) (host : List (Nat × List Byte)) (s : State), let b := hostFill (atTime t s) host
    let d := atTime t s
    (mayRing b q cls jb = false →
      exec (.sendDoorbell t q cls index jb value host) s = .next (freezeBy b cls index jb 293) ∧
      exec (.receiveDoorbell t q cls index jb value host) s = .next (freezeBy b cls index jb 293)) ∧
    (mayRing d q cls jb = false → exec (.completionDoorbell t q cls index jb value) s = .next (freezeBy d cls index jb 293)) ∧
    (mayRing b q cls jb = true → (qp b q).mode = .reset →
      exec (.sendDoorbell t q cls index jb value host) s = .next b ∧ exec (.receiveDoorbell t q cls index jb value host) s = .next b) ∧
    (mayRing d q cls jb = true → (qp d q).mode = .reset → exec (.completionDoorbell t q cls index jb value) s = .next d)) ∧
  (∀ (t : Nat) (h g : BitVec 256) (payload : List Byte) (imm : Bool) (bad : Option Nat) (s : State), let b := atTime t s
    (packetHere b h 0x40 = true → exec (.write t h g payload imm) s = .next (recvWrite b h g payload imm)) ∧
    (packetHere b h 0x41 = true → exec (.send t h g payload imm) s = .next (recvSend b h g payload imm)) ∧
    (packetHere b h 0x42 = true → exec (.readReq t h g bad) s = .next (recvReadReq (packetError b h g [] bad) h g bad.isSome)) ∧
    (packetHere b h 0x43 = true → exec (.readResp t h g payload) s = .next (recvReadResp b h g payload)) ∧
    (packetHere b h 0x44 = true → exec (.atomicReq t h g ⟨payload, bad⟩) s =
      .next (recvAtomicReq (packetError b h g payload bad) h g payload bad.isSome)) ∧
    (packetHere b h 0x45 = true → exec (.queueAtomicResp t h g payload) s = .next (recvAtomicResp b h g payload)) ∧
    (packetHere b h 0x46 = true → exec (.ack t h g payload) s = .next (recvAck b h g payload)) ∧
    (packetHere b h 0x47 = true → exec (.nak t h g payload) s = .next (recvNak b h g payload))) ∧
  (∀ (t q t0 : Nat) (s : State), let b := atTime t s
    (qp b q).ackOldestNs = some t0 → t0 + 2000 ≤ b.now → (qp b q).mode = .ready → (qp b q).frozen = false →
      exec (.ackTimer t q) s = .next (sendAckNak b q none 0)) ∧
  (∀ (t q psn : Nat) (p : TxPacket) (s : State), let b := atTime t s
    (qp b q).tx.find? (fun p => decide (p.psn = psn)) = some p → overdue p (getF b 0x4100 0x04 * 1000) b.now = true →
    (qp b q).mode = .ready → (qp b q).frozen = false → exec (.repeatTimeout t q psn) s = .next (repeatPacket b q p)) ∧
  (∀ (t q msn due : Nat) (m : SendMsg) (s : State), let b := atTime t s
    let r := modMsg b q msn (fun y => { y with rnrAtNs := none, rnrTries := y.rnrTries + 1 })
    (qp b q).msgs.find? (fun m => decide (m.msn = msn)) = some m → m.rnrAtNs = some due → due ≤ b.now →
    (qp b q).mode = .ready → (qp b q).frozen = false → exec (.rnrRetry t q msn) s =
      .next (((qp r q).tx.filter (fun p => decide (p.msn = msn))).foldl (fun u p =>
        sendTx (modQp u q (fun x => { x with tx := x.tx.map (fun y => if y = p then { p with departNs := none } else y) })) q
          { p with departNs := none }) r)) ∧
  (∀ (t k : Nat) (s : State), let b := atTime t s
    (regionOf b k).mode = .draining → (regionOf b k).drainNs + getF b 0x4100 0x08 * 1000000 ≤ b.now →
      exec (.revokeTimeout t k) s = .next (finishRevoke b k))

/-- A queue packet that is not for this package, or is of another known kind, and a timer of a queue pair that is not READY or is frozen, change nothing; a packet of a TYPE that
no table gives is refused with status 0x7 (R269, R297). -/
def Obligations.IdleQueuePairsSilent : Prop :=
  (∀ (t : Nat) (h g : BitVec 256) (payload : List Byte) (imm : Bool) (s : State), let b := atTime t s
    (packetHere b h 0x40 = false → knownType (hType h) = true ∨ hDest h ≠ ownEndpoint b → exec (.write t h g payload imm) s = .next b) ∧
    (packetHere b h 0x46 = false → knownType (hType h) = true ∨ hDest h ≠ ownEndpoint b → exec (.ack t h g payload) s = .next b) ∧
    (knownType (hType h) = false → hDest h = ownEndpoint b → deadSource b (hSource h) = false → quarantined b h = false →
      exec (.write t h g payload imm) s = .next (refuseTx b h 7) ∧ exec (.ack t h g payload) s = .next (refuseTx b h 7))) ∧
  (∀ (t q psn msn : Nat) (s : State), let b := atTime t s
    (qp s q).mode ≠ .ready ∨ (qp s q).frozen = true →
      exec (.ackTimer t q) s = .next b ∧ exec (.repeatTimeout t q psn) s = .next b ∧ exec (.rnrRetry t q msn) s = .next b ∧
      exec (.hostQueueSend t q []) s = .next b)

/-! ### Chapter 14: links, optics and bypass -/

/-- What a link does with what it receives, and its timers, each where it acts. -/
def Obligations.LinkTrafficComplete : Prop :=
  (∀ (t l : Nat) (h : BitVec 256) (payload : List Byte) (s : State), let b := atTime t s
    let u : State := { b with err := { b.err with corruptNext := b.err.corruptNext.erase l } }
    let taken (x : Link) : Link := { x with rxSeq := (x.rxSeq + 1) % 65536, nakOut := false, ackSinceNs := if x.ackSinceNs.isSome then x.ackSinceNs else some b.now }
    linkLive (linkOf b l).mode = true → (linkOf b l).rsOn = false → b.err.corruptNext.contains l = false → fld h 63 48 = (linkOf b l).rxSeq →
      (exec (.linkTransactionReceive t l h payload (linkCheck h payload) 0 0) s = .next (runLinks (passOn
        (freeBuffer (modLink (heardGood (takeLinkAck u l (fld h 47 32)) l) l taken) l (hVn h) payload) l h payload))) ∧
      (exec (.linkTransactionReceive t l h payload (~~~(linkCheck h payload)) 0 0) s =
        .next (stompCopy (freeBuffer (incF (modLink u l taken) 0x4807 l) l (hVn h) payload) h payload)) ∧
      (∀ check, check ≠ linkCheck h payload → check ≠ ~~~(linkCheck h payload) →
        exec (.linkTransactionReceive t l h payload check 0 0) s =
          .next (correctable (stompCopy (sendLinkNak (incF u 0x4805 l) l) h payload) (unitLink l)))) ∧
  (∀ (t l : Nat) (h : BitVec 256) (payload : List Byte) (check : BitVec 32) (s : State), let b := atTime t s
    let u : State := { b with err := { b.err with corruptNext := b.err.corruptNext.erase l } }
    let heard := if b.err.corruptNext.contains l = false ∧ check = linkCheck h payload then heardGood u l else u
    linkLive (linkOf b l).mode = true → (linkOf b l).rsOn = false → fld h 63 48 ≠ (linkOf b l).rxSeq →
      exec (.linkTransactionReceive t l h payload check 0 0) s = .next (if (linkOf b l).nakOut then heard else sendLinkNak heard l)) ∧
  (∀ (t l : Nat) (w : BitVec 256) (s : State), let b := atTime t s
    GoodWord b l w 0 linkLive → exec (.idle t l w) s = .next (goOn (wordTaken b l w) l)) ∧
  (∀ (t l t0 : Nat) (s : State), let b := atTime t s
    (linkOf b l).ackSinceNs = some t0 → t0 + 100 ≤ b.now → linkLive (linkOf b l).mode = true → exec (.idleTimer t l) s = .next (sendIdle b l)) ∧
  (∀ (t l : Nat) (w : BitVec 256) (s : State), let b := atTime t s
    let u := wordTaken b l w
    let x := linkOf u l
    let run := if x.nakSeq = fld w 239 224 ∧ 0 < x.nakRun then x.nakRun + 1 else 1
    let v := setLink u l { x with nakSeq := fld w 239 224, nakRun := run }
    GoodWord b l w 1 linkLive →
      (run < 8 → exec (.linkNak t l w) s = .next (goOn (replayFrom v l (fld w 239 224)) l)) ∧
      (8 ≤ run → exec (.linkNak t l w) s = .next (goOn (enterRetrain v l) l))) ∧
  (∀ (t l : Nat) (w : BitVec 256) (s : State), let b := atTime t s
    let more (x : Link) : List Nat :=
      [x.credit.getD 0 0 + fld w 239 224, x.credit.getD 1 0 + fld w 223 208, x.credit.getD 2 0 + fld w 207 192]
    GoodWord b l w 5 linkLive → exec (.credit t l w) s = .next (goOn (modLink (wordTaken b l w) l (fun x => { x with credit := more x })) l)) ∧
  (∀ (t l t0 : Nat) (s : State), let b := atTime t s
    (linkOf b l).freedNs = some t0 → t0 + 1000 ≤ b.now → linkLive (linkOf b l).mode = true → exec (.creditTimer t l) s = .next (sendCredit b l)) ∧
  (∀ (t l : Nat) (w : BitVec 256) (s : State), let b := atTime t s
    let u := wordTaken b l w
    GoodWord b l w 2 probing → exec (.linkProbe t l w) s =
      .next (goOn (sendWord u l 3 (place (fld w 239 192) 239 192 + place u.now 191 144 + place u.now 143 96)) l)) ∧
  (∀ (t l : Nat) (w : BitVec 256) (s : State), let b := atTime t s
    let u := wordTaken b l w
    let d (x y : Nat) : Nat := (x % 2 ^ 48 + 2 ^ 48 - y) % 2 ^ 48
    let twice := d (d u.now (fld w 239 192)) (d (fld w 143 96) (fld w 191 144))
    let samples := (twice :: (linkOf u l).samples).take 16
    GoodWord b l w 3 probing → exec (.echo t l w) s =
      .next (goOn (newDelay (modLink u l (fun x => { x with samples := samples })) l ((samples.foldl min twice + 1) / 2)) l)) ∧
  (∀ (t l : Nat) (s : State), let b := atTime t s
    (linkOf b l).mode = .measuring ∨ (linkLive (linkOf b l).mode = true ∧ (linkOf b l).probeNs + 1000000 ≤ b.now) →
      exec (.linkProbeTimer t l) s = .next (sendWord (setLink b l { linkOf b l with probeNs := b.now }) l 2 (place b.now 239 192))) ∧
  (∀ (t l : Nat) (w : BitVec 256) (s : State), let b := atTime t s
    let rs := nbit w.toNat 215 || (linkOf b l).rsAsked
    GoodWord b l w 6 (fun m => decide (m = .training) || decide (m = .retrain)) → (linkOf b l).mode = .training → 8 ≤ l →
      exec (.param t l w) s =
        .next (setLink b l { linkOf b l with peerEndpoint := fld w 239 224, peerLink := fld w 223 216, rsOn := rs, paramSeen := true })) ∧
  (∀ (t : Nat) (s : State), let b := atTime t s
    exec (.egressDeparture t) s = .next (noteHeld ((linksIn b (fun m => decide (m = .active))).foldl runLink b)))

/-- The state changes of a link that its own events bring: each acts where its row of Table 14-6 or its rule says, and in every other case
leaves everything but local time, and whether light falls on the link, as it was. A fenced link whose hold ends while its bit [1] of folio 0x4802.ll is set is disabled (R389). -/
def Obligations.LinkEventsComplete : Prop :=
  (∀ (t l : Nat) (s : State), let b := modLink (atTime t s) l (fun x => { x with light := true })
    let x := linkOf b l
    let may := x.mode = .down ∧ x.holdoffNs ≤ b.now ∧ laserReady b l = true ∧ fibreOpen b l = true ∧ b.link.dark = false
    (may → exec (.lightDetected t l) s = .next (sendParam (setLink b l { x with mode := .training, sinceNs := b.now, paramSeen := false }) l)) ∧
    (¬may → exec (.lightDetected t l) s = .next b)) ∧
  (∀ (t l : Nat) (s : State), let b := atTime t s
    let x := linkOf b l
    let may := x.mode = .training ∧ x.paramSeen = true
    (may → exec (.trainingComplete t l) s = .next (setLink b l { x with mode := .testing, sinceNs := b.now })) ∧
    (¬may → exec (.trainingComplete t l) s = .next b)) ∧
  (∀ (t l : Nat) (s : State), let b := atTime t s
    let x := linkOf b l
    let may := x.mode = .testing ∧ x.sinceNs + 2000000 ≤ b.now
    (may → exec (.testingComplete t l) s = .next (setLink b l { x with mode := .measuring, sinceNs := b.now, samples := [], lane := 0 })) ∧
    (¬may → exec (.testingComplete t l) s = .next b)) ∧
  (∀ (t l : Nat) (s : State), let b := atTime t s
    let x := linkOf b l
    let x0 : Link := { x with mode := .up, sinceNs := b.now, txSeq := 0, rxSeq := 0, replay := [], credit := [2048, 256, 256], freed := [0, 0, 0] }
    let y : Link := { x0 with freedNs := none, nakOut := false, nakRun := 0, lastGoodNs := b.now, ackSinceNs := none, probeNs := b.now }
    let may := x.mode = .measuring ∧ 16 ≤ x.samples.length
    (may → exec (.measuringComplete t l) s = .next (initStage 7 (noteChange (setLink b l y)))) ∧
    (¬may → exec (.measuringComplete t l) s = .next b)) ∧
  (∀ (t l cause : Nat) (s : State), let b := atTime t s
    let may := (linkOf b l).mode = .training ∨ (linkOf b l).mode = .testing ∨ (linkOf b l).mode = .measuring
    (may → exec (.trainingTimeout t l cause) s = .next (failTraining b l cause)) ∧
    (¬may → exec (.trainingTimeout t l cause) s = .next b)) ∧
  (∀ (t l : Nat) (s : State), let b := atTime t s
    let live := (linkOf b l).mode = .up ∨ (linkOf b l).mode = .active
    let silent := (linkOf b l).lastGoodNs + 100000 ≤ b.now
    let d := modLink b l (fun x => { x with light := false })
    (live → exec (.lightLost t l) s = .next (enterDown d l)) ∧
    (¬live → exec (.lightLost t l) s = .next d) ∧
    (live ∧ silent → exec (.linkSilenceTimeout t l) s = .next (enterDown b l)) ∧
    (¬(live ∧ silent) → exec (.linkSilenceTimeout t l) s = .next b)) ∧
  (∀ (t l : Nat) (s : State), let b := atTime t s
    ((linkOf b l).mode = .active → exec (.lossOfLock t l) s = .next (sendParam (incF
      (modLink b l (fun x => { x with mode := .retrain, sinceNs := b.now, nakRun := 0, nakOut := false, paramSeen := false })) 0x4806 l) l)) ∧
    ((linkOf b l).mode ≠ .active → exec (.lossOfLock t l) s = .next b)) ∧
  (∀ (t l : Nat) (s : State), let b := atTime t s
    let may := (linkOf b l).mode = .retrain ∧ (linkOf b l).sinceNs + getF b 0x4800 0x02 * 1000 ≤ b.now
    (may → exec (.retrainTimeout t l) s = .next (enterDown b l)) ∧
    (¬may → exec (.retrainTimeout t l) s = .next b)) ∧
  (∀ (t l : Nat) (s : State), let b := atTime t s
    let may := (linkOf b l).mode = .fenced ∧ (linkOf b l).sinceNs + getF b 0x6400 0x04 * 1000000 ≤ b.now
    (may → nbit (getF b 0x4802 l) 1 = false → exec (.fenceHoldExpiry t l) s = .next (tryTrain (enterDown b l) l)) ∧
    (may → nbit (getF b 0x4802 l) 1 = true → exec (.fenceHoldExpiry t l) s = .next (disableLink (enterDown b l) l)) ∧
    (¬may → exec (.fenceHoldExpiry t l) s = .next b))

/-- A link that makes more replays within a second than folio 0x4800.03 allows enters DOWN with a hold-off of folio 0x4800.04 ms that doubles
with every further such entry within an hour; the fourth time it is fenced instead (R321). A hold-off that has passed is cleared, and the
link trains again where light falls on it and its laser source is ready (Table 14-6). -/
def Obligations.ReplayLimitHoldsOff : Prop :=
  (∀ (t l : Nat) (s : State), let b := atTime t s
    let x := linkOf b l
    let times := x.limitNs.filter (fun a => decide (b.now - a ≤ 3600000000000)) ++ [b.now]
    let u := setLink b l { x with limitNs := times, holdoffNs := b.now + getF b 0x4800 0x04 * 1000000 * 2 ^ (times.length - 1) }
    linkLive x.mode = true → getF b 0x4800 0x03 < resentSince x b.now →
      (times.length < 4 → exec (.replayLimit t l) s = .next (enterDown u l)) ∧
      (4 ≤ times.length → exec (.replayLimit t l) s = .next (fence u (unitLink l) 4))) ∧
  (∀ (t l : Nat) (s : State), let b := atTime t s
    let x := linkOf b l
    let open0 := setLink b l { x with holdoffNs := 0 }
    let may := x.mode = .down ∧ x.light = true ∧ laserReady open0 l = true ∧ fibreOpen open0 l = true ∧ b.link.dark = false
    (x.holdoffNs ≤ b.now → ¬may → exec (.holdoffExpiry t l) s = .next open0) ∧
    (x.holdoffNs ≤ b.now → may → exec (.holdoffExpiry t l) s = .next (sendParam
      (setLink open0 l { x with holdoffNs := 0, mode := .training, sinceNs := b.now, paramSeen := false }) l)) ∧
    (b.now < x.holdoffNs → exec (.holdoffExpiry t l) s = .next b))

/-- Laser sources and bypass switches: a fault or a removal takes the links of the engine out of service and is logged with cause 0x32, a
module that reports ready is shown and its links with light train; a switch that has finished moving stands where its move led, and one that was told to close while it
opened starts to close (R309, R322, Table 14-8). -/
def Obligations.LasersAndBypasses : Prop :=
  (∀ (t e : Nat) (removed : Bool) (s : State), let b := atTime t s
    exec (.laserSourceFault t e removed) s = .next (logErr (((List.range 8).map (fun i => 8 * e + i)).foldl laserDown
      (setLaser b e { tget LaserSource.zero b.link.lasers e with present := !removed, ready := false, fault := !removed })) 0x32 0 1 none e 0)) ∧
  (∀ (t e tempC : Nat) (s : State), let b := atTime t s
    exec (.laserSourceReady t e tempC) s = .next (initStage 6
      (((List.range 8).map (fun i => 8 * e + i)).foldl tryTrain (setLaser b e { present := true, ready := true, fault := false, tempC := tempC })))) ∧
  (∀ (t n : Nat) (s : State), n < 4 → (bypassOf s n).move = .opening → Gives (exec (.bypassMoveComplete t n) s) (fun u =>
    bypassOf u n = { bypassOf s n with closed := false, move := .still } ∧ FoliosBut [(0x4810, n)] s u ∧ KeepsBut [.now, .link, .dict] s u)) ∧
  (∀ (t n : Nat) (s : State), let b := atTime t s
    (bypassOf b n).move = .closing → exec (.bypassMoveComplete t n) s =
      .next (darkRing (setBypass b n { bypassOf b n with closed := true, move := .still }) n)) ∧
  (∀ (t n : Nat) (s : State), (bypassOf s n).move = .openingThenClose → Gives (exec (.bypassMoveComplete t n) s) (fun u =>
    bypassOf u n = { bypassOf s n with closed := false, move := .closing, sinceNs := max s.now t } ∧ u.out = s.out ++ [.bypassPulse n true])) ∧
  (∀ (t n : Nat) (s : State), (bypassOf s n).move = .still → exec (.bypassMoveComplete t n) s = .next (atTime t s))

/-! ### Chapter 15: press, casing and check values -/

/-- Casing and opening. An object of a job whose key is installed is cased by the least-loaded pair of the half: pressed where that is
shorter and folio 0x5000.02 allows it, sealed under the key with an IV of endpoint, salt, pair and count, and framed with header, tag and
check value (R329 to R336). One that opens yields its bytes; one that fails reports its cause of Table 15-3, counted in folio 0x5008.
A transfer of the CVU that has finished gives the command its bytes and clears its busy bit of folio 0x504A; a key that is being
zeroed is gone, and its job's slot free, once no engine works under it. -/
def Obligations.PressCommandsComplete : Prop :=
  (∀ (t j stride half n : Nat) (raw : List Byte) (key : BitVec 256) (s : State), let a := atTime t s
    let b := if tget 0 (keySlot a j).counts n + 1 = 2 ^ 40 then saltRedraw a j else a
    let k := keySlot b j
    let cnt := tget 0 k.counts n
    let coded := codeBody (strideBytes stride) raw
    let pressed := decide (coded.length < raw.length) && decide (getF b 0x5000 0x02 = 1)
    let body := if pressed then coded else raw
    let iv := place (ownEndpoint b) 95 80 + place k.salt 79 48 + place n 47 40 + place cnt 39 0
    let h := casedHeader j stride pressed (keyId key) iv raw.length body.length
    let x := gcmSeal (keyBytes key) (toBytesLE 12 iv) h body
    let object := h ++ x.1 ++ x.2 ++ toBytesLE 8 (crc64 (h ++ x.1 ++ x.2)) ++ List.replicate 8 0
    let counted : State := { b with press := { b.press with keys := tset KeySlot.zero b.press.keys j { k with counts := tput k.counts n (cnt + 1) } } }
    (keySlot a j).key = some key → (keySlot a j).zeroing = false → raw ≠ [] → raw.length ≤ 67108864 → stride < 3 →
    pickEngine a a.press.encBusy half = some n →
      exec (.caseObject t j stride half raw) s = .next (emit (addF (addF (incF (busyEngine counted true n j raw.length) 0x5003 j)
        0x5004 j raw.length) 0x5005 j object.length) (.cased j object))) ∧
  (∀ (t half n : Nat) (object bytes : List Byte) (key : BitVec 256) (s : State), let b := atTime t s
    let h := ofBytesLE (object.take 64)
    let body := nfld h 319 288
    let raw := nfld h 351 320
    let j := nfld h 503 498
    96 + body ≤ object.length → ofBytesLE ((object.drop (80 + body)).take 8) = crc64 (object.take (80 + body)) →
    nfld h 511 504 = 1 → nfld h 497 496 ≠ 3 → nfld h 494 480 = 0 → nfld h 287 0 = 0 → raw ≠ 0 → raw ≤ 67108864 → body ≤ raw →
    nbit h 495 = true ∨ body = raw → (keySlot b j).zeroing = false → (keySlot b j).key = some key → keyId key = nfld h 479 448 →
    gcmOpen (keyBytes key) (toBytesLE 12 (nfld h 447 352)) (object.take 64) ((object.drop 64).take body) ((object.drop (64 + body)).take 16) = some bytes →
    pickEngine b b.press.decBusy half = some n →
      (nbit h 495 = false → exec (.openObject t half object) s = .next (emit (busyEngine b false n j raw) (.opened j bytes))) ∧
      (∀ l, nbit h 495 = true → decodeBody (strideBytes (nfld h 497 496)) (raw / 4096 + 2) raw bytes = some l →
        exec (.openObject t half object) s = .next (emit (busyEngine b false n j raw) (.opened j l)))) ∧
  (∀ (t half c n : Nat) (object : List Byte) (s : State), openBytes (atTime t s) object = .error c →
    pickEngine (atTime t s) s.press.decBusy half = some n →
    Gives (exec (.openObject t half object) s) (fun u =>
      u.out = s.out ++ [.openFailed (nfld (ofBytesLE (object.take 64)) 503 498) c] ∧
      getF u 0x5008 c = (getF s 0x5008 c + 1) % 2 ^ folioWidth 0x5008 c ∧ FoliosBut [(0x5008, c)] s u ∧
      KeepsBut [.now, .out, .dict, .press] s u)) ∧
  (∀ (t k a n status done : Nat) (data : List Byte) (s : State), let b := atTime t s
    let m := if status = 0 then n else min done n
    let taken := if mapped b a n then readBytes b a m else data.take m
    let u := setBitF (cvuBytes { b with press := { b.press with cvuDma := tdel b.press.cvuDma k } } k taken) 0x504A k 0 false
    tfind b.press.cvuDma k = some (a, n) → exec (.cvuDmaComplete t k status done data) s = .next (if status = 0 then u else cvuRaise u k 1)) ∧
  (∀ (t j : Nat) (s : State), let b := atTime t s
    let zeroed := setF (setKeySlot b j KeySlot.zero) 0x5002 j 0
    (keySlot b j).zeroing = true → (keySlot b j).key ≠ none →
      ((keySlot b j).busyNs ≤ b.now → exec (.keyZeroed t j) s = .next (setF (setJobMode zeroed j .free) 0x5414 j 0)) ∧
      (b.now < (keySlot b j).busyNs → exec (.keyZeroed t j) s = .next b))

/-! ### Chapter 19: commands given by writing a folio -/


/-- Each accepted folio write with a row of its own is recorded and reported, and does its own action: those that command signatures, steps
and jobs; lending, flash, queues, regions and rings; catchword units, records, errors and boot. -/
def Obligations.FolioCommandsComplete : Prop :=
  (∀ (t : Nat) (req : FolioReq) (s : State), let b := atTime t s
    let q := req.withValue 1
    Accepted b 0x2031 0x01 q → exec (.countClear t req) s = .next (countClearAction (writeReported b 0x2031 0x01 q 0))) ∧
  (∀ (t : Nat) (req : FolioReq) (s : State), let b := atTime t s
    Accepted b 0x2040 0x00 req → exec (.snapIndex t req) s = .next (let u := setIf (writeReported b 0x2040 0x00 req 0) req.iface 0x2040 0x00 (req.value % 65536); { u with dict := { u.dict with snaps := tput u.dict.snaps req.iface (entryWord (sigE u (req.value % 65536))) } })) ∧
  (∀ (t slot : Nat) (req : FolioReq) (s : State), let b := atTime t s
    Accepted b 0x2824 slot req → exec (.tipinLoad t slot req) s = .next (setF (setF (writeReported b 0x2824 slot req 0) 0x2824 slot req.value) 0x2826 slot 1)) ∧
  (∀ (t : Nat) (req : FolioReq) (s : State), let b := atTime t s
    Accepted b 0x2060 0x07 req → exec (.rebalance t req) s = .next (moveNow (rebalanceAction req.value (writeReported b 0x2060 0x07 req 0)) (sigE (writeReported b 0x2060 0x07 req 0) (nfld req.value 15 0)).job.toNat)) ∧
  (∀ (t jb : Nat) (req : FolioReq) (s : State), let b := atTime t s
    let q := req.withValue 1
    Accepted b 0x6415 jb q → exec (.bookmarkNow t jb req) s = .next (modJob (writeReported b 0x6415 jb q 0) jb (fun x => { x with bookmark := { x.bookmark with requested := true } }))) ∧
  (∀ (t jb : Nat) (req : FolioReq) (s : State), let b := atTime t s
    let q := req.withValue 1
    Accepted b 0x5412 jb q → exec (.jobStartLatencyCritical t jb req) s = .next (startAction false jb (writeReported b 0x5412 jb q 0))) ∧
  (∀ (t jb : Nat) (req : FolioReq) (s : State), let b := atTime t s
    let q := req.withValue 2
    Accepted b 0x5412 jb q → exec (.jobStartBestEffort t jb req) s = .next (startAction true jb (writeReported b 0x5412 jb q 0))) ∧
  (∀ (t jb : Nat) (req : FolioReq) (s : State), let b := atTime t s
    let q := req.withValue 3
    Accepted b 0x5412 jb q → exec (.jobEnd t jb req) s = .next (endAction jb (writeReported b 0x5412 jb q 0))) ∧
  (∀ (t : Nat) (req : FolioReq) (s : State), let b := atTime t s
    Accepted b 0x2450 0x06 req → exec (.loanRecall t req) s = .next (loanRecallAction req.value (writeReported b 0x2450 0x06 req 0))) ∧
  (∀ (t : Nat) (req : FolioReq) (s : State), let b := atTime t s
    Accepted b 0x7000 0x08 req → exec (.discardRange t req) s = .next (discardAction req.value (writeReported b 0x7000 0x08 req 0))) ∧
  (∀ (t : Nat) (req : FolioReq) (s : State), let b := atTime t s
    Accepted b 0x7030 0x05 req → exec (.bookmarkDiscard t req) s = .next (discardGen req.value 1 (discardGen req.value 0 (writeReported b 0x7030 0x05 req 0)))) ∧
  (∀ (t : Nat) (req : FolioReq) (s : State), let b := atTime t s
    Accepted b 0x4021 0x01 req → exec (.quarantineClear t req) s = .next (quarantineClearAction req.value (writeReported b 0x4021 0x01 req 0))) ∧
  (∀ (t : Nat) (req : FolioReq) (s : State), let b := atTime t s
    let q := req.withValue 1
    Accepted b 0x4101 0x05 q → exec (.qpCreate t req) s = .next (createQp (writeReported b 0x4101 0x05 q 0) (getIf (writeReported b 0x4101 0x05 q 0) req.iface 0x4101 0x00) (contextOf (stagedQp (writeReported b 0x4101 0x05 q 0) req.iface)))) ∧
  (∀ (t : Nat) (req : FolioReq) (s : State), let b := atTime t s
    let q := req.withValue 2
    Accepted b 0x4101 0x05 q → exec (.qpReset t req) s = .next (resetQp (writeReported b 0x4101 0x05 q 0) (getIf (writeReported b 0x4101 0x05 q 0) req.iface 0x4101 0x00))) ∧
  (∀ (t : Nat) (req : FolioReq) (s : State), let b := atTime t s
    let q := req.withValue 3
    Accepted b 0x4101 0x05 q → exec (.qpDestroy t req) s = .next (destroyQp (writeReported b 0x4101 0x05 q 0) (getIf (writeReported b 0x4101 0x05 q 0) req.iface 0x4101 0x00))) ∧
  (∀ (t : Nat) (req : FolioReq) (s : State), let b := atTime t s
    let q := req.withValue 1
    Accepted b 0x4102 0x03 q → exec (.regionRegister t req) s = .next (registerRegion (writeReported b 0x4102 0x03 q 0) (getIf (writeReported b 0x4102 0x03 q 0) req.iface 0x4102 0x00) (getIf (writeReported b 0x4102 0x03 q 0) req.iface 0x4102 0x01) (getIf (writeReported b 0x4102 0x03 q 0) req.iface 0x4102 0x02))) ∧
  (∀ (t : Nat) (req : FolioReq) (s : State), let b := atTime t s
    let q := req.withValue 2
    Accepted b 0x4102 0x03 q → exec (.regionRevoke t req) s = .next (revokeRegion (writeReported b 0x4102 0x03 q 0) (getIf (writeReported b 0x4102 0x03 q 0) req.iface 0x4102 0x00))) ∧
  (∀ (t ring : Nat) (req : FolioReq) (s : State), let b := atTime t s
    let q := req.withValue 1
    Accepted b 0x4811 ring q → exec (.bypassOpen t ring req) s = .next (bypassOpenAction ring (writeReported b 0x4811 ring q 0))) ∧
  (∀ (t ring : Nat) (req : FolioReq) (s : State), let b := atTime t s
    let q := req.withValue 2
    Accepted b 0x4811 ring q → exec (.bypassClose t ring req) s = .next (bypassCloseAction ring (writeReported b 0x4811 ring q 0))) ∧
  (∀ (t unit : Nat) (req : FolioReq) (s : State), let b := atTime t s
    Accepted b 0x5044 unit req → exec (.cvuFeed t unit req) s = .next (cvuBytes (writeReported b 0x5044 unit req 0) unit (toBytesLE 8 req.value))) ∧
  (∀ (t unit : Nat) (req : FolioReq) (s : State), let b := atTime t s
    Accepted b 0x5045 unit req → exec (.cvuFeedByte t unit req) s = .next (cvuFeedByteAction unit req.value (writeReported b 0x5045 unit req 0))) ∧
  (∀ (t unit : Nat) (req : FolioReq) (s : State), let b := atTime t s
    let q := req.withValue 1
    Accepted b 0x5048 unit q → exec (.cvuStart t unit req) s = .next (cvuStartAction unit (writeReported b 0x5048 unit q 0))) ∧
  (∀ (t unit : Nat) (req : FolioReq) (s : State), let b := atTime t s
    let q := req.withValue 2
    Accepted b 0x5048 unit q → exec (.cvuRunDma t unit req) s = .next (cvuRunAction unit (writeReported b 0x5048 unit q 0))) ∧
  (∀ (t unit : Nat) (req : FolioReq) (s : State), let b := atTime t s
    let q := req.withValue 3
    Accepted b 0x5048 unit q → exec (.cvuStopDma t unit req) s = .next (cvuStopAction unit (writeReported b 0x5048 unit q 0))) ∧
  (∀ (t : Nat) (req : FolioReq) (s : State), let b := atTime t s
    let q := req.withValue 1
    Accepted b 0x5402 0x01 q → exec (.hwmClear t req) s = .next (hwmClearAction (writeReported b 0x5402 0x01 q 0))) ∧
  (∀ (t : Nat) (req : FolioReq) (s : State), let b := atTime t s
    Accepted b 0x6000 0x03 req → exec (.errlogTailWrite t req) s = .next (tailAction (req.value % 65536) (writeReported b 0x6000 0x03 req 0))) ∧
  (∀ (t : Nat) (req : FolioReq) (s : State), let b := atTime t s
    Accepted b 0x6007 0x03 req → exec (.addrlogClear t req) s = .next (addrlogClearAction req.value (writeReported b 0x6007 0x03 req 0))) ∧
  (∀ (t : Nat) (req : FolioReq) (s : State), let b := atTime t s
    Accepted b 0x6010 0x01 req → exec (.freezeRelease t req) s = .next (releaseAction req.value (writeReported b 0x6010 0x01 req 0))) ∧
  (∀ (t : Nat) (req : FolioReq) (s : State), let b := atTime t s
    Accepted b 0x6021 0x01 req → exec (.reinstate t req) s = .next (reinstateAction req.value (writeReported b 0x6021 0x01 req 0))) ∧
  (∀ (t unit : Nat) (req : FolioReq) (s : State), let b := atTime t s
    let q := req.withValue (place unit 31 16 + place 1 15 8)
    Accepted b 0x6030 0x01 q → exec (.injectCorrectable t unit req) s = .next (injectCorrectableAction (unit % 65536) (writeReported b 0x6030 0x01 q 0))) ∧
  (∀ (t unit : Nat) (req : FolioReq) (s : State), let b := atTime t s
    let q := req.withValue (place unit 31 16 + place 2 15 8)
    Accepted b 0x6030 0x01 q → exec (.injectUncorrectable t unit req) s = .next (injectUncorrectableAction (unit % 65536) (writeReported b 0x6030 0x01 q 0))) ∧
  (∀ (t unit : Nat) (req : FolioReq) (s : State), let b := atTime t s
    let q := req.withValue (place unit 31 16 + place 3 15 8)
    Accepted b 0x6030 0x01 q → exec (.injectPath t unit req) s = .next (injectPathAction (unit % 65536) (writeReported b 0x6030 0x01 q 0))) ∧
  (∀ (t : Nat) (req : FolioReq) (s : State), let b := atTime t s
    let q := req.withValue 0xA5
    Accepted b 0x7810 0x02 q → exec (.resetCommand t req) s = .next (enterReset 4 (writeReported b 0x7810 0x02 q 0))) ∧
  (∀ (t : Nat) (req : FolioReq) (s : State), let b := atTime t s
    let q := req.withValue 1
    Accepted b 0x7C40 0x02 q → exec (.updateFirmware t req) s = .next (updateAction 1 (writeReported b 0x7C40 0x02 q 0))) ∧
  (∀ (t : Nat) (req : FolioReq) (s : State), let b := atTime t s
    let q := req.withValue 2
    Accepted b 0x7C40 0x02 q → exec (.updateConfiguration t req) s = .next (updateAction 2 (writeReported b 0x7C40 0x02 q 0))) ∧
  (∀ (t : Nat) (req : FolioReq) (s : State), let b := atTime t s
    let q := req.withValue 1
    Accepted b 0x7C30 0x06 q → exec (.quoteCommand t req) s = .next (quoteAction (writeReported b 0x7C30 0x06 q 0)))


/-- The accepted writes of folios that hold a value: what is stored, and what the new value brings about. A write of folio 0x4802.ll
disables the link or returns it to DOWN when bit [1] changes, and a write of a policer sets its buckets full. -/
def Obligations.StoringFolioCommands : Prop :=
  (∀ (t idx sub : Nat) (req : FolioReq) (s : State), let b := atTime t s
    Accepted b idx sub req → exec (.folioWrite t idx sub req) s = .next (applyWrite (writeReported b idx sub req 0) req.iface idx sub req.value req.hwSets)) ∧
  (∀ (t idx sub : Nat) (req : FolioReq) (r : FolioRow) (s : State), let b := atTime t s
    Accepted b idx sub req → folioRow idx sub = some r → r.access = .rw → r.perInterface = true →
      Gives (exec (.folioWrite t idx sub req) s) (fun u => getIf u req.iface idx sub = req.value &&& r.mask)) ∧
  (∀ (t link : Nat) (req : FolioReq) (s : State), let b := atTime t s
    let q := req.withValue (setFld req.value 1 1 1)
    let u := setF (writeReported b 0x4802 link q 0) 0x4802 link (q.value &&& 3)
    Accepted b 0x4802 link q →
      (nbit (getF b 0x4802 link) 1 = false → exec (.linkDisable t link req) s = .next (disableLink u link)) ∧
      (nbit (getF b 0x4802 link) 1 = true → exec (.linkDisable t link req) s = .next u)) ∧
  (∀ (t link : Nat) (req : FolioReq) (s : State), let b := atTime t s
    let q := req.withValue (setFld req.value 0 1 1)
    let u := setF (writeReported b 0x4802 link q 0) 0x4802 link (q.value &&& 3)
    Accepted b 0x4802 link q →
      (nbit (getF b 0x4802 link) 1 = true → exec (.linkEnable t link req) s = .next (enableLink u link)) ∧
      (nbit (getF b 0x4802 link) 1 = false → exec (.linkEnable t link req) s = .next u)) ∧
  (∀ (t word policer : Nat) (req : FolioReq) (s : State), let b := atTime t s
    let idx := 0x5430 + word % 3
    Accepted b idx policer req → Gives (exec (.policerWrite t word policer req) s) (fun u =>
      tfind u.traffic.policers policer = none ∧ tfind u.dict.folios (folioKey idx policer) = some (req.value &&& ((folioRow idx policer).map (fun r => r.mask)).getD 0)))

/-- R352: an accepted write of a shaper replaces RATE, BURST and ENABLE and sets T to BURST or to zero as FILL says, all in the state in
which the queues are next served; a burst below 8 KiB or a rate outside 1 to 3,584,000 MB/s is refused. -/
def Obligations.ShaperWriteEffect : Prop :=
  (∀ (t q : Nat) (req : FolioReq) (s : State), let b := atTime t s
    let idx := if q < 64 then 0x5420 else 0x5421
    let sub := if q < 64 then q else q - 64
    q < 66 → Accepted b idx sub req → ∃ u, exec (.shaperWrite t q req) s = .next (runLinks u) ∧
      nbit (shaperWord u q) 63 = nbit req.value 63 ∧ nfld (shaperWord u q) 55 32 = nfld req.value 55 32 ∧
      nfld (shaperWord u q) 31 0 = nfld req.value 31 0 ∧
      tfind u.traffic.shapers q = some { tokens := if nbit req.value 62 then nfld req.value 55 32 * 1024 * 1000 else 0, atNs := b.now } ∧
      (∀ k, k ≠ q → k < 66 → shaperWord u k = shaperWord b k ∧ tfind u.traffic.shapers k = tfind b.traffic.shapers k) ∧
      KeepsBut [.dict, .out, .traffic] b u) ∧
  (∀ (t q : Nat) (req : FolioReq) (s : State), let b := atTime t s
    let idx := if q < 64 then 0x5420 else 0x5421
    let sub := if q < 64 then q else q - 64
    q < 66 → answersTo b req.iface = true → req.malformed = false → req.width = 64 → req.value < 2 ^ 64 →
    (frozenOf b 5 req.iface).isSome = false →
    nfld req.value 55 32 < 8 ∨ nfld req.value 31 0 < 1 ∨ 3584000 < nfld req.value 31 0 →
      exec (.shaperWrite t q req) s = .next (writeReported b idx sub req 0x13))

/-- R417: folio 0x1018.ii holds result, index and subindex of an interface's latest write; folios 0x1019.ii and 0x101A.ii count its writes
and those that failed. They stand so before the write's own action, and the folios of the other interfaces do not change. -/
def Obligations.WriteResultsCounted : Prop :=
  ∀ (t idx sub : Nat) (req : FolioReq) (s : State), let b := atTime t s
    let x := decideWrite b idx sub req
    let u := writeReported b idx sub req x
    answersTo b req.iface = true → idx < 65536 → sub < 256 →
      exec (.folioWrite t idx sub req) s = .next (if x = 0 then applyWrite u req.iface idx sub req.value req.hwSets else refusalNote u idx sub req.value x) ∧
      getF u 0x1018 req.iface = x * 2 ^ 24 + idx * 2 ^ 8 + sub ∧
      getF u 0x1019 req.iface = (getF b 0x1019 req.iface + 1) % 2 ^ 32 ∧
      getF u 0x101A req.iface = (if x = 0x00 ∨ x = 0x01 then getF b 0x101A req.iface else (getF b 0x101A req.iface + 1) % 2 ^ 32) ∧
      (∀ k, k < 4 → k ≠ req.iface → getF u 0x1018 k = getF b 0x1018 k ∧ getF u 0x1019 k = getF b 0x1019 k ∧ getF u 0x101A k = getF b 0x101A k)

/-- Every folio write answered is journalled with its result and the interface's origin, whatever becomes of it; a write that is not
applied leaves the folio as it was. -/
def Obligations.WritesJournalled : Prop :=
  (∀ (idx sub : Nat) (req : FolioReq) (x : Nat) (s : State),
    let u := writeReported s idx sub req x
    ∃ e, u.dict.journal.getLast? = some e ∧ e.index = idx ∧ e.sub = sub ∧ e.result = x ∧ e.source = req.iface ∧ e.origin = req.origin ∧
      e.value = req.value % 2 ^ 64 ∧ e.timeNs = s.now ∧ e.seq = getF s 0x1010 0x02) ∧
  (∀ (t idx sub : Nat) (req : FolioReq) (s : State), let b := atTime t s
    decideWrite b idx sub req ≠ 0 → idx ≠ 0x1010 → idx ≠ 0x1018 → idx ≠ 0x1019 → idx ≠ 0x101A → sub < 256 →
      Gives (exec (.folioWrite t idx sub req) s) (fun u => getF u idx sub = getF b idx sub ∧ ∀ k, getIf u k idx sub = getIf b k idx sub))

/-- What reads do: a write-only folio reads as zero, a folio held as such reads as it is held, and a read over the management port or the
management window sends an answer and changes no folio and no journal entry. -/
def Obligations.ReadsChangeNothing : Prop :=
  (∀ (s : State) (iface idx sub : Nat) (r : FolioRow), folioRow idx sub = some r → r.access = .wo → readFolio s iface idx sub = 0) ∧
  (∀ (s : State) (iface idx sub : Nat) (r : FolioRow), folioRow idx sub = some r → r.access ≠ .wo → viewOf s iface idx sub = none →
    readFolio s iface idx sub = if r.perInterface then getIf s iface idx sub else getF s idx sub) ∧
  (∀ (t dest source : Nat) (payload : List Byte) (s : State), let b := atTime t s
    answering b = true → pduOp payload ≠ 2 → pduOp payload ≠ 3 → frameHere b dest 0x88B5 = true →
      Gives (exec (.plithenRead t dest source payload) s) (fun u =>
        KeepsBut [.dict, .out, .free] b u ∧ u.dict = { b.dict with cache := u.dict.cache })) ∧
  (∀ (t : Nat) (h : BitVec 256) (read : TargetRead) (back : List (Nat × List Byte)) (r : FolioRow) (s : State), let b := atTime t s
    let idx := nfld (hOffset h) 31 16
    let sub := nfld (hOffset h) 15 8
    hType h = 1 → hDest h = ownEndpoint b → deadSource b (hSource h) = false → 0xFF0000000000 ≤ hOffset h → answersTo b 0 = true →
    folioRow idx sub = some r → windowMalformed h idx sub (hLenM1 h + 1) = false →
      exec (.load t h read back) s = .next (respond b h 4 0 (toBytesLE (hLenM1 h + 1) (readFolio b 0 idx sub))))

/-- The frames of the management port: requests addressed to it are answered, others are counted and dropped, and an announcement is
broadcast with three values unless folio 0x1040.05 is zero. What the announcement's header gives beyond OP and COUNT is free. -/
def Obligations.PlithenCommandsComplete : Prop :=
  (∀ (t dest source : Nat) (payload : List Byte) (s : State), let b := atTime t s
    answering b = true → frameHere b dest 0x88B5 = true →
      (pduOp payload ≠ 2 → pduOp payload ≠ 3 → exec (.plithenRead t dest source payload) s = .next (plithenAnswer b source payload)) ∧
      (pduOp payload = 2 → dest ≠ broadcastMac → exec (.plithenWrite t dest source payload) s = .next (plithenAnswer b source payload)) ∧
      (pduOp payload = 3 → exec (.plithenDescribe t dest source payload) s = .next (plithenAnswer b source payload))) ∧
  (∀ (t dest ethertype : Nat) (payload : List Byte) (s : State), let b := atTime t s
    answering b = true → frameHere b dest ethertype = false ∨ (dest = broadcastMac ∧ pduOp payload = 2) →
      exec (.frameDiscard t dest ethertype payload) s = .next (incF b 0x1040 0x04)) ∧
  (∀ (t : Nat) (s : State), let b := atTime t s
    answering b = true → getF b 0x1040 0x05 ≠ 0 → ∃ h, nfld h 127 120 = 1 ∧ nfld h 119 112 = 0x90 ∧ nfld h 95 88 = 3 ∧
      exec (.announceTimer t) s =
        .next (sendPdu (draw b) 0xFFFFFFFFFFFF h [getF b 0x4000 0x01, getF b 0x1000 0x01, getF b 0x1000 0x05])) ∧
  (∀ (t : Nat) (s : State), let b := atTime t s
    getF b 0x1040 0x05 = 0 → exec (.announceTimer t) s = .next b)

/-! ### Chapter 16: jobs -/

/-- The commands that carry a job's start, end, sweep, restart and bookmarks, each where it acts. A teardown cause that meets a job in
TORN_DOWN or FREE changes nothing (R346); a TEARDOWN note that arrives for such a job is passed on and does nothing else. -/
def Obligations.JobCommandsComplete : Prop :=
  (∀ (t jb : Nat) (image : JobImage) (others : Bool) (s : State), let b := atTime t s
    b.starts.head? = some jb → (job b jb).mode = .starting → b.cw.sweeping.contains jb = false →
      exec (.jobStartComplete t jb image others) s = .next (startJob b jb image others)) ∧
  (∀ (t jb : Nat) (s : State), let b := atTime t s
    (job b jb).mode = .ending → jobSigs b jb = [] → stepInFlight b jb = false →
      exec (.jobEndComplete t jb) s = .next (sweepDone (finishEnd b jb) jb) ∧
      ((keySlot b jb).key = none → (keySlot b jb).zeroing = false → (job (sweepDone (finishEnd b jb) jb) jb).mode = .free)) ∧
  (∀ (t jb : Nat) (s : State), let b := atTime t s
    b.cw.sweeping.contains jb = true → exec (.catchwordSweepDone t jb) s = .next (sweepDone b jb) ∧ (sweepDone b jb).cw.sweeping.contains jb = false) ∧
  (∀ (t jb n q c : Nat) (s : State), let b := atTime t s
    (job b jb).wait = .room n q c → (∀ x ∈ b.jobs, ∀ m q' c', x.2.wait = .room m q' c' → n ≤ m) → setsSuffice b q c = (true, true) →
    (∀ k ∈ b.starts, (job b k).bestEffort = true) → exec (.yieldedJobRestart t jb) s = .next (restartJob b jb)) ∧
  (∀ (t slot gen q : Nat) (s : State), let b := atTime t s
    1 < flashState b → slot < slotCount b → gen < 2 → genSeq b slot gen = some q → genSeq b slot (1 - gen) = none →
    (∀ j ∈ jobNumbers b, (job b j).bookmark.writing = none) →
      exec (.bookmarkCommit t slot gen) s = .next (incF (discardGen slot (1 - gen) b) 0x7030 0x03)) ∧
  (∀ (t jb writer : Nat) (seen : Option (Nat × List Byte)) (o raw : List Byte) (u s : State), let b := atTime t s
    let a : State := { b with kettle := { b.kettle with adopting := b.kettle.adopting.erase (writer, jb) } }
    b.kettle.adopting.contains (writer, jb) = true → (job a jb).mode = .running → bookFound a jb writer seen = some o →
    openObject a 0 o = (u, .ok raw) → exec (.bookmarkReadComplete t jb writer seen) s = .next (placeBody u jb writer raw)) ∧
  (∀ (s : State) (j : Nat) (how : Teardown) (flood : Bool), (job s j).mode = .free ∨ (job s j).mode = .tornDown → tearDown s j how flood = s) ∧
  (∀ (t l : Nat) (w : BitVec 256) (s : State), let b := atTime t s
    let u := noteEntered (wordTaken b l w) w
    GoodNote b l w 4 → NewNote (wordTaken b l w) l w → runsImage u (fld w 123 118) (fld w 155 124) = false →
      exec (.teardown t l w) s = .next (goOn (notePassed u l w) l))

/-! ### Chapter 17: errors -/

/-- The error events: the handling slot of a unit, the hourly count, a retrained hop, a release, a self-test, proof at start and the loss of
a die-to-die module, each where it acts. -/
def Obligations.ErrorCommandsComplete : Prop :=
  (∀ (t unit : Nat) (s : State), let b := atTime t s
    exec (.handlingEnd t unit) s = .next (modUnit b unit (fun x => { x with slot := .idle }))) ∧
  (∀ (t unit : Nat) (s : State), let b := atTime t s
    (unitOf b unit).slot ≠ .idle → (unitOf b unit).sinceNs + 10000000 ≤ b.now →
      exec (.handlingLimitExpiry t unit) s = .next (modUnit b unit (fun x => { x with slot := .idle }))) ∧
  (∀ (t : Nat) (s : State), let b := atTime t s
    Gives (exec (.ceHourRollover t) s) (fun u => (∀ k, (unitOf u k).hour = 0 ∧ (unitOf u k).corrected = (unitOf b k).corrected ∧
      (unitOf u k).fenced = (unitOf b k).fenced) ∧ KeepsBut [.err] b u)) ∧
  (∀ (t half hop t0 : Nat) (s : State), let b := atTime t s
    let k := half * 65536 + hop
    let u : State := { b with err := { b.err with hopRetrains := tput b.err.hopRetrains k b.now, hopsWaiting := b.err.hopsWaiting.filter (fun x => decide (x ≠ k)) } }
    (tfind b.err.hopRetrains k = some t0 → b.now - t0 ≤ 1000000000 →
      exec (.nocHopRetrainDone t half hop) s = .next (uncorrectable u (unitHalf half) 0x21 0 none hop 0)) ∧
    (tfind b.err.hopRetrains k = some t0 → 1000000000 < b.now - t0 → exec (.nocHopRetrainDone t half hop) s = .next (correctable u (unitHalf half))) ∧
    (tfind b.err.hopRetrains k = none → exec (.nocHopRetrainDone t half hop) s = .next (correctable u (unitHalf half)))) ∧
  (∀ (t cls index at0 : Nat) (l : List Nat) (m : FrozenMaster) (s : State), let b := atTime t s
    frozenOf b cls index = some m → m.releasing = some (l, at0) → l = [] ∨ at0 + 1000000 ≤ b.now →
      exec (.thawWaitEnd t cls index) s = .next (released b m)) ∧
  (∀ (t unit checker : Nat) (ok : Bool) (r : Reinstating) (s : State), let b := atTime t s
    let a : State := { b with err := { b.err with reinstating := b.err.reinstating.filter (fun x => decide (x.unit ≠ unit)) } }
    b.err.reinstating.find? (fun x => decide (x.unit = unit)) = some r →
      (ok = true → r.hurt = false → Gives (exec (.reinstateSelfTestDone t unit ok checker) s) (fun u =>
        getF u 0x6021 0x02 = 2 ∧ fencedU u unit = false ∧ (unitOf u unit).selfTest = false)) ∧
      (ok = false ∨ r.hurt = true → exec (.reinstateSelfTestDone t unit ok checker) s = .next (stayFenced (setF
        (logErr (modUnit a unit (fun x => { x with selfTest := false })) 0x25 unit 1 none checker 0) 0x6021 0x02 3) unit))) ∧
  (∀ (t unit checker : Nat) (ok : Bool) (s : State), let b := atTime t s
    exec (.unitProofComplete t unit ok checker) s = .next (startBypasses (proveUnit b unit ok checker))) ∧
  (∀ (t : Nat) (failed : List (Nat × Nat)) (s : State),
    Gives (exec (.startupCheckersProved t failed) s) (fun u => u.err.checkersDone = true ∧ nbit (getF u 0x6040 0x01) 31 = true ∧
      nbit (getF u 0x7820 0x01) 4 = true ∧ ∀ n, n < 128 → fencedU u (unitPress n) = false → (unitOf u (unitPress n)).proved = true)) ∧
  (∀ (t module : Nat) (s : State), let b := atTime t s
    let k := unitUcie module
    module < 10 → fencedU b k = false → exec (.ucieModuleFail t module) s =
      .next (fenceEffect (logFence (modUnit b k (fun x => { x with fenced := true, reason := 5 })) k 5) k))

/-! ### Chapter 18: the kettle -/

/-- The notes and timers of the kettle, each at a package where it acts. A new note of the own volume is acted on, remembered and passed
on along every other link. -/
def Obligations.KettleCommandsComplete : Prop :=
  (∀ (t subject : Nat) (s : State), let b := atTime t s
    speaking b = true → (∃ l, (l, subject) ∈ b.kettle.epochLinks) →
    (neighbourOf b subject).pulseNs + getF b 0x6400 0x02 * 1000 ≤ b.now → (∀ x ∈ b.kettle.suspicions, x.subject ≠ subject) →
    (subject, (neighbourOf b subject).incarnation) ∉ b.kettle.dead → (neighbourOf b subject).suspectNs = none → exec (.suspectTimeout t subject) s = .next (suspect b subject)) ∧
  (∀ (t subject : Nat) (x : Suspicion) (s : State), let b := atTime t s
    x ∈ b.kettle.suspicions → x.subject = subject → x.sinceNs + 1000000 ≤ b.now →
      exec (.verdictTimeout t subject) s = .next (noVerdict b subject)) ∧
  (∀ (t : Nat) (s : State), let b := atTime t s
    speaking b = true → exec (.pulseTimer t) s = .next ((linksIn b linkLive).foldl (fun s l =>
      sendWord s l 4 (place (ownEndpoint b) 235 220 + place (incarnation b) 187 156)) b)) ∧
  (∀ (t l : Nat) (w : BitVec 256) (s : State), let b := atTime t s
    GoodNote b l w 0 → exec (.pulse t l w) s = .next (goOn (takePulse l (fld w 235 220) (fld w 187 156) (wordTaken b l w)) l)) ∧
  (∀ (t l : Nat) (w : BitVec 256) (s : State), let b := atTime t s
    let u := noteEntered (wordTaken b l w) w
    NewNote (wordTaken b l w) l w →
      (GoodNote b l w 1 →
        exec (.suspect t l w) s = .next (goOn (notePassed (hearSuspect (fld w 235 220) (fld w 219 204) (fld w 187 156) u) l w) l)) ∧
      (GoodNote b l w 2 → (suspicionOf u (fld w 219 204) (fld w 187 156)).isSome = true →
        exec (.seen t l w) s = .next (goOn (notePassed (noVerdict u (fld w 219 204)) l w) l)) ∧
      (GoodNote b l w 3 → exec (.dead t l w) s = .next (goOn (notePassed (hearDead (fld w 219 204) (fld w 187 156) u) l w) l)) ∧
      (GoodNote b l w 4 → runsImage u (fld w 123 118) (fld w 155 124) = true → (job u (fld w 123 118)).joint = true →
        exec (.teardown t l w) s = .next (goOn (notePassed (tearDown u (fld w 123 118) .restart false) l w) l))) ∧
  (∀ (t : Nat) (s : State), let b := atTime t s
    b.power.phase = .running → 0 < b.kettle.lastPulseNs → b.kettle.lastPulseNs + 2000000 ≤ b.now →
      exec (.isolationTimeout t) s = .next (dieBy b))

/-! ### Chapter 20: power, clocks and reset -/

/-- The events of power, clocks and reset, each where it acts. -/
def Obligations.PowerCommandsComplete : Prop :=
  (∀ (t : Nat) (west east : StageReading) (s : State), let b := atTime t s
    b.power.phase = .running → exec (.telemetryRead t west east) s = .next (showCauses (powerHolds b) (readStage (readStage b 0 west) 1 east))) ∧
  (∀ (t : Nat) (s : State), let b := atTime t s
    let p := coreMw b 0 + coreMw b 1 + getF b 0x7801 0x02 * 1000
    let u := setF b 0x7801 0x03 (min 65535 (p / 1000))
    let v := lowerK u (if coreMw b 0 < coreMw b 1 then 1 else 0)
    b.power.phase = .running → getF b 0x7801 0x01 * 1000 < p →
      exec (.powerLimitCheck t) s = .next (showCauses true { v with power := { v.power with lowSinceNs := none } })) ∧
  (∀ (t : Nat) (west east control dram : List Nat) (s : State), let b := atTime t s
    b.power.phase = .running → exec (.thermalSample t west east control dram) s = .next (takeSample west east control dram b)) ∧
  (∀ (t : Nat) (east : Bool) (s : State), let b := atTime t s
    b.power.phase = .running → exec (.vrhotAssert t east) s =
      .next (showCauses (powerHolds b) (setK (modHalf b (b2n east) (fun x => { x with vrhot := true, rising := false })) (b2n east) 16))) ∧
  (∀ (t : Nat) (east : Bool) (s : State), let b := atTime t s
    exec (.vrhotEnd t east) s = .next (showCauses (powerHolds b) (modHalf b (b2n east) (fun x => { x with vrhot := false })))) ∧
  (∀ (t : Nat) (left : List Int) (s : State), let b := atTime t s
    b.power.phase = .running → Gives (exec (.localTimeCorrection t left) s) (fun u => KeepsBut [.power] b u ∧
      ∀ k, k < 66 → tget 0 u.power.copies k = max (-8) (min 8 (left.getD k 0)))) ∧
  (∀ (s : State), s.power.phase = .off →
    exec .powerOn s = .next (emit (resetPackage 1 { s with power := { s.power with pwrGood := true } }) (.resetStart 1))) ∧
  (∀ (journalled : List Nat) (s : State), Gives (exec (.powerLoss journalled) s) (fun u =>
    u.power.phase = .off ∧ u.power.pwrGood = false ∧ u.power.pfailDone = false ∧ u.flash.dirty = [] ∧ u.flash.waiting = [])) ∧
  (∀ (t heldNs : Nat) (s : State), let b := atTime t s
    1000 ≤ heldNs → exec (.pinReset t heldNs) s = .next (enterReset 3 { b with power := { b.power with rst := true } })) ∧
  (∀ (t : Nat) (s : State), let b := atTime t s
    b.power.coresReleased = true → exec (.watchdogExpiry t) s = .next (enterReset 6 b)) ∧
  (∀ (t : Nat) (s : State), let b := atTime t s
    exec (.powerFail t) s = .next (powerFail { b with power := { b.power with pfail := true } })) ∧
  (∀ (t : Nat) (flush : FlushRun) (s : State), let b := atTime t s
    let u := resetPackage 2 (tornSlot (finishFlush flush b))
    b.power.phase = .failing → bypassesHome b = true → exec (.powerFailPathComplete t flush) s =
      .next (leavePath (emit { u with power := { u.power with phase := .failed, pfailDone := true } } (.pfailDone true)))) ∧
  (∀ (t : Nat) (s : State), let b := atTime t s
    exec (.pfailRelease t) s = .next (leavePath { b with power := { b.power with pfail := false } }))

/-! ### Chapter 21: boot, the host port and test -/

/-- The events of boot, host attachment, update, quote and test access, each where it acts. -/
def Obligations.BootCommandsComplete : Prop :=
  (∀ (flush : FlushRun) (pufOk : Bool) (failed : List Nat) (s : State), s.power.pwrGood = true →
    (s.power.phase = .held → exec (.initEngineStart flush pufOk failed) s = .next (leaveReset pufOk failed (setF s 0x7810 0x01 s.power.kind))) ∧
    (s.power.phase = .entry → exec (.initEngineStart flush pufOk failed) s =
      .next (leaveReset pufOk failed (resetPackage s.power.kind (tornSlot (finishFlush flush s)))))) ∧
  (∀ (t : Nat) (s : State), let b := atTime t s
    b.power.phase = .running → b.power.coresReleased = false → nbit (getF b 0x7820 0x01) 31 = false → nbit (getF b 0x7820 0x01) 1 = true →
      Gives (exec (.memoryFillComplete t) s) (fun u => u.power.coresReleased = true ∧ u.sig.entries = [] ∧ u.cw.buckets = [] ∧ u.cw.nodes = [] ∧
        nbit (getF u 0x7820 0x01) 2 = true ∧ KeepsBut [.dict, .mem, .sig, .cw, .power, .boot] b u)) ∧
  (∀ (t : Nat) (found : List (Nat × BootImage)) (s : State), let b := atTime t s
    b.power.phase = .running → nbit (getF b 0x7820 0x01) 2 = true → nbit (getF b 0x7820 0x01) 3 = false →
      exec (.imagesVerified t found) s = .next (verifyImages found b)) ∧
  (∀ (t : Nat) (large : Bool) (s : State), let b := atTime t s
    b.power.phase = .running → b.power.coresReleased = true → Gives (exec (.stackTrainingComplete t large) s) (fun u =>
      u.power.stackReady = true ∧ getF u 0x1000 0x01 = (if large then 0x1C60 else 0x1C50) ∧ getF u 0x1000 0x04 = (if large then 0x40 else 0x30) ∧
      getF u 0x3400 0x02 = (if large then 0x40 else 0x30) ∧ nbit (getF u 0x7820 0x01) 5 = true)) ∧
  (∀ (t : Nat) (l : LpddrFound) (f : FlashFound) (s : State), let b := atTime t s
    b.power.phase = .running → nbit (getF b 0x7820 0x01) 3 = true → b.power.lpddrReady = false →
      exec (.lpddr6TrainingComplete t l f) s = .next (trainLpddr l f b)) ∧
  (∀ (t : Nat) (s : State), let b := atTime t s
    exec (.perstAssert t) s = .next (assertPerst b)) ∧
  (∀ (t rate width : Nat) (flit : Bool) (unmasked : List Nat) (s : State), let b := atTime t s
    let u : State := { b with boot := { b.boot with pcieL0 := true, unmasked := unmasked } }
    let v := setF u 0x7C20 0x00 (place 1 31 31 + place (b2n flit) 30 30 + place rate 29 26 + place width 25 21)
    b.power.phase = .running → exec (.pcieL0Reached t rate width flit unmasked) s = .next ((jobNumbers v).foldl portRestart v)) ∧
  (∀ (t : Nat) (s : State), let b := atTime t s
    exec (.hostReadTimeout t .control) s = .next (emit b (.completion 0 0xA []))) ∧
  (∀ (t id j : Nat) (x : Transfer) (s : State), let b := atTime t s
    (quire b id).job = some j → (quire b id).transfers.find? hostTransfer = some x → exec (.hostReadTimeout t (.quire id)) s =
      .next (failMaster (hostFails 0xA (modSeq b id (fun q => { q with transfers := q.transfers.erase x }))) (masterOf 0 id) j 0xA none 0)) ∧
  (∀ (t sig : Nat) (s : State), let b := atTime t s
    let j := (sigE b sig).job.toNat
    (sigE b sig).state = .swappingIn → exec (.hostReadTimeout t (.swapIn sig)) s =
      .next (tearDownJob (voidStep (logErr (incF (hostFails 0xA b) 0x243E j) 0x38 0 0 (some j) ((sigA b sig).handoffGroups.headD 0) 0) j) j)) ∧
  (∀ (t : Nat) (image : BootImage) (readBack : Bool) (r : UpdateRun) (s : State), let b := atTime t s
    let i := { image with info := { image.info with readOk := image.info.readOk && ownReadable b (getF b 0x7C40 0x01) none } }
    b.boot.update = some r →
      (bootCode r.kind i ≠ 0 → Gives (exec (.updateComplete t image readBack) s) (fun u =>
        getF u 0x7C40 0x03 = 0x10 + bootCode r.kind i ∧ u.boot.update = none ∧ u.boot.slots = b.boot.slots)) ∧
      (bootCode r.kind i = 0 → readBack = true → Gives (exec (.updateComplete t image readBack) s) (fun u =>
        getF u 0x7C40 0x03 = 2 ∧ u.boot.update = none ∧ tfind u.boot.slots r.slot = some i ∧
        ∀ k, k ≠ r.slot → tfind u.boot.slots k = tfind b.boot.slots k)) ∧
      (bootCode r.kind i = 0 → readBack = false → Gives (exec (.updateComplete t image readBack) s) (fun u =>
        getF u 0x7C40 0x03 = 0x15 ∧ u.boot.update = none ∧ ∀ k, k ≠ r.slot → tfind u.boot.slots k = tfind b.boot.slots k))) ∧
  (∀ (t addr : Nat) (refused ok : Bool) (body : List Byte) (k : BitVec 256) (u s : State), let b := atTime t s
    let a : State := { b with boot := { b.boot with quote := none } }
    let jb := getF b 0x7C30 0x04
    b.boot.quote = some (body, addr) → b.boot.seed = some k →
    writeFabric a addr (if jb < 64 then some jb else none) (body ++ (List.range 35664).map (Config.attestSign k body)) = (u, ok) →
      exec (.quoteSigned t refused) s = .next (setF u 0x7C30 0x07 (if ok = true ∧ refused = false then 2 else 3))) ∧
  (∀ (t : Nat) (s : State), let b := atTime t s
    b.power.phase = .running → exec (.tapExtest t) s =
      .next { stopPackage b with power := { (stopPackage b).power with tapLoaded := true } }) ∧
  (∀ (t : Nat) (s : State), let b := atTime t s
    b.power.tapLoaded = true → exec (.tapInstructionExit t) s = .next (enterReset 3 { b with power := { b.power with tapLoaded := false } })) ∧
  (∀ (t instrument : Nat) (s : State), let b := atTime t s
    b.power.phase ≠ .off → exec (.ijtagAccess t instrument) s =
      .next (emit b (.ijtag instrument (decide (instrument < 4) || (decide (instrument < 6) && nbit (getF b 0x7C50 0x01) 0)))))


/-! ### What commands leave unchanged -/

/-- The commands of sequencers, columns, steps, signatures, handoffs and spans named here change no part of the state but those listed for
each: every register, queue and table of the other parts stays, and where memory is not listed every byte of it reads as before. Of a command named
twice, one line is for the forms that its premise or operand names, the other, that power and boot stay, for every form. -/
def Obligations.StepCommandFrames : Prop :=
  (∀ (t id : Nat) (s s' : State), exec (.halt t id) s = .next s' → KeepsBut [.now, .quires, .gutters] s s') ∧
  (∀ (t id : Nat) (s s' : State), exec (.nop t id) s = .next s' → KeepsBut [.now, .quires, .gutters] s s') ∧
  (∀ (t id : Nat) (s s' : State), exec (.loopEnd t id) s = .next s' → KeepsBut [.now, .quires, .gutters] s s') ∧
  (∀ (t id : Nat) (s s' : State), exec (.arBase t id) s = .next s' → KeepsBut [.now, .quires, .gutters] s s') ∧
  (∀ (t id : Nat) (s s' : State), exec (.arStride t id) s = .next s' → KeepsBut [.now, .quires, .gutters] s s') ∧
  (∀ (t id : Nat) (s s' : State), exec (.gvOp t ⟨id, none⟩) s = .next s' → KeepsBut [.now, .quires, .gutters] s s') ∧
  (∀ (t id : Nat) (s s' : State), exec (.gvRed t ⟨id, none⟩) s = .next s' → KeepsBut [.now, .quires, .gutters] s s') ∧
  (∀ (t id : Nat) (s s' : State), exec (.guRun t id) s = .next s' → KeepsBut [.now, .quires, .gutters] s s') ∧
  (∀ (t id : Nat) (s s' : State), exec (.sigPost t id) s = .next s' → KeepsBut [.now, .quires, .gutters] s s') ∧
  (∀ (t id : Nat) (s s' : State), exec (.sigWait t id) s = .next s' → KeepsBut [.now, .quires, .gutters] s s') ∧
  (∀ (t id : Nat) (s s' : State), exec (.sigWaitRelease t id) s = .next s' → KeepsBut [.now, .quires, .gutters] s s') ∧
  (∀ (t id : Nat) (s s' : State), exec (.ctlCall t id) s = .next s' → KeepsBut [.now, .quires, .gutters] s s') ∧
  (∀ (t id : Nat) (s s' : State), exec (.bar t id) s = .next s' → KeepsBut [.now, .jobs, .quires, .gutters] s s') ∧
  (∀ (t jb bar : Nat) (s s' : State), exec (.barRelease t jb bar) s = .next s' → KeepsBut [.now, .jobs, .quires, .gutters] s s') ∧
  (∀ (t jb : Nat) (s s' : State), exec (.stepCarried t jb) s = .next s' → KeepsBut [.now, .dict, .jobs, .quires, .gutters] s s') ∧
  (∀ (t jb : Nat) (busy : List Nat) (s s' : State), exec (.windowEnd t jb busy) s = .next s' → KeepsBut [.now, .dict, .jobs, .quires, .gutters] s s') ∧
  (∀ (t jb : Nat) (s s' : State), exec (.splitSizing t jb) s = .next s' → KeepsBut [.now, .dict, .jobs] s s') ∧
  (∀ (t column : Nat) (s s' : State), exec (.refreshDue t column) s = .next s' → KeepsBut [.now, .dict, .gutters] s s') ∧
  (∀ (t column : Nat) (s s' : State), exec (.refreshComplete t column) s = .next s' → KeepsBut [.now, .gutters] s s') ∧
  (∀ (t column id beats : Nat) (slot : Bool) (s s' : State), exec (.ordinaryAccess t column id beats slot) s = .next s' → KeepsBut [.now, .out, .dict, .gutters] s s') ∧
  (∀ (t column : Nat) (s s' : State), exec (.spanEnd t column) s = .next s' → KeepsBut [.now, .out, .dict, .gutters] s s') ∧
  (∀ (t id : Nat) (s s' : State), exec (.transferComplete t id) s = .next s' → s'.power = s.power ∧ s'.boot = s.boot) ∧
  (∀ (t : Nat) (x : GutterStep) (s s' : State), exec (.gvOp t x) s = .next s' → s'.power = s.power ∧ s'.boot = s.boot) ∧
  (∀ (t : Nat) (x : GutterStep) (s s' : State), exec (.gvRed t x) s = .next s' → s'.power = s.power ∧ s'.boot = s.boot) ∧
  (∀ (t id : Nat) (s s' : State), (quire s id).transfers.length ≤ 1 → exec (.transferComplete t id) s = .next s' → KeepsBut [.now, .out, .free, .mem, .dict, .jobs, .quires, .gutters, .tier, .flash, .fabric, .queue, .link, .traffic, .err] s s') ∧
  (∀ (t sig : Nat) (s s' : State), exec (.budgetExpiry t sig) s = .next s' → KeepsBut [.now, .dict, .sig] s s') ∧
  (∀ (t endpoint jb queueUs rate : Nat) (s s' : State), exec (.prefillOffer t endpoint jb queueUs rate) s = .next s' → KeepsBut [.now, .dict, .sig] s s') ∧
  (∀ (t jb : Nat) (dests : List Nat) (s s' : State), exec (.prefillOfferSend t jb dests) s = .next s' → KeepsBut [.now, .out, .free] s s') ∧
  (∀ (t sig : Nat) (s s' : State), exec (.keepaliveTimer t sig) s = .next s' → KeepsBut [.now, .out, .mem, .sig, .queue] s s') ∧
  (∀ (t : Nat) (s s' : State), exec (.unsizedMessage t) s = .next s' → KeepsBut [.now, .dict] s s') ∧
  (∀ (t : Nat) (header : BitVec 1024) (s s' : State), exec (.handoffProbe t header) s = .next s' → KeepsBut [.now, .out, .dict] s s') ∧
  (∀ (t sig : Nat) (s s' : State), exec (.handoffProbeTimer t sig) s = .next s' → KeepsBut [.now, .out, .sig, .handoff] s s') ∧
  (∀ (t sig : Nat) (s s' : State), exec (.confirmDelivered t sig) s = .next s' → KeepsBut [.now, .mem, .sig, .jobs, .handoff] s s') ∧
  (∀ (t sig : Nat) (s s' : State), exec (.confirmUndeliverable t sig) s = .next s' → KeepsBut [.now, .out, .sig] s s') ∧
  (∀ (t : Nat) (header : BitVec 1024) (s s' : State), exec (.claim t header) s = .next s' → KeepsBut [.now, .mem, .dict, .sig, .jobs, .handoff] s s') ∧
  (∀ (t jb : Nat) (s s' : State), exec (.swapRegionReleased t jb) s = .next s' → KeepsBut [.now, .out, .jobs] s s') ∧
  (∀ (t member stalls : Nat) (header : BitVec 512) (payload : List Byte) (s s' : State), exec (.block t ⟨member, header, stalls⟩ payload) s = .next s' →
    KeepsBut [.now, .out, .free, .mem, .dict, .sig, .cw, .jobs, .span, .tier, .flash, .fabric, .queue, .link, .press, .traffic, .err] s s') ∧
  (∀ (t member stalls : Nat) (header : BitVec 512) (payload : List Byte) (s s' : State), exec (.output t ⟨member, header, stalls⟩ payload) s = .next s' → KeepsBut [.now, .out, .dict, .sig, .span, .press] s s') ∧
  (∀ (t jb : Nat) (s s' : State), exec (.remoteTimeout t jb) s = .next s' → KeepsBut [.now, .dict, .jobs, .span] s s') ∧
  (∀ (t : Nat) (header : BitVec 512) (payload : List Byte) (ready : List Nat) (s s' : State), exec (.ringPlan t header ⟨payload, ready⟩) s = .next s' → KeepsBut [.now, .out, .dict, .jobs, .starts, .span] s s') ∧
  (∀ (t jb : Nat) (s s' : State), exec (.catchwordSweepDone t jb) s = .next s' → KeepsBut [.now, .cw, .fabric] s s') ∧
  (∀ (t jb : Nat) (s s' : State), exec (.yieldedJobRestart t jb) s = .next s' → KeepsBut [.now, .dict, .jobs, .starts] s s') ∧
  (∀ (t slot gen : Nat) (s s' : State), exec (.bookmarkCommit t slot gen) s = .next s' → KeepsBut [.now, .out, .mem, .dict, .jobs, .tier, .flash, .err] s s')

/-- The commands of tiers, flash, links, presses, errors, power and boot named here change no part of the state but those listed for each:
every register, queue and table of the other parts stays, and where memory is not listed every byte of it reads as before. Of a command named
twice, one line is for the forms that its premise or operand names, the other, that power and boot stay, for every form. -/
def Obligations.UnitCommandFrames : Prop :=
  (∀ (t : Nat) (header : BitVec 512) (s s' : State), exec (.advert t header) s = .next s' → KeepsBut [.now, .dict, .tier] s s') ∧
  (∀ (t : Nat) (header : BitVec 512) (s s' : State), exec (.grant t header) s = .next s' → KeepsBut [.now, .dict, .tier, .fabric] s s') ∧
  (∀ (t : Nat) (s s' : State), exec (.advertTimer t) s = .next s' → KeepsBut [.now, .out] s s') ∧
  (∀ (t : Nat) (s s' : State), exec (.lenderListPoll t) s = .next s' → KeepsBut [.now, .out] s s') ∧
  (∀ (t channel rate : Nat) (s s' : State), exec (.lpddr6RefreshRateRead t channel rate) s = .next s' → KeepsBut [.now, .tier] s s') ∧
  (∀ (t channel : Nat) (s s' : State), exec (.lpddr6Retrain t channel) s = .next s' → KeepsBut [.now, .tier] s s') ∧
  (∀ (t : Nat) (temps : List Int) (s s' : State), exec (.flashTempSample t temps) s = .next s' → KeepsBut [.now, .free, .flash] s s') ∧
  (∀ (t id page effort : Nat) (s s' : State), flashEffort effort ≠ 2 → exec (.flashRead t id page effort) s = .next s' →
    KeepsBut [.now, .out, .dict, .flash, .err] s s') ∧
  (∀ (t id page effort : Nat) (s s' : State), exec (.flashRead t id page effort) s = .next s' → s'.power = s.power ∧ s'.boot = s.boot) ∧
  (∀ (t unit : Nat) (ok : Bool) (checker : Nat) (s s' : State), exec (.reinstateSelfTestDone t unit ok checker) s = .next s' → s'.power = s.power ∧ s'.boot = s.boot) ∧
  (∀ (t id page : Nat) (data : List Byte) (s s' : State), exec (.flashWrite t id page data) s = .next s' → KeepsBut [.now, .out, .free, .mem, .dict, .jobs, .tier, .flash, .fabric, .queue, .link, .traffic, .err] s s') ∧
  (∀ (t : Nat) (header : BitVec 512) (s s' : State), exec (.release t header) s = .next s' → KeepsBut [.now, .out, .mem, .dict, .tier, .flash, .fabric, .err] s s') ∧
  (∀ (t region : Nat) (s s' : State), exec (.revokeTimeout t region) s = .next s' → KeepsBut [.now, .dict, .fabric, .queue] s s') ∧
  (∀ (t link : Nat) (s s' : State), exec (.creditTimer t link) s = .next s' → KeepsBut [.now, .out, .link] s s') ∧
  (∀ (t link : Nat) (s s' : State), exec (.idleTimer t link) s = .next s' → KeepsBut [.now, .out, .link] s s') ∧
  (∀ (t link : Nat) (s s' : State), exec (.linkProbeTimer t link) s = .next s' → KeepsBut [.now, .out, .link] s s') ∧
  (∀ (t : Nat) (s s' : State), exec (.pulseTimer t) s = .next s' → KeepsBut [.now, .out, .link] s s') ∧
  (∀ (t link : Nat) (s s' : State), exec (.lightDetected t link) s = .next s' → KeepsBut [.now, .out, .link] s s') ∧
  (∀ (t link : Nat) (s s' : State), exec (.trainingComplete t link) s = .next s' → KeepsBut [.now, .link] s s') ∧
  (∀ (t link : Nat) (s s' : State), exec (.testingComplete t link) s = .next s' → KeepsBut [.now, .link] s s') ∧
  (∀ (t link : Nat) (s s' : State), exec (.holdoffExpiry t link) s = .next s' → KeepsBut [.now, .out, .link] s s') ∧
  (∀ (t engine tempC : Nat) (s s' : State), exec (.laserSourceReady t engine tempC) s = .next s' → KeepsBut [.now, .out, .dict, .link] s s') ∧
  (∀ (t link : Nat) (word : BitVec 256) (s s' : State), exec (.linkProbe t link word) s = .next s' → KeepsBut [.now, .out, .dict, .queue, .link, .traffic, .err] s s') ∧
  (∀ (t link : Nat) (s s' : State), exec (.lossOfLock t link) s = .next s' → KeepsBut [.now, .out, .dict, .link] s s') ∧
  (∀ (t link : Nat) (word : BitVec 256) (s s' : State), exec (.echo t link word) s = .next s' → KeepsBut [.now, .out, .dict, .fabric, .queue, .link, .traffic, .err] s s') ∧
  (∀ (t link : Nat) (s s' : State), exec (.measuringComplete t link) s = .next s' → KeepsBut [.now, .dict, .fabric, .link] s s') ∧
  (∀ (t u status done : Nat) (data : List Byte) (s s' : State), exec (.cvuDmaComplete t u status done data) s = .next s' → KeepsBut [.now, .dict, .press] s s') ∧
  (∀ (t jb : Nat) (s s' : State), exec (.keyZeroed t jb) s = .next s' → KeepsBut [.now, .dict, .jobs, .press] s s') ∧
  (∀ (t half : Nat) (obj : List Byte) (s s' : State), exec (.openObject t half obj) s = .next s' → KeepsBut [.now, .out, .dict, .press] s s') ∧
  (∀ (t j stride half : Nat) (raw : List Byte) (s s' : State), exec (.caseObject t j stride half raw) s = .next s' → KeepsBut [.now, .out, .free, .dict, .press] s s') ∧
  (∀ (t : Nat) (s s' : State), exec (.ceHourRollover t) s = .next s' → KeepsBut [.now, .err] s s') ∧
  (∀ (t unit : Nat) (s s' : State), exec (.handlingEnd t unit) s = .next s' → KeepsBut [.now, .err] s s') ∧
  (∀ (t unit : Nat) (s s' : State), exec (.handlingLimitExpiry t unit) s = .next s' → KeepsBut [.now, .err] s s') ∧
  (∀ (t unit : Nat) (ok : Bool) (checker : Nat) (s s' : State), unit / 4096 ≠ 3 → exec (.reinstateSelfTestDone t unit ok checker) s = .next s' → KeepsBut [.now, .out, .dict, .fabric, .err, .link] s s') ∧
  (∀ (t dest ethertype : Nat) (payload : List Byte) (s s' : State), exec (.frameDiscard t dest ethertype payload) s = .next s' → KeepsBut [.now, .dict] s s') ∧
  (∀ (t : Nat) (s s' : State), exec (.announceTimer t) s = .next s' → KeepsBut [.now, .out, .free] s s') ∧
  (∀ (t ss : Nat) (image : ImageInfo) (s s' : State), exec (.tipinLoadDone t ss image) s = .next s' → KeepsBut [.now, .dict] s s') ∧
  (∀ (t instrument : Nat) (s s' : State), exec (.ijtagAccess t instrument) s = .next s' → KeepsBut [.now, .out] s s') ∧
  (∀ (t : Nat) (left : List Int) (s s' : State), exec (.localTimeCorrection t left) s = .next s' → KeepsBut [.now, .power] s s') ∧
  (∀ (t : Nat) (large : Bool) (s s' : State), exec (.stackTrainingComplete t large) s = .next s' → KeepsBut [.now, .dict, .power] s s') ∧
  (∀ (t : Nat) (east : Bool) (s s' : State), exec (.vrhotAssert t east) s = .next s' → KeepsBut [.now, .dict, .power] s s') ∧
  (∀ (t : Nat) (east : Bool) (s s' : State), exec (.vrhotEnd t east) s = .next s' → KeepsBut [.now, .dict, .power] s s') ∧
  (∀ (t : Nat) (s s' : State), exec (.powerLimitCheck t) s = .next s' → KeepsBut [.now, .free, .dict, .power] s s') ∧
  (∀ (t : Nat) (s s' : State), exec (.pfailRelease t) s = .next s' → KeepsBut [.now, .out, .power] s s') ∧
  (∀ (t : Nat) (image : BootImage) (readBack : Bool) (s s' : State), exec (.updateComplete t image readBack) s = .next s' → KeepsBut [.now, .dict, .boot] s s') ∧
  (∀ (t : Nat) (s s' : State), exec (.memoryFillComplete t) s = .next s' → KeepsBut [.now, .mem, .dict, .sig, .cw, .power] s s') ∧
  (∀ (t : Nat) (found : List (Nat × BootImage)) (s s' : State), exec (.imagesVerified t found) s = .next s' → KeepsBut [.now, .dict, .link, .power, .boot] s s') ∧
  (∀ (t rate width : Nat) (flit : Bool) (unmasked : List Nat) (s s' : State), exec (.pcieL0Reached t rate width flit unmasked) s = .next s' → KeepsBut [.now, .dict, .jobs, .starts, .boot] s s')

/-- Stores reach the bytes they are for and no other. Consecutive bytes stored from an address read back as stored, the latest of two
stores to one byte; gv.st, the completion of a transfer and a broadcast write change no byte but those of the addresses they compute. -/
def Obligations.StoresLandWhereComputed : Prop :=
  (∀ (s : State) (a : Nat) (bs : List Byte), let u := writeBytes s a bs
    KeepsBut [.mem] s u ∧ (∀ k, ¬ Stored s a bs.length k → memGet u.mem k = memGet s.mem k) ∧
    (∀ i k, i < bs.length → canon s (a + i) = some k → (∀ j, i < j → j < bs.length → canon s (a + j) ≠ some k) →
      memGet u.mem k = bs.getD i 0)) ∧
  (∀ (t c j : Nat) (s : State), let b := atTime t s
    let w := stitchAt (seqOf b (128 + c))
    let m := colOffset b c (fld w 119 116)
    let sc := colOffset b c (fld w 115 112)
    let v := vecBytes (fld w 111 108) (fld w 94 86)
    issues b (128 + c) 0x81 = true → discards b (128 + c) 0x81 = false → (gutter b c).refreshPause = false → (seqOf b (128 + c)).job = some j →
    scratchOk (fld w 107 95) (32 * fld w 94 86) = true → fld w 111 108 ≠ 0xF → gutterOk b j c m v.1 = true →
    (0 < v.2 → gutterOk b j c sc v.2 = true) →
      Gives (exec (.gvSt t ⟨128 + c, none⟩) s) (fun u => KeepsBut [.mem, .gutters] b u ∧ ∀ k, ¬ Stored b (columnAddr c m) v.1 k →
        ¬ Stored b (columnAddr c sc) v.2 k → memGet u.mem k = memGet b.mem k)) ∧
  (∀ (t q : Nat) (x : Transfer) (r : List Transfer) (s : State), let b := atTime t s
    quireWaits b q = false → (quire b q).transfers = x :: r → (∀ y ∈ r, y.gather = none) → Gives (exec (.transferComplete t q) s) (fun u =>
      ∀ k, (∀ m ∈ x.moves, ¬ Stored b m.dst m.len k) → memGet u.mem k = memGet b.mem k)) ∧
  (∀ (t cls index jb addr : Nat) (data : List Byte) (s : State), let b := atTime t s
    inBroadcast addr = true → data ≠ [] → (addr - 0x180000000000) % 0x400000 + data.length ≤ 0x400000 → bundleOf b jb addr = true →
    cls = 4 ∨ (cls = 0 ∧ (quire b index).job = some jb) → Gives (exec (.broadcastWrite t cls index jb addr data) s) (fun u =>
      KeepsBut [.mem] b u ∧ ∀ k, (∀ m ∈ storeMoves b 0 addr data.length, ¬ Stored b m.dst data.length k) → memGet u.mem k = memGet b.mem k))
end

