-- ==== Sys2Proof/Laws/Tables.lean ====
section
/-! SUPPORT. What reading a sparse table gives after it was written, and that every write keeps its canonical form. -/

namespace Sys2Proof.Machine

theorem tfind_tput_same {α : Type} (t : Tbl α) (k : Nat) (v : α) : tfind (tput t k v) k = some v := by
  induction t with
  | nil => simp [tput, tfind]
  | cons e r ih =>
    obtain ⟨i, x⟩ := e
    unfold tput
    split
    · simp [tfind]
    · split
      · simp [tfind]
      · rename_i h; simp [tfind, h, ih]

theorem tfind_tput_other {α : Type} (t : Tbl α) {k k' : Nat} (v : α) (h : k' ≠ k) : tfind (tput t k v) k' = tfind t k' := by
  induction t with
  | nil => simp [tput, tfind, Ne.symm h]
  | cons e r ih =>
    obtain ⟨i, x⟩ := e
    unfold tput
    split
    · simp [tfind, Ne.symm h]
    · split
      · rename_i hi; subst hi; simp [tfind, Ne.symm h]
      · simp [tfind, ih]

theorem tfind_tdel_same {α : Type} (t : Tbl α) (k : Nat) : tfind (tdel t k) k = none := by
  induction t with
  | nil => rfl
  | cons e r ih =>
    obtain ⟨i, x⟩ := e
    unfold tdel
    split
    · exact ih
    · rename_i h; simp [tfind, h, ih]

theorem tfind_tdel_other {α : Type} (t : Tbl α) {k k' : Nat} (h : k' ≠ k) : tfind (tdel t k) k' = tfind t k' := by
  induction t with
  | nil => rfl
  | cons e r ih =>
    obtain ⟨i, x⟩ := e
    unfold tdel
    split
    · rename_i hi; subst hi; simp [tfind, Ne.symm h, ih]
    · simp [tfind, ih]

@[simp] theorem tget_tput_same {α : Type} (d : α) (t : Tbl α) (k : Nat) (v : α) : tget d (tput t k v) k = v := by
  simp [tget, tfind_tput_same]

theorem tget_tput_other {α : Type} (d : α) (t : Tbl α) {k k' : Nat} (v : α) (h : k' ≠ k) : tget d (tput t k v) k' = tget d t k' := by
  simp [tget, tfind_tput_other t v h]

@[simp] theorem tget_tset_same {α : Type} [DecidableEq α] (d : α) (t : Tbl α) (k : Nat) (v : α) : tget d (tset d t k v) k = v := by
  unfold tset
  split
  · rename_i h; simp [tget, tfind_tdel_same, h]
  · simp [tget, tfind_tput_same]

theorem tget_tset_other {α : Type} [DecidableEq α] (d : α) (t : Tbl α) {k k' : Nat} (v : α) (h : k' ≠ k) :
    tget d (tset d t k v) k' = tget d t k' := by
  unfold tset
  split
  · simp [tget, tfind_tdel_other t h]
  · simp [tget, tfind_tput_other t v h]

@[simp] theorem tget_tmod_same {α : Type} [DecidableEq α] (d : α) (t : Tbl α) (k : Nat) (f : α → α) :
    tget d (tmod d t k f) k = f (tget d t k) := by simp [tmod]

theorem tget_tmod_other {α : Type} [DecidableEq α] (d : α) (t : Tbl α) {k k' : Nat} (f : α → α) (h : k' ≠ k) :
    tget d (tmod d t k f) k' = tget d t k' := by simp [tmod, tget_tset_other d t _ h]

/-- A lower bound of a rising table may be lowered, or dropped. -/
theorem tsortedFrom_mono {α : Type} (t : Tbl α) {a b : Nat} (h : a ≤ b) (w : tsortedFrom (some b) t = true) :
    tsortedFrom (some a) t = true := by
  cases t with
  | nil => rfl
  | cons e r => obtain ⟨i, x⟩ := e; simp [tsortedFrom] at *; exact ⟨by omega, w.2⟩

theorem tsortedFrom_none {α : Type} (t : Tbl α) {b : Nat} (w : tsortedFrom (some b) t = true) : tsortedFrom none t = true := by
  cases t with
  | nil => rfl
  | cons e r => obtain ⟨i, x⟩ := e; simp [tsortedFrom] at *; exact w.2

theorem tsortedFrom_tput {α : Type} (t : Tbl α) (b k : Nat) (v : α) (hb : b < k) (w : tsortedFrom (some b) t = true) :
    tsortedFrom (some b) (tput t k v) = true := by
  induction t generalizing b with
  | nil => simp [tput, tsortedFrom, hb]
  | cons e r ih =>
    obtain ⟨i, x⟩ := e
    simp [tsortedFrom] at w
    unfold tput
    split
    · rename_i h; simp [tsortedFrom, hb, h, w.2]
    · split
      · rename_i h; subst h; simp [tsortedFrom, hb, w.2]
      · rename_i h1 h2; simp [tsortedFrom, w.1]; exact ih i (by omega) w.2

theorem tsortedFrom_tdel {α : Type} (t : Tbl α) (b k : Nat) (w : tsortedFrom (some b) t = true) :
    tsortedFrom (some b) (tdel t k) = true := by
  induction t generalizing b with
  | nil => rfl
  | cons e r ih =>
    obtain ⟨i, x⟩ := e
    simp [tsortedFrom] at w
    unfold tdel
    split
    · exact tsortedFrom_mono _ (by omega) (ih i w.2)
    · simp [tsortedFrom, w.1]; exact ih i w.2

theorem tsortedFrom_tput_none {α : Type} (t : Tbl α) (k : Nat) (v : α) (w : tsortedFrom none t = true) :
    tsortedFrom none (tput t k v) = true := by
  cases t with
  | nil => rfl
  | cons e r =>
    obtain ⟨i, x⟩ := e
    simp [tsortedFrom] at w
    unfold tput
    split
    · rename_i h; simp [tsortedFrom, h, w]
    · split
      · rename_i h; subst h; simp [tsortedFrom, w]
      · simp [tsortedFrom]; exact tsortedFrom_tput r i k v (by omega) w

theorem tsortedFrom_tdel_none {α : Type} (t : Tbl α) (k : Nat) (w : tsortedFrom none t = true) :
    tsortedFrom none (tdel t k) = true := by
  cases t with
  | nil => rfl
  | cons e r =>
    obtain ⟨i, x⟩ := e
    simp [tsortedFrom] at w
    unfold tdel
    split
    · exact tsortedFrom_none _ (tsortedFrom_tdel r i k w)
    · simp [tsortedFrom]; exact tsortedFrom_tdel r i k w

theorem mem_tput {α : Type} (t : Tbl α) (k : Nat) (v : α) (e : Nat × α) (h : e ∈ tput t k v) : e = (k, v) ∨ e ∈ t := by
  induction t with
  | nil => simp [tput] at h; exact .inl h
  | cons a r ih =>
    obtain ⟨i, x⟩ := a
    unfold tput at h
    split at h
    · simp at h; rcases h with h | h | h <;> simp [h]
    · split at h
      · simp at h; rcases h with h | h <;> simp [h]
      · simp at h
        rcases h with h | h
        · simp [h]
        · rcases ih h with g | g <;> simp [g]

theorem mem_tdel {α : Type} (t : Tbl α) (k : Nat) (e : Nat × α) (h : e ∈ tdel t k) : e ∈ t := by
  induction t with
  | nil => simp [tdel] at h
  | cons a r ih =>
    obtain ⟨i, x⟩ := a
    unfold tdel at h
    split at h
    · exact List.mem_cons_of_mem _ (ih h)
    · simp at h
      rcases h with h | h
      · simp [h]
      · exact List.mem_cons_of_mem _ (ih h)

/-- Writing any value at any index keeps the canonical form. -/
theorem twf_tset {α : Type} [DecidableEq α] (d : α) (t : Tbl α) (k : Nat) (v : α) (w : twf d t = true) :
    twf d (tset d t k v) = true := by
  simp only [twf, Bool.and_eq_true, List.all_eq_true, decide_eq_true_eq] at *
  unfold tset
  split
  · exact ⟨tsortedFrom_tdel_none t k w.1, fun e h => w.2 e (mem_tdel t k e h)⟩
  · rename_i hv
    refine ⟨tsortedFrom_tput_none t k v w.1, fun e h => ?_⟩
    rcases mem_tput t k v e h with g | g
    · subst g; exact hv
    · exact w.2 e g

/-- Dropping entries of a rising table leaves a rising table. -/
theorem tsortedFrom_filter {α : Type} (t : Tbl α) (b : Nat) (p : Nat × α → Bool) (w : tsortedFrom (some b) t = true) :
    tsortedFrom (some b) (t.filter p) = true := by
  induction t generalizing b with
  | nil => rfl
  | cons e r ih =>
    obtain ⟨i, x⟩ := e
    simp [tsortedFrom] at w
    by_cases h : p (i, x) = true
    · simp [List.filter, h, tsortedFrom, w.1]; exact ih i w.2
    · simp [List.filter, h]; exact tsortedFrom_mono _ (by omega) (ih i w.2)

/-- Dropping entries keeps the canonical form. -/
theorem twf_filter {α : Type} [DecidableEq α] (d : α) (t : Tbl α) (p : Nat × α → Bool) (w : twf d t = true) :
    twf d (t.filter p) = true := by
  simp only [twf, Bool.and_eq_true, List.all_eq_true, decide_eq_true_eq] at *
  refine ⟨?_, fun e h => w.2 e (List.mem_filter.mp h).1⟩
  cases t with
  | nil => rfl
  | cons e r =>
    obtain ⟨i, x⟩ := e
    simp [tsortedFrom] at w
    by_cases h : p (i, x) = true
    · simp [List.filter, h, tsortedFrom]; exact tsortedFrom_filter r i p w.1
    · simp [List.filter, h]; exact tsortedFrom_none _ (tsortedFrom_filter r i p w.1)

end Sys2Proof.Machine
end

