-- ==== Sys2Proof/Laws/State.lean ====
section
/-! SUPPORT. What each basic update leaves alone and what reading gives after it, field by field. -/

namespace Sys2Proof.Machine

@[simp] theorem atTime_pending (t : Nat) (s : State) : (atTime t s).pending = s.pending := rfl
@[simp] theorem atTime_out (t : Nat) (s : State) : (atTime t s).out = s.out := rfl
@[simp] theorem atTime_freeCtr (t : Nat) (s : State) : (atTime t s).freeCtr = s.freeCtr := rfl
@[simp] theorem atTime_mem (t : Nat) (s : State) : (atTime t s).mem = s.mem := rfl
@[simp] theorem atTime_dict (t : Nat) (s : State) : (atTime t s).dict = s.dict := rfl
@[simp] theorem atTime_sig (t : Nat) (s : State) : (atTime t s).sig = s.sig := rfl
@[simp] theorem atTime_cw (t : Nat) (s : State) : (atTime t s).cw = s.cw := rfl
@[simp] theorem atTime_jobs (t : Nat) (s : State) : (atTime t s).jobs = s.jobs := rfl
@[simp] theorem atTime_starts (t : Nat) (s : State) : (atTime t s).starts = s.starts := rfl
@[simp] theorem atTime_quires (t : Nat) (s : State) : (atTime t s).quires = s.quires := rfl
@[simp] theorem atTime_gutters (t : Nat) (s : State) : (atTime t s).gutters = s.gutters := rfl
@[simp] theorem atTime_handoff (t : Nat) (s : State) : (atTime t s).handoff = s.handoff := rfl
@[simp] theorem atTime_span (t : Nat) (s : State) : (atTime t s).span = s.span := rfl
@[simp] theorem atTime_tier (t : Nat) (s : State) : (atTime t s).tier = s.tier := rfl
@[simp] theorem atTime_flash (t : Nat) (s : State) : (atTime t s).flash = s.flash := rfl
@[simp] theorem atTime_fabric (t : Nat) (s : State) : (atTime t s).fabric = s.fabric := rfl
@[simp] theorem atTime_queue (t : Nat) (s : State) : (atTime t s).queue = s.queue := rfl
@[simp] theorem atTime_link (t : Nat) (s : State) : (atTime t s).link = s.link := rfl
@[simp] theorem atTime_press (t : Nat) (s : State) : (atTime t s).press = s.press := rfl
@[simp] theorem atTime_traffic (t : Nat) (s : State) : (atTime t s).traffic = s.traffic := rfl
@[simp] theorem atTime_err (t : Nat) (s : State) : (atTime t s).err = s.err := rfl
@[simp] theorem atTime_kettle (t : Nat) (s : State) : (atTime t s).kettle = s.kettle := rfl
@[simp] theorem atTime_power (t : Nat) (s : State) : (atTime t s).power = s.power := rfl
@[simp] theorem atTime_boot (t : Nat) (s : State) : (atTime t s).boot = s.boot := rfl

@[simp] theorem emit_pending (s : State) (o : Out) : (emit s o).pending = s.pending := rfl
@[simp] theorem emit_now (s : State) (o : Out) : (emit s o).now = s.now := rfl
@[simp] theorem emit_freeCtr (s : State) (o : Out) : (emit s o).freeCtr = s.freeCtr := rfl
@[simp] theorem emit_mem (s : State) (o : Out) : (emit s o).mem = s.mem := rfl
@[simp] theorem emit_dict (s : State) (o : Out) : (emit s o).dict = s.dict := rfl
@[simp] theorem emit_sig (s : State) (o : Out) : (emit s o).sig = s.sig := rfl
@[simp] theorem emit_cw (s : State) (o : Out) : (emit s o).cw = s.cw := rfl
@[simp] theorem emit_jobs (s : State) (o : Out) : (emit s o).jobs = s.jobs := rfl
@[simp] theorem emit_starts (s : State) (o : Out) : (emit s o).starts = s.starts := rfl
@[simp] theorem emit_quires (s : State) (o : Out) : (emit s o).quires = s.quires := rfl
@[simp] theorem emit_gutters (s : State) (o : Out) : (emit s o).gutters = s.gutters := rfl
@[simp] theorem emit_handoff (s : State) (o : Out) : (emit s o).handoff = s.handoff := rfl
@[simp] theorem emit_span (s : State) (o : Out) : (emit s o).span = s.span := rfl
@[simp] theorem emit_tier (s : State) (o : Out) : (emit s o).tier = s.tier := rfl
@[simp] theorem emit_flash (s : State) (o : Out) : (emit s o).flash = s.flash := rfl
@[simp] theorem emit_fabric (s : State) (o : Out) : (emit s o).fabric = s.fabric := rfl
@[simp] theorem emit_queue (s : State) (o : Out) : (emit s o).queue = s.queue := rfl
@[simp] theorem emit_link (s : State) (o : Out) : (emit s o).link = s.link := rfl
@[simp] theorem emit_press (s : State) (o : Out) : (emit s o).press = s.press := rfl
@[simp] theorem emit_traffic (s : State) (o : Out) : (emit s o).traffic = s.traffic := rfl
@[simp] theorem emit_err (s : State) (o : Out) : (emit s o).err = s.err := rfl
@[simp] theorem emit_kettle (s : State) (o : Out) : (emit s o).kettle = s.kettle := rfl
@[simp] theorem emit_power (s : State) (o : Out) : (emit s o).power = s.power := rfl
@[simp] theorem emit_boot (s : State) (o : Out) : (emit s o).boot = s.boot := rfl

@[simp] theorem draw_pending (s : State) : (draw s).pending = s.pending := rfl
@[simp] theorem draw_now (s : State) : (draw s).now = s.now := rfl
@[simp] theorem draw_out (s : State) : (draw s).out = s.out := rfl
@[simp] theorem draw_mem (s : State) : (draw s).mem = s.mem := rfl
@[simp] theorem draw_dict (s : State) : (draw s).dict = s.dict := rfl
@[simp] theorem draw_sig (s : State) : (draw s).sig = s.sig := rfl
@[simp] theorem draw_cw (s : State) : (draw s).cw = s.cw := rfl
@[simp] theorem draw_jobs (s : State) : (draw s).jobs = s.jobs := rfl
@[simp] theorem draw_starts (s : State) : (draw s).starts = s.starts := rfl
@[simp] theorem draw_quires (s : State) : (draw s).quires = s.quires := rfl
@[simp] theorem draw_gutters (s : State) : (draw s).gutters = s.gutters := rfl
@[simp] theorem draw_handoff (s : State) : (draw s).handoff = s.handoff := rfl
@[simp] theorem draw_span (s : State) : (draw s).span = s.span := rfl
@[simp] theorem draw_tier (s : State) : (draw s).tier = s.tier := rfl
@[simp] theorem draw_flash (s : State) : (draw s).flash = s.flash := rfl
@[simp] theorem draw_fabric (s : State) : (draw s).fabric = s.fabric := rfl
@[simp] theorem draw_queue (s : State) : (draw s).queue = s.queue := rfl
@[simp] theorem draw_link (s : State) : (draw s).link = s.link := rfl
@[simp] theorem draw_press (s : State) : (draw s).press = s.press := rfl
@[simp] theorem draw_traffic (s : State) : (draw s).traffic = s.traffic := rfl
@[simp] theorem draw_err (s : State) : (draw s).err = s.err := rfl
@[simp] theorem draw_kettle (s : State) : (draw s).kettle = s.kettle := rfl
@[simp] theorem draw_power (s : State) : (draw s).power = s.power := rfl
@[simp] theorem draw_boot (s : State) : (draw s).boot = s.boot := rfl

@[simp] theorem setF_pending (s : State) (i k v : Nat) : (setF s i k v).pending = s.pending := rfl
@[simp] theorem setF_now (s : State) (i k v : Nat) : (setF s i k v).now = s.now := rfl
@[simp] theorem setF_out (s : State) (i k v : Nat) : (setF s i k v).out = s.out := rfl
@[simp] theorem setF_freeCtr (s : State) (i k v : Nat) : (setF s i k v).freeCtr = s.freeCtr := rfl
@[simp] theorem setF_mem (s : State) (i k v : Nat) : (setF s i k v).mem = s.mem := rfl
@[simp] theorem setF_sig (s : State) (i k v : Nat) : (setF s i k v).sig = s.sig := rfl
@[simp] theorem setF_cw (s : State) (i k v : Nat) : (setF s i k v).cw = s.cw := rfl
@[simp] theorem setF_jobs (s : State) (i k v : Nat) : (setF s i k v).jobs = s.jobs := rfl
@[simp] theorem setF_starts (s : State) (i k v : Nat) : (setF s i k v).starts = s.starts := rfl
@[simp] theorem setF_quires (s : State) (i k v : Nat) : (setF s i k v).quires = s.quires := rfl
@[simp] theorem setF_gutters (s : State) (i k v : Nat) : (setF s i k v).gutters = s.gutters := rfl
@[simp] theorem setF_handoff (s : State) (i k v : Nat) : (setF s i k v).handoff = s.handoff := rfl
@[simp] theorem setF_span (s : State) (i k v : Nat) : (setF s i k v).span = s.span := rfl
@[simp] theorem setF_tier (s : State) (i k v : Nat) : (setF s i k v).tier = s.tier := rfl
@[simp] theorem setF_flash (s : State) (i k v : Nat) : (setF s i k v).flash = s.flash := rfl
@[simp] theorem setF_fabric (s : State) (i k v : Nat) : (setF s i k v).fabric = s.fabric := rfl
@[simp] theorem setF_queue (s : State) (i k v : Nat) : (setF s i k v).queue = s.queue := rfl
@[simp] theorem setF_link (s : State) (i k v : Nat) : (setF s i k v).link = s.link := rfl
@[simp] theorem setF_press (s : State) (i k v : Nat) : (setF s i k v).press = s.press := rfl
@[simp] theorem setF_traffic (s : State) (i k v : Nat) : (setF s i k v).traffic = s.traffic := rfl
@[simp] theorem setF_err (s : State) (i k v : Nat) : (setF s i k v).err = s.err := rfl
@[simp] theorem setF_kettle (s : State) (i k v : Nat) : (setF s i k v).kettle = s.kettle := rfl
@[simp] theorem setF_power (s : State) (i k v : Nat) : (setF s i k v).power = s.power := rfl
@[simp] theorem setF_boot (s : State) (i k v : Nat) : (setF s i k v).boot = s.boot := rfl

@[simp] theorem addF_pending (s : State) (i k n : Nat) : (addF s i k n).pending = s.pending := rfl
@[simp] theorem addF_now (s : State) (i k n : Nat) : (addF s i k n).now = s.now := rfl
@[simp] theorem addF_out (s : State) (i k n : Nat) : (addF s i k n).out = s.out := rfl
@[simp] theorem addF_freeCtr (s : State) (i k n : Nat) : (addF s i k n).freeCtr = s.freeCtr := rfl
@[simp] theorem addF_mem (s : State) (i k n : Nat) : (addF s i k n).mem = s.mem := rfl
@[simp] theorem addF_sig (s : State) (i k n : Nat) : (addF s i k n).sig = s.sig := rfl
@[simp] theorem addF_cw (s : State) (i k n : Nat) : (addF s i k n).cw = s.cw := rfl
@[simp] theorem addF_jobs (s : State) (i k n : Nat) : (addF s i k n).jobs = s.jobs := rfl
@[simp] theorem addF_starts (s : State) (i k n : Nat) : (addF s i k n).starts = s.starts := rfl
@[simp] theorem addF_quires (s : State) (i k n : Nat) : (addF s i k n).quires = s.quires := rfl
@[simp] theorem addF_gutters (s : State) (i k n : Nat) : (addF s i k n).gutters = s.gutters := rfl
@[simp] theorem addF_handoff (s : State) (i k n : Nat) : (addF s i k n).handoff = s.handoff := rfl
@[simp] theorem addF_span (s : State) (i k n : Nat) : (addF s i k n).span = s.span := rfl
@[simp] theorem addF_tier (s : State) (i k n : Nat) : (addF s i k n).tier = s.tier := rfl
@[simp] theorem addF_flash (s : State) (i k n : Nat) : (addF s i k n).flash = s.flash := rfl
@[simp] theorem addF_fabric (s : State) (i k n : Nat) : (addF s i k n).fabric = s.fabric := rfl
@[simp] theorem addF_queue (s : State) (i k n : Nat) : (addF s i k n).queue = s.queue := rfl
@[simp] theorem addF_link (s : State) (i k n : Nat) : (addF s i k n).link = s.link := rfl
@[simp] theorem addF_press (s : State) (i k n : Nat) : (addF s i k n).press = s.press := rfl
@[simp] theorem addF_traffic (s : State) (i k n : Nat) : (addF s i k n).traffic = s.traffic := rfl
@[simp] theorem addF_err (s : State) (i k n : Nat) : (addF s i k n).err = s.err := rfl
@[simp] theorem addF_kettle (s : State) (i k n : Nat) : (addF s i k n).kettle = s.kettle := rfl
@[simp] theorem addF_power (s : State) (i k n : Nat) : (addF s i k n).power = s.power := rfl
@[simp] theorem addF_boot (s : State) (i k n : Nat) : (addF s i k n).boot = s.boot := rfl

@[simp] theorem incF_pending (s : State) (i k : Nat) : (incF s i k).pending = s.pending := rfl
@[simp] theorem incF_now (s : State) (i k : Nat) : (incF s i k).now = s.now := rfl
@[simp] theorem incF_out (s : State) (i k : Nat) : (incF s i k).out = s.out := rfl
@[simp] theorem incF_freeCtr (s : State) (i k : Nat) : (incF s i k).freeCtr = s.freeCtr := rfl
@[simp] theorem incF_mem (s : State) (i k : Nat) : (incF s i k).mem = s.mem := rfl
@[simp] theorem incF_sig (s : State) (i k : Nat) : (incF s i k).sig = s.sig := rfl
@[simp] theorem incF_cw (s : State) (i k : Nat) : (incF s i k).cw = s.cw := rfl
@[simp] theorem incF_jobs (s : State) (i k : Nat) : (incF s i k).jobs = s.jobs := rfl
@[simp] theorem incF_starts (s : State) (i k : Nat) : (incF s i k).starts = s.starts := rfl
@[simp] theorem incF_quires (s : State) (i k : Nat) : (incF s i k).quires = s.quires := rfl
@[simp] theorem incF_gutters (s : State) (i k : Nat) : (incF s i k).gutters = s.gutters := rfl
@[simp] theorem incF_handoff (s : State) (i k : Nat) : (incF s i k).handoff = s.handoff := rfl
@[simp] theorem incF_span (s : State) (i k : Nat) : (incF s i k).span = s.span := rfl
@[simp] theorem incF_tier (s : State) (i k : Nat) : (incF s i k).tier = s.tier := rfl
@[simp] theorem incF_flash (s : State) (i k : Nat) : (incF s i k).flash = s.flash := rfl
@[simp] theorem incF_fabric (s : State) (i k : Nat) : (incF s i k).fabric = s.fabric := rfl
@[simp] theorem incF_queue (s : State) (i k : Nat) : (incF s i k).queue = s.queue := rfl
@[simp] theorem incF_link (s : State) (i k : Nat) : (incF s i k).link = s.link := rfl
@[simp] theorem incF_press (s : State) (i k : Nat) : (incF s i k).press = s.press := rfl
@[simp] theorem incF_traffic (s : State) (i k : Nat) : (incF s i k).traffic = s.traffic := rfl
@[simp] theorem incF_err (s : State) (i k : Nat) : (incF s i k).err = s.err := rfl
@[simp] theorem incF_kettle (s : State) (i k : Nat) : (incF s i k).kettle = s.kettle := rfl
@[simp] theorem incF_power (s : State) (i k : Nat) : (incF s i k).power = s.power := rfl
@[simp] theorem incF_boot (s : State) (i k : Nat) : (incF s i k).boot = s.boot := rfl

@[simp] theorem setBitF_pending (s : State) (i k b : Nat) (on : Bool) : (setBitF s i k b on).pending = s.pending := rfl
@[simp] theorem setBitF_now (s : State) (i k b : Nat) (on : Bool) : (setBitF s i k b on).now = s.now := rfl
@[simp] theorem setBitF_out (s : State) (i k b : Nat) (on : Bool) : (setBitF s i k b on).out = s.out := rfl
@[simp] theorem setBitF_freeCtr (s : State) (i k b : Nat) (on : Bool) : (setBitF s i k b on).freeCtr = s.freeCtr := rfl
@[simp] theorem setBitF_mem (s : State) (i k b : Nat) (on : Bool) : (setBitF s i k b on).mem = s.mem := rfl
@[simp] theorem setBitF_sig (s : State) (i k b : Nat) (on : Bool) : (setBitF s i k b on).sig = s.sig := rfl
@[simp] theorem setBitF_cw (s : State) (i k b : Nat) (on : Bool) : (setBitF s i k b on).cw = s.cw := rfl
@[simp] theorem setBitF_jobs (s : State) (i k b : Nat) (on : Bool) : (setBitF s i k b on).jobs = s.jobs := rfl
@[simp] theorem setBitF_starts (s : State) (i k b : Nat) (on : Bool) : (setBitF s i k b on).starts = s.starts := rfl
@[simp] theorem setBitF_quires (s : State) (i k b : Nat) (on : Bool) : (setBitF s i k b on).quires = s.quires := rfl
@[simp] theorem setBitF_gutters (s : State) (i k b : Nat) (on : Bool) : (setBitF s i k b on).gutters = s.gutters := rfl
@[simp] theorem setBitF_handoff (s : State) (i k b : Nat) (on : Bool) : (setBitF s i k b on).handoff = s.handoff := rfl
@[simp] theorem setBitF_span (s : State) (i k b : Nat) (on : Bool) : (setBitF s i k b on).span = s.span := rfl
@[simp] theorem setBitF_tier (s : State) (i k b : Nat) (on : Bool) : (setBitF s i k b on).tier = s.tier := rfl
@[simp] theorem setBitF_flash (s : State) (i k b : Nat) (on : Bool) : (setBitF s i k b on).flash = s.flash := rfl
@[simp] theorem setBitF_fabric (s : State) (i k b : Nat) (on : Bool) : (setBitF s i k b on).fabric = s.fabric := rfl
@[simp] theorem setBitF_queue (s : State) (i k b : Nat) (on : Bool) : (setBitF s i k b on).queue = s.queue := rfl
@[simp] theorem setBitF_link (s : State) (i k b : Nat) (on : Bool) : (setBitF s i k b on).link = s.link := rfl
@[simp] theorem setBitF_press (s : State) (i k b : Nat) (on : Bool) : (setBitF s i k b on).press = s.press := rfl
@[simp] theorem setBitF_traffic (s : State) (i k b : Nat) (on : Bool) : (setBitF s i k b on).traffic = s.traffic := rfl
@[simp] theorem setBitF_err (s : State) (i k b : Nat) (on : Bool) : (setBitF s i k b on).err = s.err := rfl
@[simp] theorem setBitF_kettle (s : State) (i k b : Nat) (on : Bool) : (setBitF s i k b on).kettle = s.kettle := rfl
@[simp] theorem setBitF_power (s : State) (i k b : Nat) (on : Bool) : (setBitF s i k b on).power = s.power := rfl
@[simp] theorem setBitF_boot (s : State) (i k b : Nat) (on : Bool) : (setBitF s i k b on).boot = s.boot := rfl

@[simp] theorem modE_pending (s : State) (n : Nat) (f : SigEntry → SigEntry) : (modE s n f).pending = s.pending := rfl
@[simp] theorem modE_now (s : State) (n : Nat) (f : SigEntry → SigEntry) : (modE s n f).now = s.now := rfl
@[simp] theorem modE_out (s : State) (n : Nat) (f : SigEntry → SigEntry) : (modE s n f).out = s.out := rfl
@[simp] theorem modE_freeCtr (s : State) (n : Nat) (f : SigEntry → SigEntry) : (modE s n f).freeCtr = s.freeCtr := rfl
@[simp] theorem modE_mem (s : State) (n : Nat) (f : SigEntry → SigEntry) : (modE s n f).mem = s.mem := rfl
@[simp] theorem modE_dict (s : State) (n : Nat) (f : SigEntry → SigEntry) : (modE s n f).dict = s.dict := rfl
@[simp] theorem modE_cw (s : State) (n : Nat) (f : SigEntry → SigEntry) : (modE s n f).cw = s.cw := rfl
@[simp] theorem modE_jobs (s : State) (n : Nat) (f : SigEntry → SigEntry) : (modE s n f).jobs = s.jobs := rfl
@[simp] theorem modE_starts (s : State) (n : Nat) (f : SigEntry → SigEntry) : (modE s n f).starts = s.starts := rfl
@[simp] theorem modE_quires (s : State) (n : Nat) (f : SigEntry → SigEntry) : (modE s n f).quires = s.quires := rfl
@[simp] theorem modE_gutters (s : State) (n : Nat) (f : SigEntry → SigEntry) : (modE s n f).gutters = s.gutters := rfl
@[simp] theorem modE_handoff (s : State) (n : Nat) (f : SigEntry → SigEntry) : (modE s n f).handoff = s.handoff := rfl
@[simp] theorem modE_span (s : State) (n : Nat) (f : SigEntry → SigEntry) : (modE s n f).span = s.span := rfl
@[simp] theorem modE_tier (s : State) (n : Nat) (f : SigEntry → SigEntry) : (modE s n f).tier = s.tier := rfl
@[simp] theorem modE_flash (s : State) (n : Nat) (f : SigEntry → SigEntry) : (modE s n f).flash = s.flash := rfl
@[simp] theorem modE_fabric (s : State) (n : Nat) (f : SigEntry → SigEntry) : (modE s n f).fabric = s.fabric := rfl
@[simp] theorem modE_queue (s : State) (n : Nat) (f : SigEntry → SigEntry) : (modE s n f).queue = s.queue := rfl
@[simp] theorem modE_link (s : State) (n : Nat) (f : SigEntry → SigEntry) : (modE s n f).link = s.link := rfl
@[simp] theorem modE_press (s : State) (n : Nat) (f : SigEntry → SigEntry) : (modE s n f).press = s.press := rfl
@[simp] theorem modE_traffic (s : State) (n : Nat) (f : SigEntry → SigEntry) : (modE s n f).traffic = s.traffic := rfl
@[simp] theorem modE_err (s : State) (n : Nat) (f : SigEntry → SigEntry) : (modE s n f).err = s.err := rfl
@[simp] theorem modE_kettle (s : State) (n : Nat) (f : SigEntry → SigEntry) : (modE s n f).kettle = s.kettle := rfl
@[simp] theorem modE_power (s : State) (n : Nat) (f : SigEntry → SigEntry) : (modE s n f).power = s.power := rfl
@[simp] theorem modE_boot (s : State) (n : Nat) (f : SigEntry → SigEntry) : (modE s n f).boot = s.boot := rfl

@[simp] theorem modA_pending (s : State) (n : Nat) (f : SigAux → SigAux) : (modA s n f).pending = s.pending := rfl
@[simp] theorem modA_now (s : State) (n : Nat) (f : SigAux → SigAux) : (modA s n f).now = s.now := rfl
@[simp] theorem modA_out (s : State) (n : Nat) (f : SigAux → SigAux) : (modA s n f).out = s.out := rfl
@[simp] theorem modA_freeCtr (s : State) (n : Nat) (f : SigAux → SigAux) : (modA s n f).freeCtr = s.freeCtr := rfl
@[simp] theorem modA_mem (s : State) (n : Nat) (f : SigAux → SigAux) : (modA s n f).mem = s.mem := rfl
@[simp] theorem modA_dict (s : State) (n : Nat) (f : SigAux → SigAux) : (modA s n f).dict = s.dict := rfl
@[simp] theorem modA_cw (s : State) (n : Nat) (f : SigAux → SigAux) : (modA s n f).cw = s.cw := rfl
@[simp] theorem modA_jobs (s : State) (n : Nat) (f : SigAux → SigAux) : (modA s n f).jobs = s.jobs := rfl
@[simp] theorem modA_starts (s : State) (n : Nat) (f : SigAux → SigAux) : (modA s n f).starts = s.starts := rfl
@[simp] theorem modA_quires (s : State) (n : Nat) (f : SigAux → SigAux) : (modA s n f).quires = s.quires := rfl
@[simp] theorem modA_gutters (s : State) (n : Nat) (f : SigAux → SigAux) : (modA s n f).gutters = s.gutters := rfl
@[simp] theorem modA_handoff (s : State) (n : Nat) (f : SigAux → SigAux) : (modA s n f).handoff = s.handoff := rfl
@[simp] theorem modA_span (s : State) (n : Nat) (f : SigAux → SigAux) : (modA s n f).span = s.span := rfl
@[simp] theorem modA_tier (s : State) (n : Nat) (f : SigAux → SigAux) : (modA s n f).tier = s.tier := rfl
@[simp] theorem modA_flash (s : State) (n : Nat) (f : SigAux → SigAux) : (modA s n f).flash = s.flash := rfl
@[simp] theorem modA_fabric (s : State) (n : Nat) (f : SigAux → SigAux) : (modA s n f).fabric = s.fabric := rfl
@[simp] theorem modA_queue (s : State) (n : Nat) (f : SigAux → SigAux) : (modA s n f).queue = s.queue := rfl
@[simp] theorem modA_link (s : State) (n : Nat) (f : SigAux → SigAux) : (modA s n f).link = s.link := rfl
@[simp] theorem modA_press (s : State) (n : Nat) (f : SigAux → SigAux) : (modA s n f).press = s.press := rfl
@[simp] theorem modA_traffic (s : State) (n : Nat) (f : SigAux → SigAux) : (modA s n f).traffic = s.traffic := rfl
@[simp] theorem modA_err (s : State) (n : Nat) (f : SigAux → SigAux) : (modA s n f).err = s.err := rfl
@[simp] theorem modA_kettle (s : State) (n : Nat) (f : SigAux → SigAux) : (modA s n f).kettle = s.kettle := rfl
@[simp] theorem modA_power (s : State) (n : Nat) (f : SigAux → SigAux) : (modA s n f).power = s.power := rfl
@[simp] theorem modA_boot (s : State) (n : Nat) (f : SigAux → SigAux) : (modA s n f).boot = s.boot := rfl

@[simp] theorem setJob_pending (s : State) (j : Nat) (x : JobSt) : (setJob s j x).pending = s.pending := rfl
@[simp] theorem setJob_now (s : State) (j : Nat) (x : JobSt) : (setJob s j x).now = s.now := rfl
@[simp] theorem setJob_out (s : State) (j : Nat) (x : JobSt) : (setJob s j x).out = s.out := rfl
@[simp] theorem setJob_freeCtr (s : State) (j : Nat) (x : JobSt) : (setJob s j x).freeCtr = s.freeCtr := rfl
@[simp] theorem setJob_mem (s : State) (j : Nat) (x : JobSt) : (setJob s j x).mem = s.mem := rfl
@[simp] theorem setJob_dict (s : State) (j : Nat) (x : JobSt) : (setJob s j x).dict = s.dict := rfl
@[simp] theorem setJob_sig (s : State) (j : Nat) (x : JobSt) : (setJob s j x).sig = s.sig := rfl
@[simp] theorem setJob_cw (s : State) (j : Nat) (x : JobSt) : (setJob s j x).cw = s.cw := rfl
@[simp] theorem setJob_starts (s : State) (j : Nat) (x : JobSt) : (setJob s j x).starts = s.starts := rfl
@[simp] theorem setJob_quires (s : State) (j : Nat) (x : JobSt) : (setJob s j x).quires = s.quires := rfl
@[simp] theorem setJob_gutters (s : State) (j : Nat) (x : JobSt) : (setJob s j x).gutters = s.gutters := rfl
@[simp] theorem setJob_handoff (s : State) (j : Nat) (x : JobSt) : (setJob s j x).handoff = s.handoff := rfl
@[simp] theorem setJob_span (s : State) (j : Nat) (x : JobSt) : (setJob s j x).span = s.span := rfl
@[simp] theorem setJob_tier (s : State) (j : Nat) (x : JobSt) : (setJob s j x).tier = s.tier := rfl
@[simp] theorem setJob_flash (s : State) (j : Nat) (x : JobSt) : (setJob s j x).flash = s.flash := rfl
@[simp] theorem setJob_fabric (s : State) (j : Nat) (x : JobSt) : (setJob s j x).fabric = s.fabric := rfl
@[simp] theorem setJob_queue (s : State) (j : Nat) (x : JobSt) : (setJob s j x).queue = s.queue := rfl
@[simp] theorem setJob_link (s : State) (j : Nat) (x : JobSt) : (setJob s j x).link = s.link := rfl
@[simp] theorem setJob_press (s : State) (j : Nat) (x : JobSt) : (setJob s j x).press = s.press := rfl
@[simp] theorem setJob_traffic (s : State) (j : Nat) (x : JobSt) : (setJob s j x).traffic = s.traffic := rfl
@[simp] theorem setJob_err (s : State) (j : Nat) (x : JobSt) : (setJob s j x).err = s.err := rfl
@[simp] theorem setJob_kettle (s : State) (j : Nat) (x : JobSt) : (setJob s j x).kettle = s.kettle := rfl
@[simp] theorem setJob_power (s : State) (j : Nat) (x : JobSt) : (setJob s j x).power = s.power := rfl
@[simp] theorem setJob_boot (s : State) (j : Nat) (x : JobSt) : (setJob s j x).boot = s.boot := rfl

@[simp] theorem modJob_pending (s : State) (j : Nat) (f : JobSt → JobSt) : (modJob s j f).pending = s.pending := rfl
@[simp] theorem modJob_now (s : State) (j : Nat) (f : JobSt → JobSt) : (modJob s j f).now = s.now := rfl
@[simp] theorem modJob_out (s : State) (j : Nat) (f : JobSt → JobSt) : (modJob s j f).out = s.out := rfl
@[simp] theorem modJob_freeCtr (s : State) (j : Nat) (f : JobSt → JobSt) : (modJob s j f).freeCtr = s.freeCtr := rfl
@[simp] theorem modJob_mem (s : State) (j : Nat) (f : JobSt → JobSt) : (modJob s j f).mem = s.mem := rfl
@[simp] theorem modJob_dict (s : State) (j : Nat) (f : JobSt → JobSt) : (modJob s j f).dict = s.dict := rfl
@[simp] theorem modJob_sig (s : State) (j : Nat) (f : JobSt → JobSt) : (modJob s j f).sig = s.sig := rfl
@[simp] theorem modJob_cw (s : State) (j : Nat) (f : JobSt → JobSt) : (modJob s j f).cw = s.cw := rfl
@[simp] theorem modJob_starts (s : State) (j : Nat) (f : JobSt → JobSt) : (modJob s j f).starts = s.starts := rfl
@[simp] theorem modJob_quires (s : State) (j : Nat) (f : JobSt → JobSt) : (modJob s j f).quires = s.quires := rfl
@[simp] theorem modJob_gutters (s : State) (j : Nat) (f : JobSt → JobSt) : (modJob s j f).gutters = s.gutters := rfl
@[simp] theorem modJob_handoff (s : State) (j : Nat) (f : JobSt → JobSt) : (modJob s j f).handoff = s.handoff := rfl
@[simp] theorem modJob_span (s : State) (j : Nat) (f : JobSt → JobSt) : (modJob s j f).span = s.span := rfl
@[simp] theorem modJob_tier (s : State) (j : Nat) (f : JobSt → JobSt) : (modJob s j f).tier = s.tier := rfl
@[simp] theorem modJob_flash (s : State) (j : Nat) (f : JobSt → JobSt) : (modJob s j f).flash = s.flash := rfl
@[simp] theorem modJob_fabric (s : State) (j : Nat) (f : JobSt → JobSt) : (modJob s j f).fabric = s.fabric := rfl
@[simp] theorem modJob_queue (s : State) (j : Nat) (f : JobSt → JobSt) : (modJob s j f).queue = s.queue := rfl
@[simp] theorem modJob_link (s : State) (j : Nat) (f : JobSt → JobSt) : (modJob s j f).link = s.link := rfl
@[simp] theorem modJob_press (s : State) (j : Nat) (f : JobSt → JobSt) : (modJob s j f).press = s.press := rfl
@[simp] theorem modJob_traffic (s : State) (j : Nat) (f : JobSt → JobSt) : (modJob s j f).traffic = s.traffic := rfl
@[simp] theorem modJob_err (s : State) (j : Nat) (f : JobSt → JobSt) : (modJob s j f).err = s.err := rfl
@[simp] theorem modJob_kettle (s : State) (j : Nat) (f : JobSt → JobSt) : (modJob s j f).kettle = s.kettle := rfl
@[simp] theorem modJob_power (s : State) (j : Nat) (f : JobSt → JobSt) : (modJob s j f).power = s.power := rfl
@[simp] theorem modJob_boot (s : State) (j : Nat) (f : JobSt → JobSt) : (modJob s j f).boot = s.boot := rfl

@[simp] theorem modGutter_pending (s : State) (c : Nat) (f : GutterUnit → GutterUnit) : (modGutter s c f).pending = s.pending := rfl
@[simp] theorem modGutter_now (s : State) (c : Nat) (f : GutterUnit → GutterUnit) : (modGutter s c f).now = s.now := rfl
@[simp] theorem modGutter_out (s : State) (c : Nat) (f : GutterUnit → GutterUnit) : (modGutter s c f).out = s.out := rfl
@[simp] theorem modGutter_freeCtr (s : State) (c : Nat) (f : GutterUnit → GutterUnit) : (modGutter s c f).freeCtr = s.freeCtr := rfl
@[simp] theorem modGutter_mem (s : State) (c : Nat) (f : GutterUnit → GutterUnit) : (modGutter s c f).mem = s.mem := rfl
@[simp] theorem modGutter_dict (s : State) (c : Nat) (f : GutterUnit → GutterUnit) : (modGutter s c f).dict = s.dict := rfl
@[simp] theorem modGutter_sig (s : State) (c : Nat) (f : GutterUnit → GutterUnit) : (modGutter s c f).sig = s.sig := rfl
@[simp] theorem modGutter_cw (s : State) (c : Nat) (f : GutterUnit → GutterUnit) : (modGutter s c f).cw = s.cw := rfl
@[simp] theorem modGutter_jobs (s : State) (c : Nat) (f : GutterUnit → GutterUnit) : (modGutter s c f).jobs = s.jobs := rfl
@[simp] theorem modGutter_starts (s : State) (c : Nat) (f : GutterUnit → GutterUnit) : (modGutter s c f).starts = s.starts := rfl
@[simp] theorem modGutter_quires (s : State) (c : Nat) (f : GutterUnit → GutterUnit) : (modGutter s c f).quires = s.quires := rfl
@[simp] theorem modGutter_handoff (s : State) (c : Nat) (f : GutterUnit → GutterUnit) : (modGutter s c f).handoff = s.handoff := rfl
@[simp] theorem modGutter_span (s : State) (c : Nat) (f : GutterUnit → GutterUnit) : (modGutter s c f).span = s.span := rfl
@[simp] theorem modGutter_tier (s : State) (c : Nat) (f : GutterUnit → GutterUnit) : (modGutter s c f).tier = s.tier := rfl
@[simp] theorem modGutter_flash (s : State) (c : Nat) (f : GutterUnit → GutterUnit) : (modGutter s c f).flash = s.flash := rfl
@[simp] theorem modGutter_fabric (s : State) (c : Nat) (f : GutterUnit → GutterUnit) : (modGutter s c f).fabric = s.fabric := rfl
@[simp] theorem modGutter_queue (s : State) (c : Nat) (f : GutterUnit → GutterUnit) : (modGutter s c f).queue = s.queue := rfl
@[simp] theorem modGutter_link (s : State) (c : Nat) (f : GutterUnit → GutterUnit) : (modGutter s c f).link = s.link := rfl
@[simp] theorem modGutter_press (s : State) (c : Nat) (f : GutterUnit → GutterUnit) : (modGutter s c f).press = s.press := rfl
@[simp] theorem modGutter_traffic (s : State) (c : Nat) (f : GutterUnit → GutterUnit) : (modGutter s c f).traffic = s.traffic := rfl
@[simp] theorem modGutter_err (s : State) (c : Nat) (f : GutterUnit → GutterUnit) : (modGutter s c f).err = s.err := rfl
@[simp] theorem modGutter_kettle (s : State) (c : Nat) (f : GutterUnit → GutterUnit) : (modGutter s c f).kettle = s.kettle := rfl
@[simp] theorem modGutter_power (s : State) (c : Nat) (f : GutterUnit → GutterUnit) : (modGutter s c f).power = s.power := rfl
@[simp] theorem modGutter_boot (s : State) (c : Nat) (f : GutterUnit → GutterUnit) : (modGutter s c f).boot = s.boot := rfl

@[simp] theorem modUnit_pending (s : State) (u : Nat) (f : UnitState → UnitState) : (modUnit s u f).pending = s.pending := rfl
@[simp] theorem modUnit_now (s : State) (u : Nat) (f : UnitState → UnitState) : (modUnit s u f).now = s.now := rfl
@[simp] theorem modUnit_out (s : State) (u : Nat) (f : UnitState → UnitState) : (modUnit s u f).out = s.out := rfl
@[simp] theorem modUnit_freeCtr (s : State) (u : Nat) (f : UnitState → UnitState) : (modUnit s u f).freeCtr = s.freeCtr := rfl
@[simp] theorem modUnit_mem (s : State) (u : Nat) (f : UnitState → UnitState) : (modUnit s u f).mem = s.mem := rfl
@[simp] theorem modUnit_dict (s : State) (u : Nat) (f : UnitState → UnitState) : (modUnit s u f).dict = s.dict := rfl
@[simp] theorem modUnit_sig (s : State) (u : Nat) (f : UnitState → UnitState) : (modUnit s u f).sig = s.sig := rfl
@[simp] theorem modUnit_cw (s : State) (u : Nat) (f : UnitState → UnitState) : (modUnit s u f).cw = s.cw := rfl
@[simp] theorem modUnit_jobs (s : State) (u : Nat) (f : UnitState → UnitState) : (modUnit s u f).jobs = s.jobs := rfl
@[simp] theorem modUnit_starts (s : State) (u : Nat) (f : UnitState → UnitState) : (modUnit s u f).starts = s.starts := rfl
@[simp] theorem modUnit_quires (s : State) (u : Nat) (f : UnitState → UnitState) : (modUnit s u f).quires = s.quires := rfl
@[simp] theorem modUnit_gutters (s : State) (u : Nat) (f : UnitState → UnitState) : (modUnit s u f).gutters = s.gutters := rfl
@[simp] theorem modUnit_handoff (s : State) (u : Nat) (f : UnitState → UnitState) : (modUnit s u f).handoff = s.handoff := rfl
@[simp] theorem modUnit_span (s : State) (u : Nat) (f : UnitState → UnitState) : (modUnit s u f).span = s.span := rfl
@[simp] theorem modUnit_tier (s : State) (u : Nat) (f : UnitState → UnitState) : (modUnit s u f).tier = s.tier := rfl
@[simp] theorem modUnit_flash (s : State) (u : Nat) (f : UnitState → UnitState) : (modUnit s u f).flash = s.flash := rfl
@[simp] theorem modUnit_fabric (s : State) (u : Nat) (f : UnitState → UnitState) : (modUnit s u f).fabric = s.fabric := rfl
@[simp] theorem modUnit_queue (s : State) (u : Nat) (f : UnitState → UnitState) : (modUnit s u f).queue = s.queue := rfl
@[simp] theorem modUnit_link (s : State) (u : Nat) (f : UnitState → UnitState) : (modUnit s u f).link = s.link := rfl
@[simp] theorem modUnit_press (s : State) (u : Nat) (f : UnitState → UnitState) : (modUnit s u f).press = s.press := rfl
@[simp] theorem modUnit_traffic (s : State) (u : Nat) (f : UnitState → UnitState) : (modUnit s u f).traffic = s.traffic := rfl
@[simp] theorem modUnit_kettle (s : State) (u : Nat) (f : UnitState → UnitState) : (modUnit s u f).kettle = s.kettle := rfl
@[simp] theorem modUnit_power (s : State) (u : Nat) (f : UnitState → UnitState) : (modUnit s u f).power = s.power := rfl
@[simp] theorem modUnit_boot (s : State) (u : Nat) (f : UnitState → UnitState) : (modUnit s u f).boot = s.boot := rfl

@[simp] theorem setLink_pending (s : State) (l : Nat) (x : Link) : (setLink s l x).pending = s.pending := rfl
@[simp] theorem setLink_now (s : State) (l : Nat) (x : Link) : (setLink s l x).now = s.now := rfl
@[simp] theorem setLink_out (s : State) (l : Nat) (x : Link) : (setLink s l x).out = s.out := rfl
@[simp] theorem setLink_freeCtr (s : State) (l : Nat) (x : Link) : (setLink s l x).freeCtr = s.freeCtr := rfl
@[simp] theorem setLink_mem (s : State) (l : Nat) (x : Link) : (setLink s l x).mem = s.mem := rfl
@[simp] theorem setLink_dict (s : State) (l : Nat) (x : Link) : (setLink s l x).dict = s.dict := rfl
@[simp] theorem setLink_sig (s : State) (l : Nat) (x : Link) : (setLink s l x).sig = s.sig := rfl
@[simp] theorem setLink_cw (s : State) (l : Nat) (x : Link) : (setLink s l x).cw = s.cw := rfl
@[simp] theorem setLink_jobs (s : State) (l : Nat) (x : Link) : (setLink s l x).jobs = s.jobs := rfl
@[simp] theorem setLink_starts (s : State) (l : Nat) (x : Link) : (setLink s l x).starts = s.starts := rfl
@[simp] theorem setLink_quires (s : State) (l : Nat) (x : Link) : (setLink s l x).quires = s.quires := rfl
@[simp] theorem setLink_gutters (s : State) (l : Nat) (x : Link) : (setLink s l x).gutters = s.gutters := rfl
@[simp] theorem setLink_handoff (s : State) (l : Nat) (x : Link) : (setLink s l x).handoff = s.handoff := rfl
@[simp] theorem setLink_span (s : State) (l : Nat) (x : Link) : (setLink s l x).span = s.span := rfl
@[simp] theorem setLink_tier (s : State) (l : Nat) (x : Link) : (setLink s l x).tier = s.tier := rfl
@[simp] theorem setLink_flash (s : State) (l : Nat) (x : Link) : (setLink s l x).flash = s.flash := rfl
@[simp] theorem setLink_fabric (s : State) (l : Nat) (x : Link) : (setLink s l x).fabric = s.fabric := rfl
@[simp] theorem setLink_queue (s : State) (l : Nat) (x : Link) : (setLink s l x).queue = s.queue := rfl
@[simp] theorem setLink_press (s : State) (l : Nat) (x : Link) : (setLink s l x).press = s.press := rfl
@[simp] theorem setLink_traffic (s : State) (l : Nat) (x : Link) : (setLink s l x).traffic = s.traffic := rfl
@[simp] theorem setLink_err (s : State) (l : Nat) (x : Link) : (setLink s l x).err = s.err := rfl
@[simp] theorem setLink_kettle (s : State) (l : Nat) (x : Link) : (setLink s l x).kettle = s.kettle := rfl
@[simp] theorem setLink_power (s : State) (l : Nat) (x : Link) : (setLink s l x).power = s.power := rfl
@[simp] theorem setLink_boot (s : State) (l : Nat) (x : Link) : (setLink s l x).boot = s.boot := rfl

@[simp] theorem modLink_pending (s : State) (l : Nat) (f : Link → Link) : (modLink s l f).pending = s.pending := rfl
@[simp] theorem modLink_now (s : State) (l : Nat) (f : Link → Link) : (modLink s l f).now = s.now := rfl
@[simp] theorem modLink_out (s : State) (l : Nat) (f : Link → Link) : (modLink s l f).out = s.out := rfl
@[simp] theorem modLink_freeCtr (s : State) (l : Nat) (f : Link → Link) : (modLink s l f).freeCtr = s.freeCtr := rfl
@[simp] theorem modLink_mem (s : State) (l : Nat) (f : Link → Link) : (modLink s l f).mem = s.mem := rfl
@[simp] theorem modLink_dict (s : State) (l : Nat) (f : Link → Link) : (modLink s l f).dict = s.dict := rfl
@[simp] theorem modLink_sig (s : State) (l : Nat) (f : Link → Link) : (modLink s l f).sig = s.sig := rfl
@[simp] theorem modLink_cw (s : State) (l : Nat) (f : Link → Link) : (modLink s l f).cw = s.cw := rfl
@[simp] theorem modLink_jobs (s : State) (l : Nat) (f : Link → Link) : (modLink s l f).jobs = s.jobs := rfl
@[simp] theorem modLink_starts (s : State) (l : Nat) (f : Link → Link) : (modLink s l f).starts = s.starts := rfl
@[simp] theorem modLink_quires (s : State) (l : Nat) (f : Link → Link) : (modLink s l f).quires = s.quires := rfl
@[simp] theorem modLink_gutters (s : State) (l : Nat) (f : Link → Link) : (modLink s l f).gutters = s.gutters := rfl
@[simp] theorem modLink_handoff (s : State) (l : Nat) (f : Link → Link) : (modLink s l f).handoff = s.handoff := rfl
@[simp] theorem modLink_span (s : State) (l : Nat) (f : Link → Link) : (modLink s l f).span = s.span := rfl
@[simp] theorem modLink_tier (s : State) (l : Nat) (f : Link → Link) : (modLink s l f).tier = s.tier := rfl
@[simp] theorem modLink_flash (s : State) (l : Nat) (f : Link → Link) : (modLink s l f).flash = s.flash := rfl
@[simp] theorem modLink_fabric (s : State) (l : Nat) (f : Link → Link) : (modLink s l f).fabric = s.fabric := rfl
@[simp] theorem modLink_queue (s : State) (l : Nat) (f : Link → Link) : (modLink s l f).queue = s.queue := rfl
@[simp] theorem modLink_press (s : State) (l : Nat) (f : Link → Link) : (modLink s l f).press = s.press := rfl
@[simp] theorem modLink_traffic (s : State) (l : Nat) (f : Link → Link) : (modLink s l f).traffic = s.traffic := rfl
@[simp] theorem modLink_err (s : State) (l : Nat) (f : Link → Link) : (modLink s l f).err = s.err := rfl
@[simp] theorem modLink_kettle (s : State) (l : Nat) (f : Link → Link) : (modLink s l f).kettle = s.kettle := rfl
@[simp] theorem modLink_power (s : State) (l : Nat) (f : Link → Link) : (modLink s l f).power = s.power := rfl
@[simp] theorem modLink_boot (s : State) (l : Nat) (f : Link → Link) : (modLink s l f).boot = s.boot := rfl

@[simp] theorem setQp_pending (s : State) (q : Nat) (x : QueuePair) : (setQp s q x).pending = s.pending := rfl
@[simp] theorem setQp_now (s : State) (q : Nat) (x : QueuePair) : (setQp s q x).now = s.now := rfl
@[simp] theorem setQp_out (s : State) (q : Nat) (x : QueuePair) : (setQp s q x).out = s.out := rfl
@[simp] theorem setQp_freeCtr (s : State) (q : Nat) (x : QueuePair) : (setQp s q x).freeCtr = s.freeCtr := rfl
@[simp] theorem setQp_mem (s : State) (q : Nat) (x : QueuePair) : (setQp s q x).mem = s.mem := rfl
@[simp] theorem setQp_dict (s : State) (q : Nat) (x : QueuePair) : (setQp s q x).dict = s.dict := rfl
@[simp] theorem setQp_sig (s : State) (q : Nat) (x : QueuePair) : (setQp s q x).sig = s.sig := rfl
@[simp] theorem setQp_cw (s : State) (q : Nat) (x : QueuePair) : (setQp s q x).cw = s.cw := rfl
@[simp] theorem setQp_jobs (s : State) (q : Nat) (x : QueuePair) : (setQp s q x).jobs = s.jobs := rfl
@[simp] theorem setQp_starts (s : State) (q : Nat) (x : QueuePair) : (setQp s q x).starts = s.starts := rfl
@[simp] theorem setQp_quires (s : State) (q : Nat) (x : QueuePair) : (setQp s q x).quires = s.quires := rfl
@[simp] theorem setQp_gutters (s : State) (q : Nat) (x : QueuePair) : (setQp s q x).gutters = s.gutters := rfl
@[simp] theorem setQp_handoff (s : State) (q : Nat) (x : QueuePair) : (setQp s q x).handoff = s.handoff := rfl
@[simp] theorem setQp_span (s : State) (q : Nat) (x : QueuePair) : (setQp s q x).span = s.span := rfl
@[simp] theorem setQp_tier (s : State) (q : Nat) (x : QueuePair) : (setQp s q x).tier = s.tier := rfl
@[simp] theorem setQp_flash (s : State) (q : Nat) (x : QueuePair) : (setQp s q x).flash = s.flash := rfl
@[simp] theorem setQp_fabric (s : State) (q : Nat) (x : QueuePair) : (setQp s q x).fabric = s.fabric := rfl
@[simp] theorem setQp_link (s : State) (q : Nat) (x : QueuePair) : (setQp s q x).link = s.link := rfl
@[simp] theorem setQp_press (s : State) (q : Nat) (x : QueuePair) : (setQp s q x).press = s.press := rfl
@[simp] theorem setQp_traffic (s : State) (q : Nat) (x : QueuePair) : (setQp s q x).traffic = s.traffic := rfl
@[simp] theorem setQp_err (s : State) (q : Nat) (x : QueuePair) : (setQp s q x).err = s.err := rfl
@[simp] theorem setQp_kettle (s : State) (q : Nat) (x : QueuePair) : (setQp s q x).kettle = s.kettle := rfl
@[simp] theorem setQp_power (s : State) (q : Nat) (x : QueuePair) : (setQp s q x).power = s.power := rfl
@[simp] theorem setQp_boot (s : State) (q : Nat) (x : QueuePair) : (setQp s q x).boot = s.boot := rfl

@[simp] theorem modQp_pending (s : State) (q : Nat) (f : QueuePair → QueuePair) : (modQp s q f).pending = s.pending := rfl
@[simp] theorem modQp_now (s : State) (q : Nat) (f : QueuePair → QueuePair) : (modQp s q f).now = s.now := rfl
@[simp] theorem modQp_out (s : State) (q : Nat) (f : QueuePair → QueuePair) : (modQp s q f).out = s.out := rfl
@[simp] theorem modQp_freeCtr (s : State) (q : Nat) (f : QueuePair → QueuePair) : (modQp s q f).freeCtr = s.freeCtr := rfl
@[simp] theorem modQp_mem (s : State) (q : Nat) (f : QueuePair → QueuePair) : (modQp s q f).mem = s.mem := rfl
@[simp] theorem modQp_dict (s : State) (q : Nat) (f : QueuePair → QueuePair) : (modQp s q f).dict = s.dict := rfl
@[simp] theorem modQp_sig (s : State) (q : Nat) (f : QueuePair → QueuePair) : (modQp s q f).sig = s.sig := rfl
@[simp] theorem modQp_cw (s : State) (q : Nat) (f : QueuePair → QueuePair) : (modQp s q f).cw = s.cw := rfl
@[simp] theorem modQp_jobs (s : State) (q : Nat) (f : QueuePair → QueuePair) : (modQp s q f).jobs = s.jobs := rfl
@[simp] theorem modQp_starts (s : State) (q : Nat) (f : QueuePair → QueuePair) : (modQp s q f).starts = s.starts := rfl
@[simp] theorem modQp_quires (s : State) (q : Nat) (f : QueuePair → QueuePair) : (modQp s q f).quires = s.quires := rfl
@[simp] theorem modQp_gutters (s : State) (q : Nat) (f : QueuePair → QueuePair) : (modQp s q f).gutters = s.gutters := rfl
@[simp] theorem modQp_handoff (s : State) (q : Nat) (f : QueuePair → QueuePair) : (modQp s q f).handoff = s.handoff := rfl
@[simp] theorem modQp_span (s : State) (q : Nat) (f : QueuePair → QueuePair) : (modQp s q f).span = s.span := rfl
@[simp] theorem modQp_tier (s : State) (q : Nat) (f : QueuePair → QueuePair) : (modQp s q f).tier = s.tier := rfl
@[simp] theorem modQp_flash (s : State) (q : Nat) (f : QueuePair → QueuePair) : (modQp s q f).flash = s.flash := rfl
@[simp] theorem modQp_fabric (s : State) (q : Nat) (f : QueuePair → QueuePair) : (modQp s q f).fabric = s.fabric := rfl
@[simp] theorem modQp_link (s : State) (q : Nat) (f : QueuePair → QueuePair) : (modQp s q f).link = s.link := rfl
@[simp] theorem modQp_press (s : State) (q : Nat) (f : QueuePair → QueuePair) : (modQp s q f).press = s.press := rfl
@[simp] theorem modQp_traffic (s : State) (q : Nat) (f : QueuePair → QueuePair) : (modQp s q f).traffic = s.traffic := rfl
@[simp] theorem modQp_err (s : State) (q : Nat) (f : QueuePair → QueuePair) : (modQp s q f).err = s.err := rfl
@[simp] theorem modQp_kettle (s : State) (q : Nat) (f : QueuePair → QueuePair) : (modQp s q f).kettle = s.kettle := rfl
@[simp] theorem modQp_power (s : State) (q : Nat) (f : QueuePair → QueuePair) : (modQp s q f).power = s.power := rfl
@[simp] theorem modQp_boot (s : State) (q : Nat) (f : QueuePair → QueuePair) : (modQp s q f).boot = s.boot := rfl

@[simp] theorem setRegion_pending (s : State) (r : Nat) (x : Region) : (setRegion s r x).pending = s.pending := rfl
@[simp] theorem setRegion_now (s : State) (r : Nat) (x : Region) : (setRegion s r x).now = s.now := rfl
@[simp] theorem setRegion_out (s : State) (r : Nat) (x : Region) : (setRegion s r x).out = s.out := rfl
@[simp] theorem setRegion_freeCtr (s : State) (r : Nat) (x : Region) : (setRegion s r x).freeCtr = s.freeCtr := rfl
@[simp] theorem setRegion_mem (s : State) (r : Nat) (x : Region) : (setRegion s r x).mem = s.mem := rfl
@[simp] theorem setRegion_dict (s : State) (r : Nat) (x : Region) : (setRegion s r x).dict = s.dict := rfl
@[simp] theorem setRegion_sig (s : State) (r : Nat) (x : Region) : (setRegion s r x).sig = s.sig := rfl
@[simp] theorem setRegion_cw (s : State) (r : Nat) (x : Region) : (setRegion s r x).cw = s.cw := rfl
@[simp] theorem setRegion_jobs (s : State) (r : Nat) (x : Region) : (setRegion s r x).jobs = s.jobs := rfl
@[simp] theorem setRegion_starts (s : State) (r : Nat) (x : Region) : (setRegion s r x).starts = s.starts := rfl
@[simp] theorem setRegion_quires (s : State) (r : Nat) (x : Region) : (setRegion s r x).quires = s.quires := rfl
@[simp] theorem setRegion_gutters (s : State) (r : Nat) (x : Region) : (setRegion s r x).gutters = s.gutters := rfl
@[simp] theorem setRegion_handoff (s : State) (r : Nat) (x : Region) : (setRegion s r x).handoff = s.handoff := rfl
@[simp] theorem setRegion_span (s : State) (r : Nat) (x : Region) : (setRegion s r x).span = s.span := rfl
@[simp] theorem setRegion_tier (s : State) (r : Nat) (x : Region) : (setRegion s r x).tier = s.tier := rfl
@[simp] theorem setRegion_flash (s : State) (r : Nat) (x : Region) : (setRegion s r x).flash = s.flash := rfl
@[simp] theorem setRegion_fabric (s : State) (r : Nat) (x : Region) : (setRegion s r x).fabric = s.fabric := rfl
@[simp] theorem setRegion_link (s : State) (r : Nat) (x : Region) : (setRegion s r x).link = s.link := rfl
@[simp] theorem setRegion_press (s : State) (r : Nat) (x : Region) : (setRegion s r x).press = s.press := rfl
@[simp] theorem setRegion_traffic (s : State) (r : Nat) (x : Region) : (setRegion s r x).traffic = s.traffic := rfl
@[simp] theorem setRegion_err (s : State) (r : Nat) (x : Region) : (setRegion s r x).err = s.err := rfl
@[simp] theorem setRegion_kettle (s : State) (r : Nat) (x : Region) : (setRegion s r x).kettle = s.kettle := rfl
@[simp] theorem setRegion_power (s : State) (r : Nat) (x : Region) : (setRegion s r x).power = s.power := rfl
@[simp] theorem setRegion_boot (s : State) (r : Nat) (x : Region) : (setRegion s r x).boot = s.boot := rfl

@[simp] theorem setSeq_pending (s : State) (i : Nat) (x : Sequencer) : (setSeq s i x).pending = s.pending := by unfold setSeq; split <;> rfl
@[simp] theorem setSeq_now (s : State) (i : Nat) (x : Sequencer) : (setSeq s i x).now = s.now := by unfold setSeq; split <;> rfl
@[simp] theorem setSeq_out (s : State) (i : Nat) (x : Sequencer) : (setSeq s i x).out = s.out := by unfold setSeq; split <;> rfl
@[simp] theorem setSeq_freeCtr (s : State) (i : Nat) (x : Sequencer) : (setSeq s i x).freeCtr = s.freeCtr := by unfold setSeq; split <;> rfl
@[simp] theorem setSeq_mem (s : State) (i : Nat) (x : Sequencer) : (setSeq s i x).mem = s.mem := by unfold setSeq; split <;> rfl
@[simp] theorem setSeq_dict (s : State) (i : Nat) (x : Sequencer) : (setSeq s i x).dict = s.dict := by unfold setSeq; split <;> rfl
@[simp] theorem setSeq_sig (s : State) (i : Nat) (x : Sequencer) : (setSeq s i x).sig = s.sig := by unfold setSeq; split <;> rfl
@[simp] theorem setSeq_cw (s : State) (i : Nat) (x : Sequencer) : (setSeq s i x).cw = s.cw := by unfold setSeq; split <;> rfl
@[simp] theorem setSeq_jobs (s : State) (i : Nat) (x : Sequencer) : (setSeq s i x).jobs = s.jobs := by unfold setSeq; split <;> rfl
@[simp] theorem setSeq_starts (s : State) (i : Nat) (x : Sequencer) : (setSeq s i x).starts = s.starts := by unfold setSeq; split <;> rfl
@[simp] theorem setSeq_handoff (s : State) (i : Nat) (x : Sequencer) : (setSeq s i x).handoff = s.handoff := by unfold setSeq; split <;> rfl
@[simp] theorem setSeq_span (s : State) (i : Nat) (x : Sequencer) : (setSeq s i x).span = s.span := by unfold setSeq; split <;> rfl
@[simp] theorem setSeq_tier (s : State) (i : Nat) (x : Sequencer) : (setSeq s i x).tier = s.tier := by unfold setSeq; split <;> rfl
@[simp] theorem setSeq_flash (s : State) (i : Nat) (x : Sequencer) : (setSeq s i x).flash = s.flash := by unfold setSeq; split <;> rfl
@[simp] theorem setSeq_fabric (s : State) (i : Nat) (x : Sequencer) : (setSeq s i x).fabric = s.fabric := by unfold setSeq; split <;> rfl
@[simp] theorem setSeq_queue (s : State) (i : Nat) (x : Sequencer) : (setSeq s i x).queue = s.queue := by unfold setSeq; split <;> rfl
@[simp] theorem setSeq_link (s : State) (i : Nat) (x : Sequencer) : (setSeq s i x).link = s.link := by unfold setSeq; split <;> rfl
@[simp] theorem setSeq_press (s : State) (i : Nat) (x : Sequencer) : (setSeq s i x).press = s.press := by unfold setSeq; split <;> rfl
@[simp] theorem setSeq_traffic (s : State) (i : Nat) (x : Sequencer) : (setSeq s i x).traffic = s.traffic := by unfold setSeq; split <;> rfl
@[simp] theorem setSeq_err (s : State) (i : Nat) (x : Sequencer) : (setSeq s i x).err = s.err := by unfold setSeq; split <;> rfl
@[simp] theorem setSeq_kettle (s : State) (i : Nat) (x : Sequencer) : (setSeq s i x).kettle = s.kettle := by unfold setSeq; split <;> rfl
@[simp] theorem setSeq_power (s : State) (i : Nat) (x : Sequencer) : (setSeq s i x).power = s.power := by unfold setSeq; split <;> rfl
@[simp] theorem setSeq_boot (s : State) (i : Nat) (x : Sequencer) : (setSeq s i x).boot = s.boot := by unfold setSeq; split <;> rfl

@[simp] theorem modSeq_pending (s : State) (i : Nat) (f : Sequencer → Sequencer) : (modSeq s i f).pending = s.pending := setSeq_pending _ _ _
@[simp] theorem modSeq_now (s : State) (i : Nat) (f : Sequencer → Sequencer) : (modSeq s i f).now = s.now := setSeq_now _ _ _
@[simp] theorem modSeq_out (s : State) (i : Nat) (f : Sequencer → Sequencer) : (modSeq s i f).out = s.out := setSeq_out _ _ _
@[simp] theorem modSeq_freeCtr (s : State) (i : Nat) (f : Sequencer → Sequencer) : (modSeq s i f).freeCtr = s.freeCtr := setSeq_freeCtr _ _ _
@[simp] theorem modSeq_mem (s : State) (i : Nat) (f : Sequencer → Sequencer) : (modSeq s i f).mem = s.mem := setSeq_mem _ _ _
@[simp] theorem modSeq_dict (s : State) (i : Nat) (f : Sequencer → Sequencer) : (modSeq s i f).dict = s.dict := setSeq_dict _ _ _
@[simp] theorem modSeq_sig (s : State) (i : Nat) (f : Sequencer → Sequencer) : (modSeq s i f).sig = s.sig := setSeq_sig _ _ _
@[simp] theorem modSeq_cw (s : State) (i : Nat) (f : Sequencer → Sequencer) : (modSeq s i f).cw = s.cw := setSeq_cw _ _ _
@[simp] theorem modSeq_jobs (s : State) (i : Nat) (f : Sequencer → Sequencer) : (modSeq s i f).jobs = s.jobs := setSeq_jobs _ _ _
@[simp] theorem modSeq_starts (s : State) (i : Nat) (f : Sequencer → Sequencer) : (modSeq s i f).starts = s.starts := setSeq_starts _ _ _
@[simp] theorem modSeq_handoff (s : State) (i : Nat) (f : Sequencer → Sequencer) : (modSeq s i f).handoff = s.handoff := setSeq_handoff _ _ _
@[simp] theorem modSeq_span (s : State) (i : Nat) (f : Sequencer → Sequencer) : (modSeq s i f).span = s.span := setSeq_span _ _ _
@[simp] theorem modSeq_tier (s : State) (i : Nat) (f : Sequencer → Sequencer) : (modSeq s i f).tier = s.tier := setSeq_tier _ _ _
@[simp] theorem modSeq_flash (s : State) (i : Nat) (f : Sequencer → Sequencer) : (modSeq s i f).flash = s.flash := setSeq_flash _ _ _
@[simp] theorem modSeq_fabric (s : State) (i : Nat) (f : Sequencer → Sequencer) : (modSeq s i f).fabric = s.fabric := setSeq_fabric _ _ _
@[simp] theorem modSeq_queue (s : State) (i : Nat) (f : Sequencer → Sequencer) : (modSeq s i f).queue = s.queue := setSeq_queue _ _ _
@[simp] theorem modSeq_link (s : State) (i : Nat) (f : Sequencer → Sequencer) : (modSeq s i f).link = s.link := setSeq_link _ _ _
@[simp] theorem modSeq_press (s : State) (i : Nat) (f : Sequencer → Sequencer) : (modSeq s i f).press = s.press := setSeq_press _ _ _
@[simp] theorem modSeq_traffic (s : State) (i : Nat) (f : Sequencer → Sequencer) : (modSeq s i f).traffic = s.traffic := setSeq_traffic _ _ _
@[simp] theorem modSeq_err (s : State) (i : Nat) (f : Sequencer → Sequencer) : (modSeq s i f).err = s.err := setSeq_err _ _ _
@[simp] theorem modSeq_kettle (s : State) (i : Nat) (f : Sequencer → Sequencer) : (modSeq s i f).kettle = s.kettle := setSeq_kettle _ _ _
@[simp] theorem modSeq_power (s : State) (i : Nat) (f : Sequencer → Sequencer) : (modSeq s i f).power = s.power := setSeq_power _ _ _
@[simp] theorem modSeq_boot (s : State) (i : Nat) (f : Sequencer → Sequencer) : (modSeq s i f).boot = s.boot := setSeq_boot _ _ _

@[simp] theorem maxF_pending (s : State) (i k v : Nat) : (maxF s i k v).pending = s.pending := by unfold maxF; split <;> rfl
@[simp] theorem maxF_now (s : State) (i k v : Nat) : (maxF s i k v).now = s.now := by unfold maxF; split <;> rfl
@[simp] theorem maxF_out (s : State) (i k v : Nat) : (maxF s i k v).out = s.out := by unfold maxF; split <;> rfl
@[simp] theorem maxF_freeCtr (s : State) (i k v : Nat) : (maxF s i k v).freeCtr = s.freeCtr := by unfold maxF; split <;> rfl
@[simp] theorem maxF_mem (s : State) (i k v : Nat) : (maxF s i k v).mem = s.mem := by unfold maxF; split <;> rfl
@[simp] theorem maxF_sig (s : State) (i k v : Nat) : (maxF s i k v).sig = s.sig := by unfold maxF; split <;> rfl
@[simp] theorem maxF_cw (s : State) (i k v : Nat) : (maxF s i k v).cw = s.cw := by unfold maxF; split <;> rfl
@[simp] theorem maxF_jobs (s : State) (i k v : Nat) : (maxF s i k v).jobs = s.jobs := by unfold maxF; split <;> rfl
@[simp] theorem maxF_starts (s : State) (i k v : Nat) : (maxF s i k v).starts = s.starts := by unfold maxF; split <;> rfl
@[simp] theorem maxF_quires (s : State) (i k v : Nat) : (maxF s i k v).quires = s.quires := by unfold maxF; split <;> rfl
@[simp] theorem maxF_gutters (s : State) (i k v : Nat) : (maxF s i k v).gutters = s.gutters := by unfold maxF; split <;> rfl
@[simp] theorem maxF_handoff (s : State) (i k v : Nat) : (maxF s i k v).handoff = s.handoff := by unfold maxF; split <;> rfl
@[simp] theorem maxF_span (s : State) (i k v : Nat) : (maxF s i k v).span = s.span := by unfold maxF; split <;> rfl
@[simp] theorem maxF_tier (s : State) (i k v : Nat) : (maxF s i k v).tier = s.tier := by unfold maxF; split <;> rfl
@[simp] theorem maxF_flash (s : State) (i k v : Nat) : (maxF s i k v).flash = s.flash := by unfold maxF; split <;> rfl
@[simp] theorem maxF_fabric (s : State) (i k v : Nat) : (maxF s i k v).fabric = s.fabric := by unfold maxF; split <;> rfl
@[simp] theorem maxF_queue (s : State) (i k v : Nat) : (maxF s i k v).queue = s.queue := by unfold maxF; split <;> rfl
@[simp] theorem maxF_link (s : State) (i k v : Nat) : (maxF s i k v).link = s.link := by unfold maxF; split <;> rfl
@[simp] theorem maxF_press (s : State) (i k v : Nat) : (maxF s i k v).press = s.press := by unfold maxF; split <;> rfl
@[simp] theorem maxF_traffic (s : State) (i k v : Nat) : (maxF s i k v).traffic = s.traffic := by unfold maxF; split <;> rfl
@[simp] theorem maxF_err (s : State) (i k v : Nat) : (maxF s i k v).err = s.err := by unfold maxF; split <;> rfl
@[simp] theorem maxF_kettle (s : State) (i k v : Nat) : (maxF s i k v).kettle = s.kettle := by unfold maxF; split <;> rfl
@[simp] theorem maxF_power (s : State) (i k v : Nat) : (maxF s i k v).power = s.power := by unfold maxF; split <;> rfl
@[simp] theorem maxF_boot (s : State) (i k v : Nat) : (maxF s i k v).boot = s.boot := by unfold maxF; split <;> rfl

/-! ### What was written is read -/

theorem atTime_now (t : Nat) (s : State) : (atTime t s).now = max s.now t := rfl
@[simp] theorem emit_out (s : State) (o : Out) : (emit s o).out = s.out ++ [o] := rfl
@[simp] theorem draw_freeCtr (s : State) : (draw s).freeCtr = s.freeCtr + 1 := rfl
@[simp] theorem setF_dict_perIf (s : State) (i k v : Nat) : (setF s i k v).dict.perIf = s.dict.perIf := rfl
@[simp] theorem setF_dict_overrides (s : State) (i k v : Nat) : (setF s i k v).dict.overrides = s.dict.overrides := rfl
@[simp] theorem setF_dict_img (s : State) (i k v : Nat) : (setF s i k v).dict.img = s.dict.img := rfl
@[simp] theorem setF_dict_journal (s : State) (i k v : Nat) : (setF s i k v).dict.journal = s.dict.journal := rfl
@[simp] theorem setF_dict_cache (s : State) (i k v : Nat) : (setF s i k v).dict.cache = s.dict.cache := rfl
@[simp] theorem setF_dict_jobPeers (s : State) (i k v : Nat) : (setF s i k v).dict.jobPeers = s.dict.jobPeers := rfl
@[simp] theorem setF_dict_snaps (s : State) (i k v : Nat) : (setF s i k v).dict.snaps = s.dict.snaps := rfl

@[simp] theorem getF_setF_same (s : State) (i k v : Nat) : getF (setF s i k v) i k = v := by
  simp [getF, setF, tfind_tput_same]

theorem getF_setF_other (s : State) {i k i' k' : Nat} (v : Nat) (h : folioKey i' k' ≠ folioKey i k) :
    getF (setF s i k v) i' k' = getF s i' k' := by
  simp [getF, setF, tfind_tput_other _ v h, resetValue]

/-- A folio key names one folio while subindices are below 256. -/
theorem folioKey_ne {i k i' k' : Nat} (hk : k < 256) (hk' : k' < 256) (h : ¬(i' = i ∧ k' = k)) : folioKey i' k' ≠ folioKey i k := by
  unfold folioKey; omega

@[simp] theorem getF_incF_same (s : State) (i k : Nat) : getF (incF s i k) i k = (getF s i k + 1) % 2 ^ folioWidth i k := by
  simp [incF, addF]

theorem getF_incF_other (s : State) {i k i' k' : Nat} (h : folioKey i' k' ≠ folioKey i k) : getF (incF s i k) i' k' = getF s i' k' := by
  simp [incF, addF, getF_setF_other s _ h]

@[simp] theorem getF_atTime (t : Nat) (s : State) (i' k' : Nat) : getF (atTime t s) i' k' = getF s i' k' := rfl
@[simp] theorem getF_emit (s : State) (o : Out) (i' k' : Nat) : getF (emit s o) i' k' = getF s i' k' := rfl
@[simp] theorem getF_draw (s : State) (i' k' : Nat) : getF (draw s) i' k' = getF s i' k' := rfl
@[simp] theorem getF_modE (s : State) (n : Nat) (f : SigEntry → SigEntry) (i' k' : Nat) : getF (modE s n f) i' k' = getF s i' k' := rfl
@[simp] theorem getF_modA (s : State) (n : Nat) (f : SigAux → SigAux) (i' k' : Nat) : getF (modA s n f) i' k' = getF s i' k' := rfl
@[simp] theorem getF_setJob (s : State) (j : Nat) (x : JobSt) (i' k' : Nat) : getF (setJob s j x) i' k' = getF s i' k' := rfl
@[simp] theorem getF_modJob (s : State) (j : Nat) (f : JobSt → JobSt) (i' k' : Nat) : getF (modJob s j f) i' k' = getF s i' k' := rfl
@[simp] theorem getF_modGutter (s : State) (c : Nat) (f : GutterUnit → GutterUnit) (i' k' : Nat) : getF (modGutter s c f) i' k' = getF s i' k' := rfl
@[simp] theorem getF_modUnit (s : State) (u : Nat) (f : UnitState → UnitState) (i' k' : Nat) : getF (modUnit s u f) i' k' = getF s i' k' := rfl
@[simp] theorem getF_setLink (s : State) (l : Nat) (x : Link) (i' k' : Nat) : getF (setLink s l x) i' k' = getF s i' k' := rfl
@[simp] theorem getF_modLink (s : State) (l : Nat) (f : Link → Link) (i' k' : Nat) : getF (modLink s l f) i' k' = getF s i' k' := rfl
@[simp] theorem getF_setQp (s : State) (q : Nat) (x : QueuePair) (i' k' : Nat) : getF (setQp s q x) i' k' = getF s i' k' := rfl
@[simp] theorem getF_modQp (s : State) (q : Nat) (f : QueuePair → QueuePair) (i' k' : Nat) : getF (modQp s q f) i' k' = getF s i' k' := rfl
@[simp] theorem getF_setRegion (s : State) (r : Nat) (x : Region) (i' k' : Nat) : getF (setRegion s r x) i' k' = getF s i' k' := rfl
@[simp] theorem getF_setSeq (s : State) (i : Nat) (x : Sequencer) (i' k' : Nat) : getF (setSeq s i x) i' k' = getF s i' k' := by
  unfold setSeq; split <;> rfl

@[simp] theorem sigE_modE_same (s : State) (n : Nat) (f : SigEntry → SigEntry) : sigE (modE s n f) n = f (sigE s n) := by
  simp [sigE, modE]

theorem sigE_modE_other (s : State) {n m : Nat} (f : SigEntry → SigEntry) (h : m ≠ n) : sigE (modE s n f) m = sigE s m := by
  simp [sigE, modE, tget_tmod_other _ _ f h]

@[simp] theorem sigA_modE (s : State) (n m : Nat) (f : SigEntry → SigEntry) : sigA (modE s n f) m = sigA s m := rfl
@[simp] theorem sigE_modA (s : State) (n m : Nat) (f : SigAux → SigAux) : sigE (modA s n f) m = sigE s m := rfl

@[simp] theorem sigA_modA_same (s : State) (n : Nat) (f : SigAux → SigAux) : sigA (modA s n f) n = f (sigA s n) := by
  simp [sigA, modA]

@[simp] theorem job_setJob_same (s : State) (j : Nat) (x : JobSt) : job (setJob s j x) j = x := by simp [job, setJob]

theorem job_setJob_other (s : State) {j k : Nat} (x : JobSt) (h : k ≠ j) : job (setJob s j x) k = job s k := by
  simp [job, setJob, tget_tset_other _ _ x h]

@[simp] theorem job_modJob_same (s : State) (j : Nat) (f : JobSt → JobSt) : job (modJob s j f) j = f (job s j) := by simp [modJob]

theorem job_modJob_other (s : State) {j k : Nat} (f : JobSt → JobSt) (h : k ≠ j) : job (modJob s j f) k = job s k := by
  simp [modJob, job_setJob_other s _ h]

@[simp] theorem gutter_modGutter_same (s : State) (c : Nat) (f : GutterUnit → GutterUnit) : gutter (modGutter s c f) c = f (gutter s c) := by
  simp [gutter, modGutter]

@[simp] theorem unitOf_modUnit_same (s : State) (u : Nat) (f : UnitState → UnitState) : unitOf (modUnit s u f) u = f (unitOf s u) := by
  simp [unitOf, modUnit]

theorem unitOf_modUnit_other (s : State) {u v : Nat} (f : UnitState → UnitState) (h : v ≠ u) : unitOf (modUnit s u f) v = unitOf s v := by
  simp [unitOf, modUnit, tget_tmod_other _ _ f h]

@[simp] theorem linkOf_setLink_same (s : State) (l : Nat) (x : Link) : linkOf (setLink s l x) l = x := by simp [linkOf, setLink]

theorem linkOf_setLink_other (s : State) {l k : Nat} (x : Link) (h : k ≠ l) : linkOf (setLink s l x) k = linkOf s k := by
  simp [linkOf, setLink, tget_tset_other _ _ x h]

@[simp] theorem linkOf_modLink_same (s : State) (l : Nat) (f : Link → Link) : linkOf (modLink s l f) l = f (linkOf s l) := by simp [modLink]

@[simp] theorem qp_setQp_same (s : State) (q : Nat) (x : QueuePair) : qp (setQp s q x) q = x := by simp [qp, setQp]

@[simp] theorem qp_modQp_same (s : State) (q : Nat) (f : QueuePair → QueuePair) : qp (modQp s q f) q = f (qp s q) := by simp [modQp]

@[simp] theorem regionOf_setRegion_same (s : State) (r : Nat) (x : Region) : regionOf (setRegion s r x) r = x := by simp [regionOf, setRegion]

@[simp] theorem seqOf_setSeq_same (s : State) (i : Nat) (x : Sequencer) : seqOf (setSeq s i x) i = x := by
  unfold seqOf setSeq; by_cases h : i < 128 <;> simp [h, quire, gutter]

@[simp] theorem seqOf_modSeq_same (s : State) (i : Nat) (f : Sequencer → Sequencer) : seqOf (modSeq s i f) i = f (seqOf s i) := by
  simp [modSeq]

end Sys2Proof.Machine
end

