-- ==== Sys2Proof/Laws/Memory.lean ====
section
/-! SUPPORT. Device memory: reading a byte after a store, and that every memory operation keeps the canonical form. -/

namespace Sys2Proof.Machine

open Host

@[simp] theorem memGet_memSet_same (m : List Cell) (a : Nat) (b : Byte) : memGet (memSet m a b) a = b := by
  simp [memGet, memSet]

theorem memGet_memSet_other (m : List Cell) {a c : Nat} (b : Byte) (h : c ≠ a) : memGet (memSet m a b) c = memGet m c := by
  simp [memGet, memSet, tget_tset_other _ _ b h]

/-- Storing one byte keeps the canonical form. -/
theorem memSet_wf (m : List Cell) (a : Nat) (b : Byte) (w : Memory.wf m = true) : Memory.wf (memSet m a b) = true :=
  twf_tset _ _ _ _ w

theorem writeByte_wf (s : State) (a : Nat) (b : Byte) (w : Memory.wf s.mem = true) : Memory.wf (writeByte s a b).mem = true := by
  unfold writeByte; split
  · exact memSet_wf _ _ _ w
  · exact w

/-- Storing consecutive bytes keeps the canonical form. -/
theorem writeBytes_wf (l : List Byte) (s : State) (a : Nat) (w : Memory.wf s.mem = true) : Memory.wf (writeBytes s a l).mem = true := by
  induction l generalizing s a with
  | nil => exact w
  | cons b r ih => exact ih _ _ (writeByte_wf s a b w)

theorem writeNat_wf (s : State) (a n v : Nat) (w : Memory.wf s.mem = true) : Memory.wf (writeNat s a n v).mem = true :=
  writeBytes_wf _ _ _ w

theorem doMove_wf (s : State) (m : Move) (w : Memory.wf s.mem = true) : Memory.wf (doMove s m).mem = true := writeBytes_wf _ _ _ w

/-- Keeping some bytes and forgetting the rest, as a reset and the memory fill do, keeps the canonical form. -/
theorem memFilter_wf (m : List Cell) (p : Cell → Bool) (w : Memory.wf m = true) : Memory.wf (m.filter p) = true := twf_filter _ _ _ w

/-- Reset memory has the canonical form: it lists nothing. -/
theorem reset_mem_wf : Memory.wf State.reset.mem = true := rfl

/-- A store changes no part of the state but memory. -/
theorem writeByte_eq (s : State) (a : Nat) (b : Byte) : writeByte s a b = { s with mem := (writeByte s a b).mem } := by
  unfold writeByte; split <;> rfl

theorem writeBytes_eq (l : List Byte) (s : State) (a : Nat) : writeBytes s a l = { s with mem := (writeBytes s a l).mem } := by
  induction l generalizing s a with
  | nil => rfl
  | cons b r ih =>
    have h := ih (writeByte s a b) (a + 1)
    have g := writeByte_eq s a b
    unfold writeBytes
    rw [h]
    rw [g]

end Sys2Proof.Machine
end

