-- ==== Sys2Proof/WellFormed.lean ====
section
/-! DEFINITION. When the operands of a command lie in the ranges that the spec's tables give them: numbers of links, jobs, signatures,
sequencers (R133: 128 quires, then 1,024 columns), columns, rings, queue pairs, regions, units, endpoints, folios and frames. -/

namespace Sys2Proof

open Machine

/-- A request to write a folio comes through one of the four interfaces, with a width of R406 and a value of at most 64 bits. -/
def Machine.FolioReq.wf (r : FolioReq) : Bool := decide (r.iface < 4) && [8, 16, 32, 64].contains r.width && decide (r.value < 2 ^ 64)

/-- The payload of a management frame holds 46 to 1,500 bytes (Table 19-6). -/
def frameLength (p : List Byte) : Bool := decide (46 ≤ p.length) && decide (p.length ≤ 1500)

/-- A command's operands lie in their ranges. -/
def Instr.wf : Instr → Bool
  | .admissionRequest _ src _ => decide (src < 65536)
  | .promptReadComplete _ sig _ _ => decide (sig < 32768)
  | .homeAck _ _ => true
  | .endAck _ _ => true
  | .cancel _ _ => true
  | .unsizedMessage _ => true
  | .lifetimeExpiry _ sig => decide (sig < 32768)
  | .budgetExpiry _ sig => decide (sig < 32768)
  | .prefillOffer _ endpoint jb _ _ => decide (endpoint < 65536) && decide (jb < 64)
  | .prefillOfferSend _ jb _ => decide (jb < 64)
  | .countClear _ req => req.wf
  | .snapIndex _ req => req.wf
  | .boundaryPhase _ jb _ => decide (jb < 64)
  | .composeFreeze _ jb => decide (jb < 64)
  | .stepPhaseStart _ jb => decide (jb < 64)
  | .freezeRoutineReturn _ jb _ _ => decide (jb < 64)
  | .windowEnd _ jb _ => decide (jb < 64)
  | .stepCarried _ jb => decide (jb < 64)
  | .splitSizing _ jb => decide (jb < 64)
  | .stepCommit _ jb _ => decide (jb < 64)
  | .tipinLoad _ slot req => decide (slot < 256) && req.wf
  | .tipinLoadDone _ ss _ => decide (ss < 256)
  | .nop _ id => decide (id < 1152)
  | .lpBegin _ id => decide (id < 1152)
  | .loopEnd _ id => decide (id < 1152)
  | .jmpSt _ id => decide (id < 1152)
  | .arBase _ id => decide (id < 1152)
  | .arStride _ id => decide (id < 1152)
  | .halt _ id => decide (id < 1152)
  | .bar _ id => decide (id < 1152)
  | .barRelease _ jb barNo => decide (jb < 64) && decide (barNo < 256)
  | .sigPost _ id => decide (id < 1152)
  | .sigWait _ id => decide (id < 1152)
  | .sigWaitRelease _ id => decide (id < 1152)
  | .waitLimitTrap _ id => decide (id < 1152)
  | .ctlCall _ id => decide (id < 1152)
  | .ctlCallReturn _ id _ _ _ _ _ _ => decide (id < 1152)
  | .guRun _ id => decide (id < 1152)
  | .mmaBlk _ id _ => decide (id < 1152)
  | .combAdd _ id _ _ => decide (id < 1152)
  | .cvt _ id _ => decide (id < 1152)
  | .dmaLd _ id _ => decide (id < 1152)
  | .dmaSt _ id _ => decide (id < 1152)
  | .gathLd _ id _ => decide (id < 1152)
  | .transferComplete _ id => decide (id < 1152)
  | .kvPut _ id _ => decide (id < 1152)
  | .selFeed _ id _ => decide (id < 1152)
  | .stitchRefetchDone _ id _ => decide (id < 1152)
  | .gvLd _ id _ _ => decide (id < 1152)
  | .gvSt _ stitch => decide (stitch.id < 1152)
  | .gvGld _ id _ _ => decide (id < 1152)
  | .gvOp _ stitch => decide (stitch.id < 1152)
  | .gvRed _ stitch => decide (stitch.id < 1152)
  | .attRun _ id _ _ => decide (id < 1152)
  | .attComb _ id _ _ => decide (id < 1152)
  | .spotCheck _ column _ => decide (column < 1024)
  | .ordinaryAccess _ column id _ _ => decide (column < 1024) && decide (id < 1152)
  | .spanEnd _ column => decide (column < 1024)
  | .refreshDue _ column => decide (column < 1024)
  | .refreshComplete _ column => decide (column < 1024)
  | .broadcastWrite _ cls index jb addr _ => decide (cls < 8) && decide (index < 8192) && decide (jb < 64) && decide (addr < 2 ^ 48)
  | .routeEpoch _ _ => true
  | .ringPlan _ _ _ => true
  | .query _ m _ => decide (m.member < 65536)
  | .acc _ m _ => decide (m.member < 65536)
  | .output _ m _ => decide (m.member < 65536)
  | .blockReq _ m => decide (m.member < 65536)
  | .block _ m _ => decide (m.member < 65536)
  | .kvPutMessage _ m _ => decide (m.member < 65536)
  | .attend _ _ _ _ => true
  | .partials _ _ _ => true
  | .spanRefuse _ _ => true
  | .remoteTimeout _ jb => decide (jb < 64)
  | .offer _ _ _ _ => true
  | .accept _ _ => true
  | .leaf _ _ _ => true
  | .resend _ _ => true
  | .confirm _ _ => true
  | .confirmDelivered _ sig => decide (sig < 32768)
  | .confirmUndeliverable _ sig => decide (sig < 32768)
  | .leaseExpiry _ sig => decide (sig < 32768)
  | .claim _ _ => true
  | .handoffProbeTimer _ sig => decide (sig < 32768)
  | .handoffProbe _ _ => true
  | .probeReply _ _ => true
  | .rebalance _ req => req.wf
  | .demotionPass _ => true
  | .tierMoveComplete _ jb _ _ _ => decide (jb < 64)
  | .advertTimer _ => true
  | .lenderListPoll _ => true
  | .advert _ _ => true
  | .request _ _ => true
  | .grant _ _ => true
  | .recall _ _ => true
  | .release _ _ => true
  | .loanRecall _ req => req.wf
  | .lpddr6RefreshRateRead _ channel _ => decide (channel < 16)
  | .lpddr6EccCountRead _ channel _ => decide (channel < 16)
  | .lpddr6Retrain _ channel => decide (channel < 16)
  | .flashWrite _ id _ _ => decide (id < 1152)
  | .flashRead _ id _ _ => decide (id < 1152)
  | .flashProgramComplete _ ch _ => decide (ch < 16)
  | .flashReclaim _ ch _ => decide (ch < 16)
  | .flashEraseComplete _ ch _ _ => decide (ch < 16)
  | .flashTempSample _ _ => true
  | .flashRebuildComplete _ => true
  | .discardRange _ req => req.wf
  | .bookmarkDiscard _ req => req.wf
  | .bookmarkCommit _ _ _ => true
  | .outboundAccess _ cls index jb op aop addr _ _ _ => decide (cls < 8) && decide (index < 8192) && decide (jb < 64) && decide (1 ≤ op) && decide (op ≤ 3) && decide (aop < 16) && decide (addr < 2 ^ 48)
  | .load _ _ _ _ => true
  | .store _ _ _ _ => true
  | .atomic _ _ _ _ _ => true
  | .loadResp _ _ _ => true
  | .storeAck _ _ => true
  | .atomicResp _ _ _ => true
  | .refuse _ _ => true
  | .thaw _ _ => true
  | .bindingCoherence _ _ member _ _ _ => decide (member < 65536)
  | .transactionTimeout _ tag => decide (tag < 65536)
  | .quarantineClear _ req => req.wf
  | .sendDoorbell _ q cls index jb _ _ => decide (q < 8192) && decide (cls < 8) && decide (index < 8192) && decide (jb < 64)
  | .receiveDoorbell _ q cls index jb _ _ => decide (q < 8192) && decide (cls < 8) && decide (index < 8192) && decide (jb < 64)
  | .completionDoorbell _ q cls index jb _ => decide (q < 8192) && decide (cls < 8) && decide (index < 8192) && decide (jb < 64)
  | .hostQueueSend _ q _ => decide (q < 8192)
  | .write _ _ _ _ _ => true
  | .send _ _ _ _ _ => true
  | .readReq _ _ _ _ => true
  | .readResp _ _ _ _ => true
  | .atomicReq _ _ _ _ => true
  | .queueAtomicResp _ _ _ _ => true
  | .ack _ _ _ _ => true
  | .nak _ _ _ _ => true
  | .ackTimer _ q => decide (q < 8192)
  | .repeatTimeout _ q psn => decide (q < 8192) && decide (psn < 2 ^ 24)
  | .rnrRetry _ q msn => decide (q < 8192) && decide (msn < 2 ^ 24)
  | .qpCreate _ req => req.wf
  | .qpReset _ req => req.wf
  | .qpDestroy _ req => req.wf
  | .regionRegister _ req => req.wf
  | .regionRevoke _ req => req.wf
  | .revokeTimeout _ region => decide (region < 8192)
  | .linkTransactionReceive _ link _ _ _ _ _ => decide (link < 64)
  | .idle _ link _ => decide (link < 64)
  | .idleTimer _ link => decide (link < 64)
  | .linkNak _ link _ => decide (link < 64)
  | .credit _ link _ => decide (link < 64)
  | .creditTimer _ link => decide (link < 64)
  | .linkProbe _ link _ => decide (link < 64)
  | .echo _ link _ => decide (link < 64)
  | .linkProbeTimer _ link => decide (link < 64)
  | .param _ link _ => decide (link < 64)
  | .linkDisable _ link req => decide (link < 64) && req.wf
  | .linkEnable _ link req => decide (link < 64) && req.wf
  | .lightDetected _ link => decide (link < 64)
  | .trainingComplete _ link => decide (link < 64)
  | .testingComplete _ link => decide (link < 64)
  | .measuringComplete _ link => decide (link < 64)
  | .trainingTimeout _ link _ => decide (link < 64)
  | .lightLost _ link => decide (link < 64)
  | .lossOfLock _ link => decide (link < 64)
  | .retrainTimeout _ link => decide (link < 64)
  | .linkSilenceTimeout _ link => decide (link < 64)
  | .replayLimit _ link => decide (link < 64)
  | .holdoffExpiry _ link => decide (link < 64)
  | .fenceHoldExpiry _ link => decide (link < 64)
  | .laserSourceFault _ engine _ => decide (engine < 8)
  | .laserSourceReady _ engine _ => decide (engine < 8)
  | .bypassOpen _ ring req => decide (ring < 4) && req.wf
  | .bypassClose _ ring req => decide (ring < 4) && req.wf
  | .bypassMoveComplete _ ring => decide (ring < 4)
  | .caseObject _ j _ half _ => decide (j < 64) && decide (half < 2)
  | .openObject _ half _ => decide (half < 2)
  | .keyZeroed _ jb => decide (jb < 64)
  | .cvuFeed _ unit req => decide (unit < 16) && req.wf
  | .cvuFeedByte _ unit req => decide (unit < 16) && req.wf
  | .cvuStart _ unit req => decide (unit < 16) && req.wf
  | .cvuRunDma _ unit req => decide (unit < 16) && req.wf
  | .cvuStopDma _ unit req => decide (unit < 16) && req.wf
  | .cvuDmaComplete _ u _ _ _ => decide (u < 16)
  | .jobStartLatencyCritical _ jb req => decide (jb < 64) && req.wf
  | .jobStartBestEffort _ jb req => decide (jb < 64) && req.wf
  | .jobStartComplete _ jb _ _ => decide (jb < 64)
  | .jobEnd _ jb req => decide (jb < 64) && req.wf
  | .jobEndComplete _ jb => decide (jb < 64)
  | .catchwordSweepDone _ jb => decide (jb < 64)
  | .yieldedJobRestart _ jb => decide (jb < 64)
  | .shaperWrite _ queue req => decide (queue < 66) && req.wf
  | .policerWrite _ word policer req => decide (word < 3) && decide (policer < 32) && req.wf
  | .egressDeparture _ => true
  | .hwmClear _ req => req.wf
  | .handlingEnd _ unit => decide (unit < 65536)
  | .handlingLimitExpiry _ unit => decide (unit < 65536)
  | .ceHourRollover _ => true
  | .nocHopRetrainDone _ half _ => decide (half < 2)
  | .errlogTailWrite _ req => req.wf
  | .addrlogClear _ req => req.wf
  | .freezeRelease _ req => req.wf
  | .thawWaitEnd _ cls index => decide (cls < 8) && decide (index < 8192)
  | .reinstate _ req => req.wf
  | .reinstateSelfTestDone _ unit _ _ => decide (unit < 65536)
  | .injectCorrectable _ unit req => decide (unit < 65536) && req.wf
  | .injectUncorrectable _ unit req => decide (unit < 65536) && req.wf
  | .injectPath _ unit req => decide (unit < 65536) && req.wf
  | .unitProofComplete _ unit _ _ => decide (unit < 65536)
  | .pulseTimer _ => true
  | .pulse _ link _ => decide (link < 64)
  | .suspectTimeout _ subject => decide (subject < 65536)
  | .suspect _ link _ => decide (link < 64)
  | .seen _ link _ => decide (link < 64)
  | .dead _ link _ => decide (link < 64)
  | .verdictTimeout _ subject => decide (subject < 65536)
  | .isolationTimeout _ => true
  | .teardown _ link _ => decide (link < 64)
  | .bookmarkNow _ jb req => decide (jb < 64) && req.wf
  | .bookmarkReadComplete _ jb writer _ => decide (jb < 64) && decide (writer < 65536)
  | .keepaliveTimer _ sig => decide (sig < 32768)
  | .folioWrite _ idx sub req => decide (idx < 65536) && decide (sub < 256) && req.wf
  | .plithenRead _ dest source payload => decide (dest < 2 ^ 48) && decide (source < 2 ^ 48) && frameLength payload
  | .plithenWrite _ dest source payload => decide (dest < 2 ^ 48) && decide (source < 2 ^ 48) && frameLength payload
  | .plithenDescribe _ dest source payload => decide (dest < 2 ^ 48) && decide (source < 2 ^ 48) && frameLength payload
  | .frameDiscard _ dest ethertype _ => decide (dest < 2 ^ 48) && decide (ethertype < 65536)
  | .announceTimer _ => true
  | .telemetryRead _ _ _ => true
  | .powerLimitCheck _ => true
  | .thermalSample _ _ _ _ _ => true
  | .vrhotAssert _ _ => true
  | .vrhotEnd _ _ => true
  | .localTimeCorrection _ _ => true
  | .ucieModuleFail _ module => decide (module < 10)
  | .powerOn => true
  | .powerLoss _ => true
  | .pinReset _ _ => true
  | .resetCommand _ req => req.wf
  | .watchdogExpiry _ => true
  | .powerFail _ => true
  | .powerFailPathComplete _ _ => true
  | .initEngineStart _ _ _ => true
  | .memoryFillComplete _ => true
  | .imagesVerified _ _ => true
  | .stackTrainingComplete _ _ => true
  | .lpddr6TrainingComplete _ _ _ => true
  | .perstAssert _ => true
  | .pcieL0Reached _ _ _ _ _ => true
  | .hostReadTimeout _ _ => true
  | .updateFirmware _ req => req.wf
  | .updateConfiguration _ req => req.wf
  | .updateComplete _ _ _ => true
  | .quoteCommand _ req => req.wf
  | .quoteSigned _ _ => true
  | .tapExtest _ => true
  | .tapInstructionExit _ => true
  | .ijtagAccess _ _ => true
  | .swapOutBegin _ sig => decide (sig < 32768)
  | .swapOutConfirmed _ sig => decide (sig < 32768)
  | .swapInGroupRead _ sig _ => decide (sig < 32768)
  | .swapRegionReleased _ jb => decide (jb < 64)
  | .pfailRelease _ => true
  | .startupCheckersProved _ _ => true

end Sys2Proof
end

