-- ==== Sys2Proof/Tests/Slice0.lean ====
section
/-! SUPPORT. Tests: ill-formed commands that the check refuses, the spec's own worked figures, and for every statement that has hypotheses a
concrete state and operands that meet them, clause by clause (theorem wit_ and the statement's name). -/

set_option Elab.async false

open Host Sys2Proof Sys2Proof.Machine
namespace Sys2Proof.Tests

/-- An image of kind `k` that verifies. -/
def tInfo (k : Nat) : ImageInfo :=
  { readOk := true, magic := 0x494B4C5A, kind := k, zerosOk := true, version := 1, imageId := 0, bodyLen := 0, bodyDigest := 0, keyDigest := 0, sigOk := true, bodyHash := 0 }

/-- A configuration image that names nothing. -/
def tCfg : BootImage := { info := tInfo 2, ownKey := 0, img := [], overrides := [] }

/-- A package that runs, at endpoint 0x1001 in the generation role. -/
def tRun : State :=
  let s := setF (setF State.reset 0x4000 0x01 0x1001) 0x7C10 0x02 1
  { s with power := { s.power with phase := .running, answering := true, coresReleased := true, pwrGood := true },
           link := { s.link with dark := false },
           boot := { s.boot with config := some (2, tCfg) } }

/-- Job 0 with a changed record. -/
def tJob (f : JobSt → JobSt) : State := modJob tRun 0 (fun x => f { x with mode := .running, window := 1 })

/-- Signature 5 of job 0 in a state. -/
def tSig (st : SigState) : State := modE (tJob id) 5 (fun e => { e with state := st })

/-- A composition of one quire. -/
def tPlan : Composition :=
  { window := 0, batch := [], chunks := [], shape := 16, shapeIndex := 0, promptOnly := false, lo := 0, count := 1, posMap := [], steer := [], pairs := [], inputs := [], staged := false, folds := [] }

/-- A step that runs on one quire. -/
def tStep : StepRun := { plan := tPlan, started := true, carried := false, feeds := [], draws := [], finished := [], barred := false, lateTier := 0, lateNs := 0, lateSince := none, lateWaits := [] }

/-- Sequencer `i` of job 0 about to issue the stitch `w`. -/
def tSeq (i : Nat) (w : BitVec 128) (s : State) : State :=
  modSeq s i (fun q => { q with job := some 0, running := true, store := [(0, w)], aregs := List.replicate 16 ⟨0, 0, 0, 0, 0⟩, events := List.replicate 16 0 })

/-- An image whose KV geometry is 16 slots of 64 FP16 elements. -/
def tImg : JobImage := { JobImage.none with leafSize := 16, headDim := 64, qHeads := 1, heads := 1, layers := 1, fmt := 1, attMode := 1, spanLen := 256 }

/-- A boundary phase to which nothing special is given. -/
def tBound : BoundaryIn := { canaryFails := [], struck := none, seqFound := 0, primary := none, alternate := none }

/-- A loop of one stitch that ends before stitch 0 comes. -/
def tLoop : LoopLevel := { start := 0, endAt := 0, left := 2, index := 0 }

/-- A call that has not returned. -/
def tCall : CtlCall := { routine := 0, arg := 0, event := 0, startNs := 0 }

/-- Job 0 runs in span mode. -/
def tSpan : State := tJob (fun x => { x with image := some tImg })

/-- A span-mode state with one pass under way. -/
def tPass (p : SpanPass) : State := { tSpan with span := { tSpan.span with passes := [p] } }

/-- A flash tier that serves: one channel of two-unit planes. -/
def tFlash : State :=
  let s := setF (setF tRun 0x7000 0x01 2) 0x7000 0x03 1
  { s with flash := { s.flash with channels := [0], geometry := { s.flash.geometry with targets := 1, luns := 1, planes := 1, blocks := 4, pages := 1 } } }

/-- One queued write of page 0. -/
def tWrite : FlashWrite := { origin := .user 1, page := 0, channel := 0, slot := 0, seq := 0, confirmed := true, data := [], prior := FlashMapEntry.zero }

/-- A move of group 3 of job 0 to LPDDR6. -/
def tMove : TierMove := { job := 0, group := 3, target := { tier := .lpddr6, loan := 0 }, promotion := false, urgent := false, started := true, sent := true, refused := false, addrs := [], follow := none }

/-- A trained LPDDR6 channel. -/
def tLp : LpChannel := { trained := true, densityCode := 0, ranks := 1, refreshRate := 0, eccCount := 0, retrainedNs := 0 }

/-- The fabric of a running package with its parts changed. -/
def tFab (f : FabricState → FabricState) : State := { tRun with fabric := f tRun.fabric }

/-- A reply of type `type` and status `st` to tag 0, from endpoint 0x1002. -/
def tReply (type st : Nat) : BitVec 256 := mkHeader type 0x1001 0x1002 0 0 0 0 0 0 0 st false 0

/-- The outstanding transaction of type `type` to endpoint 0x1002 with tag 0. -/
def tOut (type : Nat) : Outstanding :=
  { tag := 0, dest := 0x1002, job := 0, master := 0, header := mkHeader type 0x1002 0x1001 0 0 0 0 0 0 0 0 false 0, payload := [], issuedNs := 0, dst := none }

/-- Queue pair 7 with a changed record. -/
def tQp (f : QueuePair → QueuePair) : State := modQp tRun 7 (fun x => f { x with mode := .ready })

/-- Signature 5 handed out, with its release record. -/
def tGive (st : SigState) : State :=
  { tSig st with handoff := { records := [{ leaseEndNs := 100, ownerEpoch := 0, sig := 5, peer := 0x1002, fromGroup := none, lastGroup := 0, groupsSent := 0, kind := 0, accepted := true }], incoming := [] } }

/-- Signature 5 as it comes in. -/
def tIn : HandoffIn :=
  { sig := 5, sender := 0x1002, kind := 0, nextState := .decoding, arrivedNs := 0, deadlineNs := 100, kvLen := 0, fromGroup := 0, groups := [], wanted := [], resends := [], stopped := false, probeAtNs := 0 }

/-- Link 0 with a changed record. -/
def tLk (m : LinkMode) (f : Link → Link) : State := setLink tRun 0 (f { Link.zero with mode := m, peerEndpoint := 0x1002 })

/-- A control word of kind `kind` with fields `rest` and its OWN_CHECK. -/
def tWd (kind rest : Nat) : BitVec 256 :=
  let w : BitVec 256 := BitVec.ofNat 256 (place 0xF0 255 248 + place kind 247 240 + rest)
  hSet w (ownCheck w).toNat 95 64

/-- A write by interface 1 of value `v` to a folio, at its own width. -/
def tReq (idx sub v : Nat) : FolioReq :=
  { iface := 1, origin := 0, width := match folioRow idx sub with | some r => r.width | none => 8, value := v, sameCycle := false, malformed := false, hwSets := 0 }

/-- A staged queue pair of job 0 whose rings lie in the job's memory. -/
def tStage : State :=
  let s := tJob (fun x => { x with image := some { JobImage.none with memory := [(0x100000000000, 0x100000)] } })
  let w := place 0x100000000 207 172 + place 6 171 168 + place 0x100000001 167 132 + place 6 131 128 + place 0x100000002 127 92 + place 6 91 88
  setIf (setIf (setIf (setIf (setIf s 1 0x4101 0 7) 1 0x4101 1 (nfld w 63 0)) 1 0x4101 2 (nfld w 127 64)) 1 0x4101 3 (nfld w 191 128)) 1 0x4101 4 (nfld w 255 192)

/-- Job 0 has key 5. -/
def tKeyed (s : State) : State := { s with press := { s.press with keys := [(0, { KeySlot.zero with key := some 5 })] } }

/-- Signature 5 comes in; its one leaf is wanted. -/
def tLeafIn : State :=
  tKeyed { (modJob (tSig .handoffIn) 0 (fun x => { x with image := some tImg })) with handoff := { records := [], incoming := [{ tIn with wanted := [(0, 0)] }] } }

/-- Writer 3's bookmark of job 0 is being read. -/
def tAdopt : State := tKeyed { (tJob (fun x => { x with image := some { JobImage.none with bookmarkTargets := [(3, place 0x1002 63 48)] } })) with kettle := { tRun.kettle with adopting := [(3, 0)] } }

/-- The flash tier with a committed bookmark in generation 0 of slot 0. -/
def tBook : State :=
  let s := setF (setF tFlash 0x7030 0x01 1) 0x7030 0x02 1
  { s with flash := { s.flash with map := [(0, { mapped := true, poisoned := false, slot := 0 })], sectors := [(0, { page := 0, seq := 0, check := Config.sectorCheck [], data := toBytesLE 8 (crc64 (List.replicate 56 0)) ++ List.replicate 4088 0 })] } }

/-- Gutter unit 0 of job 0 about to store one block in its column's pool. -/
def tGv : State :=
  let s := tJob (fun x => { x with columns := [0], image := some { JobImage.none with memory := [(0, 0x4000000)] } })
  tSeq 128 (BitVec.ofNat 128 (0x81 * 2 ^ 120 + 1 * 2 ^ 108 + 1 * 2 ^ 86)) (setF (setF s 0x3400 0x02 64) 0x3400 0x03 16)

/-- A quote whose body is being signed. -/
def tQuote : State := { tRun with boot := { tRun.boot with quote := some ([], 0), seed := some 0 } }

/-- Signature 5 with one private group leaves for a swap region of 1 MiB. -/
def tSwap : State :=
  let s := modJob (tSig .swappingOut) 0 (fun x => { x with image := some { JobImage.none with leafSize := 16, layers := 1 }, leaves := [(3, { LeafDesc.zero with tier := .stacked })] })
  setF (setF (setGroup (modA s 5 (fun a => { a with groups := [some 3] })) 0 3 { GroupDesc.zero with refcount := 1, live := true }) 0x2443 0 0xC0) 0x2441 0 1

/-- A flash channel whose units are all taken: unit 1 is closed and holds page 0. -/
def tFull : State :=
  let gone : EraseUnit := { EraseUnit.zero with use := .retired }
  { tFlash with flash := { tFlash.flash with
      map := [(0, { mapped := true, poisoned := false, slot := 4 })],
      units := [(0, gone), (1, { EraseUnit.zero with use := .closed, valid := 1 }), (2, gone), (3, gone)] } }

/-- The command answers a next state. -/
def tAnswers (i : Instr) : Bool := match exec i tRun with
  | .next _ => true
  | _ => false

/-! ### Ill-formed commands, one for each check -/

theorem test_wellformed_refuses :
    [Instr.admissionRequest 0 65536 0, .lifetimeExpiry 0 32768, .prefillOffer 0 65536 0 0 0, .prefillOffer 0 0 64 0 0,
     .countClear 0 { tReq 0x2031 1 1 with iface := 4 }, .countClear 0 { tReq 0x2031 1 1 with width := 12 },
     .countClear 0 { tReq 0x2031 1 1 with value := 2 ^ 64 }, .windowEnd 0 64 [], .tipinLoad 0 256 (tReq 0x2824 0 7),
     .nop 0 1152, .barRelease 0 0 256, .spotCheck 0 1024 true, .ordinaryAccess 0 0 1152 0 0, .ordinaryAccess 0 1024 0 0 0].all
      (fun i => !i.wf) = true := by decide +kernel

theorem test_wellformed_refuses_fabric :
    [Instr.broadcastWrite 0 8 0 0 0 [], .broadcastWrite 0 0 8192 0 0 [], .broadcastWrite 0 0 0 64 0 [], .broadcastWrite 0 0 0 0 (2 ^ 48) [],
     .outboundAccess 0 0 0 0 0 0 0 64 [] none, .outboundAccess 0 0 0 0 4 0 0 64 [] none, .bindingCoherence 0 0 65536 0 [] [],
     .transactionTimeout 0 65536, .lpddr6Retrain 0 16, .flashWrite 0 1152 0 [], .flashProgramComplete 0 16 true].all
      (fun i => !i.wf) = true := by decide +kernel

theorem test_wellformed_refuses_remote :
    [Instr.ackTimer 0 8192, .repeatTimeout 0 0 (2 ^ 24), .rnrRetry 0 0 (2 ^ 24), .revokeTimeout 0 8192, .hostQueueSend 0 8192 [],
     .idle 0 64 0, .laserSourceFault 0 8 1, .bypassMoveComplete 0 4, .caseObject 0 0 0 2 [], .keyZeroed 0 64, .cvuDmaComplete 0 16 0 0 [],
     .shaperWrite 0 66 (tReq 0x5420 0 0), .policerWrite 0 3 0 (tReq 0x5430 0 0), .policerWrite 0 0 32 (tReq 0x5430 0 0)].all
      (fun i => !i.wf) = true := by decide +kernel

theorem test_wellformed_refuses_package :
    [Instr.handlingEnd 0 65536, .nocHopRetrainDone 0 2 0, .thawWaitEnd 0 8 0, .thawWaitEnd 0 0 8192, .suspectTimeout 0 65536,
     .bookmarkReadComplete 0 0 65536 none, .folioWrite 0 65536 0 (tReq 0x2450 2 5), .folioWrite 0 0x2450 256 (tReq 0x2450 2 5),
     .plithenRead 0 (2 ^ 48) 0 (List.replicate 46 0), .plithenRead 0 0 (2 ^ 48) (List.replicate 46 0), .plithenRead 0 0 0 (List.replicate 45 0),
     .plithenRead 0 0 0 (List.replicate 1501 0), .frameDiscard 0 0 65536 [], .ucieModuleFail 0 10].all (fun i => !i.wf) = true := by
  decide +kernel

theorem test_wellformed_accepts :
    [Instr.lifetimeExpiry 0 32767, .nop 0 1151, .idle 0 63 0, .folioWrite 0 0x2450 2 (tReq 0x2450 2 5), .plithenRead 0 0 0 (List.replicate 46 0)].all
      (fun i => i.wf) = true := by decide +kernel

/-! ### The spec's own worked figures -/

/-- Chapter 15: the CRC-32 and the CRC-64 of "123456789". -/
theorem test_check_values :
    let nine := toBytesLE 9 0x393837363534333231
    crc64 nine = 0x995DC9BBDF1939FA ∧ crcRun 32 0x04C11DB7 true true true (2 ^ 32 - 1) nine = 0xCBF43926 := by decide +kernel

/-- Chapter 7: byte 0xC00000 of column 451 stands at interleaved offset 0x18001C300 (R153). -/
theorem test_interleave : deinterleave 0x1000000 451 0xC00000 = 0x18001C300 := by decide +kernel

/-- Chapter 17: column-local offset 0x2102000 of column 451 is device address 0x10070E102000. -/
theorem test_column_address : columnAddr 451 0x2102000 = 0x10070E102000 := by decide +kernel

/-- Chapter 5: the element integers of the E4M3 operands 0x3C and 0xC0, and their place in the observed sums. -/
theorem test_element_integers :
    elemInt 2 (elemDecode 2 0x3C) = 768 ∧ elemInt 2 (elemDecode 2 0xC0) = -1024 ∧ (768 * -1024 : Int) % checkPrime = 2305843009212907519 := by
  decide +kernel

/-- Chapter 14: an ECHO with the times of the worked example makes the link's delay 820 ns. -/
theorem test_echo_sample :
    let w := tWd 3 (place 5000000 239 192 + place 91204300 191 144 + place 91204312 143 96)
    (match exec (.echo 5001652 17 w) (setLink tRun 17 { Link.zero with mode := .active }) with | .next s => getF s 0x4803 17 | _ => 0) = 820 := by
  decide +kernel

/-- Chapter 19: the console's PDU writes 1,500 µs to folio 0x2010.02. -/
theorem test_plithen_write :
    let pdu := toBytesLE 16 0x01020041010000201002000000000000 ++ toBytesLE 8 0x05DC ++ List.replicate 22 0
    (match exec (.plithenWrite 0 (ownMac tRun) 0x7A31 pdu) tRun with | .next s => getF s 0x2010 0x02 | _ => 0) = 1500 := by decide +kernel

/-- Chapter 6: the worked QKV product is an mma.blk that reads A from A1, B from A2 and writes to A4. -/
theorem test_stitch_fields :
    let w : BitVec 128 := 0x20221049050240090000024000080000
    storeRuns 0x20 0 = true ∧ fld w 127 120 = 0x20 ∧ fld w 119 116 = 2 := by decide +kernel

/-- A command at the front of the queue is taken and the rest stays. -/
theorem test_step_takes_front :
    (match step { tRun with pending := [.idleTimer 5 0, .idleTimer 6 1] } with | .next s => (s.pending, s.now) | _ => ([], 0)) = ([.idleTimer 6 1], 5) := by
  decide +kernel

/-! ### A cased object that opens, with the steps of its decryption -/

/-- A cased object of job 0 under key 5: 4,096 zeros, pressed. -/
def tObj : List Byte :=
  toBytesLE 32 0x0 ++
  toBytesLE 32 0x1008000fbbf1888000000000000000000000000000010000000008400000000 ++
  toBytesLE 32 0xffdcaa219e8639a4ad6a6887a1bf1db0d49f3efcdb12f3415bc8136bd10b8e39 ++
  toBytesLE 32 0x938f4d58e0858b96222bdebc4dbd15d422c0adad1a05a665497896bf393bc3e9 ++
  toBytesLE 32 0xb8dae113909a10231a51744b26b20ef111b5f484b7ca9711d6b2acca24903082 ++
  toBytesLE 32 0x86bc39424d388eebd195b156042b8e0e6f07f6af0b1187d5db3b1464edbb4480 ++
  toBytesLE 32 0x26f37c9d873e65952f11fa25cf4d6b587e9fc73ab79dbe38a0724e4b ++
  toBytesLE 4 0x0

/-- The coded bytes of the object. -/
def tCoded : List Byte := toBytesLE 132 128

/-- The raw bytes of the object. -/
def tRaw : List Byte := (decodeBody 1 3 4096 tCoded).getD []

theorem tObj_h : blockNat (aesBlock (aesKeys (keyBytes 5)) (List.replicate 16 0)) = 153863689446896232997849394337188101528 := by decide +kernel

theorem tObj_e : blockNat (aesBlock (aesKeys (keyBytes 5)) (gcmCounter (toBytesLE 12 0) 1)) = 79152412376224785498473353589624246150 := by decide +kernel

theorem tObj_g : ghash 153863689446896232997849394337188101528 (tObj.take 64) ((tObj.drop 64).take 132) = 4250839214352957187710649070179032745 := by
  decide +kernel

theorem tObj_ct : gcmCrypt (aesKeys (keyBytes 5)) (toBytesLE 12 0) 2 (blocksOf ((tObj.drop 64).take 132)) = tCoded := by decide +kernel

theorem tObj_len : (decodeBody 1 3 4096 tCoded).map List.length = some 4096 := by decide +kernel

theorem tRaw_spec : decodeBody 1 3 4096 tCoded = some tRaw ∧ tRaw.length = 4096 := by
  have h := tObj_len
  unfold tRaw
  cases e : decodeBody 1 3 4096 tCoded with
  | none => rw [e] at h; simp at h
  | some r => rw [e] at h; simpa using h

theorem tObj_open : gcmOpen (keyBytes 5) (toBytesLE 12 0) (tObj.take 64) ((tObj.drop 64).take 132) ((tObj.drop (64 + 132)).take 16) = some tCoded := by
  simp only [gcmOpen, gcmTag, tObj_h, tObj_e, tObj_g, tObj_ct]
  rw [if_pos (by decide +kernel)]

/-- A fold that evaluates its accumulator at every step. -/
def strictFold (f : Nat → Byte → Nat) : List Byte → Nat → Nat
  | [], c => c
  | b :: r, c => match c with
    | 0 => strictFold f r (f 0 b)
    | n + 1 => strictFold f r (f (n + 1) b)

theorem strictFold_eq (f : Nat → Byte → Nat) (bs : List Byte) (c : Nat) : bs.foldl f c = strictFold f bs c := by
  induction bs generalizing c with
  | nil => rfl
  | cons b r ih => cases c <;> simp [strictFold, ih]

theorem tObj_crc : ofBytesLE ((tObj.drop (80 + 132)).take 8) = crc64 (tObj.take (80 + 132)) := by
  unfold crc64 crcRun
  rw [strictFold_eq]
  decide +kernel

/-- The header of the object. -/
def tHead : Nat := 0x1008000fbbf18880000000000000000000000000000100000000084000000000000000000000000000000000000000000000000000000000000000000000000

theorem tObj_head : ofBytesLE (tObj.take 64) = tHead := by decide +kernel

/-- The key that opens objects of job 0. -/
def openKey (s : State) : Option (BitVec 256) := if (keySlot s 0).zeroing then none else (keySlot s 0).key

theorem tObj_opens (s : State) (hk : openKey s = some 5) : openBytes s tObj = .ok tRaw := by
  unfold openKey at hk
  unfold openBytes
  dsimp only
  rw [tObj_head, if_neg (by decide +kernel), show nfld tHead 319 288 = 132 from by decide +kernel,
    if_neg (not_not.mpr tObj_crc), if_neg (by decide +kernel),
    show nfld tHead 503 498 = 0 from by decide +kernel, hk]
  dsimp only
  rw [if_neg (by decide +kernel), show nfld tHead 447 352 = 0 from by decide +kernel, tObj_open]
  dsimp only
  rw [if_pos (by decide +kernel), show strideBytes (nfld tHead 497 496) = 1 from by decide +kernel,
    show nfld tHead 351 320 / 4096 + 2 = 3 from by decide +kernel, show nfld tHead 351 320 = 4096 from by decide +kernel, tRaw_spec.1]

theorem openObject_ok (s : State) (half n : Nat) (obj raw : List Byte) (hp : pickEngine s s.press.decBusy half = some n)
    (h0 : openBytes s obj = .ok raw) : (openObject s half obj).2 = .ok raw := by
  unfold openObject openWith
  rw [hp]
  dsimp only
  rw [h0]

/-- A cased object of job 0 under key 5 whose one byte, 7, is not pressed. -/
def tSmall : List Byte :=
  toBytesLE 32 0x0 ++ toBytesLE 32 0x1000000fbbf1888000000000000000000000000000000010000000100000000 ++
  toBytesLE 25 0xd6453a0248ecb2ac103d7cba7b338fb4f5ab151077ff257dbe ++ toBytesLE 8 0x0

theorem tSmall_g : ghash 153863689446896232997849394337188101528 (tSmall.take 64) ((tSmall.drop 64).take 1) = 93927601647822831221388350937148535446 := by
  decide +kernel

theorem tSmall_ct : gcmCrypt (aesKeys (keyBytes 5)) (toBytesLE 12 0) 2 (blocksOf ((tSmall.drop 64).take 1)) = [7] := by decide +kernel

theorem tSmall_open : gcmOpen (keyBytes 5) (toBytesLE 12 0) (tSmall.take 64) ((tSmall.drop 64).take 1) ((tSmall.drop (64 + 1)).take 16) = some [7] := by
  simp only [gcmOpen, gcmTag, tObj_h, tObj_e, tSmall_g, tSmall_ct]
  rw [if_pos (by decide +kernel)]

theorem tSmall_crc : ofBytesLE ((tSmall.drop (80 + 1)).take 8) = crc64 (tSmall.take (80 + 1)) := by
  unfold crc64 crcRun
  rw [strictFold_eq]
  decide +kernel

/-! ### Clauses whose witness needs more than evaluation -/

theorem firstFrom_miss (p : Nat → Bool) (m n a : Nat) (hm : a + n ≤ m) (h : ∀ k < m, p k = false) : firstFrom p n a = none := by
  induction n generalizing a with
  | zero => rfl
  | succ n ih => simp [firstFrom, h a (by omega), ih (a + 1) (by omega)]

theorem pickFree_miss (p : Nat → Bool) (n r : Nat) (hn : 0 < n) (h : ∀ k < n, p k = false) : pickFree p n r = none := by
  have hr := Nat.mod_lt r hn
  simp [pickFree, firstFrom_miss p n _ _ (show r % n + (n - r % n) ≤ n by omega) h, firstFrom_miss p n _ _ (show 0 + r % n ≤ n by omega) h]

theorem flash_full : let b := atTime 0 tFull
    let r : State := { b with flash := { b.flash with reclaiming := if b.flash.reclaiming.contains 0 then b.flash.reclaiming else 0 :: b.flash.reclaiming } }
    let u := (unitPages r.flash 0 1).foldl (reclaimPage 0 ⟨[], []⟩) r
    flashState b = 2 ∧ reclaimWanted b 0 = true ∧ b.flash.flushing = false ∧ chooseReclaim r 0 = some 1 ∧ unitPages u.flash 0 1 ≠ [] := by
  intro b r u
  have hp : unitPages r.flash 0 1 = [0] := by decide +kernel
  have hf : dataUnits r ≠ 0 ∧ ∀ k < dataUnits r, decide ((flashUnit r.flash 0 k).use = .free) = false := by decide +kernel
  have ht : takeSector r 0 = none := by
    unfold takeSector
    have hl : (listedUnits r 0).find? (fun e => decide (e.2.use = .opened) && decide (e.2.next < unitSectors r.flash.geometry)) = none := by
      decide +kernel
    dsimp only at hl ⊢
    rw [hl]
    simp [pickFreeUnit, pickFree_miss _ _ _ (Nat.pos_of_ne_zero hf.1) hf.2]
  have hu : u = r := by simp [u, hp, reclaimPage, copyPage, ht]
  refine ⟨by decide +kernel, by decide +kernel, by decide +kernel, by decide +kernel, ?_⟩
  rw [hu, hp]; decide

theorem firstFrom_hit (p : Nat → Bool) (n a : Nat) (h : p a = true) : firstFrom p (n + 1) a = some a := by simp [firstFrom, h]

theorem pickFree_all (p : Nat → Bool) (n r : Nat) (hn : 0 < n) (h : ∀ k < n, p k = true) : pickFree p n r = some (r % n) := by
  have hr := Nat.mod_lt r hn
  unfold pickFree
  rw [show n - r % n = (n - r % n - 1) + 1 by omega, firstFrom_hit p _ _ (h _ hr)]

theorem swap_place (s : State) : ∃ offs, placeSwap s (2 ^ 20) 4096 1 [] = some offs := by
  have h : placeRange s 0 (2 ^ 20) 4096 4096 [] = some (0 + freshOf s % 256 * 4096) := by
    simp only [placeRange]
    rw [pickFree_all _ _ _ (by decide) (fun k hk => by simp; omega)]; rfl
  exact ⟨[0 + freshOf s % 256 * 4096], by simp only [placeSwap, h]⟩

theorem swap_facts : let b := atTime 0 tSwap
    let j := (sigE b 5).job.toNat
    (sigE b 5).state = .swappingOut ∧ stepHolds b 5 = false ∧ (job b j).swapped.any (fun o => decide (o.1 = 5)) = false ∧
      privateGroups b 5 ≠ [] ∧ swapRegion b j = some 0 ∧ swapSize b j = 2 ^ 20 ∧ swapGroupBytes b j = 4096 ∧
      (privateGroups b 5).length = 1 ∧ (job b j).swapped = [] := by decide +kernel

theorem swap_begin : let b := atTime 0 tSwap
    let j := (sigE b 5).job.toNat
    (sigE b 5).state = .swappingOut ∧ stepHolds b 5 = false ∧ (job b j).swapped.any (fun o => decide (o.1 = 5)) = false ∧
      privateGroups b 5 ≠ [] ∧ swapRegion b j = some 0 ∧
      ∃ offs, placeSwap b (swapSize b j) (swapGroupBytes b j) (privateGroups b 5).length ((job b j).swapped.map (fun o => (o.2.2.1, o.2.2.2))) = some offs := by
  obtain ⟨h1, h2, h3, h4, h5, h6, h7, h8, h9⟩ := swap_facts
  refine ⟨h1, h2, h3, h4, h5, ?_⟩
  rw [h6, h7, h8, h9]
  exact swap_place _

theorem pair_of_snd {α β : Type} (p : α × β) (y : β) (h : p.2 = y) : ∃ u, p = (u, y) := ⟨p.1, by rw [← h]⟩

theorem pair_any {α β : Type} (p : α × β) : ∃ u v, p = (u, v) := ⟨p.1, p.2, rfl⟩

theorem tKeyed_opens (s : State) (half n : Nat) (hp : pickEngine s s.press.decBusy half = some n) (h : openKey s = some 5) :
    ∃ u, openObject s half tObj = (u, .ok tRaw) := pair_of_snd _ _ (openObject_ok s half n tObj tRaw hp (tObj_opens s h))

theorem press_plain : let b := atTime 0 (tKeyed tRun)
    let h := ofBytesLE (tSmall.take 64)
    let body := nfld h 319 288
    let raw := nfld h 351 320
    let j := nfld h 503 498
    96 + body ≤ tSmall.length ∧ ofBytesLE ((tSmall.drop (80 + body)).take 8) = crc64 (tSmall.take (80 + body)) ∧
      nfld h 511 504 = 1 ∧ nfld h 497 496 ≠ 3 ∧ nfld h 494 480 = 0 ∧ nfld h 287 0 = 0 ∧ raw ≠ 0 ∧ raw ≤ 67108864 ∧ body ≤ raw ∧
      (nbit h 495 = true ∨ body = raw) ∧ (keySlot b j).zeroing = false ∧ (keySlot b j).key = some 5 ∧ keyId 5 = nfld h 479 448 ∧
      gcmOpen (keyBytes 5) (toBytesLE 12 (nfld h 447 352)) (tSmall.take 64) ((tSmall.drop 64).take body) ((tSmall.drop (64 + body)).take 16) = some [7] ∧
      pickEngine b b.press.decBusy 0 = some 0 ∧ nbit h 495 = false := by
  intro b h body raw j
  have hb : body = 1 := by decide +kernel
  have hi : nfld h 447 352 = 0 := by decide +kernel
  rw [hb, hi]
  refine ⟨by decide +kernel, tSmall_crc, by decide +kernel, by decide +kernel, by decide +kernel, by decide +kernel, by decide +kernel,
    by decide +kernel, by decide +kernel, by decide +kernel, by decide +kernel, by decide +kernel, by decide +kernel, tSmall_open,
    by decide +kernel, by decide +kernel⟩

theorem press_pressed : let b := atTime 0 (tKeyed tRun)
    let h := ofBytesLE (tObj.take 64)
    let body := nfld h 319 288
    let raw := nfld h 351 320
    let j := nfld h 503 498
    96 + body ≤ tObj.length ∧ ofBytesLE ((tObj.drop (80 + body)).take 8) = crc64 (tObj.take (80 + body)) ∧
      nfld h 511 504 = 1 ∧ nfld h 497 496 ≠ 3 ∧ nfld h 494 480 = 0 ∧ nfld h 287 0 = 0 ∧ raw ≠ 0 ∧ raw ≤ 67108864 ∧ body ≤ raw ∧
      (nbit h 495 = true ∨ body = raw) ∧ (keySlot b j).zeroing = false ∧ (keySlot b j).key = some 5 ∧ keyId 5 = nfld h 479 448 ∧
      gcmOpen (keyBytes 5) (toBytesLE 12 (nfld h 447 352)) (tObj.take 64) ((tObj.drop 64).take body) ((tObj.drop (64 + body)).take 16) = some tCoded ∧
      pickEngine b b.press.decBusy 0 = some 0 ∧ nbit h 495 = true ∧
      decodeBody (strideBytes (nfld h 497 496)) (raw / 4096 + 2) raw tCoded = some tRaw := by
  intro b h body raw j
  have hb : body = 132 := by decide +kernel
  have hi : nfld h 447 352 = 0 := by decide +kernel
  have hr : raw = 4096 := by decide +kernel
  have hs : strideBytes (nfld h 497 496) = 1 := by decide +kernel
  rw [hb, hi, hr, hs]
  refine ⟨by decide +kernel, tObj_crc, by decide +kernel, by decide +kernel, by decide +kernel, by decide +kernel, by decide +kernel,
    by decide +kernel, by decide +kernel, by decide +kernel, by decide +kernel, by decide +kernel, by decide +kernel, tObj_open,
    by decide +kernel, by decide +kernel, tRaw_spec.1⟩

theorem job_room : let s := modJob tRun 0 (fun x => { x with mode := .tornDown, wait := .room 0 0 0 }); let b := atTime 0 s
    (job b 0).wait = .room 0 0 0 ∧ (∀ x ∈ b.jobs, ∀ m q' c', x.2.wait = .room m q' c' → 0 ≤ m) ∧ setsSuffice b 0 0 = (true, true) ∧
      (∀ k ∈ b.starts, (job b k).bestEffort = true) :=
  ⟨by decide +kernel, fun _ _ _ _ _ _ => Nat.zero_le _, by decide +kernel, by decide +kernel⟩

theorem job_commit : let b := atTime 0 tBook
    1 < flashState b ∧ 0 < slotCount b ∧ 0 < 2 ∧ genSeq b 0 0 = some 0 ∧ genSeq b 0 (1 - 0) = none ∧
      (∀ j ∈ jobNumbers b, (job b j).bookmark.writing = none) := by decide +kernel

theorem job_adopt : let b := atTime 0 tAdopt
    let a : State := { b with kettle := { b.kettle with adopting := b.kettle.adopting.erase (3, 0) } }
    b.kettle.adopting.contains (3, 0) = true ∧ (job a 0).mode = .running ∧ bookFound a 0 3 (some (1, tObj)) = some tObj ∧
      ∃ u, openObject a 0 tObj = (u, .ok tRaw) :=
  ⟨by decide +kernel, by decide +kernel, by decide +kernel, tKeyed_opens _ _ 0 (by decide +kernel) (by decide +kernel)⟩

theorem handoff_leaf : let b := atTime 0 tLeafIn
    let h : BitVec 1024 := BitVec.ofNat 1024 (place 0x12 511 504 + place 4096 366 335)
    let j := (sigE b 5).job.toNat
    GoodShort b h 0x12 ∧ shortEntry b h = some 5 ∧ incomingOf b 5 = some { tIn with wanted := [(0, 0)] } ∧ (sigE b 5).state = .handoffIn ∧ ({ tIn with wanted := [(0, 0)] } : HandoffIn).stopped = false ∧
      ({ tIn with wanted := [(0, 0)] } : HandoffIn).wanted.contains (0, 0) = true ∧
      (sigE b 5).ownerEpoch.toNat = fld h 455 424 ∧
      (∃ u, openObject b ((leafOf b j 0 0).column / 512) tObj = (u, .ok tRaw)) ∧
      tRaw.length = payloadBytes (imageOf b j) + scaleBytesOf (imageOf b j) ∧ tRaw.length = fld h 366 335 := by
  refine ⟨by decide +kernel, by decide +kernel, by decide +kernel, by decide +kernel, by decide +kernel, by decide +kernel, by decide +kernel, tKeyed_opens _ _ 0 (by decide +kernel) (by decide +kernel), ?_, ?_⟩
  · rw [tRaw_spec.2]; decide +kernel
  · rw [tRaw_spec.2]; decide +kernel

theorem boot_quote : let b := atTime 0 tQuote
    let a : State := { b with boot := { b.boot with quote := none } }
    b.boot.quote = some ([], 0) ∧ b.boot.seed = some 0 ∧
      ∃ u ok, writeFabric a 0 none ([] ++ (List.range 35664).map (Config.attestSign 0 [])) = (u, ok) :=
  ⟨by decide +kernel, by decide +kernel, pair_any _⟩

theorem store_gutter : let b := atTime 0 tGv
    let w := stitchAt (seqOf b (128 + 0))
    let m := colOffset b 0 (fld w 119 116)
    let sc := colOffset b 0 (fld w 115 112)
    let v := vecBytes (fld w 111 108) (fld w 94 86)
    issues b (128 + 0) 0x81 = true ∧ (gutter b 0).refreshPause = false ∧ (seqOf b (128 + 0)).job = some 0 ∧
      scratchOk (fld w 107 95) (32 * fld w 94 86) = true ∧ fld w 111 108 ≠ 0xF ∧ gutterOk b 0 0 m v.1 = true ∧
      (0 < v.2 → gutterOk b 0 0 sc v.2 = true) := by decide +kernel

/-! ### Witnesses -/

/-- States and operands that meet the hypotheses of Obligations.StepRunsFrontCommand, clause by clause. -/
theorem wit_StepRunsFrontCommand :
    (let s : State := { State.reset with pending := [.pulseTimer 0] }; let c : Instr := .pulseTimer 0; let r : List Instr := []; (s.pending = c :: r)) :=
  by decide +kernel

/-- States and operands that meet the hypotheses of Obligations.EmptyQueueIdles, clause by clause. -/
theorem wit_EmptyQueueIdles :
    (let s : State := State.reset; (s.pending = [])) :=
  by decide +kernel

/-- States and operands that meet the hypotheses of Obligations.SignatureCommandsComplete, clause by clause. -/
theorem wit_SignatureCommandsComplete :
    (let s : State := tRun; let t : Nat := 0; let src : Nat := 1; let b := atTime t s; (deadSource b src = false)) ∧
    (let s : State := tSig .admitting; let t : Nat := 0; let sig : Nat := 5; let b := atTime t s; ((sigE b sig).state = .admitting)) ∧
    (let s : State := tSig .decoding; let t : Nat := 120000000000; let sig : Nat := 5; let b := atTime t s; ((sigE b sig).state ≠ .free) ∧
      ((sigA b sig).bornNs + getF b 0x2010 0x05 * 1000000000 ≤ b.now)) ∧
    (let s : State := tSig .decoding; let t : Nat := 0; let m : BitVec 256 := BitVec.ofNat 256 (3 * 2 ^ 248 + 5 * 2 ^ 208); let b := atTime t s;
      (fld m 255 248 = 3) ∧ (deadSource b (fld m 207 192) = false) ∧ (homeOk b m = true)) ∧
    (let s : State := tSig .ended; let t : Nat := 0; let m : BitVec 256 := BitVec.ofNat 256 (4 * 2 ^ 248 + 5 * 2 ^ 208); let b := atTime t s;
      (fld m 255 248 = 4) ∧ (deadSource b (fld m 207 192) = false) ∧ (homeOk b m = true)) ∧
    (let s : State := tSig .decoding; let t : Nat := 0; let m : BitVec 256 := BitVec.ofNat 256 (2 * 2 ^ 248 + 5 * 2 ^ 208); let b := atTime t s;
      (fld m 255 248 = 2) ∧ (deadSource b (fld m 207 192) = false) ∧ (homeOk b m = true)) ∧
    (let s : State := setF (tJob id) 0x7C10 0x02 0; let t : Nat := 0; let jb : Nat := 0; let b := atTime t s; (roleActive b = 0) ∧
      ((job b jb).mode = .running)) :=
  by and_intros <;> decide +kernel

/-- States and operands that meet the hypotheses of Obligations.BudgetExpiryMarksOverdue, clause by clause. -/
theorem wit_BudgetExpiryMarksOverdue :
    (let s : State := tSig .decoding; let t : Nat := 0; let sig : Nat := 5; let b := atTime t s; (beforeDraining (sigE b sig).state = true) ∧
      ((sigE b sig).bestEffort = false) ∧ ((sigE b sig).overdue = false) ∧ (remaining b sig = some 0)) ∧
    (let s : State := tRun; let t : Nat := 0; let sig : Nat := 5; let b := atTime t s;
      (¬(beforeDraining (sigE b sig).state = true ∧ (sigE b sig).bestEffort = false ∧ (sigE b sig).overdue = false ∧ remaining b sig = some 0))) :=
  by and_intros <;> decide +kernel

/-- States and operands that meet the hypotheses of Obligations.PendingCancelApplied, clause by clause. -/
theorem wit_PendingCancelApplied :
    (let s : State := modE (modA (tSig .preempted) 5 (fun a => { a with holder := true })) 5 (fun e => { e with cancelPending := true });
      let n : Nat := 5; let st : SigState := .queued; ((st = .queued ∨ st = .prefilling ∨ st = .rebuilding ∨ st = .decoding ∨ st = .preempted)) ∧
      ((sigE s n).cancelPending = true) ∧ ((sigA s n).holder = true)) ∧
    (let s : State := tSig .preempted; let n : Nat := 5; let st : SigState := .decoding;
      ((st = .queued ∨ st = .prefilling ∨ st = .rebuilding ∨ st = .decoding ∨ st = .preempted)) ∧
      ((sigE s n).cancelPending = false ∨ (sigA s n).holder = false)) :=
  by and_intros <;> decide +kernel

/-- States and operands that meet the hypotheses of Obligations.KeepaliveNotice, clause by clause. -/
theorem wit_KeepaliveNotice :
    (let s : State := modA (tSig .decoding) 5 (fun a => { a with holder := true }); let t : Nat := 10000000000000; let sig : Nat := 5;
      let b := atTime t s;
      let due := (sigA b sig).holder = true ∧ (sigA b sig).superseded = none ∧ (sigA b sig).noticeNs + getF b 0x6400 0x05 * 1000000 ≤ b.now; (due) ∧
      ((sigE b sig).state ≠ .ended) ∧ ((sigE b sig).state ≠ .free) ∧ ((sigE b sig).state ≠ .admitting) ∧ ((sigE b sig).state ≠ .handoffIn)) ∧
    (let s : State := modA (tSig .ended) 5 (fun a => { a with holder := true }); let t : Nat := 10000000000000; let sig : Nat := 5; let b := atTime t s;
      let due := (sigA b sig).holder = true ∧ (sigA b sig).superseded = none ∧ (sigA b sig).noticeNs + getF b 0x6400 0x05 * 1000000 ≤ b.now; (due) ∧
      ((sigE b sig).state = .ended)) ∧
    (let s : State := tRun; let t : Nat := 0; let sig : Nat := 5; let b := atTime t s;
      let due := (sigA b sig).holder = true ∧ (sigA b sig).superseded = none ∧ (sigA b sig).noticeNs + getF b 0x6400 0x05 * 1000000 ≤ b.now;
      (¬due ∨ (sigE b sig).state = .free ∨ (sigE b sig).state = .admitting ∨ (sigE b sig).state = .handoffIn)) :=
  by and_intros <;> decide +kernel

/-- States and operands that meet the hypotheses of Obligations.OffersAndBadMessagesKept, clause by clause. -/
theorem wit_OffersAndBadMessagesKept :
    (let s : State := tRun; let t : Nat := 0; let endpoint : Nat := 1; let b := atTime t s; (deadSource b endpoint = false)) :=
  by decide +kernel

/-- States and operands that meet the hypotheses of Obligations.SwapCommandsComplete, clause by clause; swap_begin show the others. -/
theorem wit_SwapCommandsComplete :
    (let s : State := modJob (tSig .swappingOut) 0 (fun x => { x with swapped := [(5, 0, 0, 0)] }); let t : Nat := 0; let sig : Nat := 5;
      let b := atTime t s; ((sigE b sig).state = .swappingOut) ∧ ((job b (sigE b sig).job.toNat).swapped.any (fun o => decide (o.1 = sig)) = true)) ∧
    (let s : State := modA (tSig .swappingIn) 5 (fun a => { a with swapLeft := [0], handoffGroups := [0], swapRetries := 0 }); let t : Nat := 0;
      let sig : Nat := 5; let p : Nat := 0; let g : Nat := 0; let ps : List Nat := []; let gs : List Nat := []; let objects : List (List Byte) := [];
      let raws : List (List Byte) := [];
      let u : State := atTime 0 (modA (tSig .swappingIn) 5 (fun a => { a with swapLeft := [0], handoffGroups := [0], swapRetries := 0 }));
      let b := atTime t s; let j := (sigE b sig).job.toNat; ((sigE b sig).state = .swappingIn) ∧ ((sigA b sig).swapLeft = p :: ps) ∧
      ((sigA b sig).handoffGroups = g :: gs) ∧ (openAll b j ((leafOf b j g 0).column / 512) objects = (u, some raws)) ∧ (objects.length = layerCount u j)) ∧
    (let s : State := tJob (fun x => { x with swapLeft := [5] }); let t : Nat := 0; let jb : Nat := 0; let b := atTime t s; ((job b jb).swapLeft ≠ [])) :=
  by and_intros <;> decide +kernel

/-- States and operands that meet the hypotheses of Obligations.SwapInReadRepeats, clause by clause. -/
theorem wit_SwapInReadRepeats :
    (let s : State := modA (tSig .swappingIn) 5 (fun a => { a with swapLeft := [0], handoffGroups := [0], swapRetries := 0 }); let t : Nat := 0;
      let sig : Nat := 5; let p : Nat := 0; let g : Nat := 0; let ps : List Nat := []; let gs : List Nat := []; let objects : List (List Byte) := [[]];
      let u : State := (openAll (atTime 0 (modA (tSig .swappingIn) 5 (fun a => { a with swapLeft := [0], handoffGroups := [0], swapRetries := 0 }))) 0 0 [[]]).1;
      let b := atTime t s; let j := (sigE b sig).job.toNat; ((sigE b sig).state = .swappingIn) ∧ ((sigA b sig).swapLeft = p :: ps) ∧
      ((sigA b sig).handoffGroups = g :: gs) ∧ (openAll b j ((leafOf b j g 0).column / 512) objects = (u, none)) ∧
      ((sigA b sig).swapRetries < getF u 0x2410 0x02)) ∧
    (let s : State := modA (tSig .swappingIn) 5 (fun a => { a with swapLeft := [0], handoffGroups := [0], swapRetries := 3 }); let t : Nat := 0;
      let sig : Nat := 5; let p : Nat := 0; let g : Nat := 0; let ps : List Nat := []; let gs : List Nat := []; let objects : List (List Byte) := [[]];
      let u : State := (openAll (atTime 0 (modA (tSig .swappingIn) 5 (fun a => { a with swapLeft := [0], handoffGroups := [0], swapRetries := 3 }))) 0 0 [[]]).1;
      let b := atTime t s; let j := (sigE b sig).job.toNat; ((sigE b sig).state = .swappingIn) ∧ ((sigA b sig).swapLeft = p :: ps) ∧
      ((sigA b sig).handoffGroups = g :: gs) ∧ (openAll b j ((leafOf b j g 0).column / 512) objects = (u, none)) ∧
      (getF u 0x2410 0x02 ≤ (sigA b sig).swapRetries)) :=
  by and_intros <;> decide +kernel

/-- States and operands that meet the hypotheses of Obligations.LeafElementPlaces, clause by clause. -/
theorem wit_LeafElementPlaces :
    (let t : Nat := 15; let i : JobImage := tImg; let h : Nat := 0; let k : Nat := 0; let d : Nat := 63; let h2 : Nat := 0; let k2 : Nat := 1;
      let t2 : Nat := 15; let d2 : Nat := 63; (k < 2) ∧ (k2 < 2) ∧ (t < i.leafSize) ∧ (t2 < i.leafSize) ∧ (d < i.headDim) ∧ (d2 < i.headDim) ∧
      ((h, k, t, d) ≠ (h2, k2, t2, d2))) :=
  by decide +kernel

/-- States and operands that meet the hypotheses of Obligations.LeafScalePlaces, clause by clause. -/
theorem wit_LeafScalePlaces :
    (let t : Nat := 15; let i : JobImage := tImg; let h : Nat := 0; let k : Nat := 0; let b : Nat := 1; let h2 : Nat := 0; let k2 : Nat := 1;
      let t2 : Nat := 15; let b2 : Nat := 1; (k < 2) ∧ (k2 < 2) ∧ (t < i.leafSize) ∧ (t2 < i.leafSize) ∧ (b < i.headDim / 32) ∧ (b2 < i.headDim / 32) ∧
      ((h, k, t, b) ≠ (h2, k2, t2, b2))) :=
  by decide +kernel

/-- States and operands that meet the hypotheses of Obligations.StepWindowCommandsComplete, clause by clause. -/
theorem wit_StepWindowCommandsComplete :
    (let s : State := tJob id; let t : Nat := 0; let jb : Nat := 0; let b := atTime t s; (stepping b jb = true) ∧ ((job b jb).window ≠ 0) ∧
      ((job b jb).inStep = false) ∧ ((job b jb).sizedPeriod ≠ some (splitPeriod b jb))) ∧
    (let s : State := tJob id; let t : Nat := 0; let jb : Nat := 0; let b := atTime t s; (stepping b jb = true) ∧ (windowEnd b jb ≤ b.now) ∧
      (partRuns (job b jb).gen = false) ∧ (partRuns (job b jb).prompt = false) ∧ ((job b jb).awaiting = none) ∧ ((job b jb).freezeOut = [])) ∧
    (let s : State := tJob (fun x => { x with inStep := true }); let t : Nat := 0; let jb : Nat := 0; let b := atTime t s; (stepping b jb = true) ∧
      ((job b jb).window ≠ 0) ∧ (windowStart b jb (nextFreeze (job b jb)) ≤ b.now + getF b 0x2810 0x01 * 1000)) ∧
    (let s : State := tJob id; let t : Nat := 0; let jb : Nat := 0; let b := atTime t s; (stepping b jb = true) ∧ ((job b jb).window ≠ 0) ∧
      ((job b jb).inStep = false) ∧ ((job b jb).awaiting = none) ∧ ((job b jb).windowNs + betaNs b jb ≤ b.now)) ∧
    (let s : State := tJob (fun x => { x with inStep := true, gen := { PartState.zero with run := some tStep } }); let t : Nat := 0; let jb : Nat := 0;
      let b := atTime t s; (stepping b jb = true) ∧ (windowEnd b jb ≤ b.now) ∧ ((job b jb).inStep = true) ∧ ((job b jb).ended = false) ∧
      ((partRuns (job b jb).gen = true ∨ partRuns (job b jb).prompt = true))) ∧
    (let s : State := tJob (fun x => { x with ended := true }); let t : Nat := 0; let jb : Nat := 0; let b := atTime t s; (stepping b jb = true) ∧
      ((job b jb).ended = true) ∧ (allStopped b jb = true)) ∧
    (let s : State := tSeq 0 (BitVec.ofNat 128 (0x1F * 2 ^ 120)) (tJob (fun x => { x with quires := [0], gen := { PartState.zero with run := some tStep } }));
      let t : Nat := 0; let jb : Nat := 0; let prompt : Bool := false; let r : StepRun := tStep; let b := atTime t s; (stepping b jb = true) ∧
      ((partOf (job b jb) prompt).run = some r) ∧ (r.started = true) ∧ (planQuires b jb r.plan ≠ []) ∧ (committing b jb r = true)) ∧
    (let s : State := setF (setF (setF tRun 0x2826 0 1) 0x2820 0 0x80) 0x2824 0 7; let t : Nat := 0; let ss : Nat := 0; let image : ImageInfo := tInfo 4;
      let b := atTime t s; (getF b 0x2826 ss = 1) ∧ ((tipinLanes b ss).contains 0 = true) ∧ ((tipinLanes b ss).contains (getF b 0x2824 ss) = false) ∧
      (nbit (getF b 0x2820 ss) 7 = true) ∧ (ownedCode b 4 (readAt b (getF b 0x2825 ss) (some (getF b 0x2820 ss % 64)) image) = 0)) :=
  by and_intros <;> decide +kernel

/-- States and operands that meet the hypotheses of Obligations.FreezeRoutineReturns, clause by clause. -/
theorem wit_FreezeRoutineReturns :
    (let s : State := tJob (fun x => { x with freezeOut := [1], awaiting := none }); let t : Nat := 0; let jb : Nat := 0; let routine : Nat := 1;
      let b := atTime t s; ((job b jb).freezeOut.contains routine = true) ∧ ((job b jb).awaiting = none)) ∧
    (let s : State := tJob (fun x => { x with freezeOut := [1], awaiting := some tBound }); let t : Nat := 0; let jb : Nat := 0; let routine : Nat := 1;
      let x := tBound; let b := atTime t s; ((job b jb).freezeOut.contains routine = true) ∧ ((job b jb).awaiting = some x) ∧
      ((job b jb).freezeOut = [routine]) ∧ (stepping b jb = true)) ∧
    (let s : State := tJob (fun x => { x with freezeOut := [1, 2], awaiting := some tBound }); let t : Nat := 0; let jb : Nat := 0;
      let routine : Nat := 1; let x := tBound; let y := 2; let z := []; let b := atTime t s; ((job b jb).freezeOut.contains routine = true) ∧
      ((job b jb).awaiting = some x) ∧ ((job b jb).freezeOut.erase routine = y :: z)) :=
  by and_intros <;> decide +kernel

/-- States and operands that meet the hypotheses of Obligations.QuireStitchesComplete, clause by clause. -/
theorem wit_QuireStitchesComplete :
    (let s : State := tSeq 3 (BitVec.ofNat 128 (0x20 * 2 ^ 120 + (2 ^ 116 + 2 ^ 112))) (tJob id); let t : Nat := 0; let q : Nat := 3; let j : Nat := 0;
      let f : MmaFault := { bad := none, errs := [], cells := [], combine := [], waits := 0 }; let b := atTime t s; let w := stitchAt (seqOf b q);
      (issues b q 0x20 = true) ∧ (discards b q 0x20 = false) ∧ ((quire b q).job = some j) ∧
      (pairOk (fld w 119 116) (fld w 115 112) (fld w 111 108) = true) ∧ ((mmaRanges (quire b q) w).all (fun r => localOk r.1 r.2) = true) ∧ (f.bad = none)) ∧
    (let s : State := tSeq 3 (BitVec.ofNat 128 (0x21 * 2 ^ 120 + 0)) (tJob id); let t : Nat := 0; let q : Nat := 3; let j : Nat := 0;
      let b := atTime t s; let w := stitchAt (seqOf b q); (issues b q 0x21 = true) ∧ (discards b q 0x21 = false) ∧ ((quire b q).job = some j) ∧
      ((combRanges (quire b q) w).all (fun x => localOk x.1 x.2) = true)) ∧
    (let s : State := tSeq 3 (BitVec.ofNat 128 (0x22 * 2 ^ 120 + 0)) (tJob id); let t : Nat := 0; let q : Nat := 3; let j : Nat := 0;
      let b := atTime t s; let w := stitchAt (seqOf b q); (issues b q 0x22 = true) ∧ (discards b q 0x22 = false) ∧ ((quire b q).job = some j) ∧
      ((cvtRanges (quire b q) w).all (fun x => localOk x.1 x.2) = true)) ∧
    (let s : State := tSeq 3 (BitVec.ofNat 128 (0x30 * 2 ^ 120 + 0)) (tJob id); let t : Nat := 0; let q : Nat := 3; let j : Nat := 0;
      let b := atTime t s; let w := stitchAt (seqOf b q); let n := fld w 95 80 * 64; (issues b q 0x30 = true) ∧ (discards b q 0x30 = false) ∧
      ((quire b q).job = some j) ∧ ((quire b q).transfers.length < 8) ∧
      ((dmaRows (quire b q) w).all (fun r => localOk r.1 n && dmaOk b j false r.2 n) = true)) ∧
    (let s : State := tSeq 3 (BitVec.ofNat 128 (0x31 * 2 ^ 120 + 0)) (tJob id); let t : Nat := 0; let q : Nat := 3; let j : Nat := 0;
      let b := atTime t s; let w := stitchAt (seqOf b q); let n := fld w 95 80 * 64; (issues b q 0x31 = true) ∧ (discards b q 0x31 = false) ∧
      ((quire b q).job = some j) ∧ ((quire b q).transfers.length < 8) ∧
      ((dmaRows (quire b q) w).all (fun r => localOk r.1 n && dmaOk b j true r.2 n) = true)) ∧
    (let s : State := tSeq 3 (BitVec.ofNat 128 (0x32 * 2 ^ 120 + 0)) (tJob id); let t : Nat := 0; let q : Nat := 3; let j : Nat := 0;
      let b := atTime t s; let w := stitchAt (seqOf b q); let cnt := countOf b q (fld w 107 92) (nbit w.toNat 91) (fld w 90 87);
      let table := ea (quire b q) (fld w 115 112); (issues b q 0x32 = true) ∧ (discards b q 0x32 = false) ∧ ((quire b q).job = some j) ∧
      ((quire b q).transfers.length < 8) ∧ ((0 < cnt → dmaOk b j false (table : Int) (8 * cnt) = true))) ∧
    (let s : State := tSeq 3 (BitVec.ofNat 128 (0x33 * 2 ^ 120 + 0)) (tJob id); let t : Nat := 0; let q : Nat := 3; let j : Nat := 0;
      let b := atTime t s; let w := stitchAt (seqOf b q); let n := fld w 103 88; let m := ea (quire b q) (fld w 115 112); (issues b q 0x33 = true) ∧
      (discards b q 0x33 = false) ∧ ((quire b q).job = some j) ∧ ((putRanges (quire b q) w).all (fun x => localOk x.1 x.2) = true) ∧
      (dmaOk b j false (m : Int) (16 * n) = true) ∧ ((List.range n).any (fun p => mapBad b j (mapAt b m p)) = false)) ∧
    (let s : State := tSeq 3 (BitVec.ofNat 128 (0x34 * 2 ^ 120 + 0)) (tJob id); let t : Nat := 0; let q : Nat := 3; let j : Nat := 0;
      let b := atTime t s; let w := stitchAt (seqOf b q); let n := fld w 71 56; let m := ea (quire b q) (fld w 115 112); (issues b q 0x34 = true) ∧
      (discards b q 0x34 = false) ∧ ((quire b q).job = some j) ∧ ((feedRanges (quire b q) w).all (fun x => localOk x.1 x.2) = true) ∧
      (dmaOk b j false (m : Int) (16 * n) = true)) ∧
    (let s : State := modSeq (tSeq 3 (BitVec.ofNat 128 (0x30 * 2 ^ 120 + 0)) (tJob id)) 3 (fun q => { q with transfers := [{ moves := [{ src := 0xF00000000000, dst := 0xF00000000040, len := 64 }], event := 0, load := true, away := [], fault := { corrected := [], halt := none }, gather := none }] });
      let t : Nat := 0; let q : Nat := 3;
      let x : Transfer := { moves := [{ src := 0xF00000000000, dst := 0xF00000000040, len := 64 }], event := 0, load := true, away := [], fault := { corrected := [], halt := none }, gather := none };
      let r : List Transfer := []; let b := atTime t s; (quireWaits b q = false) ∧ ((quire b q).transfers = x :: r)) :=
  by and_intros <;> decide +kernel

/-- States and operands that meet the hypotheses of Obligations.SequencerStitchesComplete, clause by clause. -/
theorem wit_SequencerStitchesComplete :
    (let s : State := tSeq 144 (BitVec.ofNat 128 (0x5 * 2 ^ 120 + 0)) (tJob id); let t : Nat := 0; let c : Nat := 16; let b := atTime t s;
      (issues b (128 + c) 0x05 = true)) ∧
    (let s : State := tSeq 3 (BitVec.ofNat 128 (0x14 * 2 ^ 120 + 0)) (tJob id); let t : Nat := 0; let q : Nat := 3; let j : Nat := 0;
      let b := atTime t s; (issues b q 0x14 = true) ∧ ((quire b q).job = some j)) ∧
    (let s : State := tSeq 3 (BitVec.ofNat 128 (0x10 * 2 ^ 120 + 0)) (tJob id); let t : Nat := 0; let id : Nat := 3; let j : Nat := 0;
      let b := atTime t s; (issues b id 0x10 = true) ∧ ((seqOf b id).job = some j)) ∧
    (let s : State := modSeq (modJob (tSeq 3 (BitVec.ofNat 128 (0x10 * 2 ^ 120 + 0)) (tJob id)) 0 (fun x => { x with barriers := [(7, [3])] })) 3 (fun q => { q with waiting := .bar 7 1 });
      let t : Nat := 0; let jb : Nat := 0; let bar : Nat := 7; let b := atTime t s; let l := tget [] (job b jb).barriers bar;
      let n := barParties b (l.headD 0); (0 < n) ∧ (n ≤ l.length) ∧ ((l.take n).all (barReady b bar n) = true)) ∧
    (let s : State := tSeq 3 (BitVec.ofNat 128 (0x11 * 2 ^ 120 + 0)) (tJob (fun x => { x with quires := [0] })); let t : Nat := 0; let id : Nat := 3;
      let j : Nat := 0; let k : Nat := 0; let b := atTime t s; let w := stitchAt (seqOf b id); (issues b id 0x11 = true) ∧ ((seqOf b id).job = some j) ∧
      ((if nbit w.toNat 115 then (job b j).columns[fld w 114 105]?.map (· + 128) else (job b j).quires[fld w 114 105]?) = some k)) ∧
    (let s : State := tSeq 3 (BitVec.ofNat 128 (0x12 * 2 ^ 120 + 0)) (tJob id); let t : Nat := 0; let id : Nat := 3; let b := atTime t s;
      (issues b id 0x12 = true)) ∧
    (let s : State := modSeq (tSeq 3 (BitVec.ofNat 128 (0x12 * 2 ^ 120 + 0)) (tJob id)) 3 (fun q => { q with waiting := .sig 0 0 false });
      let t : Nat := 0; let id : Nat := 3; let e : Nat := 0; let v : Nat := 0; let clear : Bool := false; let b := atTime t s; let q := seqOf b id;
      (q.waiting = .sig e v clear) ∧ (q.running = true) ∧ (q.stopped = false) ∧ (q.frozen = false) ∧ (q.trap = none) ∧ (v ≤ q.events.getD e 0)) ∧
    (let s : State := tSeq 3 (BitVec.ofNat 128 (0x13 * 2 ^ 120 + 0)) (tJob id); let t : Nat := 0; let id : Nat := 3; let b := atTime t s;
      (issues b id 0x13 = true)) ∧
    (let s : State := modSeq (tSeq 3 (BitVec.ofNat 128 (0x13 * 2 ^ 120 + 0)) (tJob id)) 3 (fun q => { q with calls := [tCall] }); let t : Nat := 0;
      let id : Nat := 3; let k : Nat := 0; let j : Nat := 0; let c : CtlCall := tCall; let b := atTime t s; ((seqOf b id).calls[k]? = some c) ∧
      ((seqOf b id).job = some j)) ∧
    (let s : State := modSeq (tSeq 3 (BitVec.ofNat 128 (0x12 * 2 ^ 120 + 0)) (tJob id)) 3 (fun q => { q with waiting := .sig 0 1 false, waitSteps := 65536 });
      let t : Nat := 0; let id : Nat := 3; let b := atTime t s; let q := seqOf b id; (q.running = true) ∧ (q.waiting ≠ .none) ∧
      (getF b 0x3100 0x03 < q.waitSteps)) ∧
    (let s : State := tSeq 3 (BitVec.ofNat 128 (0x0 * 2 ^ 120 + 0)) (tJob id); let t : Nat := 0; let id : Nat := 3; let b := atTime t s;
      (issuing (seqOf b id) = true)) :=
  by and_intros <;> decide +kernel

/-- States and operands that meet the hypotheses of Obligations.SequencingStitchResults, clause by clause. -/
theorem wit_SequencingStitchResults :
    (let s : State := tSeq 3 (BitVec.ofNat 128 (0x0 * 2 ^ 120 + 0)) (tJob id); let t : Nat := 0; let id : Nat := 3; let b := atTime t s;
      (issues b id 0x00 = true)) ∧
    (let s : State := tSeq 3 (BitVec.ofNat 128 (0x1 * 2 ^ 120 + 0)) (tJob id); let t : Nat := 0; let id : Nat := 3; let b := atTime t s;
      let q := seqOf b id; let w := stitchAt q; let n := countOf b id (fld w 107 92) (nbit w.toNat 91) (fld w 90 87); (issues b id 0x01 = true) ∧ (n = 0)) ∧
    (let s : State := tSeq 3 (BitVec.ofNat 128 (0x1 * 2 ^ 120 + 2 ^ 92)) (tJob id); let t : Nat := 0; let id : Nat := 3; let b := atTime t s;
      let q := seqOf b id; let w := stitchAt q; let n := countOf b id (fld w 107 92) (nbit w.toNat 91) (fld w 90 87); (issues b id 0x01 = true) ∧ (n ≠ 0) ∧
      (q.loops.length < 4)) ∧
    (let s : State := modSeq (tSeq 3 (BitVec.ofNat 128 (0x1 * 2 ^ 120 + 2 ^ 92)) (tJob id)) 3 (fun q => { q with loops := [tLoop, tLoop, tLoop, tLoop] });
      let t : Nat := 0; let id : Nat := 3; let b := atTime t s; let q := seqOf b id; let w := stitchAt q;
      let n := countOf b id (fld w 107 92) (nbit w.toNat 91) (fld w 90 87); (issues b id 0x01 = true) ∧ (n ≠ 0) ∧ (4 ≤ q.loops.length)) ∧
    (let s : State := modSeq (tSeq 3 (BitVec.ofNat 128 (0x0 * 2 ^ 120 + 0)) (tJob id)) 3 (fun q => { q with loops := [{ tLoop with left := 2 }], sp := 1 });
      let t : Nat := 0; let id : Nat := 3; let l : LoopLevel := { tLoop with left := 2 }; let r : List LoopLevel := []; let b := atTime t s;
      let q := seqOf b id; (goesOn q = true) ∧ (q.loops = r ++ [l]) ∧ (q.sp = l.endAt + 1) ∧ (1 < l.left)) ∧
    (let s : State := modSeq (tSeq 3 (BitVec.ofNat 128 (0x0 * 2 ^ 120 + 0)) (tJob id)) 3 (fun q => { q with loops := [{ tLoop with left := 1 }], sp := 1 });
      let t : Nat := 0; let id : Nat := 3; let l : LoopLevel := { tLoop with left := 1 }; let r : List LoopLevel := []; let b := atTime t s;
      let q := seqOf b id; (goesOn q = true) ∧ (q.loops = r ++ [l]) ∧ (q.sp = l.endAt + 1) ∧ (l.left ≤ 1)) ∧
    (let s : State := tSeq 3 (BitVec.ofNat 128 (0x2 * 2 ^ 120 + 1 * 2 ^ 84)) (tJob id); let t : Nat := 0; let id : Nat := 3; let b := atTime t s;
      let q := seqOf b id; let w := stitchAt q; let v := (steerView b id).getD (fld w 119 116) 0; (issues b id 0x02 = true) ∧ (v < fld w 91 84)) ∧
    (let s : State := tSeq 3 (BitVec.ofNat 128 (0x2 * 2 ^ 120 + 0)) (tJob id); let t : Nat := 0; let id : Nat := 3; let b := atTime t s;
      let q := seqOf b id; let w := stitchAt q; let v := (steerView b id).getD (fld w 119 116) 0; (issues b id 0x02 = true) ∧ (fld w 91 84 ≤ v)) ∧
    (let s : State := tSeq 3 (BitVec.ofNat 128 (0x3 * 2 ^ 120 + 0)) (tJob id); let t : Nat := 0; let id : Nat := 3; let b := atTime t s;
      (issues b id 0x03 = true)) ∧
    (let s : State := tSeq 3 (BitVec.ofNat 128 (0x4 * 2 ^ 120 + 0)) (tJob id); let t : Nat := 0; let id : Nat := 3; let b := atTime t s;
      (issues b id 0x04 = true)) :=
  by and_intros <;> decide +kernel

/-- States and operands that meet the hypotheses of Obligations.GutterStitchesComplete, clause by clause. -/
theorem wit_GutterStitchesComplete :
    (let s : State := tSeq 144 (BitVec.ofNat 128 (0x80 * 2 ^ 120 + 0)) (tJob id); let t : Nat := 0; let c : Nat := 16; let j : Nat := 0;
      let b := atTime t s; let w := stitchAt (seqOf b (128 + c)); let m := colOffset b c (fld w 119 116); let sc := colOffset b c (fld w 115 112);
      let v := vecBytes (fld w 111 108) (fld w 94 86); (issues b (128 + c) 0x80 = true) ∧ (discards b (128 + c) 0x80 = false) ∧
      ((gutter b c).refreshPause = false) ∧ ((seqOf b (128 + c)).job = some j) ∧ (scratchOk (fld w 107 95) (32 * fld w 94 86) = true) ∧
      (fld w 111 108 ≠ 0xF) ∧ (gutterOk b j c m v.1 = true) ∧ ((0 < v.2 → gutterOk b j c sc v.2 = true))) ∧
    (let s : State := tSeq 144 (BitVec.ofNat 128 (0x81 * 2 ^ 120 + 0)) (tJob id); let t : Nat := 0; let c : Nat := 16; let j : Nat := 0;
      let b := atTime t s; let w := stitchAt (seqOf b (128 + c)); let m := colOffset b c (fld w 119 116); let sc := colOffset b c (fld w 115 112);
      let v := vecBytes (fld w 111 108) (fld w 94 86); (issues b (128 + c) 0x81 = true) ∧ (discards b (128 + c) 0x81 = false) ∧
      ((gutter b c).refreshPause = false) ∧ ((seqOf b (128 + c)).job = some j) ∧ (scratchOk (fld w 107 95) (32 * fld w 94 86) = true) ∧
      (fld w 111 108 ≠ 0xF) ∧ (gutterOk b j c m v.1 = true) ∧ ((0 < v.2 → gutterOk b j c sc v.2 = true))) ∧
    (let s : State := tSeq 128 (BitVec.ofNat 128 (0x82 * 2 ^ 120 + 2 ^ 86)) (setF (tJob id) 0x3400 0x03 64); let t : Nat := 0; let c : Nat := 0;
      let j : Nat := 0; let b := atTime t s; let w := stitchAt (seqOf b (128 + c)); let m := ea (gutter b c).seq (fld w 119 116) % 2 ^ 36;
      let sc := ea (gutter b c).seq (fld w 115 112) % 2 ^ 36; let v := vecBytes (fld w 111 108) (fld w 94 86); (issues b (128 + c) 0x82 = true) ∧
      (discards b (128 + c) 0x82 = false) ∧ ((gutter b c).refreshPause = false) ∧ ((seqOf b (128 + c)).job = some j) ∧
      (scratchOk (fld w 107 95) (32 * fld w 94 86) = true) ∧ (fld w 111 108 ≠ 0xF) ∧ (c % 16 = 0) ∧ (groupViewOk b c m v.1 = true) ∧
      ((0 < v.2 → groupViewOk b c sc v.2 = true)) ∧ (bundleFenced b c (viewPlaces m v.1 ++ viewPlaces sc v.2) = false)) ∧
    (let s : State := tSeq 144 (BitVec.ofNat 128 (0x88 * 2 ^ 120 + 0)) (tJob id); let t : Nat := 0; let c : Nat := 16; let j : Nat := 0;
      let b := atTime t s; let w := stitchAt (seqOf b (128 + c)); (issues b (128 + c) 0x88 = true) ∧ (discards b (128 + c) 0x88 = false) ∧
      ((gutter b c).refreshPause = false) ∧ ((seqOf b (128 + c)).job = some j) ∧ (fld w 119 116 < 0xE) ∧ (gvOpRanges w = true)) ∧
    (let s : State := tSeq 144 (BitVec.ofNat 128 (0x89 * 2 ^ 120 + 0)) (tJob id); let t : Nat := 0; let c : Nat := 16; let j : Nat := 0;
      let b := atTime t s; let w := stitchAt (seqOf b (128 + c)); (issues b (128 + c) 0x89 = true) ∧ (discards b (128 + c) 0x89 = false) ∧
      ((gutter b c).refreshPause = false) ∧ ((seqOf b (128 + c)).job = some j) ∧ (fld w 119 116 < 3) ∧ (gvRedRanges w = true)) ∧
    (let s : State := modSeq (tSeq 144 (BitVec.ofNat 128 (0xa0 * 2 ^ 120 + 0)) (setF (tJob id) 0x3400 0x02 64)) 144 (fun q => { q with aregs := q.aregs.set 0 ⟨0x3C00000, 0, 0, 0, 0⟩ });
      let t : Nat := 0; let c : Nat := 16; let j : Nat := 0; let b := atTime t s; let l : List Nat := (columnList (atTime 0 s) 16 0x3C00000 32).getD [];
      let w := stitchAt (seqOf b (128 + c)); (issues b (128 + c) 0xA0 = true) ∧ (discards b (128 + c) 0xA0 = false) ∧ ((gutter b c).refreshPause = false) ∧
      ((seqOf b (128 + c)).job = some j) ∧ (gutterOk b j c (colOffset b c (fld w 119 116)) 64 = true) ∧
      (columnList b c (colOffset b c (fld w 119 116)) 32 = some l)) ∧
    (let s : State := modSeq (tSeq 144 (BitVec.ofNat 128 (0xa1 * 2 ^ 120 + 0)) (setF (tJob id) 0x3400 0x02 64)) 144 (fun q => { q with aregs := q.aregs.set 0 ⟨0x3C00000, 0, 0, 0, 0⟩ });
      let t : Nat := 0; let c : Nat := 16; let j : Nat := 0; let b := atTime t s; let l : List Nat := (columnList (atTime 0 s) 16 0x3C00000 16).getD [];
      let w := stitchAt (seqOf b (128 + c)); (issues b (128 + c) 0xA1 = true) ∧ (discards b (128 + c) 0xA1 = false) ∧ ((gutter b c).refreshPause = false) ∧
      ((seqOf b (128 + c)).job = some j) ∧ (c % 16 = 0) ∧ (fld w 115 112 ≤ 3) ∧ (gutterOk b j c (colOffset b c (fld w 119 116)) 64 = true) ∧
      (columnList b c (colOffset b c (fld w 119 116)) 16 = some l)) :=
  by and_intros <;> decide +kernel

/-- States and operands that meet the hypotheses of Obligations.ColumnEventsComplete, clause by clause. -/
theorem wit_ColumnEventsComplete :
    (let s : State := modGutter (tSeq 144 (BitVec.ofNat 128 (0x80 * 2 ^ 120 + 0)) (tJob id)) 16 (fun g => { g with repeats := 1 }); let t : Nat := 0;
      let c : Nat := 16; let b := atTime t s; ((gutter b c).repeats ≠ 0)) ∧
    (let s : State := modGutter (tSeq 144 (BitVec.ofNat 128 (0x80 * 2 ^ 120 + 0)) (tJob id)) 16 (fun g => { g with repeats := 1 }); let t : Nat := 0;
      let c : Nat := 16; let j : Nat := 0; let b := atTime t s; ((gutter b c).repeats ≠ 0) ∧ ((gutter b c).seq.job = some j)) ∧
    (let s : State := tSeq 144 (BitVec.ofNat 128 (0x80 * 2 ^ 120 + 0)) (tJob id); let c : Nat := 16; let slot : Bool := true;
      (ownsPort s c = false ∨ slot = true)) ∧
    (let s : State := tSeq 144 (BitVec.ofNat 128 (0x80 * 2 ^ 120 + 0)) (tJob id); let c : Nat := 16; let slot : Bool := false; (ownsPort s c = true) ∧
      (slot = false)) ∧
    (let s : State := tSeq 144 (BitVec.ofNat 128 (0x80 * 2 ^ 120 + 0)) (tJob id); let c : Nat := 16; (ownsPort s c = true) ∧
      ((gutter s c).refreshPause = false)) ∧
    (let s : State := tSeq 3 (BitVec.ofNat 128 (0x30 * 2 ^ 120 + 0)) (tJob (fun x => { x with columns := (List.range 16) })); let t : Nat := 0;
      let index : Nat := 3; let jb : Nat := 0; let addr : Nat := 0x180000000000; let data : List Byte := [1]; let b := atTime t s;
      (inBroadcast addr = true) ∧ (data ≠ []) ∧ ((addr - 0x180000000000) % 0x400000 + data.length ≤ 0x400000) ∧ (bundleOf b jb addr = true) ∧
      ((quire b index).job = some jb)) :=
  by and_intros <;> decide +kernel

/-- States and operands that meet the hypotheses of Obligations.InterleaveFormulas, clause by clause. -/
theorem wit_InterleaveFormulas :
    (let ci : Nat := 256; let a : Nat := 100000; (ci % 256 = 0) ∧ (0 < ci) ∧ (a < 1024 * ci)) ∧
    (let ci : Nat := 256; let c : Nat := 600; let o : Nat := 200; (ci % 256 = 0) ∧ (c < 1024) ∧ (o < ci)) ∧
    (let ci : Nat := 256; let a : Nat := 4096; let k : Nat := 4095; (a % 4096 = 0) ∧ (k < 4096) ∧ (ci % 256 = 0) ∧ (0 < ci)) ∧
    (let ci : Nat := 1024; let a : Nat := 0; (a % (512 * ci) + 131072 < 512 * ci)) :=
  by and_intros <;> decide +kernel

/-- States and operands that meet the hypotheses of Obligations.SpanMessagesComplete, clause by clause. -/
theorem wit_SpanMessagesComplete :
    (let s : State := tRun; let t : Nat := 0;
      let h : BitVec 512 := 0x20000000000000000000000000000000000000000000000000000020000000000000000040000000000000000000000000000000000000000000000000000000#512;
      let payload : List Byte := [2, 16]; let b := atTime t s;
      let l := (List.range (payload.length / 2)).map (fun k => ofBytesLE ((payload.drop (2 * k)).take 2)); (deadSource b (fld h 503 488) = false) ∧
      (fld h 511 504 = 0x20) ∧ (fld h 293 293 ≠ 0) ∧ (fld h 252 221 = payload.length) ∧ (payload.length % 2 = 0) ∧ (l ≠ []) ∧ (l.length < 16) ∧
      (l.contains (ownEndpoint b) = false)) ∧
    (let s : State := tSpan; let t : Nat := 0;
      let h : BitVec 512 := 0x21000000000000000000000000000000000000000000000000000000000000000000000000000000000000000000000000000000000000000000000000000000#512;
      let payload : List Byte := []; let bs : List Byte := []; let u : State := atTime 0 (tSpan); let b := atTime t s; let p := headerPass h;
      let n := rowLengths (imageOf b p.job) h; (deadSource b (fld h 503 488) = false) ∧ (spanOk b h 0x21 = true) ∧ (fld h 252 221 = n.1 + n.2) ∧
      (p.owner ≠ ownEndpoint b) ∧ (overtaken b p = false) ∧ (openSpan b p.job (n.1 + n.2) payload = (u, some bs))) ∧
    (let s : State := tPass (headerPass (0x22000000000000000000000000000000000000000000000000000000000000000000000000000000000000000000000000000000000000000000000000000000#512));
      let t : Nat := 0;
      let h : BitVec 512 := 0x22000000000000000000000000000000000000000000000000000000000000000000000000000000000000000000000000000000000000000000000000000000#512;
      let payload : List Byte := []; let bs : List Byte := [];
      let q : SpanPass := headerPass (0x22000000000000000000000000000000000000000000000000000000000000000000000000000000000000000000000000000000000000000000000000000000#512);
      let u : State := atTime 0 (tPass (headerPass (0x22000000000000000000000000000000000000000000000000000000000000000000000000000000000000000000000000000000000000000000000000000000#512)));
      let b := atTime t s; let p := headerPass h; let i := imageOf b p.job; let rows := p.qpos * i.qHeads; (deadSource b (fld h 503 488) = false) ∧
      (spanOk b h 0x22 = true) ∧ (fld h 252 221 = rows * (64 + 4 * i.headDim)) ∧ (findPass b p = some q) ∧
      (openSpan b p.job (rows * (64 + 4 * i.headDim)) payload = (u, some bs))) ∧
    (let s : State := tPass (headerPass (0x23000010010000000000000000000000000000000000000000000000000000000000000000000000000000000000000000000000000000000000000000000000#512));
      let t : Nat := 0;
      let h : BitVec 512 := 0x23000010010000000000000000000000000000000000000000000000000000000000000000000000000000000000000000000000000000000000000000000000#512;
      let payload : List Byte := []; let bs : List Byte := [];
      let q : SpanPass := headerPass (0x23000010010000000000000000000000000000000000000000000000000000000000000000000000000000000000000000000000000000000000000000000000#512);
      let u : State := atTime 0 (tPass (headerPass (0x23000010010000000000000000000000000000000000000000000000000000000000000000000000000000000000000000000000000000000000000000000000#512)));
      let b := atTime t s; let p := headerPass h; (deadSource b (fld h 503 488) = false) ∧ (spanOk b h 0x23 = true) ∧ (findPass b p = some q) ∧
      (q.owner = ownEndpoint b) ∧ (openSpan b p.job (fld h 252 221) payload = (u, some bs))) ∧
    (let s : State := tSpan; let t : Nat := 0;
      let h : BitVec 512 := 0x24000000000000000000000000000000000000000000000000000000000000000000000000000000000000000000000000000000000000000000000000000000#512;
      let b := atTime t s; let p := headerPass h; (deadSource b (fld h 503 488) = false) ∧ (spanOk b h 0x24 = true) ∧ (p.owner ≠ ownEndpoint b) ∧
      (overtaken b p = false)) ∧
    (let s : State := tPass ({ (headerPass (0x25100210010000000000000000000000000000000000000000000000000000000000000000000000000000000000000000000000000000000000000000000000#512)) with awaits := [0x1002] });
      let t : Nat := 0;
      let h : BitVec 512 := 0x25100210010000000000000000000000000000000000000000000000000000000000000000000000000000000000000000000000000000000000000000000000#512;
      let payload : List Byte := []; let bs : List Byte := [];
      let q : SpanPass := { (headerPass (0x25100210010000000000000000000000000000000000000000000000000000000000000000000000000000000000000000000000000000000000000000000000#512)) with awaits := [0x1002] };
      let u : State := atTime 0 (tPass ({ (headerPass (0x25100210010000000000000000000000000000000000000000000000000000000000000000000000000000000000000000000000000000000000000000000000#512)) with awaits := [0x1002] }));
      let b := atTime t s; let p := headerPass h; let i := imageOf b p.job;
      let l := blockLeaves b { q with spanHi := p.spanHi } (fld h 391 376) (fld h 503 488); (deadSource b (fld h 503 488) = false) ∧
      (spanOk b h 0x25 = true) ∧ (findPass b p = some q) ∧ (p.owner = ownEndpoint b) ∧ (q.awaits.contains (fld h 503 488) = true) ∧
      (fld h 252 221 = l.length * (payloadBytes i + scaleBytesOf i)) ∧ (openSpan b p.job (fld h 252 221) payload = (u, some bs))) ∧
    (let s : State := tSpan; let t : Nat := 0;
      let h : BitVec 512 := 0x26000000000000000000000000000000000000000000000000000000000000000000000000000000000000000000000000000000000000000000000000000000#512;
      let payload : List Byte := []; let bs : List Byte := [];
      let x : Shard := { job := 0, owner := 0, sig := 0, epoch := 0, anchor := 0, groups := [], kvLen := 0, waiting := [] };
      let u : State := atTime 0 (tSpan); let b := atTime t s; let p := headerPass h; let i := imageOf b p.job; let n := (rowLengths i h).2;
      let v := openShard u p.job p.owner p.sig p.epoch p.anchor; (deadSource b (fld h 503 488) = false) ∧ (spanOk b h 0x26 = true) ∧ (fld h 252 221 = n) ∧
      (p.owner ≠ ownEndpoint b) ∧ (overtaken b p = false) ∧ (openSpan b p.job n payload = (u, some bs)) ∧ (shardOf v p.job p.owner p.sig p.epoch = some x)) ∧
    (let s : State := tRun; let t : Nat := 0; let member : Nat := 2; let h : BitVec 512 := 0; let b := atTime t s;
      (deadSource b (fld h 503 488) = false) ∧ (member ≠ ownEndpoint b)) ∧
    (let s : State := tSpan; let t : Nat := 0;
      let h : BitVec 512 := 0x27000000000000000000000000000000000000000000000000000000000000000000000000000000000000000000000000000000000000000000000000000000#512;
      let payload : List Byte := []; let bs : List Byte := []; let u : State := atTime 0 (tSpan); let b := atTime t s; let j := fld h 421 416;
      (deadSource b (fld h 503 488) = false) ∧ (openSpan b j (fld h 252 221) payload = (u, some bs)) ∧ (attendCode u h (some bs) = none)) ∧
    (let s : State := tPass ({ (headerPass (0x28000000000000000000000000000000000000000000000000000000000000000000000000000000000000000000000000000000000000000000000000000000#512)) with asks := [{ host := 0, hi := 0, lo := 0, sentNs := 0, retryDue := false, retried := false, late := false }] });
      let t : Nat := 0;
      let h : BitVec 512 := 0x28000000000000000000000000000000000000000000000000000000000000000000000000000000000000000000000000000000000000000000000000000000#512;
      let payload : List Byte := []; let bs : List Byte := [];
      let p : SpanPass := { (headerPass (0x28000000000000000000000000000000000000000000000000000000000000000000000000000000000000000000000000000000000000000000000000000000#512)) with asks := [{ host := 0, hi := 0, lo := 0, sentNs := 0, retryDue := false, retried := false, late := false }] };
      let a : HostAsk := { host := 0, hi := 0, lo := 0, sentNs := 0, retryDue := false, retried := false, late := false };
      let u : State := atTime 0 (tPass ({ (headerPass (0x28000000000000000000000000000000000000000000000000000000000000000000000000000000000000000000000000000000000000000000000000000000#512)) with asks := [{ host := 0, hi := 0, lo := 0, sentNs := 0, retryDue := false, retried := false, late := false }] }));
      let b := atTime t s; let i := imageOf b p.job; let n := p.qpos * i.qHeads; let k := a.hi + 1 - a.lo; (deadSource b (fld h 503 488) = false) ∧
      (fld h 511 504 = 0x28) ∧ (fld h 423 422 = 0) ∧ (fld h 220 0 = 0) ∧ (askedPass b h = some (p, a)) ∧ (fld h 252 221 = k * n * (64 + 4 * i.headDim)) ∧
      (openSpan b p.job (fld h 252 221) payload = (u, some bs)) ∧ (a.late = false) ∧ (a.retried = false)) ∧
    (let s : State := tPass ({ (headerPass (0x29000000000000000000000000000000000000000000000000000000000000000000000000000000000000000000000000000000000000000000000000000000#512)) with asks := [{ host := 0, hi := 0, lo := 0, sentNs := 0, retryDue := false, retried := false, late := false }] });
      let t : Nat := 0;
      let h : BitVec 512 := 0x29000000000000000000000000000000000000000000000000000000800000000000000000000000000000000000000000000000000000000000000000000000#512;
      let p : SpanPass := { (headerPass (0x29000000000000000000000000000000000000000000000000000000000000000000000000000000000000000000000000000000000000000000000000000000#512)) with asks := [{ host := 0, hi := 0, lo := 0, sentNs := 0, retryDue := false, retried := false, late := false }] };
      let a : HostAsk := { host := 0, hi := 0, lo := 0, sentNs := 0, retryDue := false, retried := false, late := false }; let b := atTime t s;
      (deadSource b (fld h 503 488) = false) ∧ (fld h 511 504 = 0x29) ∧ (fld h 423 422 = 0) ∧ (fld h 220 0 = 0) ∧ (askedPass b h = some (p, a)) ∧
      (fld h 292 285 = 4) ∧ (a.retried = false)) ∧
    (let s : State := tPass ({ (headerPass (0x29000000000000000000000000000000000000000000000000000000000000000000000000000000000000000000000000000000000000000000000000000000#512)) with asks := [{ host := 0, hi := 0, lo := 0, sentNs := 0, retryDue := false, retried := true, late := false }] });
      let t : Nat := 0;
      let h : BitVec 512 := 0x29000000000000000000000000000000000000000000000000000000000000000000000000000000000000000000000000000000000000000000000000000000#512;
      let p : SpanPass := { (headerPass (0x29000000000000000000000000000000000000000000000000000000000000000000000000000000000000000000000000000000000000000000000000000000#512)) with asks := [{ host := 0, hi := 0, lo := 0, sentNs := 0, retryDue := false, retried := true, late := false }] };
      let a : HostAsk := { host := 0, hi := 0, lo := 0, sentNs := 0, retryDue := false, retried := true, late := false }; let b := atTime t s;
      (deadSource b (fld h 503 488) = false) ∧ (fld h 511 504 = 0x29) ∧ (fld h 423 422 = 0) ∧ (fld h 220 0 = 0) ∧ (askedPass b h = some (p, a)) ∧
      (fld h 292 285 ≠ 4 ∨ a.retried = true)) :=
  by and_intros <;> decide +kernel

/-- States and operands that meet the hypotheses of Obligations.HandoffCommandsComplete, clause by clause; handoff_leaf show the others. -/
theorem wit_HandoffCommandsComplete :
    (let s : State := tRun; let t : Nat := 0;
      let h : BitVec 1024 := 0x1000000000000000000000000000000000000000000000000000000000000000000000000000000000000000000000000000000000000000000000000000000000000000000000000000000000000000000000000000000000000000000000000000000000000000000000000000000000000000000000000000000000000000#1024;
      let b := atTime t s; (fld h 1023 1016 = 0x10) ∧ (deadSource b (fld h 1015 1000) = false) ∧ (fld h 817 816 = 0) ∧ (fld h 584 576 = 0) ∧
      (fld h 415 0 = 0)) ∧
    (let s : State := tGive .handoffOut; let t : Nat := 0; let n : Nat := 5;
      let h : BitVec 1024 := 0x11000000000000000000000000000000000000000000000000000000000000000000000000000000000000000000000000000000000000000000000000000000#1024;
      let b := atTime t s; (GoodShort b h 0x11) ∧ (offered b h = some n)) ∧
    (let s : State := tGive .handoffOut; let t : Nat := 0; let n : Nat := 5;
      let h : BitVec 1024 := 0x17000000000000000000000000000000000000000000000000000000000000000000000000000000000000000000000000000000000000000000000000000000#1024;
      let b := atTime t s; (GoodShort b h 0x17) ∧ (offered b h = some n)) ∧
    (let s : State := modA (tGive .handoffOut) 5 (fun a => { a with holder := true }); let t : Nat := 0; let n : Nat := 5;
      let h : BitVec 1024 := 0x13000000000000000000000000000000000000000000000000000000000000000000000000000000000000000000000000000000000000000000000000000000#1024;
      let b := atTime t s; let j := (sigE b n).job.toNat; let u := incF (dropRecord b n) 0x2061 j; (GoodShort b h 0x13) ∧ (shortEntry b h = some n) ∧
      (offered b h = some n) ∧ ((sigA u n).holder = true) ∧ ((sigA b n).handoffKind ≠ 2)) ∧
    (let s : State := modA (tGive .handoffOut) 5 (fun a => { a with handoffKind := 2 }); let t : Nat := 0; let n : Nat := 5;
      let h : BitVec 1024 := 0x13000000000000000000000000000000000000000000000000000000000000000000000000000000000000000000000000000000000000000000000000000000#1024;
      let b := atTime t s; (GoodShort b h 0x13) ∧ (shortEntry b h = some n) ∧ (offered b h = some n) ∧ ((sigA b n).handoffKind = 2)) ∧
    (let s : State := tGive .handoffOut; let t : Nat := 0; let n : Nat := 5;
      let h : BitVec 1024 := 0x13000000000000000000000000000000000000000000000000000000000000000000000000000000000000000000000000000000000000000000000000000000#1024;
      let b := atTime t s; let j := (sigE b n).job.toNat; let u := incF (dropRecord b n) 0x2061 j; (GoodShort b h 0x13) ∧ (shortEntry b h = some n) ∧
      (offered b h = some n) ∧ ((sigA u n).holder = false) ∧ ((sigA b n).handoffKind ≠ 2)) ∧
    (let s : State := modA (tSig .decoding) 5 (fun a => { a with confirmWaiting := true }); let t : Nat := 0; let sig : Nat := 5; let b := atTime t s;
      ((sigA b sig).confirmWaiting = true)) ∧
    (let s : State := { (modA (tSig .handoffIn) 5 (fun a => { a with confirmWaiting := true })) with handoff := { records := [], incoming := [tIn] } };
      let t : Nat := 0; let sig : Nat := 5; let r : HandoffIn := tIn; let b := atTime t s; ((sigA b sig).confirmWaiting = true) ∧
      (incomingOf b sig = some r)) ∧
    (let s : State := tGive .handoffOut; let t : Nat := 100; let sig : Nat := 5;
      let r : ReleaseRecord := { leaseEndNs := 100, ownerEpoch := 0, sig := 5, peer := 0x1002, fromGroup := none, lastGroup := 0, groupsSent := 0, kind := 0, accepted := true };
      let b := atTime t s; (recordOf b sig = some r) ∧ (r.leaseEndNs ≤ b.now) ∧ (confirmQueued b sig = false)) ∧
    (let s : State := tGive .handoffOut; let t : Nat := 0; let sig : Nat := 5;
      let r : ReleaseRecord := { leaseEndNs := 100, ownerEpoch := 0, sig := 5, peer := 0x1002, fromGroup := none, lastGroup := 0, groupsSent := 0, kind := 0, accepted := true };
      let b := atTime t s; (recordOf b sig = some r) ∧ (b.now < r.leaseEndNs ∨ confirmQueued b sig = true)) ∧
    (let s : State := tSig .decoding; let t : Nat := 0; let n : Nat := 5;
      let h : BitVec 1024 := 0x14000000000000000000010000000000000000000000000000000000000000000000000000000000000000000000000000000000000000000000000000000000#1024;
      let b := atTime t s; (GoodShort b h 0x14) ∧ (shortEntry b h = some n) ∧ ((sigE b n).ownerEpoch.toNat < fld h 455 424)) ∧
    (let s : State := tSig .decoding; let t : Nat := 0; let n : Nat := 5;
      let h : BitVec 1024 := 0x14000000000000000000000000000000000000000000000000000000000000000000000000000000000000000000000000000000000000000000000000000000#1024;
      let b := atTime t s; (GoodShort b h 0x14) ∧ (shortEntry b h = some n) ∧ (fld h 455 424 ≤ (sigE b n).ownerEpoch.toNat)) ∧
    (let s : State := tSig .away; let t : Nat := 0; let sig : Nat := 5; let b := atTime t s; ((sigE b sig).state = .away) ∧
      ((sigA b sig).probeAtNs ≤ b.now)) ∧
    (let s : State := tSig .away; let t : Nat := 0; let n : Nat := 5;
      let h : BitVec 1024 := 0x15000000000000000000000000000000000000000000000000000000000000000000000000000000000000000000000000000000000000000000000000000000#1024;
      let b := atTime t s; (GoodShort b h 0x15) ∧ (shortEntry b h = some n)) ∧
    (let s : State := tSig .away; let t : Nat := 0; let n : Nat := 5;
      let h : BitVec 1024 := 0x16000000000000000000000000000000000000000000000000000000000000000000000000000000000000000000000000000000000000000000000000000000#1024;
      let b := atTime t s; (GoodShort b h 0x16) ∧ (shortEntry b h = some n) ∧ ((sigE b n).state = .away) ∧ (fld h 417 414 = 0)) ∧
    (let s : State := tSig .handoffIn; let t : Nat := 0; let n : Nat := 5;
      let h : BitVec 1024 := 0x16000000000000000000000000000000000000000000000000000000000000000000000000000000000000000000000000000000000000000000000000000000#1024;
      let b := atTime t s; (GoodShort b h 0x16) ∧ (shortEntry b h = some n) ∧ ((sigE b n).state = .handoffIn) ∧ (fld h 417 414 = 0)) :=
  by and_intros <;> decide +kernel

/-- States and operands that meet the hypotheses of Obligations.DeadSourceMessagesDropped, clause by clause. -/
theorem wit_DeadSourceMessagesDropped :
    (let s : State := { tRun with kettle := { tRun.kettle with discard := [(0, 0)] } }; let t : Nat := 0; let src : Nat := 0; let b := atTime t s;
      (deadSource b src = true)) ∧
    (let s : State := { tRun with kettle := { tRun.kettle with discard := [(0, 0)] } }; let t : Nat := 0;
      let m : BitVec 256 := 0x200000000000000000000000000000000000000000000000000000000000000#256; let b := atTime t s;
      (deadSource b (fld m 207 192) = true) ∧ (fld m 255 248 = 2)) ∧
    (let s : State := { tRun with kettle := { tRun.kettle with discard := [(0, 0)] } }; let t : Nat := 0;
      let m : BitVec 256 := 0x300000000000000000000000000000000000000000000000000000000000000#256; let b := atTime t s;
      (deadSource b (fld m 207 192) = true) ∧ (fld m 255 248 = 3)) ∧
    (let s : State := { tRun with kettle := { tRun.kettle with discard := [(0, 0)] } }; let t : Nat := 0;
      let m : BitVec 256 := 0x400000000000000000000000000000000000000000000000000000000000000#256; let b := atTime t s;
      (deadSource b (fld m 207 192) = true) ∧ (fld m 255 248 = 4)) ∧
    (let s : State := { tRun with kettle := { tRun.kettle with discard := [(0, 0)] } }; let t : Nat := 0; let h : BitVec 512 := 0; let b := atTime t s;
      (deadSource b (fld h 503 488) = true)) ∧
    (let s : State := { tRun with kettle := { tRun.kettle with discard := [(0, 0)] } }; let t : Nat := 0;
      let h : BitVec 1024 := 0x11000000000000000000000000000000000000000000000000000000000000000000000000000000000000000000000000000000000000000000000000000000#1024;
      let b := atTime t s; (deadSource b (fld h 503 488) = true) ∧ (fld h 511 504 = 0x11)) ∧
    (let s : State := { tRun with kettle := { tRun.kettle with discard := [(0, 0)] } }; let t : Nat := 0;
      let h : BitVec 1024 := 0x12000000000000000000000000000000000000000000000000000000000000000000000000000000000000000000000000000000000000000000000000000000#1024;
      let b := atTime t s; (deadSource b (fld h 503 488) = true) ∧ (fld h 511 504 = 0x12)) ∧
    (let s : State := { tRun with kettle := { tRun.kettle with discard := [(0, 0)] } }; let t : Nat := 0;
      let h : BitVec 1024 := 0x13000000000000000000000000000000000000000000000000000000000000000000000000000000000000000000000000000000000000000000000000000000#1024;
      let b := atTime t s; (deadSource b (fld h 503 488) = true) ∧ (fld h 511 504 = 0x13)) ∧
    (let s : State := { tRun with kettle := { tRun.kettle with discard := [(0, 0)] } }; let t : Nat := 0;
      let h : BitVec 1024 := 0x14000000000000000000000000000000000000000000000000000000000000000000000000000000000000000000000000000000000000000000000000000000#1024;
      let b := atTime t s; (deadSource b (fld h 503 488) = true) ∧ (fld h 511 504 = 0x14)) ∧
    (let s : State := { tRun with kettle := { tRun.kettle with discard := [(0, 0)] } }; let t : Nat := 0;
      let h : BitVec 1024 := 0x15000000000000000000000000000000000000000000000000000000000000000000000000000000000000000000000000000000000000000000000000000000#1024;
      let b := atTime t s; (deadSource b (fld h 503 488) = true) ∧ (fld h 511 504 = 0x15)) ∧
    (let s : State := { tRun with kettle := { tRun.kettle with discard := [(0, 0)] } }; let t : Nat := 0;
      let h : BitVec 1024 := 0x16000000000000000000000000000000000000000000000000000000000000000000000000000000000000000000000000000000000000000000000000000000#1024;
      let b := atTime t s; (deadSource b (fld h 503 488) = true) ∧ (fld h 511 504 = 0x16)) ∧
    (let s : State := { tRun with kettle := { tRun.kettle with discard := [(0, 0)] } }; let t : Nat := 0;
      let h : BitVec 1024 := 0x17000000000000000000000000000000000000000000000000000000000000000000000000000000000000000000000000000000000000000000000000000000#1024;
      let b := atTime t s; (deadSource b (fld h 503 488) = true) ∧ (fld h 511 504 = 0x17)) :=
  by and_intros <;> decide +kernel

/-- States and operands that meet the hypotheses of Obligations.TierCommandsComplete, clause by clause. -/
theorem wit_TierCommandsComplete :
    (let s : State := { tRun with tier := { tRun.tier with moves := [tMove] } }; let t : Nat := 0; let jb : Nat := 0; let group : Nat := 3;
      let m : TierMove := tMove; let b := atTime t s; (b.tier.ending.any (fun e => decide (e.job = jb) && decide (e.group = group)) = false) ∧
      (moveOf b jb group = some m) ∧ (m.started = true)) ∧
    (let s : State := { tRun with tier := { tRun.tier with ending := [⟨0, 3, 0, []⟩] } }; let t : Nat := 0; let jb : Nat := 0; let group : Nat := 3;
      let b := atTime t s; (b.tier.ending.any (fun e => decide (e.job = jb) && decide (e.group = group)) = true)) ∧
    (let s : State := tRun; let t : Nat := 0; let b := atTime t s; (roleActive b ≠ 0xFF)) ∧
    (let s : State := tRun; let t : Nat := 0;
      let h : BitVec 512 := 0x31000000000000000000000000000000000000000000000000000000000000000000000000000000000000000000000000000000000000000000000000000000#512;
      let b := atTime t s; let src := fld h 503 488; (deadSource b src = false) ∧ (loanOk h 0x31 = true) ∧ (fld h 469 453 = 0)) ∧
    (let s : State := tRun; let t : Nat := 0;
      let h : BitVec 512 := 0x31200200000002000000000000000000000000000000000000000000000000000000000000000000000000000000000000000000000000000000000000000000#512;
      let b := atTime t s; let src := fld h 503 488; (deadSource b src = false) ∧ (loanOk h 0x31 = true) ∧ (fld h 469 453 ≠ 0) ∧
      (volumeOf src ≠ volumeOf (ownEndpoint b))) ∧
    (let s : State := tRun; let t : Nat := 0;
      let h : BitVec 512 := 0x31100200000002000000000000000000000000000000000000000000000000000000000000000000000000000000000000000000000000000000000000000000#512;
      let b := atTime t s; let src := fld h 503 488; (deadSource b src = false) ∧ (loanOk h 0x31 = true) ∧ (fld h 469 453 ≠ 0) ∧
      (volumeOf src = volumeOf (ownEndpoint b))) ∧
    (let s : State := { tRun with tier := { tRun.tier with asked := [{ lender := 0x1002, kind := 0, bestEffort := false, sentNs := 0 }] } };
      let t : Nat := 0; let k : Nat := 0;
      let h : BitVec 512 := 0x32100200000002000000000000000000000000000000000000000000000000000000000000000000000000000000000000000000000000000000000000000000#512;
      let a : LoanAsked := { lender := 0x1002, kind := 0, bestEffort := false, sentNs := 0 }; let b := atTime t s;
      (deadSource b (fld h 503 488) = false) ∧ (loanOk h 0x32 = true) ∧
      (b.tier.asked.find? (fun a => decide (a.lender = fld h 503 488) && decide (a.kind = fld h 471 470)) = some a) ∧
      (firstFrom (fun k => (tfind b.tier.loans k).isNone) 64 0 = some k) ∧ (1 ≤ fld h 469 453) ∧ (fld h 469 453 ≤ 1024)) ∧
    (let s : State := tRun; let t : Nat := 0;
      let h : BitVec 512 := 0x33000000000000000000000000000000000000000000000000000000000000000000000000000000000000000000000000000000000000000000000000000000#512;
      let b := atTime t s; (deadSource b (fld h 503 488) = false) ∧ (loanOk h 0x33 = true)) ∧
    (let s : State := { tRun with tier := { tRun.tier with lent := [{ loanId := 0, borrower := 0x1002, kind := 0, sizeGib := 16, base := 0, recallSent := false }] } };
      let t : Nat := 0;
      let h : BitVec 512 := 0x34100200000000000000000000000000000000000000000000000000000000000000000000000000000000000000000000000000000000000000000000000000#512;
      let r : LentRange := { loanId := 0, borrower := 0x1002, kind := 0, sizeGib := 16, base := 0, recallSent := false }; let b := atTime t s;
      (deadSource b (fld h 503 488) = false) ∧ (loanOk h 0x34 = true) ∧
      (b.tier.lent.find? (fun r => decide (r.loanId = fld h 487 472) && decide (r.borrower = fld h 503 488)) = some r)) :=
  by and_intros <;> decide +kernel

/-- States and operands that meet the hypotheses of Obligations.AdvertsRemembered, clause by clause. -/
theorem wit_AdvertsRemembered :
    (let s : State := tRun;
      let h : BitVec 512 := 0x30000000000000000000000000000000000000000000000000000000000000000000000000000000000000000000000000000000000000000000000000000000#512;
      (deadSource s (fld h 503 488) = false) ∧ (loanOk h 0x30 = true)) :=
  by decide +kernel

/-- States and operands that meet the hypotheses of Obligations.Lpddr6Upkeep, clause by clause. -/
theorem wit_Lpddr6Upkeep :
    (let s : State := { tRun with tier := { tRun.tier with channels := [(2, tLp)] } }; let ch : Nat := 2; let c : LpChannel := tLp;
      (lpChannel s ch = some c)) ∧
    (let s : State := { tRun with tier := { tRun.tier with channels := [(2, tLp)] } }; let t : Nat := 200000000; let ch : Nat := 2;
      let c : LpChannel := tLp; (lpChannel s ch = some c) ∧ (c.retrainedNs + 100000000 ≤ max s.now t)) ∧
    (let s : State := { tRun with tier := { tRun.tier with channels := [(2, tLp)] } }; let t : Nat := 0; let ch : Nat := 2; let c : LpChannel := tLp;
      let b := atTime t s; (lpChannel b ch = some c)) :=
  by and_intros <;> decide +kernel

/-- States and operands that meet the hypotheses of Obligations.FlashCommandsComplete, clause by clause; flash_full show the others. -/
theorem wit_FlashCommandsComplete :
    (let s : State := tFlash; let t : Nat := 0; let page : Nat := 0; let b := atTime t s; (flashTakes b = true) ∧ (page < flashPages b)) ∧
    (let s : State := tRun; let t : Nat := 0; let page : Nat := 0; let b := atTime t s; (flashTakes b = false ∨ flashPages b ≤ page)) ∧
    (let s : State := { tFlash with flash := { tFlash.flash with dirty := [tWrite] } }; let t : Nat := 0; let ch : Nat := 0;
      let w : FlashWrite := tWrite; let b := atTime t s; (nextProgram b.flash ch = some w)) ∧
    (let s : State := { tFlash with flash := setFlashUnit tFlash.flash 0 1 { EraseUnit.zero with use := .closed } }; let t : Nat := 0; let ch : Nat := 0;
      let k : Nat := 1; let read : ReclaimRead := ⟨[], []⟩; let b := atTime t s;
      let r : State := { b with flash := { b.flash with reclaiming := if b.flash.reclaiming.contains ch then b.flash.reclaiming else ch :: b.flash.reclaiming } };
      let u := (unitPages r.flash ch k).foldl (reclaimPage ch read) r; ((flashState b = 2 ∨ flashState b = 3 ∨ flashState b = 4)) ∧
      (reclaimWanted b ch = true) ∧ (b.flash.flushing = false) ∧ (chooseReclaim r ch = some k) ∧ (unitPages u.flash ch k = [])) ∧
    (let s : State := { tFlash with flash := setFlashUnit tFlash.flash 0 1 { EraseUnit.zero with use := .erasing } }; let t : Nat := 0;
      let ch : Nat := 0; let k : Nat := 1; let b := atTime t s; let e := flashUnit b.flash ch k; (e.use = .erasing)) ∧
    (let s : State := tFlash; (2 ≤ flashState s)) ∧
    (let s : State := setF ({ tFlash with flash := { tFlash.flash with lastFlush := some 9 } }) 0x7000 0x01 1; let t : Nat := 0; let d : Nat := 9;
      let b := atTime t s; let f : State := { b with flash := replayFlush b.flash }; let o := f.flash.units.filter (fun e => decide (e.2.use = .opened));
      let r := setF (o.foldl (fun u e => closeUnit u (e.1 / 2 ^ 24) (e.1 % 2 ^ 24)) f) 0x7000 0x01 2;
      let v := storeMap { r with flash := { r.flash with health := r.flash.healthSaved } } (r.flash.map.map (fun e => e.1)); (flashState b = 1) ∧
      (v.flash.lastFlush = some d)) :=
  by and_intros <;> decide +kernel

/-- States and operands that meet the hypotheses of Obligations.FlashReadResults, clause by clause. -/
theorem wit_FlashReadResults :
    (let s : State := tFlash; let t : Nat := 0; let page : Nat := 0; let m := tget FlashMapEntry.zero s.flash.map page; (2 ≤ flashState s) ∧
      (page < flashPages s) ∧ (m.mapped = false ∨ discardQueued (atTime t s) t page = true)) ∧
    (let s : State := { tFlash with flash := { tFlash.flash with map := [(0, ⟨true, true, 0⟩)] } }; let t : Nat := 0; let page : Nat := 0;
      let m := tget FlashMapEntry.zero s.flash.map page; (2 ≤ flashState s) ∧ (page < flashPages s) ∧ (m.mapped = true) ∧
      (discardQueued (atTime t s) t page = false) ∧ (m.poisoned = true)) ∧
    (let s : State := { tFlash with flash := { tFlash.flash with map := [(0, ⟨true, false, 0⟩)] } }; let t : Nat := 0; let page : Nat := 0;
      let effort : Nat := 0; let m := tget FlashMapEntry.zero s.flash.map page; (2 ≤ flashState s) ∧ (page < flashPages s) ∧ (m.mapped = true) ∧
      (discardQueued (atTime t s) t page = false) ∧ (m.poisoned = false) ∧ (flashEffort effort = 0)) ∧
    (let s : State := { tFlash with flash := { tFlash.flash with map := [(0, ⟨true, false, 0⟩)] } }; let t : Nat := 0; let page : Nat := 0;
      let effort : Nat := 1; let m := tget FlashMapEntry.zero s.flash.map page; (2 ≤ flashState s) ∧ (page < flashPages s) ∧ (m.mapped = true) ∧
      (discardQueued (atTime t s) t page = false) ∧ (m.poisoned = false) ∧ (flashEffort effort = 1)) ∧
    (let s : State := { tFlash with flash := { tFlash.flash with map := [(0, ⟨true, false, 0⟩)] } }; let t : Nat := 0; let page : Nat := 0;
      let effort : Nat := 2; let m := tget FlashMapEntry.zero s.flash.map page; (2 ≤ flashState s) ∧ (page < flashPages s) ∧ (m.mapped = true) ∧
      (discardQueued (atTime t s) t page = false) ∧ (m.poisoned = false) ∧ (flashEffort effort = 2)) ∧
    (let s : State := { tFlash with flash := { tFlash.flash with map := [(0, ⟨true, false, 0⟩)] } }; let page : Nat := 0; let effort : Nat := 2;
      (2 ≤ flashState s) ∧ (page < flashPages s) ∧ (flashEffort effort ≠ 2 ∨ (unitOf s (unitFlash (flashChannel s.flash page))).slot = .idle)) :=
  by and_intros <;> decide +kernel

/-- States and operands that meet the hypotheses of Obligations.FabricCommandsComplete, clause by clause. -/
theorem wit_FabricCommandsComplete :
    (let s : State := tFab (fun f => { f with outbound := [(0, { endpoint := 0x1002, offsetBase := 0, ownerJob := 0, firmware := false, cacheable := false, ordered := false, valid := true })], routes := [(0x1002, { delayNs := 10, hops := 1, link := 0, path := [] })] });
      let t : Nat := 0; let cls : Nat := 5; let index : Nat := 3; let jb : Nat := 0; let op : Nat := 1; let addr : Nat := 0xD00000000000;
      let len : Nat := 64; let dst : Option Nat := none; let b := atTime t s; let e := outboundOf b ((addr - 0xD00000000000) / 0x400000000);
      (0xD00000000000 ≤ addr) ∧ (addr < 0xE00000000000) ∧ (frozenOf b cls index = none) ∧ (outboundRefused e cls jb = false) ∧ (op = 1) ∧
      (dstRefused b cls jb dst len = false)) ∧
    (let s : State := tFab (fun f => { f with outbound := [(0, { endpoint := 0x1002, offsetBase := 0, ownerJob := 0, firmware := false, cacheable := false, ordered := false, valid := true })], routes := [(0x1002, { delayNs := 10, hops := 1, link := 0, path := [] })] });
      let t : Nat := 0; let cls : Nat := 5; let index : Nat := 3; let jb : Nat := 0; let op : Nat := 2; let addr : Nat := 0xD00000000000;
      let b := atTime t s; let e := outboundOf b ((addr - 0xD00000000000) / 0x400000000); (0xD00000000000 ≤ addr) ∧ (addr < 0xE00000000000) ∧
      (frozenOf b cls index = none) ∧ (outboundRefused e cls jb = false) ∧ (op = 2)) ∧
    (let s : State := tFab (fun f => { f with outbound := [(0, { endpoint := 0x1002, offsetBase := 0, ownerJob := 0, firmware := false, cacheable := false, ordered := false, valid := true })], routes := [(0x1002, { delayNs := 10, hops := 1, link := 0, path := [] })] });
      let t : Nat := 0; let cls : Nat := 5; let index : Nat := 3; let jb : Nat := 0; let op : Nat := 3; let aop : Nat := 0;
      let addr : Nat := 0xD00000000000; let data : List Byte := List.replicate 4 0; let b := atTime t s;
      let e := outboundOf b ((addr - 0xD00000000000) / 0x400000000); let off := (e.offsetBase + (addr - 0xD00000000000) % 0x400000000) % 2 ^ 48;
      (0xD00000000000 ≤ addr) ∧ (addr < 0xE00000000000) ∧ (frozenOf b cls index = none) ∧ (outboundRefused e cls jb = false) ∧ (op = 3) ∧
      (atomicKept aop off data.length = true)) ∧
    (let s : State := tRun; let t : Nat := 0; let h : BitVec 256 := mkHeader 1 0x1001 0x1002 0 0 0 0 0 0 0 0 false 0; let b := atTime t s; (hType h = 1) ∧
      (hDest h = ownEndpoint b) ∧ (deadSource b (hSource h) = false) ∧ (hOffset h < 0xFF0000000000)) ∧
    (let s : State := tRun; let t : Nat := 0; let h : BitVec 256 := mkHeader 2 0x1001 0x1002 0 0 0 0 0 0 0 0 false 0; let b := atTime t s; (hType h = 2) ∧
      (hDest h = ownEndpoint b) ∧ (deadSource b (hSource h) = false) ∧ (hOffset h < 0xFF0000000000)) ∧
    (let s : State := tRun; let t : Nat := 0; let h : BitVec 256 := mkHeader 3 0x1001 0x1002 0 0 0 0 0 0 0 0 false 0; let b := atTime t s; (hType h = 3) ∧
      (hDest h = ownEndpoint b) ∧ (deadSource b (hSource h) = false) ∧ (hOffset h < 0xFF0000000000)) ∧
    (let s : State := tFab (fun f => { f with outstanding := [tOut 1] }); let t : Nat := 0; let h : BitVec 256 := tReply 4 0;
      let o : Outstanding := tOut 1; let b := atTime t s; (Answering b h 4 o) ∧ (hStatus h = 0) ∧ (hType o.header ≠ 8)) ∧
    (let s : State := tFab (fun f => { f with outstanding := [tOut 2] }); let t : Nat := 0; let h : BitVec 256 := tReply 5 0;
      let o : Outstanding := tOut 2; let b := atTime t s; (Answering b h 5 o) ∧ (hStatus h = 0) ∧ (hType o.header ≠ 8)) ∧
    (let s : State := tFab (fun f => { f with outstanding := [tOut 8] }); let t : Nat := 0; let h : BitVec 256 := tReply 5 0;
      let o : Outstanding := tOut 8; let b := atTime t s; (Answering b h 5 o) ∧ (hStatus h = 0) ∧ (hType o.header = 8)) ∧
    (let s : State := tFab (fun f => { f with outstanding := [tOut 3] }); let t : Nat := 0; let h : BitVec 256 := tReply 6 0;
      let o : Outstanding := tOut 3; let b := atTime t s; (Answering b h 6 o) ∧ (hStatus h = 0) ∧ (hType o.header ≠ 8)) ∧
    (let s : State := tFab (fun f => { f with outstanding := [tOut 1] }); let t : Nat := 0; let h : BitVec 256 := tReply 7 3;
      let o : Outstanding := tOut 1; let b := atTime t s; (Answering b h 7 o) ∧ (hStatus h ≠ 0) ∧ (hType o.header ≠ 8) ∧ (hMaster h / 2 ^ 13 ≠ 3)) ∧
    (let s : State := setF (setF tRun 0x3400 0x03 64) 0x4000 0x03 0x1002; let t : Nat := 0; let member : Nat := 0x1002; let line : Nat := 0;
      let b := atTime t s; ((bindingPeers b).contains member = true) ∧ (b.fabric.deadEndpoints.contains member = false) ∧
      (targetAllowed b (line / 64) 1 = true)) ∧
    (let s : State := tFab (fun f => { f with outstanding := [tOut 1] }); let t : Nat := 1000000000; let tag : Nat := 0; let o : Outstanding := tOut 1;
      let b := atTime t s; (b.fabric.outstanding.find? (fun o => decide (o.tag = tag)) = some o) ∧ (o.issuedNs + getF b 0x4000 0x05 * 1000 ≤ b.now)) ∧
    (let s : State := tRun; let t : Nat := 0; let h : BitVec 256 := mkHeader 8 0x1001 0x1002 0 0 0 0 0 0 0 0 false 0; let b := atTime t s; (hType h = 8) ∧
      (hDest h = ownEndpoint b) ∧ (deadSource b (hSource h) = false) ∧ (fld h 106 104 = 0) ∧ (fld h 63 0 = 0)) ∧
    (let s : State := { (tFab (fun f => { f with epochDueNs := some 0 })) with link := { tRun.link with dark := false } }; let t : Nat := 0;
      let view : EpochView := { edges := [], differing := [], bindingReady := [], changedNs := none, otherVolume := false }; let d : Nat := 0;
      let b := atTime t s; (epochDue b view = some d) ∧ (d ≤ b.now) ∧ (speaking b = true)) :=
  by and_intros <;> decide +kernel

/-- States and operands that meet the hypotheses of Obligations.StrangersIgnored, clause by clause. -/
theorem wit_StrangersIgnored :
    (let s : State := tRun; let h : BitVec 256 := 0; (hDest h ≠ ownEndpoint s)) ∧
    (let s : State := tFab (fun f => { f with frozen := [{ cls := 0, index := 3, job := 0, thaw := [], releasing := none }] }); let cls : Nat := 0;
      let index : Nat := 3; ((frozenOf s cls index).isSome = true)) :=
  by and_intros <;> decide +kernel

/-- States and operands that meet the hypotheses of Obligations.QueueCommandsComplete, clause by clause. -/
theorem wit_QueueCommandsComplete :
    (let s : State := tQp (fun x => { x with made := true }); let t : Nat := 0; let q : Nat := 7; let cls : Nat := 0; let jb : Nat := 0;
      let host : List (Nat × List Byte) := []; let b := hostFill (atTime t s) host; (mayRing b q cls jb = true) ∧ ((qp b q).mode = .ready)) ∧
    (let s : State := tQp (fun x => { x with made := true }); let t : Nat := 0; let q : Nat := 7; let cls : Nat := 0; let jb : Nat := 0;
      let host : List (Nat × List Byte) := []; let b := hostFill (atTime t s) host; (mayRing b q cls jb = true) ∧ ((qp b q).mode = .ready)) ∧
    (let s : State := tQp (fun x => { x with made := true }); let t : Nat := 0; let q : Nat := 7; let cls : Nat := 0; let jb : Nat := 0;
      let b := atTime t s; (mayRing b q cls jb = true) ∧ ((qp b q).mode = .ready)) ∧
    (let s : State := tQp (fun x => { x with made := true }); let t : Nat := 0; let q : Nat := 7; let cls : Nat := 0; let jb : Nat := 1;
      let host : List (Nat × List Byte) := []; let b := hostFill (atTime t s) host; (mayRing b q cls jb = false)) ∧
    (let s : State := tQp (fun x => { x with made := true }); let t : Nat := 0; let q : Nat := 7; let cls : Nat := 0; let jb : Nat := 1;
      let d := atTime t s; (mayRing d q cls jb = false)) ∧
    (let s : State := tRun; let t : Nat := 0; let q : Nat := 7; let cls : Nat := 7; let jb : Nat := 0; let host : List (Nat × List Byte) := [];
      let b := hostFill (atTime t s) host; (mayRing b q cls jb = true) ∧ ((qp b q).mode = .reset)) ∧
    (let s : State := tRun; let t : Nat := 0; let q : Nat := 7; let cls : Nat := 7; let jb : Nat := 0; let d := atTime t s; (mayRing d q cls jb = true) ∧
      ((qp d q).mode = .reset)) ∧
    (let s : State := tRun; let t : Nat := 0; let h : BitVec 256 := mkHeader 64 0x1001 0x1002 0 0 0 0 0 0 0 0 false 0; let b := atTime t s;
      (packetHere b h 0x40 = true)) ∧
    (let s : State := tRun; let t : Nat := 0; let h : BitVec 256 := mkHeader 65 0x1001 0x1002 0 0 0 0 0 0 0 0 false 0; let b := atTime t s;
      (packetHere b h 0x41 = true)) ∧
    (let s : State := tRun; let t : Nat := 0; let h : BitVec 256 := mkHeader 66 0x1001 0x1002 0 0 0 0 0 0 0 0 false 0; let b := atTime t s;
      (packetHere b h 0x42 = true)) ∧
    (let s : State := tRun; let t : Nat := 0; let h : BitVec 256 := mkHeader 67 0x1001 0x1002 0 0 0 0 0 0 0 0 false 0; let b := atTime t s;
      (packetHere b h 0x43 = true)) ∧
    (let s : State := tRun; let t : Nat := 0; let h : BitVec 256 := mkHeader 68 0x1001 0x1002 0 0 0 0 0 0 0 0 false 0; let b := atTime t s;
      (packetHere b h 0x44 = true)) ∧
    (let s : State := tRun; let t : Nat := 0; let h : BitVec 256 := mkHeader 69 0x1001 0x1002 0 0 0 0 0 0 0 0 false 0; let b := atTime t s;
      (packetHere b h 0x45 = true)) ∧
    (let s : State := tRun; let t : Nat := 0; let h : BitVec 256 := mkHeader 70 0x1001 0x1002 0 0 0 0 0 0 0 0 false 0; let b := atTime t s;
      (packetHere b h 0x46 = true)) ∧
    (let s : State := tRun; let t : Nat := 0; let h : BitVec 256 := mkHeader 71 0x1001 0x1002 0 0 0 0 0 0 0 0 false 0; let b := atTime t s;
      (packetHere b h 0x47 = true)) ∧
    (let s : State := tQp (fun x => { x with ackOldestNs := some 0 }); let t : Nat := 2000; let q : Nat := 7; let t0 : Nat := 0; let b := atTime t s;
      ((qp b q).ackOldestNs = some t0) ∧ (t0 + 2000 ≤ b.now) ∧ ((qp b q).mode = .ready) ∧ ((qp b q).frozen = false)) ∧
    (let s : State := tQp (fun x => { x with tx := [{ psn := 4, msn := 0, header := 0, qheader := 0, payload := [], departNs := some 0, repeats := 0, fastDone := false }] });
      let t : Nat := 1000000000; let q : Nat := 7; let psn : Nat := 4;
      let p : TxPacket := { psn := 4, msn := 0, header := 0, qheader := 0, payload := [], departNs := some 0, repeats := 0, fastDone := false };
      let b := atTime t s; ((qp b q).tx.find? (fun p => decide (p.psn = psn)) = some p) ∧ (overdue p (getF b 0x4100 0x04 * 1000) b.now = true) ∧
      ((qp b q).mode = .ready) ∧ ((qp b q).frozen = false)) ∧
    (let s : State := tQp (fun x => { x with msgs := [{ msn := 2, desc := 0, firstPsn := 0, packets := 0, issued := 0, recvIndex := 0, atomicSeq := 0, readDone := [], ended := none, rnrAtNs := some 9, rnrTries := 0 }] });
      let t : Nat := 9; let q : Nat := 7; let msn : Nat := 2; let due : Nat := 9;
      let m : SendMsg := { msn := 2, desc := 0, firstPsn := 0, packets := 0, issued := 0, recvIndex := 0, atomicSeq := 0, readDone := [], ended := none, rnrAtNs := some 9, rnrTries := 0 };
      let b := atTime t s; ((qp b q).msgs.find? (fun m => decide (m.msn = msn)) = some m) ∧ (m.rnrAtNs = some due) ∧ (due ≤ b.now) ∧
      ((qp b q).mode = .ready) ∧ ((qp b q).frozen = false)) ∧
    (let s : State := setRegion tRun 3 { Region.zero with mode := .draining }; let t : Nat := 100000000000; let k : Nat := 3; let b := atTime t s;
      ((regionOf b k).mode = .draining) ∧ ((regionOf b k).drainNs + getF b 0x4100 0x08 * 1000000 ≤ b.now)) :=
  by and_intros <;> decide +kernel

/-- States and operands that meet the hypotheses of Obligations.IdleQueuePairsSilent, clause by clause. -/
theorem wit_IdleQueuePairsSilent :
    (let s : State := tRun; let t : Nat := 0; let h : BitVec 256 := 0; let b := atTime t s; (packetHere b h 0x40 = false) ∧
      (knownType (hType h) = true ∨ hDest h ≠ ownEndpoint b)) ∧
    (let s : State := tRun; let t : Nat := 0; let h : BitVec 256 := 0; let b := atTime t s; (packetHere b h 0x46 = false) ∧
      (knownType (hType h) = true ∨ hDest h ≠ ownEndpoint b)) ∧
    (let s : State := tRun; let t : Nat := 0; let h : BitVec 256 := mkHeader 80 0x1001 0x1002 0 0 0 0 0 0 0 0 false 0; let b := atTime t s;
      (knownType (hType h) = false) ∧ (hDest h = ownEndpoint b) ∧ (deadSource b (hSource h) = false) ∧ (quarantined b h = false)) ∧
    (let s : State := tRun; let q : Nat := 7; ((qp s q).mode ≠ .ready ∨ (qp s q).frozen = true)) :=
  by and_intros <;> decide +kernel

/-- States and operands that meet the hypotheses of Obligations.LinkTrafficComplete, clause by clause. -/
theorem wit_LinkTrafficComplete :
    (let s : State := tLk .active (id); let t : Nat := 0; let l : Nat := 0; let h : BitVec 256 := 0; let b := atTime t s;
      (linkLive (linkOf b l).mode = true) ∧ ((linkOf b l).rsOn = false) ∧ (b.err.corruptNext.contains l = false) ∧ (fld h 63 48 = (linkOf b l).rxSeq)) ∧
    (let s : State := tLk .active (id); let t : Nat := 0; let l : Nat := 0; let h : BitVec 256 := 0; let b := atTime t s;
      (linkLive (linkOf b l).mode = true) ∧ ((linkOf b l).rsOn = false) ∧ (b.err.corruptNext.contains l = false) ∧ (fld h 63 48 = (linkOf b l).rxSeq)) ∧
    (let s : State := tLk .active (id); let t : Nat := 0; let l : Nat := 0; let h : BitVec 256 := 0; let payload : List Byte := [];
      let check := linkCheck 0 [] + 1; let b := atTime t s; (linkLive (linkOf b l).mode = true) ∧ ((linkOf b l).rsOn = false) ∧
      (b.err.corruptNext.contains l = false) ∧ (fld h 63 48 = (linkOf b l).rxSeq) ∧ (check ≠ linkCheck h payload) ∧ (check ≠ ~~~(linkCheck h payload))) ∧
    (let s : State := tLk .active (id); let t : Nat := 0; let l : Nat := 0; let h : BitVec 256 := 2 ^ 48; let b := atTime t s;
      (linkLive (linkOf b l).mode = true) ∧ ((linkOf b l).rsOn = false) ∧ (fld h 63 48 ≠ (linkOf b l).rxSeq)) ∧
    (let s : State := tLk .active (id); let t : Nat := 0; let l : Nat := 0; let w : BitVec 256 := tWd 0 0; let b := atTime t s;
      (GoodWord b l w 0 linkLive)) ∧
    (let s : State := tLk .active (fun x => { x with ackSinceNs := some 0 }); let t : Nat := 200; let l : Nat := 0; let t0 : Nat := 0;
      let b := atTime t s; ((linkOf b l).ackSinceNs = some t0) ∧ (t0 + 100 ≤ b.now) ∧ (linkLive (linkOf b l).mode = true)) ∧
    (let s : State := tLk .active (id); let t : Nat := 0; let l : Nat := 0; let w : BitVec 256 := tWd 1 0; let b := atTime t s; let u := wordTaken b l w;
      let x := linkOf u l; let run := if x.nakSeq = fld w 239 224 ∧ 0 < x.nakRun then x.nakRun + 1 else 1; (GoodWord b l w 1 linkLive) ∧ (run < 8)) ∧
    (let s : State := tLk .active (fun x => { x with nakRun := 7 }); let t : Nat := 0; let l : Nat := 0; let w : BitVec 256 := tWd 1 0;
      let b := atTime t s; let u := wordTaken b l w; let x := linkOf u l; let run := if x.nakSeq = fld w 239 224 ∧ 0 < x.nakRun then x.nakRun + 1 else 1;
      (GoodWord b l w 1 linkLive) ∧ (8 ≤ run)) ∧
    (let s : State := tLk .active (id); let t : Nat := 0; let l : Nat := 0; let w : BitVec 256 := tWd 5 (place 7 239 224); let b := atTime t s;
      (GoodWord b l w 5 linkLive)) ∧
    (let s : State := tLk .active (fun x => { x with freedNs := some 0 }); let t : Nat := 2000; let l : Nat := 0; let t0 : Nat := 0; let b := atTime t s;
      ((linkOf b l).freedNs = some t0) ∧ (t0 + 1000 ≤ b.now) ∧ (linkLive (linkOf b l).mode = true)) ∧
    (let s : State := tLk .measuring (id); let t : Nat := 0; let l : Nat := 0; let w : BitVec 256 := tWd 2 0; let b := atTime t s;
      (GoodWord b l w 2 probing)) ∧
    (let s : State := tLk .measuring (id); let t : Nat := 0; let l : Nat := 0; let w : BitVec 256 := tWd 3 0; let b := atTime t s;
      (GoodWord b l w 3 probing)) ∧
    (let s : State := tLk .measuring (id); let t : Nat := 0; let l : Nat := 0; let b := atTime t s;
      ((linkOf b l).mode = .measuring ∨ (linkLive (linkOf b l).mode = true ∧ (linkOf b l).probeNs + 1000000 ≤ b.now))) ∧
    (let s : State := setLink tRun 8 { Link.zero with mode := .training }; let t : Nat := 0; let l : Nat := 8; let w : BitVec 256 := tWd 6 0;
      let b := atTime t s; (GoodWord b l w 6 (fun m => decide (m = .training) || decide (m = .retrain))) ∧ ((linkOf b l).mode = .training) ∧ (8 ≤ l)) :=
  by and_intros <;> decide +kernel

/-- States and operands that meet the hypotheses of Obligations.LinkEventsComplete, clause by clause. -/
theorem wit_LinkEventsComplete :
    (let s : State := { (setLink tRun 8 { Link.zero with mode := .down }) with link := { (setLink tRun 8 { Link.zero with mode := .down }).link with dark := false, lasers := [(1, { present := true, ready := true, fault := false, tempC := 40 })] } };
      let t : Nat := 0; let l : Nat := 8; let b := modLink (atTime t s) l (fun x => { x with light := true }); let x := linkOf b l;
      let may := x.mode = .down ∧ x.holdoffNs ≤ b.now ∧ laserReady b l = true ∧ fibreOpen b l = true ∧ b.link.dark = false; (may)) ∧
    (let s : State := tLk .active (id); let t : Nat := 0; let l : Nat := 0; let b := modLink (atTime t s) l (fun x => { x with light := true });
      let x := linkOf b l; let may := x.mode = .down ∧ x.holdoffNs ≤ b.now ∧ laserReady b l = true ∧ fibreOpen b l = true ∧ b.link.dark = false; (¬may)) ∧
    (let s : State := tLk .training (fun x => { x with paramSeen := true }); let t : Nat := 0; let l : Nat := 0; let b := atTime t s;
      let x := linkOf b l; let may := x.mode = .training ∧ x.paramSeen = true; (may)) ∧
    (let s : State := tLk .up (id); let t : Nat := 0; let l : Nat := 0; let b := atTime t s; let x := linkOf b l;
      let may := x.mode = .training ∧ x.paramSeen = true; (¬may)) ∧
    (let s : State := tLk .testing (id); let t : Nat := 2000000; let l : Nat := 0; let b := atTime t s; let x := linkOf b l;
      let may := x.mode = .testing ∧ x.sinceNs + 2000000 ≤ b.now; (may)) ∧
    (let s : State := tLk .up (id); let t : Nat := 0; let l : Nat := 0; let b := atTime t s; let x := linkOf b l;
      let may := x.mode = .testing ∧ x.sinceNs + 2000000 ≤ b.now; (¬may)) ∧
    (let s : State := tLk .measuring (fun x => { x with samples := List.replicate 16 100 }); let t : Nat := 0; let l : Nat := 0; let b := atTime t s;
      let x := linkOf b l; let may := x.mode = .measuring ∧ 16 ≤ x.samples.length; (may)) ∧
    (let s : State := tLk .measuring (fun x => { x with samples := List.replicate 15 100 }); let t : Nat := 0; let l : Nat := 0; let b := atTime t s;
      let x := linkOf b l; let may := x.mode = .measuring ∧ 16 ≤ x.samples.length; (¬may)) ∧
    (let s : State := tLk .testing (id); let t : Nat := 0; let l : Nat := 0; let b := atTime t s;
      let may := (linkOf b l).mode = .training ∨ (linkOf b l).mode = .testing ∨ (linkOf b l).mode = .measuring; (may)) ∧
    (let s : State := tLk .active (id); let t : Nat := 0; let l : Nat := 0; let b := atTime t s;
      let may := (linkOf b l).mode = .training ∨ (linkOf b l).mode = .testing ∨ (linkOf b l).mode = .measuring; (¬may)) ∧
    (let s : State := tLk .up (id); let t : Nat := 0; let l : Nat := 0; let b := atTime t s;
      let live := (linkOf b l).mode = .up ∨ (linkOf b l).mode = .active; (live)) ∧
    (let s : State := tLk .down (id); let t : Nat := 0; let l : Nat := 0; let b := atTime t s;
      let live := (linkOf b l).mode = .up ∨ (linkOf b l).mode = .active; (¬live)) ∧
    (let s : State := tLk .active (id); let t : Nat := 100000; let l : Nat := 0; let b := atTime t s;
      let live := (linkOf b l).mode = .up ∨ (linkOf b l).mode = .active; let silent := (linkOf b l).lastGoodNs + 100000 ≤ b.now; (live ∧ silent)) ∧
    (let s : State := tLk .active (id); let t : Nat := 99999; let l : Nat := 0; let b := atTime t s;
      let live := (linkOf b l).mode = .up ∨ (linkOf b l).mode = .active; let silent := (linkOf b l).lastGoodNs + 100000 ≤ b.now; (¬(live ∧ silent))) ∧
    (let s : State := tLk .active (id); let t : Nat := 0; let l : Nat := 0; let b := atTime t s; ((linkOf b l).mode = .active)) ∧
    (let s : State := tLk .down (id); let t : Nat := 0; let l : Nat := 0; let b := atTime t s; ((linkOf b l).mode ≠ .active)) ∧
    (let s : State := tLk .retrain (id); let t : Nat := 1000000000000; let l : Nat := 0; let b := atTime t s;
      let may := (linkOf b l).mode = .retrain ∧ (linkOf b l).sinceNs + getF b 0x4800 0x02 * 1000 ≤ b.now; (may)) ∧
    (let s : State := tLk .retrain (id); let t : Nat := 0; let l : Nat := 0; let b := atTime t s;
      let may := (linkOf b l).mode = .retrain ∧ (linkOf b l).sinceNs + getF b 0x4800 0x02 * 1000 ≤ b.now; (¬may)) ∧
    (let s : State := tLk .fenced (id); let t : Nat := 1000000000000000; let l : Nat := 0; let b := atTime t s;
      let may := (linkOf b l).mode = .fenced ∧ (linkOf b l).sinceNs + getF b 0x6400 0x04 * 1000000 ≤ b.now; (may) ∧ (nbit (getF b 0x4802 l) 1 = false)) ∧
    (let s : State := setF (tLk .fenced (id)) 0x4802 0 2; let t : Nat := 1000000000000000; let l : Nat := 0; let b := atTime t s;
      let may := (linkOf b l).mode = .fenced ∧ (linkOf b l).sinceNs + getF b 0x6400 0x04 * 1000000 ≤ b.now; (may) ∧ (nbit (getF b 0x4802 l) 1 = true)) ∧
    (let s : State := tLk .fenced (id); let t : Nat := 0; let l : Nat := 0; let b := atTime t s;
      let may := (linkOf b l).mode = .fenced ∧ (linkOf b l).sinceNs + getF b 0x6400 0x04 * 1000000 ≤ b.now; (¬may)) :=
  by and_intros <;> decide +kernel

/-- States and operands that meet the hypotheses of Obligations.ReplayLimitHoldsOff, clause by clause. -/
theorem wit_ReplayLimitHoldsOff :
    (let s : State := tLk .active (fun x => { x with resent := [(0, 2 ^ 40)] }); let t : Nat := 0; let l : Nat := 0; let b := atTime t s;
      let x := linkOf b l; let times := x.limitNs.filter (fun a => decide (b.now - a ≤ 3600000000000)) ++ [b.now]; (linkLive x.mode = true) ∧
      (getF b 0x4800 0x03 < resentSince x b.now) ∧ (times.length < 4)) ∧
    (let s : State := tLk .active (fun x => { x with resent := [(0, 2 ^ 40)], limitNs := [0, 0, 0] }); let t : Nat := 0; let l : Nat := 0;
      let b := atTime t s; let x := linkOf b l; let times := x.limitNs.filter (fun a => decide (b.now - a ≤ 3600000000000)) ++ [b.now];
      (linkLive x.mode = true) ∧ (getF b 0x4800 0x03 < resentSince x b.now) ∧ (4 ≤ times.length)) ∧
    (let s : State := tLk .down (id); let t : Nat := 5; let l : Nat := 0; let b := atTime t s; let x := linkOf b l;
      let open0 := setLink b l { x with holdoffNs := 0 };
      let may := x.mode = .down ∧ x.light = true ∧ laserReady open0 l = true ∧ fibreOpen open0 l = true ∧ b.link.dark = false; (x.holdoffNs ≤ b.now) ∧
      (¬may)) ∧
    (let s : State := ({ (setLink tRun 8 { Link.zero with light := true, mode := .down }) with link := { (setLink tRun 8 { Link.zero with light := true, mode := .down }).link with dark := false, lasers := [(1, { present := true, ready := true, fault := false, tempC := 40 })] } });
      let t : Nat := 5; let l : Nat := 8; let b := atTime t s; let x := linkOf b l; let open0 := setLink b l { x with holdoffNs := 0 };
      let may := x.mode = .down ∧ x.light = true ∧ laserReady open0 l = true ∧ fibreOpen open0 l = true ∧ b.link.dark = false; (x.holdoffNs ≤ b.now) ∧
      (may)) ∧
    (let s : State := tLk .down (fun x => { x with holdoffNs := 9 }); let t : Nat := 5; let l : Nat := 0; let b := atTime t s; let x := linkOf b l;
      (b.now < x.holdoffNs)) :=
  by and_intros <;> decide +kernel

/-- States and operands that meet the hypotheses of Obligations.LasersAndBypasses, clause by clause. -/
theorem wit_LasersAndBypasses :
    (let s : State := { tRun with link := { tRun.link with bypass := [(3, { Bypass.zero with move := .opening })] } }; let n : Nat := 3; (n < 4) ∧
      ((bypassOf s n).move = .opening)) ∧
    (let s : State := { tRun with link := { tRun.link with bypass := [(3, { Bypass.zero with move := .closing })] } }; let t : Nat := 0;
      let n : Nat := 3; let b := atTime t s; ((bypassOf b n).move = .closing)) ∧
    (let s : State := { tRun with link := { tRun.link with bypass := [(3, { Bypass.zero with move := .openingThenClose })] } }; let n : Nat := 3;
      ((bypassOf s n).move = .openingThenClose)) ∧
    (let s : State := { tRun with link := { tRun.link with bypass := [(3, { Bypass.zero with move := .still })] } }; let n : Nat := 3;
      ((bypassOf s n).move = .still)) :=
  by and_intros <;> decide +kernel

/-- States and operands that meet the hypotheses of Obligations.PressCommandsComplete, clause by clause; press_plain, press_pressed show the others. -/
theorem wit_PressCommandsComplete :
    (let s : State := { tRun with press := { tRun.press with keys := [(0, { KeySlot.zero with key := some 5 })] } }; let t : Nat := 0; let j : Nat := 0;
      let stride : Nat := 0; let half : Nat := 0; let n : Nat := 0; let raw : List Byte := [1]; let key : BitVec 256 := 5; let a := atTime t s;
      ((keySlot a j).key = some key) ∧ ((keySlot a j).zeroing = false) ∧ (raw ≠ []) ∧ (raw.length ≤ 67108864) ∧ (stride < 3) ∧
      (pickEngine a a.press.encBusy half = some n)) ∧
    (let s : State := tRun; let t : Nat := 0; let half : Nat := 0; let c : Nat := 3; let n : Nat := 0; let object : List Byte := [];
      (openBytes (atTime t s) object = .error c) ∧ (pickEngine (atTime t s) s.press.decBusy half = some n)) ∧
    (let s : State := { tRun with press := { tRun.press with cvuDma := [(2, 0, 0)] } }; let t : Nat := 0; let k : Nat := 2; let a : Nat := 0;
      let n : Nat := 0; let b := atTime t s; (tfind b.press.cvuDma k = some (a, n))) ∧
    (let s : State := { tRun with press := { tRun.press with keys := [(0, { KeySlot.zero with key := some 5, zeroing := true, busyNs := 0 })] } };
      let t : Nat := 0; let j : Nat := 0; let b := atTime t s; ((keySlot b j).zeroing = true) ∧ ((keySlot b j).key ≠ none) ∧
      ((keySlot b j).busyNs ≤ b.now)) ∧
    (let s : State := { tRun with press := { tRun.press with keys := [(0, { KeySlot.zero with key := some 5, zeroing := true, busyNs := 9 })] } };
      let t : Nat := 0; let j : Nat := 0; let b := atTime t s; ((keySlot b j).zeroing = true) ∧ ((keySlot b j).key ≠ none) ∧
      (b.now < (keySlot b j).busyNs)) :=
  by and_intros <;> decide +kernel

/-- States and operands that meet the hypotheses of Obligations.FolioCommandsComplete, clause by clause. -/
theorem wit_FolioCommandsComplete :
    (let s : State := tRun; let t : Nat := 0; let req : FolioReq := tReq 0x2031 1 0; let b := atTime t s; let q := req.withValue 1;
      (Accepted b 0x2031 0x01 q)) ∧
    (let s : State := tRun; let t : Nat := 0; let req : FolioReq := tReq 0x2040 0 5; let b := atTime t s; (Accepted b 0x2040 0x00 req)) ∧
    (let s : State := tRun; let t : Nat := 0; let slot : Nat := 0; let req : FolioReq := tReq 0x2824 0 7; let b := atTime t s;
      (Accepted b 0x2824 slot req)) ∧
    (let s : State := { tSig .decoding with dict := { (tSig .decoding).dict with jobPeers := [(0, 9)] } }; let t : Nat := 0;
      let req : FolioReq := tReq 0x2060 7 (place 9 31 16 + 5); let b := atTime t s; (Accepted b 0x2060 0x07 req)) ∧
    (let s : State := tRun; let t : Nat := 0; let jb : Nat := 0; let req : FolioReq := tReq 0x6415 0 0; let b := atTime t s; let q := req.withValue 1;
      (Accepted b 0x6415 jb q)) ∧
    (let s : State := tRun; let t : Nat := 0; let jb : Nat := 0; let req : FolioReq := tReq 0x5412 0 0; let b := atTime t s; let q := req.withValue 1;
      (Accepted b 0x5412 jb q)) ∧
    (let s : State := tRun; let t : Nat := 0; let jb : Nat := 0; let req : FolioReq := tReq 0x5412 0 0; let b := atTime t s; let q := req.withValue 2;
      (Accepted b 0x5412 jb q)) ∧
    (let s : State := tJob id; let t : Nat := 0; let jb : Nat := 0; let req : FolioReq := tReq 0x5412 0 0; let b := atTime t s; let q := req.withValue 3;
      (Accepted b 0x5412 jb q)) ∧
    (let s : State := tRun; let t : Nat := 0; let req : FolioReq := tReq 0x2450 6 4; let b := atTime t s; (Accepted b 0x2450 0x06 req)) ∧
    (let s : State := tRun; let t : Nat := 0; let req : FolioReq := tReq 0x7000 8 4; let b := atTime t s; (Accepted b 0x7000 0x08 req)) ∧
    (let s : State := setF (setF tRun 0x7030 1 1) 0x7030 2 1; let t : Nat := 0; let req : FolioReq := tReq 0x7030 5 0; let b := atTime t s;
      (Accepted b 0x7030 0x05 req)) ∧
    (let s : State := tRun; let t : Nat := 0; let req : FolioReq := tReq 0x4021 1 5; let b := atTime t s; (Accepted b 0x4021 0x01 req)) ∧
    (let s : State := tStage; let t : Nat := 0; let req : FolioReq := tReq 0x4101 5 0; let b := atTime t s; let q := req.withValue 1;
      (Accepted b 0x4101 0x05 q)) ∧
    (let s : State := tRun; let t : Nat := 0; let req : FolioReq := tReq 0x4101 5 0; let b := atTime t s; let q := req.withValue 2;
      (Accepted b 0x4101 0x05 q)) ∧
    (let s : State := tRun; let t : Nat := 0; let req : FolioReq := tReq 0x4101 5 0; let b := atTime t s; let q := req.withValue 3;
      (Accepted b 0x4101 0x05 q)) ∧
    (let s : State := tRun; let t : Nat := 0; let req : FolioReq := tReq 0x4102 3 0; let b := atTime t s; let q := req.withValue 1;
      (Accepted b 0x4102 0x03 q)) ∧
    (let s : State := tRun; let t : Nat := 0; let req : FolioReq := tReq 0x4102 3 0; let b := atTime t s; let q := req.withValue 2;
      (Accepted b 0x4102 0x03 q)) ∧
    (let s : State := tRun; let t : Nat := 0; let ring : Nat := 3; let req : FolioReq := tReq 0x4811 3 0; let b := atTime t s; let q := req.withValue 1;
      (Accepted b 0x4811 ring q)) ∧
    (let s : State := tRun; let t : Nat := 0; let ring : Nat := 3; let req : FolioReq := tReq 0x4811 3 0; let b := atTime t s; let q := req.withValue 2;
      (Accepted b 0x4811 ring q)) ∧
    (let s : State := tRun; let t : Nat := 0; let unit : Nat := 2; let req : FolioReq := tReq 0x5044 2 0; let b := atTime t s;
      (Accepted b 0x5044 unit req)) ∧
    (let s : State := tRun; let t : Nat := 0; let unit : Nat := 2; let req : FolioReq := tReq 0x5045 2 0; let b := atTime t s;
      (Accepted b 0x5045 unit req)) ∧
    (let s : State := tRun; let t : Nat := 0; let unit : Nat := 2; let req : FolioReq := tReq 0x5048 2 0; let b := atTime t s; let q := req.withValue 1;
      (Accepted b 0x5048 unit q)) ∧
    (let s : State := tRun; let t : Nat := 0; let unit : Nat := 2; let req : FolioReq := tReq 0x5048 2 0; let b := atTime t s; let q := req.withValue 2;
      (Accepted b 0x5048 unit q)) ∧
    (let s : State := tRun; let t : Nat := 0; let unit : Nat := 2; let req : FolioReq := tReq 0x5048 2 0; let b := atTime t s; let q := req.withValue 3;
      (Accepted b 0x5048 unit q)) ∧
    (let s : State := tRun; let t : Nat := 0; let req : FolioReq := tReq 0x5402 1 0; let b := atTime t s; let q := req.withValue 1;
      (Accepted b 0x5402 0x01 q)) ∧
    (let s : State := tRun; let t : Nat := 0; let req : FolioReq := tReq 0x6000 3 0; let b := atTime t s; (Accepted b 0x6000 0x03 req)) ∧
    (let s : State := tRun; let t : Nat := 0; let req : FolioReq := tReq 0x6007 3 0x10; let b := atTime t s; (Accepted b 0x6007 0x03 req)) ∧
    (let s : State := { tRun with fabric := { tRun.fabric with frozen := [{ cls := 0, index := 3, job := 0, thaw := [], releasing := none }] } };
      let t : Nat := 0; let req : FolioReq := tReq 0x6010 1 3; let b := atTime t s; (Accepted b 0x6010 0x01 req)) ∧
    (let s : State := modUnit tRun 0x1005 (fun x => { x with fenced := true }); let t : Nat := 0; let req : FolioReq := tReq 0x6021 1 0x1005;
      let b := atTime t s; (Accepted b 0x6021 0x01 req)) ∧
    (let s : State := tRun; let t : Nat := 0; let unit : Nat := 0x1005; let req : FolioReq := tReq 0x6030 1 0; let b := atTime t s;
      let q := req.withValue (place unit 31 16 + place 1 15 8); (Accepted b 0x6030 0x01 q)) ∧
    (let s : State := tRun; let t : Nat := 0; let unit : Nat := 0x1005; let req : FolioReq := tReq 0x6030 1 0; let b := atTime t s;
      let q := req.withValue (place unit 31 16 + place 2 15 8); (Accepted b 0x6030 0x01 q)) ∧
    (let s : State := tRun; let t : Nat := 0; let unit : Nat := 0x1005; let req : FolioReq := tReq 0x6030 1 0; let b := atTime t s;
      let q := req.withValue (place unit 31 16 + place 3 15 8); (Accepted b 0x6030 0x01 q)) ∧
    (let s : State := tRun; let t : Nat := 0; let req : FolioReq := tReq 0x7810 2 0; let b := atTime t s; let q := req.withValue 0xA5;
      (Accepted b 0x7810 0x02 q)) ∧
    (let s : State := tRun; let t : Nat := 0; let req : FolioReq := tReq 0x7C40 2 0; let b := atTime t s; let q := req.withValue 1;
      (Accepted b 0x7C40 0x02 q)) ∧
    (let s : State := tRun; let t : Nat := 0; let req : FolioReq := tReq 0x7C40 2 0; let b := atTime t s; let q := req.withValue 2;
      (Accepted b 0x7C40 0x02 q)) ∧
    (let s : State := tRun; let t : Nat := 0; let req : FolioReq := tReq 0x7C30 6 0; let b := atTime t s; let q := req.withValue 1;
      (Accepted b 0x7C30 0x06 q)) :=
  by and_intros <;> decide +kernel

/-- States and operands that meet the hypotheses of Obligations.StoringFolioCommands, clause by clause. -/
theorem wit_StoringFolioCommands :
    (let s : State := tRun; let t : Nat := 0; let idx : Nat := 0x2450; let sub : Nat := 2; let req : FolioReq := tReq 0x2450 2 5; let b := atTime t s;
      (Accepted b idx sub req)) ∧
    (let s : State := tRun; let t : Nat := 0; let idx : Nat := 0x4101; let sub : Nat := 1; let req : FolioReq := tReq 0x4101 1 5; let b := atTime t s;
      let r : FolioRow := (folioRow idx sub).getD ⟨0,0,0,0,0,.ro,false,0,none,false,false,0⟩; (Accepted b idx sub req) ∧ (folioRow idx sub = some r) ∧
      (r.access = .rw) ∧ (r.perInterface = true)) ∧
    (let s : State := tRun; let t : Nat := 0; let link : Nat := 0; let req : FolioReq := tReq 0x4802 0 0; let b := atTime t s;
      let q := req.withValue (setFld req.value 1 1 1); (Accepted b 0x4802 link q) ∧ (nbit (getF b 0x4802 link) 1 = false)) ∧
    (let s : State := setF tRun 0x4802 0 3; let t : Nat := 0; let link : Nat := 0; let req : FolioReq := tReq 0x4802 0 0; let b := atTime t s;
      let q := req.withValue (setFld req.value 1 1 1); (Accepted b 0x4802 link q) ∧ (nbit (getF b 0x4802 link) 1 = true)) ∧
    (let s : State := setF tRun 0x4802 0 3; let t : Nat := 0; let link : Nat := 0; let req : FolioReq := tReq 0x4802 0 0; let b := atTime t s;
      let q := req.withValue (setFld req.value 0 1 1); (Accepted b 0x4802 link q) ∧ (nbit (getF b 0x4802 link) 1 = true)) ∧
    (let s : State := tRun; let t : Nat := 0; let link : Nat := 0; let req : FolioReq := tReq 0x4802 0 0; let b := atTime t s;
      let q := req.withValue (setFld req.value 0 1 1); (Accepted b 0x4802 link q) ∧ (nbit (getF b 0x4802 link) 1 = false)) ∧
    (let s : State := tRun; let t : Nat := 0; let word : Nat := 2; let policer : Nat := 0; let req : FolioReq := tReq 0x5432 0 4160; let b := atTime t s;
      let idx := 0x5430 + word % 3; (Accepted b idx policer req)) :=
  by and_intros <;> decide +kernel

/-- States and operands that meet the hypotheses of Obligations.ShaperWriteEffect, clause by clause. -/
theorem wit_ShaperWriteEffect :
    (let s : State := tRun; let t : Nat := 0; let q : Nat := 65; let req : FolioReq := tReq 0x5421 1 (place 8 55 32 + 1); let b := atTime t s;
      let idx := if q < 64 then 0x5420 else 0x5421; let sub := if q < 64 then q else q - 64; (q < 66) ∧ (Accepted b idx sub req)) ∧
    (let s : State := tRun; let t : Nat := 0; let q : Nat := 0; let req : FolioReq := tReq 0x5420 0 0; let b := atTime t s; (q < 66) ∧
      (answersTo b req.iface = true) ∧ (req.malformed = false) ∧ (req.width = 64) ∧ (req.value < 2 ^ 64) ∧ ((frozenOf b 5 req.iface).isSome = false) ∧
      (nfld req.value 55 32 < 8 ∨ nfld req.value 31 0 < 1 ∨ 3584000 < nfld req.value 31 0)) :=
  by and_intros <;> decide +kernel

/-- States and operands that meet the hypotheses of Obligations.WriteResultsCounted, clause by clause. -/
theorem wit_WriteResultsCounted :
    (let s : State := tRun; let t : Nat := 0; let idx : Nat := 0x2450; let sub : Nat := 2; let req : FolioReq := tReq 0x2450 2 5; let b := atTime t s;
      (answersTo b req.iface = true) ∧ (idx < 65536) ∧ (sub < 256)) :=
  by decide +kernel

/-- States and operands that meet the hypotheses of Obligations.WritesJournalled, clause by clause. -/
theorem wit_WritesJournalled :
    (let s : State := tRun; let t : Nat := 0; let idx : Nat := 0x2824; let sub : Nat := 0; let req : FolioReq := tReq 0x2824 0 0; let b := atTime t s;
      (decideWrite b idx sub req ≠ 0) ∧ (idx ≠ 0x1010) ∧ (idx ≠ 0x1018) ∧ (idx ≠ 0x1019) ∧ (idx ≠ 0x101A) ∧ (sub < 256)) :=
  by decide +kernel

/-- States and operands that meet the hypotheses of Obligations.ReadsChangeNothing, clause by clause. -/
theorem wit_ReadsChangeNothing :
    (let idx : Nat := 0x2824; let sub : Nat := 0; let r : FolioRow := (folioRow idx sub).getD ⟨0,0,0,0,0,.ro,false,0,none,false,false,0⟩;
      (folioRow idx sub = some r) ∧ (r.access = .wo)) ∧
    (let s : State := tRun; let iface : Nat := 1; let idx : Nat := 0x2450; let sub : Nat := 2;
      let r : FolioRow := (folioRow idx sub).getD ⟨0,0,0,0,0,.ro,false,0,none,false,false,0⟩; (folioRow idx sub = some r) ∧ (r.access ≠ .wo) ∧
      (viewOf s iface idx sub = none)) ∧
    (let s : State := tRun; let t : Nat := 0; let dest : Nat := broadcastMac; let payload : List Byte := List.replicate 46 1; let b := atTime t s;
      (answering b = true) ∧ (pduOp payload ≠ 2) ∧ (pduOp payload ≠ 3) ∧ (frameHere b dest 0x88B5 = true)) ∧
    (let s : State := tRun; let t : Nat := 0; let h : BitVec 256 := mkHeader 1 0x1001 0x1002 0 0 0 0 0xFF0024500200 3 0 0 false 0; let b := atTime t s;
      let idx := nfld (hOffset h) 31 16; let sub := nfld (hOffset h) 15 8;
      let r : FolioRow := (folioRow idx sub).getD ⟨0,0,0,0,0,.ro,false,0,none,false,false,0⟩; (hType h = 1) ∧ (hDest h = ownEndpoint b) ∧
      (deadSource b (hSource h) = false) ∧ (0xFF0000000000 ≤ hOffset h) ∧ (answersTo b 0 = true) ∧ (folioRow idx sub = some r) ∧
      (windowMalformed h idx sub (hLenM1 h + 1) = false)) :=
  by and_intros <;> decide +kernel

/-- States and operands that meet the hypotheses of Obligations.PlithenCommandsComplete, clause by clause. -/
theorem wit_PlithenCommandsComplete :
    (let s : State := tRun; let t : Nat := 0; let dest : Nat := broadcastMac; let payload : List Byte := List.replicate 46 1; let b := atTime t s;
      (answering b = true) ∧ (frameHere b dest 0x88B5 = true) ∧ (pduOp payload ≠ 2) ∧ (pduOp payload ≠ 3)) ∧
    (let s : State := tRun; let t : Nat := 0; let dest : Nat := ownMac tRun; let payload : List Byte := List.replicate 46 2; let b := atTime t s;
      (answering b = true) ∧ (frameHere b dest 0x88B5 = true) ∧ (pduOp payload = 2) ∧ (dest ≠ broadcastMac)) ∧
    (let s : State := tRun; let t : Nat := 0; let dest : Nat := ownMac tRun; let payload : List Byte := List.replicate 46 3; let b := atTime t s;
      (answering b = true) ∧ (frameHere b dest 0x88B5 = true) ∧ (pduOp payload = 3)) ∧
    (let s : State := tRun; let t : Nat := 0; let dest : Nat := 5; let ethertype : Nat := 0x88B5; let payload : List Byte := []; let b := atTime t s;
      (answering b = true) ∧ (frameHere b dest ethertype = false ∨ (dest = broadcastMac ∧ pduOp payload = 2))) ∧
    (let s : State := setF tRun 0x1040 0x05 1000; let t : Nat := 0; let b := atTime t s; (answering b = true) ∧ (getF b 0x1040 0x05 ≠ 0)) ∧
    (let s : State := setF tRun 0x1040 0x05 0; let t : Nat := 0; let b := atTime t s; (getF b 0x1040 0x05 = 0)) :=
  by and_intros <;> decide +kernel

/-- States and operands that meet the hypotheses of Obligations.JobCommandsComplete, clause by clause; job_room, job_commit, job_adopt show the others. -/
theorem wit_JobCommandsComplete :
    (let s : State := { (modJob tRun 0 (fun x => { x with mode := .starting })) with starts := [0] }; let t : Nat := 0; let jb : Nat := 0;
      let b := atTime t s; (b.starts.head? = some jb) ∧ ((job b jb).mode = .starting) ∧ (b.cw.sweeping.contains jb = false)) ∧
    (let s : State := modJob tRun 0 (fun x => { x with mode := .ending }); let t : Nat := 0; let jb : Nat := 0; let b := atTime t s;
      ((job b jb).mode = .ending) ∧ (jobSigs b jb = []) ∧ (stepInFlight b jb = false)) ∧
    (let s : State := { tRun with cw := { tRun.cw with sweeping := [0] } }; let t : Nat := 0; let jb : Nat := 0; let b := atTime t s;
      (b.cw.sweeping.contains jb = true)) ∧
    (let s : State := tRun; let j : Nat := 0; ((job s j).mode = .free ∨ (job s j).mode = .tornDown)) ∧
    (let s : State := tLk .active id; let t : Nat := 0; let l : Nat := 0; let w : BitVec 256 := tWd 4 (place 4 239 236 + 0); let b := atTime t s;
      let u := noteEntered (wordTaken b l w) w; (GoodNote b l w 4) ∧ (NewNote (wordTaken b l w) l w) ∧
      (runsImage u (fld w 123 118) (fld w 155 124) = false)) :=
  by and_intros <;> decide +kernel

/-- States and operands that meet the hypotheses of Obligations.ErrorCommandsComplete, clause by clause. -/
theorem wit_ErrorCommandsComplete :
    (let s : State := modUnit tRun 0x4002 (fun x => { x with slot := .handling }); let t : Nat := 20000000; let unit : Nat := 0x4002;
      let b := atTime t s; ((unitOf b unit).slot ≠ .idle) ∧ ((unitOf b unit).sinceNs + 10000000 ≤ b.now)) ∧
    (let s : State := { tRun with err := { tRun.err with hopRetrains := [(3, 0)] } }; let t : Nat := 0; let half : Nat := 0; let hop : Nat := 3;
      let t0 : Nat := 0; let b := atTime t s; let k := half * 65536 + hop; (tfind b.err.hopRetrains k = some t0) ∧ (b.now - t0 ≤ 1000000000)) ∧
    (let s : State := { tRun with err := { tRun.err with hopRetrains := [(3, 0)] } }; let t : Nat := 1000000001; let half : Nat := 0; let hop : Nat := 3;
      let t0 : Nat := 0; let b := atTime t s; let k := half * 65536 + hop; (tfind b.err.hopRetrains k = some t0) ∧ (1000000000 < b.now - t0)) ∧
    (let s : State := tRun; let t : Nat := 0; let half : Nat := 0; let hop : Nat := 3; let b := atTime t s; let k := half * 65536 + hop;
      (tfind b.err.hopRetrains k = none)) ∧
    (let s : State := { tRun with fabric := { tRun.fabric with frozen := [{ cls := 0, index := 3, job := 0, thaw := [], releasing := some ([], 0) }] } };
      let t : Nat := 0; let cls : Nat := 0; let index : Nat := 3; let at0 : Nat := 0; let l : List Nat := [];
      let m : FrozenMaster := { cls := 0, index := 3, job := 0, thaw := [], releasing := some ([], 0) }; let b := atTime t s;
      (frozenOf b cls index = some m) ∧ (m.releasing = some (l, at0)) ∧ (l = [] ∨ at0 + 1000000 ≤ b.now)) ∧
    (let s : State := { tRun with err := { tRun.err with reinstating := [{ unit := 0x1005, sinceNs := 0, hurt := false }] } }; let t : Nat := 0;
      let unit : Nat := 0x1005; let ok : Bool := true; let r : Reinstating := { unit := 0x1005, sinceNs := 0, hurt := false }; let b := atTime t s;
      (b.err.reinstating.find? (fun x => decide (x.unit = unit)) = some r) ∧ (ok = true) ∧ (r.hurt = false)) ∧
    (let s : State := { tRun with err := { tRun.err with reinstating := [{ unit := 0x1005, sinceNs := 0, hurt := true }] } }; let t : Nat := 0;
      let unit : Nat := 0x1005; let ok : Bool := true; let r : Reinstating := { unit := 0x1005, sinceNs := 0, hurt := true }; let b := atTime t s;
      (b.err.reinstating.find? (fun x => decide (x.unit = unit)) = some r) ∧ (ok = false ∨ r.hurt = true)) ∧
    (let s : State := tRun; let t : Nat := 0; let module : Nat := 9; let b := atTime t s; let k := unitUcie module; (module < 10) ∧ (fencedU b k = false)) :=
  by and_intros <;> decide +kernel

/-- States and operands that meet the hypotheses of Obligations.KettleCommandsComplete, clause by clause. -/
theorem wit_KettleCommandsComplete :
    (let s : State := { tRun with link := { tRun.link with dark := false }, kettle := { tRun.kettle with epochLinks := [(0, 0x1002)] } };
      let t : Nat := 1000000000; let subject : Nat := 0x1002; let b := atTime t s; (speaking b = true) ∧ (((0, subject) ∈ b.kettle.epochLinks)) ∧
      ((neighbourOf b subject).pulseNs + getF b 0x6400 0x02 * 1000 ≤ b.now) ∧ ((∀ x ∈ b.kettle.suspicions, x.subject ≠ subject)) ∧
      ((subject, (neighbourOf b subject).incarnation) ∉ b.kettle.dead) ∧ ((neighbourOf b subject).suspectNs = none)) ∧
    (let s : State := { tRun with kettle := { tRun.kettle with suspicions := [{ subject := 0x1002, incarnation := 0, sinceNs := 0, voters := [], seen := false }] } };
      let t : Nat := 2000000; let subject : Nat := 0x1002;
      let x : Suspicion := { subject := 0x1002, incarnation := 0, sinceNs := 0, voters := [], seen := false }; let b := atTime t s;
      (x ∈ b.kettle.suspicions) ∧ (x.subject = subject) ∧ (x.sinceNs + 1000000 ≤ b.now)) ∧
    (let s : State := { tRun with link := { tRun.link with dark := false } }; let t : Nat := 0; let b := atTime t s; (speaking b = true)) ∧
    (let s : State := tLk .active id; let t : Nat := 0; let l : Nat := 0; let w : BitVec 256 := tWd 4 (place 0 239 236 + 0); let b := atTime t s;
      (GoodNote b l w 0)) ∧
    (let s : State := tLk .active id; let t : Nat := 0; let l : Nat := 0; let w : BitVec 256 := tWd 4 (place 1 239 236 + 0); let b := atTime t s;
      (NewNote (wordTaken b l w) l w) ∧ (GoodNote b l w 1)) ∧
    (let s : State := { (tLk .active id) with kettle := { tRun.kettle with suspicions := [{ subject := 0, incarnation := 0, sinceNs := 0, voters := [], seen := false }] } };
      let t : Nat := 0; let l : Nat := 0; let w : BitVec 256 := tWd 4 (place 2 239 236 + 0); let b := atTime t s;
      let u := noteEntered (wordTaken b l w) w; (NewNote (wordTaken b l w) l w) ∧ (GoodNote b l w 2) ∧
      ((suspicionOf u (fld w 219 204) (fld w 187 156)).isSome = true)) ∧
    (let s : State := tLk .active id; let t : Nat := 0; let l : Nat := 0; let w : BitVec 256 := tWd 4 (place 3 239 236 + 0); let b := atTime t s;
      (NewNote (wordTaken b l w) l w) ∧ (GoodNote b l w 3)) ∧
    (let s : State := modJob (tLk .active id) 0 (fun x => { x with mode := .running, joint := true, image := some JobImage.none }); let t : Nat := 0;
      let l : Nat := 0; let w : BitVec 256 := tWd 4 (place 4 239 236 + 0); let b := atTime t s; let u := noteEntered (wordTaken b l w) w;
      (NewNote (wordTaken b l w) l w) ∧ (GoodNote b l w 4) ∧ (runsImage u (fld w 123 118) (fld w 155 124) = true) ∧ ((job u (fld w 123 118)).joint = true)) ∧
    (let s : State := { tRun with kettle := { tRun.kettle with lastPulseNs := 1 } }; let t : Nat := 3000000; let b := atTime t s;
      (b.power.phase = .running) ∧ (0 < b.kettle.lastPulseNs) ∧ (b.kettle.lastPulseNs + 2000000 ≤ b.now)) :=
  by and_intros <;> decide +kernel

/-- States and operands that meet the hypotheses of Obligations.PowerCommandsComplete, clause by clause. -/
theorem wit_PowerCommandsComplete :
    (let s : State := tRun; let t : Nat := 0; let b := atTime t s; (b.power.phase = .running)) ∧
    (let s : State := setF tRun 0x7801 0x02 65535; let t : Nat := 0; let b := atTime t s; let p := coreMw b 0 + coreMw b 1 + getF b 0x7801 0x02 * 1000;
      (b.power.phase = .running) ∧ (getF b 0x7801 0x01 * 1000 < p)) ∧
    (let s : State := tRun; let t : Nat := 0; let b := atTime t s; (b.power.phase = .running)) ∧
    (let s : State := tRun; let t : Nat := 0; let b := atTime t s; (b.power.phase = .running)) ∧
    (let s : State := tRun; let t : Nat := 0; let b := atTime t s; (b.power.phase = .running)) ∧
    (let s : State := { State.reset with power := { State.reset.power with phase := .off } }; (s.power.phase = .off)) ∧
    (let heldNs : Nat := 1000; (1000 ≤ heldNs)) ∧
    (let s : State := tRun; let t : Nat := 0; let b := atTime t s; (b.power.coresReleased = true)) ∧
    (let s : State := { tRun with power := { tRun.power with phase := .failing } }; let t : Nat := 0; let b := atTime t s; (b.power.phase = .failing) ∧
      (bypassesHome b = true)) :=
  by and_intros <;> decide +kernel

/-- States and operands that meet the hypotheses of Obligations.BootCommandsComplete, clause by clause; boot_quote show the others. -/
theorem wit_BootCommandsComplete :
    (let s : State := { State.reset with power := { State.reset.power with pwrGood := true } }; (s.power.pwrGood = true) ∧ (s.power.phase = .held)) ∧
    (let s : State := { tRun with power := { tRun.power with phase := .entry } }; (s.power.pwrGood = true) ∧ (s.power.phase = .entry)) ∧
    (let s : State := { (setF tRun 0x7820 0x01 2) with power := { tRun.power with coresReleased := false } }; let t : Nat := 0; let b := atTime t s;
      (b.power.phase = .running) ∧ (b.power.coresReleased = false) ∧ (nbit (getF b 0x7820 0x01) 31 = false) ∧ (nbit (getF b 0x7820 0x01) 1 = true)) ∧
    (let s : State := setF tRun 0x7820 0x01 4; let t : Nat := 0; let b := atTime t s; (b.power.phase = .running) ∧ (nbit (getF b 0x7820 0x01) 2 = true) ∧
      (nbit (getF b 0x7820 0x01) 3 = false)) ∧
    (let s : State := tRun; let t : Nat := 0; let b := atTime t s; (b.power.phase = .running) ∧ (b.power.coresReleased = true)) ∧
    (let s : State := setF tRun 0x7820 0x01 8; let t : Nat := 0; let b := atTime t s; (b.power.phase = .running) ∧ (nbit (getF b 0x7820 0x01) 3 = true) ∧
      (b.power.lpddrReady = false)) ∧
    (let s : State := tRun; let t : Nat := 0; let b := atTime t s; (b.power.phase = .running)) ∧
    (let s : State := modSeq tRun 3 (fun q => { q with job := some 0, transfers := [{ moves := [{ src := 0x800000000000, dst := 0, len := 4 }], event := 0, load := true, away := [], fault := { corrected := [], halt := none }, gather := none }] });
      let t : Nat := 0; let id : Nat := 3; let j : Nat := 0;
      let x : Transfer := { moves := [{ src := 0x800000000000, dst := 0, len := 4 }], event := 0, load := true, away := [], fault := { corrected := [], halt := none }, gather := none };
      let b := atTime t s; ((quire b id).job = some j) ∧ ((quire b id).transfers.find? hostTransfer = some x)) ∧
    (let s : State := tSig .swappingIn; let t : Nat := 0; let sig : Nat := 5; let b := atTime t s; ((sigE b sig).state = .swappingIn)) ∧
    (let s : State := { tRun with boot := { tRun.boot with update := some { kind := 2, slot := 0 } } }; let t : Nat := 0;
      let image : BootImage := { info := { tInfo 1 with readOk := false }, ownKey := 0, img := [], overrides := [] };
      let r : UpdateRun := { kind := 2, slot := 0 }; let b := atTime t s;
      let i := { image with info := { image.info with readOk := image.info.readOk && ownReadable b (getF b 0x7C40 0x01) none } };
      (b.boot.update = some r) ∧ (bootCode r.kind i ≠ 0)) ∧
    (let s : State := { tRun with boot := { tRun.boot with update := some { kind := 2, slot := 0 } } }; let t : Nat := 0;
      let image : BootImage := { info := tInfo 2, ownKey := 0, img := [], overrides := [] }; let readBack : Bool := true;
      let r : UpdateRun := { kind := 2, slot := 0 }; let b := atTime t s;
      let i := { image with info := { image.info with readOk := image.info.readOk && ownReadable b (getF b 0x7C40 0x01) none } };
      (b.boot.update = some r) ∧ (bootCode r.kind i = 0) ∧ (readBack = true)) ∧
    (let s : State := { tRun with boot := { tRun.boot with update := some { kind := 2, slot := 0 } } }; let t : Nat := 0;
      let image : BootImage := { info := tInfo 2, ownKey := 0, img := [], overrides := [] }; let readBack : Bool := false;
      let r : UpdateRun := { kind := 2, slot := 0 }; let b := atTime t s;
      let i := { image with info := { image.info with readOk := image.info.readOk && ownReadable b (getF b 0x7C40 0x01) none } };
      (b.boot.update = some r) ∧ (bootCode r.kind i = 0) ∧ (readBack = false)) ∧
    (let s : State := tRun; let t : Nat := 0; let b := atTime t s; (b.power.phase = .running)) ∧
    (let s : State := { tRun with power := { tRun.power with tapLoaded := true } }; let t : Nat := 0; let b := atTime t s; (b.power.tapLoaded = true)) ∧
    (let s : State := tRun; let t : Nat := 0; let b := atTime t s; (b.power.phase ≠ .off)) :=
  by and_intros <;> decide +kernel

/-- States and operands that meet the hypotheses of Obligations.StoresLandWhereComputed, clause by clause; store_gutter show the others. -/
theorem wit_StoresLandWhereComputed :
    (let s : State := modSeq tRun 3 (fun q => { q with job := some 0, transfers := [{ moves := [], event := 0, load := true, away := [], fault := { corrected := [], halt := none }, gather := none }] });
      let t : Nat := 0; let q : Nat := 3;
      let x : Transfer := { moves := [], event := 0, load := true, away := [], fault := { corrected := [], halt := none }, gather := none };
      let r : List Transfer := []; let b := atTime t s; (quireWaits b q = false) ∧ ((quire b q).transfers = x :: r) ∧ ((∀ y ∈ r, y.gather = none))) ∧
    (let s : State := modJob tRun 0 (fun x => { x with columns := [0] }); let t : Nat := 0; let cls : Nat := 4; let index : Nat := 0; let jb : Nat := 0;
      let addr : Nat := 0x180000000000; let data : List Byte := [1]; let b := atTime t s; (inBroadcast addr = true) ∧ (data ≠ []) ∧
      ((addr - 0x180000000000) % 0x400000 + data.length ≤ 0x400000) ∧ (bundleOf b jb addr = true) ∧ (cls = 4 ∨ (cls = 0 ∧ (quire b index).job = some jb))) :=
  by and_intros <;> decide +kernel

/-- Every command of Obligations.StepCommandFrames answers a next state. -/
theorem wit_StepCommandFrames :
    [.halt 0 0, .nop 0 0, .loopEnd 0 0, .arBase 0 0, .arStride 0 0, .gvOp 0 ⟨0, none⟩, .gvRed 0 ⟨0, none⟩, .guRun 0 0, .sigPost 0 0,
     .sigWait 0 0, .sigWaitRelease 0 0, .ctlCall 0 0, .bar 0 0, .barRelease 0 0 0, .stepCarried 0 0, .windowEnd 0 0 [],
     .splitSizing 0 0, .refreshDue 0 0, .refreshComplete 0 0, .ordinaryAccess 0 0 0 0 true, .spanEnd 0 0, .transferComplete 0 0,
     .gvOp 0 ⟨0, none⟩, .gvRed 0 ⟨0, none⟩, .transferComplete 0 0, .budgetExpiry 0 0, .prefillOffer 0 0 0 0 0, .prefillOfferSend 0 0 [],
     .keepaliveTimer 0 0, .unsizedMessage 0, .handoffProbe 0 0, .handoffProbeTimer 0 0, .confirmDelivered 0 0,
     .confirmUndeliverable 0 0, .claim 0 0, .swapRegionReleased 0 0, .block 0 ⟨0, 0, 0⟩ [], .output 0 ⟨0, 0, 0⟩ [], .remoteTimeout 0 0,
     .ringPlan 0 0 ⟨[], []⟩, .catchwordSweepDone 0 0, .yieldedJobRestart 0 0, .bookmarkCommit 0 0 0].all
      tAnswers = true ∧ (quire tRun 0).transfers.length ≤ 1 := by decide +kernel

/-- Every command of Obligations.UnitCommandFrames answers a next state. -/
theorem wit_UnitCommandFrames :
    [.advert 0 0, .grant 0 0, .advertTimer 0, .lenderListPoll 0, .lpddr6RefreshRateRead 0 0 0, .lpddr6Retrain 0 0,
     .flashTempSample 0 [], .flashRead 0 0 0 0, .flashRead 0 0 0 0, .reinstateSelfTestDone 0 0 true 0, .flashWrite 0 0 0 [],
     .release 0 0, .revokeTimeout 0 0, .creditTimer 0 0, .idleTimer 0 0, .linkProbeTimer 0 0, .pulseTimer 0, .lightDetected 0 0,
     .trainingComplete 0 0, .testingComplete 0 0, .holdoffExpiry 0 0, .laserSourceReady 0 0 0, .linkProbe 0 0 0, .lossOfLock 0 0,
     .echo 0 0 0, .measuringComplete 0 0, .cvuDmaComplete 0 0 0 0 [], .keyZeroed 0 0, .openObject 0 0 [], .caseObject 0 0 0 0 [],
     .ceHourRollover 0, .handlingEnd 0 0, .handlingLimitExpiry 0 0, .reinstateSelfTestDone 0 0 true 0, .frameDiscard 0 0 0 [],
     .announceTimer 0, .tipinLoadDone 0 0 (tInfo 4), .ijtagAccess 0 0, .localTimeCorrection 0 [], .stackTrainingComplete 0 true,
     .vrhotAssert 0 true, .vrhotEnd 0 true, .powerLimitCheck 0, .pfailRelease 0,
     .updateComplete 0 ({ info := tInfo 1, ownKey := 0, img := [], overrides := [] }) true, .memoryFillComplete 0, .imagesVerified 0 [],
     .pcieL0Reached 0 0 0 true []].all
      tAnswers = true ∧ flashEffort 0 ≠ 2 ∧ 0 / 4096 ≠ 3 := by decide +kernel

/-- Entries 0 and 1 are different. -/
theorem wit_FreeEntryKeepsFields : (1 : Nat) ≠ 0 := by decide

end Sys2Proof.Tests
end

section
/-! SUPPORT. Frames by composition: what each state operation keeps, said once, and how frames chain. -/

namespace Sys2Proof.Machine

theorem Part.Same.trans {p : Part} {s u v : State} (hsu : p.Same s u) (huv : p.Same u v) : p.Same s v := by
  cases p
  case mem => exact fun a => (huv a).trans (hsu a)
  all_goals exact Eq.trans huv hsu

/-- Two changes in a row keep what each of them keeps. -/
theorem KeepsBut.trans {l m : List Part} {s u v : State} (hsu : KeepsBut l s u) (huv : KeepsBut m u v) : KeepsBut (l ++ m) s v := by
  intro p hp
  obtain ⟨hl, hm⟩ := not_or.mp (mt List.mem_append.mpr hp)
  exact (hsu p hl).trans (huv p hm)

theorem keepsBut_atTime (t : Nat) (s : State) : KeepsBut [.now] s (atTime t s) := by
  intro p hp
  cases p <;> simp_all [Part.Same]

theorem keepsBut_modE (s : State) (n : Nat) (f : SigEntry → SigEntry) : KeepsBut [.sig] s (modE s n f) := by
  intro p hp
  cases p <;> simp_all [Part.Same]

theorem keepsBut_incF (s : State) (i k : Nat) : KeepsBut [.dict] s (incF s i k) := by
  intro p hp
  cases p <;> simp_all [Part.Same]

/-- Counting in one folio leaves every other folio as it is; `s` is any state with the same dictionary as the one counted in. -/
theorem foliosBut_incF {s b : State} (hb : b.dict = s.dict) {i k : Nat} (hk : k < 256) : FoliosBut [(i, k)] s (incF b i k) := by
  refine ⟨by rw [← hb]; rfl, fun idx sub hsub hne => ?_⟩
  have hother : ¬(idx = i ∧ sub = k) := by simpa using hne
  calc getF (incF b i k) idx sub = getF b idx sub := getF_incF_other b (folioKey_ne hk hsub hother)
    _ = getF s idx sub := by unfold getF; rw [hb]

end Sys2Proof.Machine
end

section
/-! PROOFS. The statements of chapter 2: signatures and admission. -/

namespace Sys2Proof.Machine

open Host

/-! ### What the operations on a signature leave -/

@[simp] theorem sigE_incF (s : State) (i k n : Nat) : sigE (incF s i k) n = sigE s n := rfl
@[simp] theorem sigA_incF (s : State) (i k n : Nat) : sigA (incF s i k) n = sigA s n := rfl
@[simp] theorem sigE_atTime (t : Nat) (s : State) (n : Nat) : sigE (atTime t s) n = sigE s n := rfl
@[simp] theorem sigA_atTime (t : Nat) (s : State) (n : Nat) : sigA (atTime t s) n = sigA s n := rfl
@[simp] theorem sigE_maxF (s : State) (i k v n : Nat) : sigE (maxF s i k v) n = sigE s n := by simp [sigE]
@[simp] theorem sigA_maxF (s : State) (i k v n : Nat) : sigA (maxF s i k v) n = sigA s n := by simp [sigA]

theorem setSigState_live (s : State) (n : Nat) {st : SigState} (h : st ≠ .free) :
    ∃ v, setSigState s n st = maxF (modE s n (fun e => { e with state := st })) 0x2000 0x03 v :=
  ⟨_, if_neg h⟩

/-- STATE is the only field of the table that a transition writes, whichever state is entered. -/
theorem sigE_setSigState (s : State) (n : Nat) (st : SigState) (m : Nat) :
    sigE (setSigState s n st) m = sigE (modE s n (fun e => { e with state := st })) m := by
  by_cases h : st = .free
  · subst h; rfl
  · obtain ⟨v, hv⟩ := setSigState_live s n h
    rw [hv, sigE_maxF]

@[simp] theorem sigE_setSigState_same (s : State) (n : Nat) (st : SigState) :
    sigE (setSigState s n st) n = { sigE s n with state := st } := by
  rw [sigE_setSigState, sigE_modE_same]

theorem sigE_setSigState_other (s : State) {n m : Nat} (st : SigState) (h : m ≠ n) : sigE (setSigState s n st) m = sigE s m := by
  rw [sigE_setSigState, sigE_modE_other s _ h]

theorem sigA_setSigState_live (s : State) (n : Nat) {st : SigState} (h : st ≠ .free) (m : Nat) :
    sigA (setSigState s n st) m = sigA s m := by
  obtain ⟨v, hv⟩ := setSigState_live s n h
  rw [hv, sigA_maxF, sigA_modE]

/-- A transition keeps the mark of a pending cancel and the holder's mark, so R34's test may be made on the state before it. -/
theorem enterState_of_live (s : State) (n : Nat) {st : SigState} (h : st ≠ .free) :
    enterState s n st =
      if (sigE s n).cancelPending ∧ (sigA s n).holder = true then drain (setSigState s n st) n 2 else setSigState s n st := by
  simp only [enterState, sigE_setSigState_same, sigA_setSigState_live s n h]

/-! ### A signature becomes overdue (R38) -/

theorem sigE_setOverdue_same (s : State) (n : Nat) : sigE (setOverdue s n) n = { sigE s n with overdue := true } := by
  simp [setOverdue]

theorem sigE_setOverdue_other (s : State) {n m : Nat} (h : m ≠ n) : sigE (setOverdue s n) m = sigE s m := by
  simp [setOverdue, sigE_modE_other s _ h]

theorem sigA_setOverdue (s : State) (n m : Nat) : sigA (setOverdue s n) m = sigA s m := by
  simp [setOverdue]

/-- Becoming overdue is counted in the folio of the signature's own job. -/
theorem getF_setOverdue {s : State} {n j : Nat} (hj : (sigE s n).job.toNat = j) :
    getF (setOverdue s n) 0x2022 j = (getF s 0x2022 j + 1) % 2 ^ folioWidth 0x2022 j := by
  subst hj
  simp [setOverdue]

theorem foliosBut_setOverdue (s : State) (n : Nat) : FoliosBut [(0x2022, (sigE s n).job.toNat)] s (setOverdue s n) :=
  have hjob : (sigE s n).job.toNat < 256 := by omega
  foliosBut_incF (modE_dict s n _) hjob

theorem keepsBut_setOverdue (s : State) (n : Nat) : KeepsBut [.sig, .dict] s (setOverdue s n) :=
  (keepsBut_modE s n _).trans (keepsBut_incF _ _ _)

/-- The guard of BUDGET_EXPIRY: a latency-critical signature before DRAINING, not yet overdue, with nothing of its budget left (R38). -/
def BudgetSpent (s : State) (n : Nat) : Prop :=
  beforeDraining (sigE s n).state = true ∧ (sigE s n).bestEffort = false ∧ (sigE s n).overdue = false ∧ remaining s n = some 0

theorem exec_budgetExpiry_spent {t sig : Nat} {s : State} (h : BudgetSpent (atTime t s) sig) :
    exec (.budgetExpiry t sig) s = .next (setOverdue (atTime t s) sig) :=
  congrArg Outcome.next (if_pos h)

theorem exec_budgetExpiry_unspent {t sig : Nat} {s : State} (h : ¬ BudgetSpent (atTime t s) sig) :
    exec (.budgetExpiry t sig) s = .next (atTime t s) :=
  congrArg Outcome.next (if_neg h)

/-- Settles O10: past its guard the command is `setOverdue`, whose rules give the entry, the count and the frame. -/
theorem budgetExpiryMarksOverdue : Obligations.BudgetExpiryMarksOverdue := by
  intro t sig s b j
  constructor
  · intro hst hclass hover hrem
    refine ⟨_, exec_budgetExpiry_spent ⟨hst, hclass, hover, hrem⟩, ?_, ?_, ?_, ?_, ?_, ?_⟩
    · exact sigE_setOverdue_same b sig
    · exact fun n hn => sigE_setOverdue_other b hn
    · exact fun n => sigA_setOverdue b sig n
    · exact getF_setOverdue rfl
    · exact foliosBut_setOverdue b sig
    · exact (keepsBut_atTime t s).trans (keepsBut_setOverdue b sig)
  · exact exec_budgetExpiry_unspent

/-! ### Offers and messages that fail their checks (R40, R50) -/

theorem exec_prefillOffer_live {t endpoint jb queueUs rate : Nat} {s : State} (h : deadSource (atTime t s) endpoint = false) :
    let others := s.sig.offers.filter (fun x => !(decide (x.endpoint = endpoint) && decide (x.job = jb)))
    let o : PrefillOffer := { endpoint := endpoint, job := jb, queueUs := queueUs, rate := rate, receivedNs := max s.now t }
    exec (.prefillOffer t endpoint jb queueUs rate) s =
      .next { (atTime t s) with sig := { s.sig with offers := others ++ [o] } } :=
  if_neg (by simp [h])

theorem exec_unsizedMessage (t : Nat) (s : State) : exec (.unsizedMessage t) s = .next (incF (atTime t s) 0x2050 0x02) := rfl

/-- Settles O14: the offer by its guard, the bad message by the rules of the counter it raises. -/
theorem offersAndBadMessagesKept : Obligations.OffersAndBadMessagesKept := by
  constructor
  · intro t endpoint jb queueUs rate s b kept hlive
    exact exec_prefillOffer_live hlive
  · intro t s b
    refine ⟨exec_unsizedMessage t s, ?_, ?_, ?_⟩
    · exact getF_incF_same b 0x2050 0x02
    · exact foliosBut_incF (atTime_dict t s) (by decide)
    · exact (keepsBut_atTime t s).trans (keepsBut_incF b 0x2050 0x02)

/-! ### The commands, each where it acts -/

theorem exec_admissionRequest_live {t src : Nat} {request : BitVec 512} {s : State} (h : deadSource (atTime t s) src = false) :
    exec (.admissionRequest t src request) s =
      .next (admitRequest (atTime t s) src none (delayUs (atTime t s) src) request) :=
  congrArg Outcome.next (if_neg (by simp [h]))

theorem exec_promptReadComplete_admitting {t sig : Nat} {ok : Bool} {words : List Nat} {s : State}
    (h : (sigE (atTime t s) sig).state = .admitting) :
    exec (.promptReadComplete t sig ok words) s =
      .next (admitNext (admitRead (atTime t s) sig ok words) (sigE (atTime t s) sig).job.toNat) :=
  if_neg (not_not.mpr h)

theorem exec_lifetimeExpiry_due {t sig : Nat} {s : State} (hlive : (sigE (atTime t s) sig).state ≠ .free)
    (hdue : (sigA (atTime t s) sig).bornNs + getF (atTime t s) 0x2010 0x05 * 1000000000 ≤ (atTime t s).now) :
    exec (.lifetimeExpiry t sig) s = .next (stopSig (atTime t s) sig 3 false) :=
  congrArg Outcome.next (if_pos ⟨hlive, hdue⟩)

/-- A home message of the kind that its command names, from a live source and sound by R50, takes its effect by its type. -/
theorem homeKind_sound {s : State} {m : BitVec 256} {kind : Nat} (hkind : fld m 255 248 = kind)
    (hlive : deadSource s (fld m 207 192) = false) (hok : homeOk s m = true) :
    homeKind s m kind =
      if kind = 3 then homeAck s m else if kind = 4 then homeEndAck s m else stopSig s (fld m 223 208) 2 true := by
  simp [homeKind, homeMessage, hkind, hlive, hok]

theorem exec_prefillOfferSend_running {t jb : Nat} {dests : List Nat} {s : State} (hrole : roleActive (atTime t s) = 0)
    (hmode : (job (atTime t s) jb).mode = .running) : let b := atTime t s
    exec (.prefillOfferSend t jb dests) s = .next (dests.foldl (fun u d =>
      transmit u (.message 1 d (prefillOfferHeader u jb (freshOf b % 2 ^ 32) (freshOf (draw b) % 2 ^ 32)) [])) (draw (draw b))) :=
  if_neg (by simp [hrole, hmode])

/-- Settles O9: each command past its guard; the three home messages by what a sound one does. -/
theorem signatureCommandsComplete : Obligations.SignatureCommandsComplete := by
  refine ⟨?request, ?prompt, ?lifetime, ?ack, ?endAck, ?cancel, ?queue, ?send⟩
  case request => exact fun _ _ _ _ => exec_admissionRequest_live
  case prompt => exact fun _ _ _ _ _ => exec_promptReadComplete_admitting
  case lifetime => exact fun _ _ _ => exec_lifetimeExpiry_due
  case ack => exact fun _ _ _ hkind hlive hok => congrArg Outcome.next (homeKind_sound hkind hlive hok)
  case endAck => exact fun _ _ _ hkind hlive hok => congrArg Outcome.next (homeKind_sound hkind hlive hok)
  case cancel => exact fun _ _ _ hkind hlive hok => congrArg Outcome.next (homeKind_sound hkind hlive hok)
  case queue => exact fun _ _ _ _ => rfl
  case send => exact fun _ _ _ _ => exec_prefillOfferSend_running

/-! ### Transitions (R30, R34) -/

/-- Settles O11: a transition writes STATE of one entry, and becoming FREE is one. -/
theorem freeEntryKeepsFields : Obligations.FreeEntryKeepsFields :=
  fun s n => ⟨sigE_setSigState_same s n .free, fun _ hm => sigE_setSigState_other s .free hm⟩

/-- Settles O12: none of the five states is FREE, so the transition keeps both the pending cancel and the holder's mark. -/
theorem pendingCancelApplied : Obligations.PendingCancelApplied := by
  intro s n st hst
  have hlive : st ≠ .free := by rintro rfl; simp at hst
  rw [enterState_of_live s n hlive]
  constructor
  · intro hcancel hholder
    exact if_pos ⟨hcancel, hholder⟩
  · rintro (hcancel | hholder)
    · exact if_neg (by simp [hcancel])
    · exact if_neg (by simp [hholder])

end Sys2Proof.Machine
end

section
/-! PROOFS. The statements of chapter 3: leaves and swaps. -/

namespace Sys2Proof.Machine

open Host

/-! ### Places in a leaf (R54, R55) -/

/-- Number, in the order of R54 and R55, of item `x` of the `n` items that slot `t` of `len` holds for the keys (`k` = 0) or values (`k` = 1)
of head `h`. -/
def itemIndex (len n h k t x : Nat) : Nat := ((h * 2 + k) * len + t) * n + x

theorem leafBit_eq_itemIndex (i : JobImage) (h k t d : Nat) :
    leafBit i h k t d = itemIndex i.leafSize i.headDim h k t d * kvBits i.fmt := rfl

theorem leafScaleByte_eq_itemIndex (i : JobImage) (h k t b : Nat) :
    leafScaleByte i h k t b = itemIndex i.leafSize (i.headDim / 32) h k t b * kvScale i.fmt :=
  (Nat.add_mul _ _ _).symm

/-- A number has one quotient and one remainder by `n`. -/
theorem mul_add_inj_of_lt {n a b x y : Nat} (hx : x < n) (hy : y < n) (h : a * n + x = b * n + y) : a = b ∧ x = y := by
  have hn : 0 < n := Nat.zero_lt_of_lt hx
  have hquot : a = b := by
    simpa [Nat.mul_comm _ n, Nat.mul_add_div hn, Nat.div_eq_of_lt hx, Nat.div_eq_of_lt hy] using congrArg (· / n) h
  subst hquot
  exact ⟨rfl, Nat.add_left_cancel h⟩

/-- Head, key or value, slot and item are the digits of an item's number, so no two items share one. -/
theorem itemIndex_inj {len n h k t x h2 k2 t2 x2 : Nat} (hk : k < 2) (hk2 : k2 < 2) (ht : t < len) (ht2 : t2 < len) (hx : x < n) (hx2 : x2 < n)
    (heq : itemIndex len n h k t x = itemIndex len n h2 k2 t2 x2) : (h, k, t, x) = (h2, k2, t2, x2) := by
  obtain ⟨hslot, rfl⟩ := mul_add_inj_of_lt hx hx2 heq
  obtain ⟨hhalf, rfl⟩ := mul_add_inj_of_lt ht ht2 hslot
  obtain ⟨rfl, rfl⟩ := mul_add_inj_of_lt hk hk2 hhalf
  rfl

/-- Cells of one width at different numbers are apart. -/
theorem cells_apart {a b : Nat} (w : Nat) (h : a ≠ b) : a * w + w ≤ b * w ∨ b * w + w ≤ a * w := by
  rw [← Nat.succ_mul, ← Nat.succ_mul]
  exact (Nat.lt_or_gt_of_ne h).imp (Nat.mul_le_mul_right w) (Nat.mul_le_mul_right w)

/-- Settles O17: an element lies at its number times the width of an element, and different elements have different numbers. -/
theorem leafElementPlaces : Obligations.LeafElementPlaces := by
  refine ⟨fun _ _ _ _ _ => rfl, ?_⟩
  intro i h k t d h2 k2 t2 d2 hk hk2 ht ht2 hd hd2 hne
  simp only [leafBit_eq_itemIndex]
  exact cells_apart _ (mt (itemIndex_inj hk hk2 ht ht2 hd hd2) hne)

/-- Settles O18: a block's scales lie at the block's number times their width, and different blocks have different numbers. -/
theorem leafScalePlaces : Obligations.LeafScalePlaces := by
  refine ⟨fun _ _ _ _ _ => rfl, ?_⟩
  intro i h k t b h2 k2 t2 b2 hk hk2 ht ht2 hb hb2 hne
  simp only [leafScaleByte_eq_itemIndex]
  exact cells_apart _ (mt (itemIndex_inj hk hk2 ht ht2 hb hb2) hne)

/-! ### What a released swap region changes (R78) -/

@[simp] theorem job_atTime (t : Nat) (s : State) (k : Nat) : job (atTime t s) k = job s k := rfl
@[simp] theorem job_emit (s : State) (o : Out) (k : Nat) : job (emit s o) k = job s k := rfl

theorem KeepsBut.mono {l m : List Part} {s u : State} (hlm : l ⊆ m) (h : KeepsBut l s u) : KeepsBut m s u :=
  fun p hp => h p (fun hl => hp (hlm hl))

theorem keepsBut_emit (s : State) (o : Out) : KeepsBut [.out] s (emit s o) := by
  intro p hp
  cases p <;> simp_all [Part.Same]

theorem keepsBut_modJob (s : State) (j : Nat) (f : JobSt → JobSt) : KeepsBut [.jobs] s (modJob s j f) := by
  intro p hp
  cases p <;> simp_all [Part.Same]

/-- The job is no longer waited for, and the host is told that its swap region is free. -/
def swapRegionFreed (s : State) (jb : Nat) : State := emit (modJob s jb (fun x => { x with swapLeft := [] })) (.swapReleased jb)

theorem out_swapRegionFreed (s : State) (jb : Nat) : (swapRegionFreed s jb).out = s.out ++ [.swapReleased jb] := rfl

theorem job_swapRegionFreed_same (s : State) (jb : Nat) : job (swapRegionFreed s jb) jb = { job s jb with swapLeft := [] } := by
  simp [swapRegionFreed]

theorem job_swapRegionFreed_other (s : State) {jb k : Nat} (h : k ≠ jb) : job (swapRegionFreed s jb) k = job s k := by
  simp [swapRegionFreed, job_modJob_other s _ h]

theorem keepsBut_swapRegionFreed (s : State) (jb : Nat) : KeepsBut [.jobs, .out] s (swapRegionFreed s jb) :=
  (keepsBut_modJob s jb _).trans (keepsBut_emit _ _)

theorem exec_swapRegionReleased_waiting {t jb : Nat} {s : State} (h : (job (atTime t s) jb).swapLeft ≠ []) :
    exec (.swapRegionReleased t jb) s = .next (swapRegionFreed (atTime t s) jb) :=
  congrArg Outcome.next (if_neg h)

/-! ### Swap-out (R75) -/

/-- A group of the signature has already been written to the swap region. -/
abbrev SwapBegun (s : State) (n : Nat) : Prop := (job s (sigE s n).job.toNat).swapped.any (fun o => decide (o.1 = n)) = true

/-- Signature `n` of `s` is ready to be swapped out to region `r`, with a place in `offs` for each of its private groups: no step holds it, and
its swap-out has not begun. -/
structure SwapOutReady (s : State) (n r : Nat) (offs : List Nat) : Prop where
  state : (sigE s n).state = .swappingOut
  notHeld : stepHolds s n = false
  notBegun : ¬ SwapBegun s n
  hasGroups : privateGroups s n ≠ []
  region : swapRegion s (sigE s n).job.toNat = some r
  places : placeSwap s (swapSize s (sigE s n).job.toNat) (swapGroupBytes s (sigE s n).job.toNat) (privateGroups s n).length
    ((job s (sigE s n).job.toNat).swapped.map (fun o => (o.2.2.1, o.2.2.2))) = some offs

theorem exec_swapOutBegin_ready {t sig r : Nat} {offs : List Nat} {s : State} (h : SwapOutReady (atTime t s) sig r offs) :
    exec (.swapOutBegin t sig) s = .next (swapGroups (draw (atTime t s)) sig r ((privateGroups (atTime t s) sig).zip offs)) := by
  have hguard : ¬ ((sigE (atTime t s) sig).state ≠ .swappingOut ∨ stepHolds (atTime t s) sig = true ∨ SwapBegun (atTime t s) sig) :=
    not_or.mpr ⟨not_not.mpr h.state, not_or.mpr ⟨Bool.eq_false_iff.mp h.notHeld, h.notBegun⟩⟩
  change execSwapOutBegin t sig s = _
  unfold execSwapOutBegin
  rw [if_neg hguard, if_neg h.hasGroups]
  simp only [h.region, h.places]

theorem exec_swapOutConfirmed_begun {t sig : Nat} {s : State} (hst : (sigE (atTime t s) sig).state = .swappingOut)
    (hbegun : SwapBegun (atTime t s) sig) : exec (.swapOutConfirmed t sig) s = .next (swapWritten (atTime t s) sig) :=
  congrArg Outcome.next (if_neg (not_or.mpr ⟨not_not.mpr hst, ne_false_of_eq_true hbegun⟩))

/-! ### Swap-in (R76, R77) -/

/-- Signature `n` of `s` is swapping in and reads the group at position `p`, which is to take the place of group `g`; `ps` and `gs` come
after them. -/
structure SwapReading (s : State) (n p g : Nat) (ps gs : List Nat) : Prop where
  state : (sigE s n).state = .swappingIn
  left : (sigA s n).swapLeft = p :: ps
  groups : (sigA s n).handoffGroups = g :: gs

section
variable {t sig p g : Nat} {ps gs : List Nat} {objects : List (List Byte)} {u s : State}

/-- Every layer of the group has opened: it takes its place and the next one is read. -/
theorem exec_swapInGroupRead_opened {raws : List (List Byte)} (h : SwapReading (atTime t s) sig p g ps gs)
    (hopen : openAll (atTime t s) (sigE (atTime t s) sig).job.toNat
      ((leafOf (atTime t s) (sigE (atTime t s) sig).job.toNat g 0).column / 512) objects = (u, some raws))
    (hlen : objects.length = layerCount u (sigE (atTime t s) sig).job.toNat) :
    exec (.swapInGroupRead t sig objects) s =
      .next (swapNext (modA (placeSwapped u sig p g raws) sig (fun a => { a with swapLeft := ps, handoffGroups := gs, swapRetries := 0 })) sig) := by
  change execSwapInGroupRead t sig objects s = _
  simp only [execSwapInGroupRead, h.state, h.left, h.groups, hopen, hlen, ne_eq, not_true_eq_false, if_true, if_false]

/-- A layer of the group has not opened: the repeats made so far decide whether it is read again. -/
theorem exec_swapInGroupRead_failed (h : SwapReading (atTime t s) sig p g ps gs)
    (hopen : openAll (atTime t s) (sigE (atTime t s) sig).job.toNat
      ((leafOf (atTime t s) (sigE (atTime t s) sig).job.toNat g 0).column / 512) objects = (u, none)) :
    let j := (sigE (atTime t s) sig).job.toNat
    exec (.swapInGroupRead t sig objects) s =
      if (sigA (atTime t s) sig).swapRetries < getF u 0x2410 0x02 then
        .next (readSwapped (incF (modA u sig (fun a => { a with swapRetries := a.swapRetries + 1 })) 0x2409 j) sig p)
      else .next (tearDownJob (voidStep (logErr (incF u 0x243E j) 0x38 0 0 (some j) g 0) j) j) := by
  intro j
  change execSwapInGroupRead t sig objects s = _
  simp only [execSwapInGroupRead, h.state, h.left, h.groups, hopen, ne_eq, not_true_eq_false, if_false, ite_self, j]

end

/-- Settles O15: each command past its guard; the release by the rules of the record and the output that it writes. -/
theorem swapCommandsComplete : Obligations.SwapCommandsComplete := by
  refine ⟨?begin, ?confirmed, ?groupRead, ?released⟩
  case begin =>
    exact fun _ _ _ _ _ hst hheld hbegun hgs hr hoffs =>
      exec_swapOutBegin_ready ⟨hst, hheld, Bool.eq_false_iff.mp hbegun, hgs, hr, hoffs⟩
  case confirmed => exact fun _ _ _ => exec_swapOutConfirmed_begun
  case groupRead => exact fun _ _ _ _ _ _ _ _ _ _ hst hleft hgroups => exec_swapInGroupRead_opened ⟨hst, hleft, hgroups⟩
  case released =>
    intro t jb s b hwaits
    refine ⟨_, exec_swapRegionReleased_waiting hwaits, ?_, ?_, ?_, ?_⟩
    · exact out_swapRegionFreed b jb
    · exact job_swapRegionFreed_same b jb
    · exact fun k hk => job_swapRegionFreed_other b hk
    · exact ((keepsBut_atTime t s).trans (keepsBut_swapRegionFreed b jb)).mono (by decide)

/-- Settles O16: the two outcomes of a failed read, by the number of repeats made. -/
theorem swapInReadRepeats : Obligations.SwapInReadRepeats := by
  intro t sig p g ps gs objects u s b j hst hleft hgroups hopen
  have hfailed := exec_swapInGroupRead_failed ⟨hst, hleft, hgroups⟩ hopen
  constructor
  · exact fun hfew => hfailed.trans (if_pos hfew)
  · exact fun hmany => hfailed.trans (if_neg (Nat.not_lt.mpr hmany))

end Sys2Proof.Machine
end

section
/-! PROOFS. The statement of chapter 4: step composition. -/

namespace Sys2Proof.Machine

open Host

section
variable {t jb : Nat} {s : State}

/-! ### A window opens: sizing, boundary phase, freeze and step phase (R82, R84, R91, R93, R134)

The facts about a guard are about `atTime t s`, the state that the command reads, so `simp` is kept from moving jobs and folios back to `s`. -/

/-- The job of `s` runs steps, its first window has opened, and no step phase has begun in the window now open. -/
structure BetweenSteps (s : State) (j : Nat) : Prop where
  stepping : stepping s j = true
  opened : (job s j).window ≠ 0
  noStep : (job s j).inStep = false

theorem exec_splitSizing_unsized (h : BetweenSteps (atTime t s) jb)
    (hunsized : (job (atTime t s) jb).sizedPeriod ≠ some (splitPeriod (atTime t s) jb)) :
    exec (.splitSizing t jb) s = .next (sizeSplit jb (atTime t s)) :=
  if_neg (by simp [-job_atTime, h.stepping, h.opened, h.noStep, hunsized])

/-- The window of the job of `s` has reached its nominal end, no part's step runs, and no boundary phase waits for a freeze routine. -/
structure BoundaryDue (s : State) (j : Nat) : Prop where
  stepping : stepping s j = true
  windowOver : windowEnd s j ≤ s.now
  genIdle : partRuns (job s j).gen = false
  promptIdle : partRuns (job s j).prompt = false
  notAwaiting : (job s j).awaiting = none

theorem exec_boundaryPhase_due {x : BoundaryIn} (h : BoundaryDue (atTime t s) jb) (hreturned : (job (atTime t s) jb).freezeOut = []) :
    exec (.boundaryPhase t jb x) s = .next (runBoundary (atTime t s) jb x) :=
  calc exec (.boundaryPhase t jb x) s
      = if (job (atTime t s) jb).freezeOut = [] then .next (runBoundary (atTime t s) jb x)
        else .next (incF (modJob (atTime t s) jb (fun y => { y with awaiting := some x })) 0x3132 jb) :=
          if_neg (by simp [-job_atTime, h.stepping, h.windowOver, h.genIdle, h.promptIdle, h.notAwaiting])
    _ = _ := if_pos hreturned

theorem exec_composeFreeze_due (hstep : stepping (atTime t s) jb = true) (hopened : (job (atTime t s) jb).window ≠ 0)
    (hlead : windowStart (atTime t s) jb (nextFreeze (job (atTime t s) jb)) ≤ (atTime t s).now + getF (atTime t s) 0x2810 0x01 * 1000) :
    exec (.composeFreeze t jb) s = .next (freezeWindow jb (atTime t s)) :=
  if_neg (by simp [-getF_atTime, -job_atTime, hstep, hopened, hlead])

theorem exec_stepPhaseStart_due (h : BetweenSteps (atTime t s) jb) (hnotAwaiting : (job (atTime t s) jb).awaiting = none)
    (hover : (job (atTime t s) jb).windowNs + betaNs (atTime t s) jb ≤ (atTime t s).now) :
    exec (.stepPhaseStart t jb) s = .next (startPhase jb (atTime t s)) :=
  if_neg (by simp [-job_atTime, h.stepping, h.opened, h.noStep, hnotAwaiting, hover])

/-! ### A window ends: its step is stopped, carried or committed (R87, R88, R91) -/

/-- The window of the job of `s` has reached its nominal end within a step phase that has not been ended. -/
structure StepOverrun (s : State) (j : Nat) : Prop where
  stepping : stepping s j = true
  windowOver : windowEnd s j ≤ s.now
  inStep : (job s j).inStep = true
  notEnded : (job s j).ended = false

theorem exec_windowEnd_uncommitted {busy : List Nat} (h : StepOverrun (atTime t s) jb)
    (hruns : partRuns (job (atTime t s) jb).gen = true ∨ partRuns (job (atTime t s) jb).prompt = true) :
    exec (.windowEnd t jb busy) s = .next (endWindow jb busy (atTime t s)) := by
  have hnotIdle : ¬ (partRuns (job (atTime t s) jb).gen = false ∧ partRuns (job (atTime t s) jb).prompt = false) := by
    simpa [← Bool.not_eq_true, imp_iff_not_or] using hruns
  calc exec (.windowEnd t jb busy) s
      = if partRuns (job (atTime t s) jb).gen = false ∧ partRuns (job (atTime t s) jb).prompt = false then .next (endBars (atTime t s) jb)
        else .next (endWindow jb busy (atTime t s)) :=
          if_neg (by simp [-job_atTime, h.stepping, h.windowOver, h.inStep, h.notEnded])
    _ = _ := if_neg hnotIdle

/-- Both parts of the job's step are carried. -/
def carryStep (s : State) (j : Nat) : State := carryPart (carryPart s j false) j true

theorem exec_stepCarried_stopped (hstep : stepping (atTime t s) jb = true) (hended : (job (atTime t s) jb).ended = true)
    (hstopped : allStopped (atTime t s) jb = true) :
    exec (.stepCarried t jb) s = .next (settleOverrun ((job (carryStep (atTime t s) jb) jb).columns.foldl
      (fun u c => stopSeq u (128 + c)) (carryStep (atTime t s) jb)) jb) :=
  if_neg (by simp [-job_atTime, hstep, hended, hstopped])

/-- The step `r` of a part of the job of `s` runs on quires, all of which are in their commit phase. -/
structure StepCommitting (s : State) (j : Nat) (prompt : Bool) (r : StepRun) : Prop where
  stepping : stepping s j = true
  run : (partOf (job s j) prompt).run = some r
  started : r.started = true
  hasQuires : planQuires s j r.plan ≠ []
  committing : committing s j r = true

/-- The fence alone decides whether a step whose quires are all in their commit phase commits or is voided (R145). -/
theorem exec_stepCommit_committing {prompt : Bool} {r : StepRun} (h : StepCommitting (atTime t s) jb prompt r) :
    exec (.stepCommit t jb prompt) s =
      .next (if r.barred then voidStep (atTime t s) jb else commitPart (atTime t s) jb prompt r) := by
  have hguard : ¬ (stepping (atTime t s) jb = false ∨ r.started = false ∨ planQuires (atTime t s) jb r.plan = [] ∨
      committing (atTime t s) jb r = false) := by
    simp [h.stepping, h.started, h.hasQuires, h.committing]
  change execStepCommit t jb prompt s = _
  simp only [execStepCommit, h.run, if_neg hguard]
  exact (apply_ite Outcome.next _ _ _).symm

/-! ### A tip-in load ends (R100) -/

/-- The load of a version into tip-in slot `ss` of `s` is under way and passes every check: a lane is free, no lane holds the version already,
the slot is assigned to a job, and `image` is sound as the slot reads it. -/
structure TipinAccepted (s : State) (ss : Nat) (image : ImageInfo) : Prop where
  loading : getF s 0x2826 ss = 1
  laneFree : (tipinLanes s ss).contains 0 = true
  versionNew : (tipinLanes s ss).contains (getF s 0x2824 ss) = false
  slotAssigned : nbit (getF s 0x2820 ss) 7 = true
  sound : ownedCode s 4 (readAt s (getF s 0x2825 ss) (some (getF s 0x2820 ss % 64)) image) = 0

theorem exec_tipinLoadDone_accepted {ss : Nat} {image : ImageInfo} (h : TipinAccepted (atTime t s) ss image) : let b := atTime t s
    let lane := (tipinLanes b ss).idxOf 0
    exec (.tipinLoadDone t ss image) s =
      .next (setF (setF b 0x2822 ss (setFld (getF b 0x2822 ss) (getF b 0x2824 ss) (16 * lane + 15) (16 * lane))) 0x2826 ss 2) := by
  change execTipinLoadDone t ss image s = _
  simp only [execTipinLoadDone, h.loading, h.laneFree, h.versionNew, h.slotAssigned, h.sound, ne_eq, not_true_eq_false, Bool.true_eq_false,
    Bool.false_eq_true, if_false]

end

/-! ### The commands, each where it acts -/

/-- Settles O19: each command past its guard. -/
theorem stepWindowCommandsComplete : Obligations.StepWindowCommandsComplete := by
  refine ⟨?sizing, ?boundary, ?freeze, ?start, ?overrun, ?carried, ?commit, ?tipin⟩
  case sizing => exact fun _ _ _ hstep hopened hnoStep => exec_splitSizing_unsized ⟨hstep, hopened, hnoStep⟩
  case boundary =>
    exact fun _ _ _ _ hstep hover hgen hprompt hawait => exec_boundaryPhase_due ⟨hstep, hover, hgen, hprompt, hawait⟩
  case freeze => exact fun _ _ _ => exec_composeFreeze_due
  case start => exact fun _ _ _ hstep hopened hnoStep => exec_stepPhaseStart_due ⟨hstep, hopened, hnoStep⟩
  case overrun => exact fun _ _ _ _ hstep hover hin hnotEnded => exec_windowEnd_uncommitted ⟨hstep, hover, hin, hnotEnded⟩
  case carried => exact fun _ _ _ => exec_stepCarried_stopped
  case commit =>
    exact fun _ _ _ _ _ hstep hrun hstarted hquires hcommit => exec_stepCommit_committing ⟨hstep, hrun, hstarted, hquires, hcommit⟩
  case tipin =>
    exact fun _ _ _ _ hloading hfree hnew hused hsound => exec_tipinLoadDone_accepted ⟨hloading, hfree, hnew, hused, hsound⟩

end Sys2Proof.Machine
end

section
/-! PROOFS. The statements of chapter 6: stitch tables and sequencers. -/

namespace Sys2Proof.Machine

open Host

/-! ### What putting a sequencer back changes -/

theorem seqOf_setSeq_other (s : State) {i k : Nat} (q : Sequencer) (h : k ≠ i) : seqOf (setSeq s i q) k = seqOf s k := by
  unfold seqOf setSeq
  by_cases hi : i < 128
  · simp [hi, quire, gutter, tget_tset_other _ _ _ h]
  · by_cases hk : k < 128
    · simp [hi, hk, quire]
    · have hcol : k - 128 ≠ i - 128 := by omega
      simp [hi, hk, gutter, tget_tmod_other _ _ _ hcol]

theorem gutter_setSeq_same (s : State) (c : Nat) (q : Sequencer) : gutter (setSeq s (128 + c) q) c = { gutter s c with seq := q } := by
  simp [gutter, setSeq]

theorem gutter_setSeq_other (s : State) {c k : Nat} (q : Sequencer) (h : k ≠ c) : gutter (setSeq s (128 + c) q) k = gutter s k := by
  simp [gutter, setSeq, tget_tmod_other _ _ _ h]

/-- The part of the state that holds sequencer `i`. -/
abbrev seqPart (i : Nat) : Part := if i < 128 then .quires else .gutters

theorem setSeq_gutters_of_quire (s : State) {i : Nat} (q : Sequencer) (h : i < 128) : (setSeq s i q).gutters = s.gutters := by
  simp [setSeq, h]

theorem setSeq_quires_of_gutter (s : State) {i : Nat} (q : Sequencer) (h : ¬ i < 128) : (setSeq s i q).quires = s.quires := by
  simp [setSeq, h]

theorem keepsBut_setSeq (s : State) (i : Nat) (q : Sequencer) : KeepsBut [seqPart i] s (setSeq s i q) := by
  intro p hp
  by_cases hi : i < 128
  · cases p <;> simp_all [Part.Same, seqPart, setSeq_gutters_of_quire]
  · cases p <;> simp_all [Part.Same, seqPart, setSeq_quires_of_gutter]

/-! ### Effective addresses (R135) -/

theorem cast_loopIndex (q : Sequencer) (l : Nat) :
    (loopIndex q l : Int) = match q.loops[l]? with
      | some x => (x.index : Int)
      | none => 0 := by
  cases h : q.loops[l]? <;> simp [loopIndex, h]

theorem cast_ea (q : Sequencer) (n : Nat) : let a := q.aregs.getD n ⟨0, 0, 0, 0, 0⟩
    (ea q n : Int) = ((a.base.toNat : Int) + (a.s0.toInt * 64 * loopIndex q 0 + a.s1.toInt * 64 * loopIndex q 1 +
      a.s2.toInt * 64 * loopIndex q 2 + a.s3.toInt * 64 * loopIndex q 3)) % 2 ^ 48 := by
  intro a
  calc (ea q n : Int) = ((a.base.toNat : Int) + a.s0.toInt * 64 * loopIndex q 0 + a.s1.toInt * 64 * loopIndex q 1 +
        a.s2.toInt * 64 * loopIndex q 2 + a.s3.toInt * 64 * loopIndex q 3) % 2 ^ 48 :=
          Int.toNat_of_nonneg (Int.emod_nonneg _ (by decide))
    _ = _ := by simp only [add_assoc]

theorem ea_lt (q : Sequencer) (n : Nat) : ea q n < 2 ^ 48 := by
  zify
  rw [cast_ea]
  exact Int.emod_lt_of_pos _ (by decide)

/-- Settles O24: the sum of R135 is `ea` with its terms regrouped, and a remainder by 2^48 is below it. -/
theorem effectiveAddress : Obligations.EffectiveAddress := by
  refine ⟨fun q n => ?_, fun q n => ⟨rfl, ea_lt q n⟩⟩
  have hsum := cast_ea q n
  simp only [cast_loopIndex] at hsum
  exact hsum

/-! ### A fresh step phase (R134) -/

/-- Settles O25: the set-up is one change of one sequencer, so what it reads afterwards and what stays follow from `modSeq`. -/
theorem sequencerSetUp : Obligations.SequencerSetUp := by
  intro run s i q
  have hq : q = _ := seqOf_modSeq_same s i _
  rw [hq]
  exact ⟨rfl, rfl, rfl, rfl, rfl, rfl, rfl, rfl, keepsBut_setSeq s i _⟩

/-! ### A freeze routine returns (R140) -/

/-- A freeze routine sets a steer register: SR4 to SR15 only. -/
def putSteer (l : List Nat) (w : Nat × Nat) : List Nat := if 4 ≤ w.1 ∧ w.1 ≤ 15 then l.set (w.1 - 4) (w.2 % 65536) else l

/-- The record of a job without the freeze routine that has returned, and with its steer values. -/
def routineOff (routine : Nat) (steer : List (Nat × Nat)) (x : JobSt) : JobSt :=
  { x with freezeOut := x.freezeOut.erase routine, freezeSteer := steer.foldl putSteer x.freezeSteer }

/-- The job of `s` after a freeze routine has returned: its record, then its gather tables. -/
def routineReturned (s : State) (jb routine : Nat) (w : RoutineWrites) : State :=
  w.tables.foldl (freezeTables jb) (modJob s jb (routineOff routine w.steer))

@[simp] theorem job_freezeTables (jb : Nat) (s : State) (w : Nat × List Byte) (k : Nat) : job (freezeTables jb s w) k = job s k := by
  unfold freezeTables
  split
  · rw [writeBytes_eq]; rfl
  · rfl

theorem job_foldl_freezeTables (jb k : Nat) (l : List (Nat × List Byte)) (s : State) : job (l.foldl (freezeTables jb) s) k = job s k := by
  induction l generalizing s with
  | nil => rfl
  | cons w r ih => exact (ih _).trans (job_freezeTables jb s w k)

@[simp] theorem job_routineReturned (s : State) (jb routine : Nat) (w : RoutineWrites) :
    job (routineReturned s jb routine w) jb = routineOff routine w.steer (job s jb) := by
  simp [routineReturned, job_foldl_freezeTables]

theorem stepping_routineReturned (s : State) (jb routine : Nat) (w : RoutineWrites) :
    stepping (routineReturned s jb routine w) jb = stepping s jb := by
  simp [stepping, routineOff]

section
variable {t jb routine : Nat} {w : RoutineWrites} {s : State}

/-- A boundary phase that waits for the routine starts once the last has returned; the writes keep it and the mode of the job. -/
theorem exec_freezeRoutineReturn_out (hout : (job (atTime t s) jb).freezeOut.contains routine = true) :
    let b := atTime t s
    let r := routineReturned b jb routine w
    exec (.freezeRoutineReturn t jb routine w) s = (job b jb).awaiting.elim (.next r)
      (fun x => .next (if (job b jb).freezeOut.erase routine = [] ∧ stepping b jb = true then runBoundary r jb x else r)) := by
  intro b r
  have hr : job r jb = routineOff routine w.steer (job b jb) := job_routineReturned b jb routine w
  have hstep : stepping r jb = stepping b jb := stepping_routineReturned b jb routine w
  refine (if_neg (ne_false_of_eq_true hout)).trans ?_
  change (match (job r jb).awaiting with
    | some x => Outcome.next (if (job r jb).freezeOut = [] ∧ stepping r jb = true then runBoundary r jb x else r)
    | none => Outcome.next r) = _
  rw [hr, hstep]
  simp only [routineOff]
  cases (job b jb).awaiting <;> rfl

theorem exec_freezeRoutineReturn_notAwaited (hout : (job (atTime t s) jb).freezeOut.contains routine = true)
    (hnone : (job (atTime t s) jb).awaiting = none) :
    exec (.freezeRoutineReturn t jb routine w) s = .next (routineReturned (atTime t s) jb routine w) := by
  rw [exec_freezeRoutineReturn_out hout, hnone, Option.elim_none]

theorem exec_freezeRoutineReturn_last {x : BoundaryIn} (hout : (job (atTime t s) jb).freezeOut.contains routine = true)
    (hawait : (job (atTime t s) jb).awaiting = some x) (hlast : (job (atTime t s) jb).freezeOut = [routine])
    (hstep : stepping (atTime t s) jb = true) :
    exec (.freezeRoutineReturn t jb routine w) s = .next (runBoundary (routineReturned (atTime t s) jb routine w) jb x) := by
  rw [exec_freezeRoutineReturn_out hout, hawait, Option.elim_some, if_pos ⟨by rw [hlast, List.erase_cons_head], hstep⟩]

theorem exec_freezeRoutineReturn_notLast {x : BoundaryIn} {y : Nat} {z : List Nat}
    (hout : (job (atTime t s) jb).freezeOut.contains routine = true) (hawait : (job (atTime t s) jb).awaiting = some x)
    (hmore : (job (atTime t s) jb).freezeOut.erase routine = y :: z) :
    exec (.freezeRoutineReturn t jb routine w) s = .next (routineReturned (atTime t s) jb routine w) := by
  rw [exec_freezeRoutineReturn_out hout, hawait, Option.elim_some, if_neg (fun h => List.cons_ne_nil y z (hmore.symm.trans h.1))]

end

/-- Settles O20: by whether a boundary phase waits, and whether the routine is the last that is out. -/
theorem freezeRoutineReturns : Obligations.FreezeRoutineReturns := by
  intro t jb routine steer tables s b put r hout
  refine ⟨?notAwaited, ?last, ?notLast⟩
  case notAwaited => exact exec_freezeRoutineReturn_notAwaited hout
  case last => exact fun _ hawait hlast hstep => exec_freezeRoutineReturn_last hout hawait hlast hstep
  case notLast => exact fun _ _ _ hawait hmore => exec_freezeRoutineReturn_notLast hout hawait hmore

/-! ### A stitch is issued (R136, R141) -/

section
variable {t id op : Nat} {f : State → BitVec 128 → State} {s : State}

theorem runStitch_issued (h : issues (atTime t s) id op = true) (hd : discards (atTime t s) id op = false) :
    runStitch t id op f s = f (atTime t s) (stitchAt (seqOf (atTime t s) id)) := by
  simp only [runStitch, h, hd, Bool.true_eq_false, Bool.false_eq_true, if_false]

/-- The stitches below opcode 0x20 work on no data, so a fence discards nothing of theirs. -/
theorem runStitch_control (hop : op < 0x20) (h : issues (atTime t s) id op = true) :
    runStitch t id op f s = f (atTime t s) (stitchAt (seqOf (atTime t s) id)) :=
  runStitch_issued h (by simp [discards, Nat.not_le.mpr hop])

end

/-! ### Loops, jumps and address registers (R142) -/

section
variable {t id : Nat} {s : State}

theorem exec_nop_issued (h : issues (atTime t s) id 0x00 = true) : exec (.nop t id) s = .next (advance (atTime t s) id) :=
  congrArg Outcome.next (runStitch_control (by decide) h)

theorem exec_lpBegin_issued (h : issues (atTime t s) id 0x01 = true) :
    exec (.lpBegin t id) s = .next (loopBegin (atTime t s) id (stitchAt (seqOf (atTime t s) id))) :=
  congrArg Outcome.next (runStitch_control (by decide) h)

theorem exec_jmpSt_issued (h : issues (atTime t s) id 0x02 = true) :
    exec (.jmpSt t id) s = .next (jumpSteer (atTime t s) id (stitchAt (seqOf (atTime t s) id))) :=
  congrArg Outcome.next (runStitch_control (by decide) h)

theorem loopDue_of_last {q : Sequencer} {l : LoopLevel} {r : List LoopLevel} (hl : q.loops = r ++ [l]) (hend : q.sp = l.endAt + 1) :
    loopDue q = true := by
  simp [loopDue, hl, hend]

theorem exec_loopEnd_due (hgo : goesOn (seqOf (atTime t s) id) = true) (hdue : loopDue (seqOf (atTime t s) id) = true) :
    exec (.loopEnd t id) s = .next (modSeq (atTime t s) id loopEnd) :=
  congrArg Outcome.next (if_pos ⟨hgo, hdue⟩)

theorem loopEnd_repeats {q : Sequencer} {l : LoopLevel} {r : List LoopLevel} (hl : q.loops = r ++ [l]) (hleft : 1 < l.left) :
    loopEnd q = { q with sp := l.start, loops := r ++ [{ l with index := l.index + 1, left := l.left - 1 }] } := by
  simp [loopEnd, hl, hleft]

theorem loopEnd_pops {q : Sequencer} {l : LoopLevel} {r : List LoopLevel} (hl : q.loops = r ++ [l]) (hleft : l.left ≤ 1) :
    loopEnd q = { q with loops := r } := by
  simp [loopEnd, hl, Nat.not_lt.mpr hleft]

end

section
variable (s : State) (id : Nat) (w : BitVec 128)

/-- The count of an lp.begin. -/
abbrev loopCount : Nat := countOf s id (fld w 107 92) (nbit w.toNat 91) (fld w 90 87)

theorem loopBegin_skips (hn : loopCount s id w = 0) :
    loopBegin s id w = setSeq s id { seqOf s id with sp := spWrap id ((seqOf s id).sp + fld w 119 108 + 1) } :=
  if_pos hn

theorem loopBegin_opens (hn : loopCount s id w ≠ 0) (hopen : (seqOf s id).loops.length < 4) :
    loopBegin s id w = setSeq s id { seqOf s id with
      sp := spWrap id ((seqOf s id).sp + 1),
      loops := (seqOf s id).loops ++
        [{ start := (seqOf s id).sp + 1, endAt := (seqOf s id).sp + fld w 119 108, left := loopCount s id w, index := 0 }] } :=
  (if_neg hn).trans (if_neg (Nat.not_le.mpr hopen))

theorem loopBegin_traps (hn : loopCount s id w ≠ 0) (hfull : 4 ≤ (seqOf s id).loops.length) : loopBegin s id w = trapSeq s id 0x17 :=
  (if_neg hn).trans (if_pos hfull)

/-- The steer value that a jmp.st reads. -/
abbrev jumpValue : Nat := (steerView s id).getD (fld w 119 116) 0

theorem jumpSteer_jumps (hv : jumpValue s id w < fld w 91 84) :
    jumpSteer s id w = setSeq s id { seqOf s id with sp := spWrap id (fld w 115 104 + jumpValue s id w * fld w 103 92) } :=
  if_neg (Nat.not_le.mpr hv)

theorem jumpSteer_traps (hv : fld w 91 84 ≤ jumpValue s id w) : jumpSteer s id w = trapSeq s id 0x11 := if_pos hv

end

/-- Settles O23: each stitch by the case of its rule, and putting a sequencer back by the laws of `setSeq`. -/
theorem sequencingStitchResults : Obligations.SequencingStitchResults := by
  refine ⟨?nop, ?lpBegin, ?loopEnd, ?jmpSt, ?arBase, ?arStride, ?putBack, ?putColumn⟩
  case nop => exact fun _ _ _ h => exec_nop_issued h
  case lpBegin =>
    intro t id s b q w n h
    have hexec := exec_lpBegin_issued h
    refine ⟨fun hn => ?_, fun hn hopen => ?_, fun hn hfull => ?_⟩
    · exact hexec.trans (congrArg Outcome.next (loopBegin_skips b id w hn))
    · exact hexec.trans (congrArg Outcome.next (loopBegin_opens b id w hn hopen))
    · exact hexec.trans (congrArg Outcome.next (loopBegin_traps b id w hn hfull))
  case loopEnd =>
    intro t id l r s b q hgo hl hend
    have hexec := exec_loopEnd_due hgo (loopDue_of_last hl hend)
    refine ⟨fun hleft => ?_, fun hleft => ?_⟩
    · exact hexec.trans (congrArg (fun q => Outcome.next (setSeq b id q)) (loopEnd_repeats hl hleft))
    · exact hexec.trans (congrArg (fun q => Outcome.next (setSeq b id q)) (loopEnd_pops hl hleft))
  case jmpSt =>
    intro t id s b q w v h
    have hexec := exec_jmpSt_issued h
    refine ⟨fun hv => ?_, fun hv => ?_⟩
    · exact hexec.trans (congrArg Outcome.next (jumpSteer_jumps b id w hv))
    · exact hexec.trans (congrArg Outcome.next (jumpSteer_traps b id w hv))
  case arBase => exact fun _ _ _ h => congrArg Outcome.next (runStitch_control (by decide) h)
  case arStride => exact fun _ _ _ h => congrArg Outcome.next (runStitch_control (by decide) h)
  case putBack => exact fun id q b => ⟨seqOf_setSeq_same b id q, fun k hk => seqOf_setSeq_other b q hk, keepsBut_setSeq b id q⟩
  case putColumn => exact fun c q b => ⟨gutter_setSeq_same b c q, fun k hk => gutter_setSeq_other b q hk⟩

/-! ### The stitches of a quire on its SRAM (R142) -/

section
variable {s : State} {q j : Nat} {w : BitVec 128}

theorem mma_legal {f : MmaFault} (hjob : (quire s q).job = some j) (hpair : pairOk (fld w 119 116) (fld w 115 112) (fld w 111 108) = true)
    (hlocal : (mmaRanges (quire s q) w).all (fun r => localOk r.1 r.2) = true) (hbad : f.bad = none) :
    let r := (List.range (fld w 93 88)).foldl (tilePass q j w f) (addF s 0x3015 q (if banksMeet (quire s q) w then f.waits else 0), 0)
    mma s q w f = afterMismatch (advance r.1 q) q j r.2 := by
  simp only [mma, hjob, hpair, hlocal, hbad, Bool.true_eq_false, if_false]

theorem combAdd_legal (hjob : (quire s q).job = some j) (hlocal : (combRanges (quire s q) w).all (fun x => localOk x.1 x.2) = true) :
    let base (hi lo : Nat) : Nat := localBase (quire s q) (fld w hi lo)
    let word (a k : Nat) : Word32 := BitVec.ofNat 32 (readNat s (quireAddr q (a + 4 * k)) 4)
    combAdd s q w none none = advance (writeBytes s (quireAddr q (base 111 108))
      ((List.range (fld w 107 102 * 65536 / 4)).flatMap
        (fun k => toBytesLE 4 (fadd32 (word (base 119 116) k) (word (base 115 112) k)).toNat))) q := by
  simp only [combAdd, hjob, hlocal, stageDiffers, Bool.true_eq_false, if_false]

theorem convert_legal (hjob : (quire s q).job = some j) (hlocal : (cvtRanges (quire s q) w).all (fun x => localOk x.1 x.2) = true) :
    let wd := fmtBits (fld w 111 108) / 8
    let cell (r k : Nat) : Nat := quireAddr q (localBase (quire s q) (fld w 119 116) + (r * 128 + k) * wd)
    convert s q w none none = advance (storeRows s q (fld w 107 104) (localBase (quire s q) (fld w 115 112))
      ((List.range (fld w 103 98 * 128)).map (fun r => (List.range 128).map (fun k => elemDecode (fld w 111 108) (readNat s (cell r k) wd))))) q := by
  simp only [convert, hjob, hlocal, stageDiffers, Bool.true_eq_false, if_false]

theorem kvPut_legal (hjob : (quire s q).job = some j) (hlocal : (putRanges (quire s q) w).all (fun x => localOk x.1 x.2) = true) :
    let n := fld w 103 88
    let m := ea (quire s q) (fld w 115 112)
    dmaOk s j false (m : Int) (16 * n) = true → (List.range n).any (fun p => mapBad s j (mapAt s m p)) = false →
      kvPut s q w none = advance ((List.range n).foldl (putPosition q j w (localBase (quire s q) (fld w 119 116)) m) s) q := by
  intro n m hmap hentries
  simp only [n, m] at hmap hentries
  simp only [kvPut, hjob, hlocal, hmap, hentries, Bool.true_eq_false, Bool.false_eq_true, or_self, if_false, n, m]

theorem selFeed_legal (hjob : (quire s q).job = some j) (hlocal : (feedRanges (quire s q) w).all (fun x => localOk x.1 x.2) = true)
    (hmap : dmaOk s j false (ea (quire s q) (fld w 115 112) : Int) (16 * fld w 71 56) = true) :
    selFeed s q w none = advance ((List.range (fld w 71 56)).foldl (feedRow q j (match (job s j).prompt.run with
      | some r => (planQuires s j r.plan).contains q
      | none => false) w (localBase (quire s q) (fld w 119 116)) (ea (quire s q) (fld w 115 112))) s) q := by
  cases hrun : (job s j).prompt.run <;> simp only [selFeed, hjob, hlocal, hmap, hrun, Bool.true_eq_false, or_self, if_false]

/-! ### The transfers of a quire (R136, R142) -/

theorem dma_legal {load : Bool} {f : DmaFault} (hjob : (quire s q).job = some j) (hroom : (quire s q).transfers.length < 8)
    (hrows : (dmaRows (quire s q) w).all (fun r => localOk r.1 (fld w 95 80 * 64) && dmaOk s j (!load) r.2 (fld w 95 80 * 64)) = true) :
    dma s q load w f = launchTransfer s q j (fld w 31 28) (fld w 95 80 * 64) load
      ((dmaRows (quire s q) w).map (fun r => (r.1.toNat, r.2.toNat))) f := by
  have hfind : (dmaRows (quire s q) w).find? (fun r => !(localOk r.1 (fld w 95 80 * 64) && dmaOk s j (!load) r.2 (fld w 95 80 * 64))) = none :=
    List.find?_eq_none.mpr (fun r hr => by simp only [List.all_eq_true.mp hrows r hr, Bool.not_true, Bool.false_eq_true, not_false_eq_true])
  simp only [dma, hjob, Nat.not_le.mpr hroom, hfind, if_false]

theorem gather_legal {f : DmaFault} (hjob : (quire s q).job = some j) (hroom : (quire s q).transfers.length < 8) :
    let cnt := countOf s q (fld w 107 92) (nbit w.toNat 91) (fld w 90 87)
    let table := ea (quire s q) (fld w 115 112)
    (0 < cnt → dmaOk s j false (table : Int) (8 * cnt) = true) →
      gather s q w f = issueTransfer s q j ⟨[], fld w 70 67, true, [], f,
        some ⟨(quire s q).sp, table, cnt, ea (quire s q) (fld w 111 108), ea (quire s q) (fld w 119 116) % 0x800000, fld w 86 71 * 64⟩⟩ := by
  intro cnt table htable
  have hgood : ¬ (0 < cnt ∧ dmaOk s j false (table : Int) (8 * cnt) = false) := fun h => ne_false_of_eq_true (htable h.1) h.2
  simp only [cnt, table] at hgood
  simp only [gather, hjob, Nat.not_le.mpr hroom, hgood, if_false, cnt, table]

end

section
variable {t q : Nat} {s : State}

theorem exec_mmaBlk_issued {f : MmaFault} (h : issues (atTime t s) q 0x20 = true) (hd : discards (atTime t s) q 0x20 = false) :
    exec (.mmaBlk t q f) s = .next (mma (atTime t s) q (stitchAt (seqOf (atTime t s) q)) f) :=
  congrArg Outcome.next ((if_pos h).trans (runStitch_issued h hd))

theorem exec_combAdd_issued {bad : Option Nat} {differs : Option (Nat × Nat)} (h : issues (atTime t s) q 0x21 = true)
    (hd : discards (atTime t s) q 0x21 = false) :
    exec (.combAdd t q bad differs) s = .next (combAdd (atTime t s) q (stitchAt (seqOf (atTime t s) q)) bad differs) :=
  congrArg Outcome.next ((if_pos h).trans (runStitch_issued h hd))

theorem exec_cvt_issued {f : CvtFault} (h : issues (atTime t s) q 0x22 = true) (hd : discards (atTime t s) q 0x22 = false) :
    exec (.cvt t q f) s = .next (convert (atTime t s) q (stitchAt (seqOf (atTime t s) q)) f.bad f.differs) :=
  congrArg Outcome.next ((if_pos h).trans (runStitch_issued h hd))

/-- The first outstanding transfer leaves the queue of its quire, its moves made and its event posted. -/
def transferDone (s : State) (q : Nat) (x : Transfer) (r : List Transfer) : State :=
  raiseEvent (modSeq (x.moves.foldl runMove s) q (fun y => { y with transfers := r })) q x.event 1

theorem exec_transferComplete_done {x : Transfer} {r : List Transfer} (hwaits : quireWaits (atTime t s) q = false)
    (hfirst : (quire (atTime t s) q).transfers = x :: r) : let u := transferDone (atTime t s) q x r
    exec (.transferComplete t q) s = .next (match (quire u q).job with
      | some j => beginTransfer u q j
      | none => u) := by
  intro u
  change execTransferComplete t q s = _
  simp only [execTransferComplete, hwaits, hfirst, Bool.false_eq_true, if_false]
  rfl

end

/-- Settles O21: each stitch is issued, and past the checks of its operands it has the effect that its rule gives. -/
theorem quireStitchesComplete : Obligations.QuireStitchesComplete := by
  refine ⟨?mmaBlk, ?combAdd, ?cvt, ?dmaLd, ?dmaSt, ?gathLd, ?kvPut, ?selFeed, ?complete⟩
  case mmaBlk =>
    exact fun _ _ _ _ _ h hd hjob hpair hlocal hbad =>
      (exec_mmaBlk_issued h hd).trans (congrArg Outcome.next (mma_legal hjob hpair hlocal hbad))
  case combAdd => exact fun _ _ _ _ h hd hjob hlocal => (exec_combAdd_issued h hd).trans (congrArg Outcome.next (combAdd_legal hjob hlocal))
  case cvt => exact fun _ _ _ _ h hd hjob hlocal => (exec_cvt_issued h hd).trans (congrArg Outcome.next (convert_legal hjob hlocal))
  case dmaLd =>
    exact fun _ _ _ _ _ h hd hjob hroom hrows =>
      congrArg Outcome.next ((runStitch_issued h hd).trans (dma_legal (load := true) hjob hroom hrows))
  case dmaSt =>
    exact fun _ _ _ _ _ h hd hjob hroom hrows =>
      congrArg Outcome.next ((runStitch_issued h hd).trans (dma_legal (load := false) hjob hroom hrows))
  case gathLd =>
    exact fun _ _ _ _ _ h hd hjob hroom htable => congrArg Outcome.next ((runStitch_issued h hd).trans (gather_legal hjob hroom htable))
  case kvPut =>
    exact fun t q _ s h hd hjob hlocal hmap hentries =>
      congrArg Outcome.next ((runStitch_issued h hd).trans (congrArg (stopAfter · q) (kvPut_legal hjob hlocal hmap hentries)))
  case selFeed =>
    exact fun t q _ s h hd hjob hlocal hmap =>
      congrArg Outcome.next ((runStitch_issued h hd).trans (congrArg (stopAfter · q) (selFeed_legal hjob hlocal hmap)))
  case complete => exact fun _ _ _ _ _ hwaits hfirst => exec_transferComplete_done hwaits hfirst

/-! ### Stitches and events that reach beyond one sequencer (R136, R137, R142, R146) -/

section
variable {t id : Nat} {s : State}

theorem exec_halt_issued {c : Nat} (h : issues (atTime t s) (128 + c) 0x05 = true) :
    exec (.halt t (128 + c)) s = .next (haltColumn (atTime t s) c) := by
  have hrun : exec (.halt t (128 + c)) s = .next (haltColumn (atTime t s) (128 + c - 128)) :=
    congrArg Outcome.next (runStitch_control (by decide) h)
  rwa [Nat.add_sub_cancel_left] at hrun

theorem gutterRun_of_job {q j : Nat} {w : BitVec 128} (hjob : (quire s q).job = some j) :
    gutterRun s q w = advance ((((job s j).columns.drop (fld w 119 110)).take (fld w 109 99)).foldl
      (startColumn (fld w 98 89) (if nbit w.toNat 84 then some (q, fld w 88 85) else none) (inPromptPart s j q)) s) q := by
  simp only [gutterRun, hjob]

theorem barArrive_of_job {j : Nat} {w : BitVec 128} (hjob : (seqOf s id).job = some j) :
    barArrive s id w = modSeq (modJob s j (fun x =>
        { x with barriers := tput x.barriers (fld w 119 116) (tget [] x.barriers (fld w 119 116) ++ [id]) })) id
      (fun q => { q with waiting := .bar (fld w 119 116) (fld w 115 105), waitSteps := 0 }) := by
  simp only [barArrive, hjob]

/-- The sequencers that have arrived at a barrier of the job, in the order of arrival. -/
abbrev barWaiters (s : State) (jb bar : Nat) : List Nat := tget [] (job s jb).barriers bar

/-- The parties that the first arrival at a barrier waits for. -/
abbrev barNeeds (s : State) (jb bar : Nat) : Nat := barParties s ((barWaiters s jb bar).headD 0)

theorem exec_barRelease_full {jb bar : Nat} (hparties : 0 < barNeeds (atTime t s) jb bar)
    (hfull : barNeeds (atTime t s) jb bar ≤ (barWaiters (atTime t s) jb bar).length)
    (hready : ((barWaiters (atTime t s) jb bar).take (barNeeds (atTime t s) jb bar)).all
      (barReady (atTime t s) bar (barNeeds (atTime t s) jb bar)) = true) :
    let b := atTime t s
    let n := barNeeds b jb bar
    exec (.barRelease t jb bar) s = .next (((barWaiters b jb bar).take n).foldl endWait
      (modJob b jb (fun x => { x with barriers := tset [] x.barriers bar ((barWaiters b jb bar).drop n) }))) := by
  intro b n
  have hlen : ((barWaiters b jb bar).take n).length = n := List.length_take_of_le hfull
  have hsome : (barWaiters b jb bar).take n ≠ [] := List.ne_nil_of_length_pos (hlen.symm ▸ hparties)
  exact congrArg Outcome.next (if_pos ⟨hsome, hlen, hready⟩)

/-- The sequencer of a job that a sig.post names by its kind and rank. -/
abbrev postTarget (s : State) (j : Nat) (w : BitVec 128) : Option Nat :=
  if nbit w.toNat 115 then (job s j).columns[fld w 114 105]?.map (· + 128) else (job s j).quires[fld w 114 105]?

theorem sigPost_of_target {j k : Nat} {w : BitVec 128} (hjob : (seqOf s id).job = some j) (htarget : postTarget s j w = some k) :
    sigPost s id w = advance (raiseEvent s k (fld w 119 116) (fld w 104 89)) id := by
  simp only [postTarget] at htarget
  simp only [sigPost, hjob, htarget]

theorem exec_sigWaitRelease_reached {e v : Nat} {clear : Bool} (hwait : (seqOf (atTime t s) id).waiting = .sig e v clear)
    (hrun : (seqOf (atTime t s) id).running = true) (hstop : (seqOf (atTime t s) id).stopped = false)
    (hfrozen : (seqOf (atTime t s) id).frozen = false) (htrap : (seqOf (atTime t s) id).trap = none)
    (hreach : v ≤ (seqOf (atTime t s) id).events.getD e 0) :
    exec (.sigWaitRelease t id) s = .next (setSeq (atTime t s) id (sigPass id e v clear (seqOf (atTime t s) id))) := by
  change execSigWaitRelease t id s = _
  simp only [execSigWaitRelease, hwait]
  exact congrArg Outcome.next (if_pos ⟨hrun, hstop, hfrozen, htrap, hreach⟩)

/-- A call returns well, its firmware read from the first copy. -/
theorem exec_ctlCallReturn_ok {k core j : Nat} {c : CtlCall} {writes : List (Nat × List Byte)} {ops : List SpanOp}
    (hcall : (seqOf (atTime t s) id).calls[k]? = some c) (hjob : (seqOf (atTime t s) id).job = some j) :
    exec (.ctlCallReturn t id k true core 0 writes ops) s =
      .next (callReturned id j c writes ops (modSeq (atTime t s) id (fun q => { q with calls := q.calls.eraseIdx k }))) := by
  change execCtlCallReturn t id k true core 0 writes ops s = _
  simp only [execCtlCallReturn, hcall, hjob]
  rfl

theorem exec_waitLimitTrap_exceeded (hrun : (seqOf (atTime t s) id).running = true) (hwait : (seqOf (atTime t s) id).waiting ≠ .none)
    (hlimit : getF (atTime t s) 0x3100 0x03 < (seqOf (atTime t s) id).waitSteps) :
    exec (.waitLimitTrap t id) s = .next (trapSeq (atTime t s) id 0x16) :=
  congrArg Outcome.next (if_pos ⟨hrun, hwait, hlimit⟩)

/-- Counting the corrected fetch of a quire moves no stitch pointer, so the address logged is that of the stitch at SP. -/
theorem exec_stitchRefetchDone_ok (hissuing : issuing (seqOf (atTime t s) id) = true) :
    exec (.stitchRefetchDone t id true) s =
      .next (correctableAt (refetch (if id < 128 then incF (atTime t s) 0x3111 id else atTime t s) id) (seqUnit id) (storeMemory id)
        (seqUnit id * 2 ^ 32 + (seqOf (atTime t s) id).sp * 16)) := by
  refine (if_neg (ne_false_of_eq_true hissuing)).trans ?_
  rw [if_pos rfl]
  split <;> rfl

end

/-- Settles O22: each stitch past its issue, each event past its guard. -/
theorem sequencerStitchesComplete : Obligations.SequencerStitchesComplete := by
  refine ⟨?halt, ?guRun, ?bar, ?barRelease, ?sigPost, ?sigWait, ?sigWaitRelease, ?ctlCall, ?ctlCallReturn, ?waitLimit, ?refetch⟩
  case halt => exact fun _ _ _ h => exec_halt_issued h
  case guRun => exact fun _ _ _ _ h hjob => congrArg Outcome.next ((runStitch_control (by decide) h).trans (gutterRun_of_job hjob))
  case bar => exact fun _ _ _ _ h hjob => congrArg Outcome.next ((runStitch_control (by decide) h).trans (barArrive_of_job hjob))
  case barRelease => exact fun _ _ _ _ hparties hfull hready => exec_barRelease_full hparties hfull hready
  case sigPost =>
    exact fun _ _ _ _ _ h hjob htarget => congrArg Outcome.next ((runStitch_control (by decide) h).trans (sigPost_of_target hjob htarget))
  case sigWait => exact fun _ _ _ h => congrArg Outcome.next (runStitch_control (by decide) h)
  case sigWaitRelease => exact fun _ _ _ _ _ _ hwait hrun hstop hfrozen htrap hreach =>
    exec_sigWaitRelease_reached hwait hrun hstop hfrozen htrap hreach
  case ctlCall => exact fun _ _ _ h => congrArg Outcome.next (runStitch_control (by decide) h)
  case ctlCallReturn => exact fun _ _ _ _ _ _ _ _ _ hcall hjob => exec_ctlCallReturn_ok hcall hjob
  case waitLimit => exact fun _ _ _ hrun hwait hlimit => exec_waitLimitTrap_exceeded hrun hwait hlimit
  case refetch => exact fun _ _ _ h => exec_stitchRefetchDone_ok h

end Sys2Proof.Machine
end

section
/-! PROOFS. The statement of chapter 6 on frames: a transfer of a quire that the package does not have.

A quire number of 128 or more reads the table of quires, but sequencer identifiers from 128 on are gutter units (R133): the transfer that
completes is taken off no quire, and so begins again. -/

namespace Sys2Proof.Machine

open Host

/-- A step of signature 5 that has waited for a late tier (R239). -/
def lateStep : StepRun :=
  { plan := { window := 0, batch := [], chunks := [{ sig := 5, start := 0, len := 1 }], shape := 16, shapeIndex := 0, promptOnly := false, lo := 0,
              count := 0, posMap := [], steer := [], pairs := [], inputs := [], staged := false, folds := [] },
    started := true, carried := false, feeds := [], draws := [], finished := [], barred := false, lateTier := 1, lateNs := 0, lateSince := none,
    lateWaits := [] }

/-- A transfer that moves nothing and halts at its first beat (R364). -/
def haltingTransfer : Transfer :=
  { moves := [], event := 0, load := true, away := [], fault := { corrected := [], halt := some (0, 0) }, gather := none }

/-- Job 0 runs `lateStep`, and holds a quire 128 with `haltingTransfer` as its one transfer. -/
def strayQuire : State :=
  { State.reset with
    jobs := [(0, { JobSt.zero with gen := { PartState.zero with run := some lateStep } })]
    quires := [(128, { Sequencer.zero with job := some 0, transfers := [haltingTransfer] })]
    sig := { State.reset.sig with entries := [(5, { SigEntry.zero with state := .decoding })] } }

/-- STALL_COUNT of signature 5 in the state that a command answers. -/
def stallsAfter : Outcome State Fault Refusal → Option (BitVec 16)
  | .next u => some (sigE u 5).stallCount
  | _ => none

/-- The transfer begins again and halts: the step is voided (R391), and its wait for the tier is a stall of signature 5 (R39, R239). -/
theorem stallsAfter_strayQuire : stallsAfter (exec (.transferComplete 0 128) strayQuire) = some 1 := by decide +kernel

/-- Refutes O58: TRANSFER_COMPLETE of a quire with one transfer may change signatures, since the clause leaves the quire's number free. At quire
128 it counts a stall of signature 5. Below 128 the transfer would leave its quire, and none would be left to begin. -/
theorem not_stepCommandFrames : ¬ Obligations.StepCommandFrames := by
  rintro ⟨-, -, -, -, -, -, -, -, -, -, -, -, -, -, -, -, -, -, -, -, -, -, -, -, htransfer, -⟩
  have hstall := stallsAfter_strayQuire
  cases hexec : exec (.transferComplete 0 128) strayQuire with
  | next u =>
    have hsig : u.sig = strayQuire.sig := htransfer 0 128 strayQuire u (by decide) hexec .sig (by decide)
    have hone : (sigE u 5).stallCount = 1 := by simpa [hexec, stallsAfter] using hstall
    rw [sigE, hsig] at hone
    exact absurd hone (by decide)
  | fault r => simp [hexec, stallsAfter] at hstall
  | refused r => simp [hexec, stallsAfter] at hstall

end Sys2Proof.Machine
end

section
/-! PROOFS. The statements of chapter 7: gutter units. -/

namespace Sys2Proof.Machine

open Host

/-! ### The interleaved window (R153) -/

theorem interleave_eq (ci a : Nat) :
    interleave ci a = (512 * (a / (512 * ci)) + a % (512 * ci) / 256 % 512, a % (512 * ci) / 256 / 512 * 256 + a % (512 * ci) % 256) := rfl

theorem deinterleave_eq (ci c o : Nat) : deinterleave ci c o = c / 512 * 512 * ci + (o / 256 * 512 + c % 512) * 256 + o % 256 := rfl

/-- The offset within its half of column `c` and offset `o`: R153's inverse without the half. -/
def halfOffset (c o : Nat) : Nat := (o / 256 * 512 + c % 512) * 256 + o % 256

theorem deinterleave_eq_half (ci c o : Nat) : deinterleave ci c o = 512 * ci * (c / 512) + halfOffset c o := by
  simp only [deinterleave_eq, halfOffset]
  ring

/-- A half holds whole rows of 512 granules, so an offset within the share stays within its half. -/
theorem halfOffset_lt {ci c o : Nat} (hci : ci % 256 = 0) (ho : o < ci) : halfOffset c o < 512 * ci := by
  unfold halfOffset
  omega

theorem interleave_half {ci r : Nat} (h : Nat) (hr : r < 512 * ci) :
    interleave ci (512 * ci * h + r) = (512 * h + r / 256 % 512, r / 256 / 512 * 256 + r % 256) := by
  have hdiv : (512 * ci * h + r) / (512 * ci) = h := by
    rw [Nat.mul_add_div (Nat.zero_lt_of_lt hr), Nat.div_eq_of_lt hr, Nat.add_zero]
  have hmod : (512 * ci * h + r) % (512 * ci) = r := by rw [Nat.mul_add_mod, Nat.mod_eq_of_lt hr]
  rw [interleave_eq, hdiv, hmod]

theorem interleave_deinterleave {ci c o : Nat} (hci : ci % 256 = 0) (ho : o < ci) : interleave ci (deinterleave ci c o) = (c, o) := by
  rw [deinterleave_eq_half, interleave_half _ (halfOffset_lt hci ho)]
  unfold halfOffset
  ext <;> simp only <;> omega

theorem deinterleave_interleave (ci a : Nat) : deinterleave ci (interleave ci a).1 (interleave ci a).2 = a := by
  have hhalf : (interleave ci a).1 / 512 = a / (512 * ci) := by
    simp only [interleave_eq]
    omega
  have hoffset : halfOffset (interleave ci a).1 (interleave ci a).2 = a % (512 * ci) := by
    simp only [interleave_eq, halfOffset]
    omega
  rw [deinterleave_eq_half, hhalf, hoffset, Nat.div_add_mod]

theorem interleave_column_lt {ci a : Nat} (ha : a < 1024 * ci) : (interleave ci a).1 < 1024 := by
  have hhalf : a / (512 * ci) < 2 := Nat.div_lt_of_lt_mul (by omega)
  simp only [interleave_eq]
  omega

theorem interleave_offset_lt {ci a : Nat} (hci : ci % 256 = 0) (hpos : 0 < ci) : (interleave ci a).2 < ci := by
  have hr : a % (512 * ci) < 512 * ci := Nat.mod_lt _ (by omega)
  simp only [interleave_eq]
  omega

/-- `k` bytes further on in the same half, the half stays and the offset within it grows by `k`. -/
theorem interleave_add_column {ci a k : Nat} (hfit : a % (512 * ci) + k < 512 * ci) :
    (interleave ci (a + k)).1 = 512 * (a / (512 * ci)) + (a % (512 * ci) + k) / 256 % 512 := by
  have hsplit : a + k = 512 * ci * (a / (512 * ci)) + (a % (512 * ci) + k) := by
    rw [← Nat.add_assoc, Nat.div_add_mod]
  rw [hsplit, interleave_half _ hfit]

/-- A half is a whole number of 4 KiB runs, so an aligned run starts on a boundary of its half and ends within it. -/
theorem run_in_half {ci a k : Nat} (ha : a % 4096 = 0) (hk : k < 4096) (hci : ci % 256 = 0) (hpos : 0 < ci) :
    a % (512 * ci) % 4096 = 0 ∧ a % (512 * ci) + k < 512 * ci := by
  have hr : a % (512 * ci) < 512 * ci := Nat.mod_lt _ (by omega)
  have hdvd : 4096 ∣ 512 * ci := by omega
  have halign : a % (512 * ci) % 4096 = 0 := by rw [Nat.mod_mod_of_dvd a hdvd, ha]
  exact ⟨halign, by omega⟩

/-- Settles O28: both directions split an offset into half, row, column and byte, each with its own remainder. -/
theorem interleaveFormulas : Obligations.InterleaveFormulas := by
  refine ⟨interleave_eq, deinterleave_eq, ?there, ?back, ?run, ?nextRow⟩
  case there =>
    exact fun ci a hci hpos ha => ⟨interleave_column_lt ha, interleave_offset_lt hci hpos, deinterleave_interleave ci a⟩
  case back => exact fun ci c o hci _ ho => interleave_deinterleave hci ho
  case run =>
    intro ci a k ha hk hci hpos
    obtain ⟨halign, hfit⟩ := run_in_half ha hk hci hpos
    rw [interleave_add_column hfit]
    simp only [interleave_eq]
    omega
  case nextRow =>
    intro ci a hfit
    rw [interleave_add_column hfit]
    simp only [interleave_eq]
    omega

/-! ### A gutter stitch is issued (R164, R172) -/

section
variable {t c j op : Nat} {s : State}

theorem runGutter_issued {f : State → Nat → Nat → BitVec 128 → State} (h : issues (atTime t s) (128 + c) op = true)
    (hd : discards (atTime t s) (128 + c) op = false) (hpause : (gutter (atTime t s) c).refreshPause = false)
    (hjob : (seqOf (atTime t s) (128 + c)).job = some j) :
    runGutter t (128 + c) op f s = f (atTime t s) c j (stitchAt (seqOf (atTime t s) (128 + c))) := by
  unfold runGutter
  rw [runStitch_issued h hd]
  simp only [Nat.add_sub_cancel_left, hpause, hjob, Bool.false_eq_true, if_false]

end

/-! ### The gutter stitches past the checks of their operands (R160, R166 to R169) -/

section
variable {s : State} {c j : Nat} {w : BitVec 128}

/-- The operand checks that gv.ld, gv.st and gv.gld share: scratch, the elements, and the scales where the format has any. -/
structure VectorLegal (w : BitVec 128) (ok : Nat → Nat → Bool) (m sc : Nat) : Prop where
  scratch : scratchOk (fld w 107 95) (32 * fld w 94 86) = true
  format : fld w 111 108 ≠ 0xF
  elements : ok m (vecBytes (fld w 111 108) (fld w 94 86)).1 = true
  scales : 0 < (vecBytes (fld w 111 108) (fld w 94 86)).2 → ok sc (vecBytes (fld w 111 108) (fld w 94 86)).2 = true

theorem VectorLegal.encodes {ok : Nat → Nat → Bool} {m sc : Nat} (h : VectorLegal w ok m sc) :
    ¬ (scratchOk (fld w 107 95) (32 * fld w 94 86) = false ∨ fld w 111 108 = 0xF) := by
  simp [h.scratch, h.format]

theorem VectorLegal.inRange {ok : Nat → Nat → Bool} {m sc : Nat} (h : VectorLegal w ok m sc) :
    ¬ (ok m (vecBytes (fld w 111 108) (fld w 94 86)).1 = false ∨
      (0 < (vecBytes (fld w 111 108) (fld w 94 86)).2 ∧ ok sc (vecBytes (fld w 111 108) (fld w 94 86)).2 = false)) := by
  rintro (helements | ⟨hpos, hscales⟩)
  · exact ne_false_of_eq_true h.elements helements
  · exact ne_false_of_eq_true (h.scales hpos) hscales

theorem gvLoad_legal {corrected : List Nat} :
    let m := colOffset s c (fld w 119 116)
    let sc := colOffset s c (fld w 115 112)
    let v := vecBytes (fld w 111 108) (fld w 94 86)
    let u := correctColumn s c corrected
    VectorLegal w (gutterOk s j c) m sc →
      gvLoad s c j w none corrected = advance (putScratch u c (fld w 107 95) (vecDecode (fld w 111 108) (fld w 94 86)
        (readBytes u (columnAddr c m) v.1) (readBytes u (columnAddr c sc) v.2))) (128 + c) :=
  fun h => (if_neg h.encodes).trans (if_neg h.inRange)

theorem gvStore_legal :
    let m := colOffset s c (fld w 119 116)
    let sc := colOffset s c (fld w 115 112)
    let blocks := (List.range (fld w 94 86)).map (fun k => encodeBlock (fld w 111 108) ((scratchWords s c (fld w 107 95 + 32 * k) 32).map f32))
    let u := writeBytes s (columnAddr c m) (blocks.flatMap (fun k => k.take (4 * fmtBits (fld w 111 108))))
    VectorLegal w (gutterOk s j c) m sc →
      gvStore s c j w none =
        advance (writeBytes u (columnAddr c sc) (blocks.flatMap (fun k => k.drop (4 * fmtBits (fld w 111 108))))) (128 + c) :=
  fun h => (if_neg h.encodes).trans (if_neg h.inRange)

theorem gvGroupLoad_legal {corrected : List Nat} :
    let m := ea (gutter s c).seq (fld w 119 116) % 2 ^ 36
    let sc := ea (gutter s c).seq (fld w 115 112) % 2 ^ 36
    let v := vecBytes (fld w 111 108) (fld w 94 86)
    let u := correctColumn s c corrected
    VectorLegal w (groupViewOk s c) m sc → c % 16 = 0 → bundleFenced s c (viewPlaces m v.1 ++ viewPlaces sc v.2) = false →
      gvGroupLoad s c w none corrected = advance (putScratch u c (fld w 107 95) (vecDecode (fld w 111 108) (fld w 94 86)
        (readBytes u m v.1) (readBytes u sc v.2))) (128 + c) := by
  intro m sc v u h hwide hfenced
  have hencodes : ¬ (scratchOk (fld w 107 95) (32 * fld w 94 86) = false ∨ fld w 111 108 = 0xF ∨ c % 16 ≠ 0) := by
    simp [h.scratch, h.format, hwide]
  refine (if_neg hencodes).trans ((if_neg h.inRange).trans ?_)
  simp only [vecBytes, m, sc, v] at hfenced
  simp only [vecBytes, hfenced, m, sc, v, u]

theorem gvApply_legal (hfn : fld w 119 116 < 0xE) (hranges : gvOpRanges w = true) :
    let x (k : Nat) : Word32 := tget 0 (gutter s c).scratch k
    gvApply s c w none = advance (noteWork (putScratch s c (fld w 115 103) ((List.range (32 * fld w 76 68)).map (fun e =>
      gvFunc (fld w 119 116) (x (fld w 102 90 + e)) (x (fld w 89 77 + e)) (x (fld w 89 77)) (x (fld w 115 103 + e))))) c) (128 + c) :=
  if_neg (not_or.mpr ⟨Nat.not_le.mpr hfn, ne_false_of_eq_true hranges⟩)

theorem gvReduce_legal (hfn : fld w 119 116 < 3) (hranges : gvRedRanges w = true) :
    let xs := scratchWords s c (fld w 102 90) (32 * fld w 89 81)
    gvReduce s c w none = advance (noteWork (putScratch s c (fld w 115 103)
      [if fld w 119 116 = 0 then tree32 xs else if fld w 119 116 = 1 then maxOf xs else tree32 (xs.map (fun x => fmul32 x x))]) c) (128 + c) :=
  if_neg (not_or.mpr ⟨Nat.not_le.mpr hfn, ne_false_of_eq_true hranges⟩)

theorem attRun_legal {l corrected : List Nat} (hheader : gutterOk s j c (colOffset s c (fld w 119 116)) 64 = true)
    (hlist : columnList s c (colOffset s c (fld w 119 116)) 32 = some l) :
    attRun s c j w none corrected = attendFrom c j (nbit w.toNat 115) (l.drop (gutter s c).attEntry) (correctColumn s c corrected) := by
  simp only [attRun, hheader, hlist, Bool.true_eq_false, if_false]

theorem attComb_legal {l corrected : List Nat} (hwide : c % 16 = 0) (hformat : fld w 115 112 ≤ 3)
    (hheader : gutterOk s j c (colOffset s c (fld w 119 116)) 64 = true)
    (hlist : columnList s c (colOffset s c (fld w 119 116)) 16 = some l) :
    attComb s c j w none corrected = combineFrom c j (fld w 115 112) l (correctColumn s c corrected) := by
  have hencodes : ¬ (c % 16 ≠ 0 ∨ 3 < fld w 115 112) := not_or.mpr ⟨not_not.mpr hwide, Nat.not_lt.mpr hformat⟩
  simp only [attComb, if_neg hencodes, hheader, hlist, Bool.true_eq_false, if_false]

end

/-- Settles O26: each stitch is issued at its column, and past the checks of its operands it has the effect that its rule gives. -/
theorem gutterStitchesComplete : Obligations.GutterStitchesComplete := by
  refine ⟨?gvLd, ?gvSt, ?gvGld, ?gvOp, ?gvRed, ?attRun, ?attComb⟩
  case gvLd =>
    exact fun _ _ _ _ _ h hd hpause hjob hscratch hformat helements hscales =>
      congrArg Outcome.next ((runGutter_issued h hd hpause hjob).trans (gvLoad_legal ⟨hscratch, hformat, helements, hscales⟩))
  case gvSt =>
    exact fun _ _ _ _ h hd hpause hjob hscratch hformat helements hscales =>
      congrArg Outcome.next ((runGutter_issued h hd hpause hjob).trans (gvStore_legal ⟨hscratch, hformat, helements, hscales⟩))
  case gvGld =>
    exact fun _ _ _ _ _ h hd hpause hjob hscratch hformat hwide helements hscales hfenced =>
      congrArg Outcome.next ((runGutter_issued h hd hpause hjob).trans
        (gvGroupLoad_legal ⟨hscratch, hformat, helements, hscales⟩ hwide hfenced))
  case gvOp =>
    exact fun _ _ _ _ h hd hpause hjob hfn hranges =>
      congrArg Outcome.next ((runGutter_issued h hd hpause hjob).trans (gvApply_legal hfn hranges))
  case gvRed =>
    exact fun _ _ _ _ h hd hpause hjob hfn hranges =>
      congrArg Outcome.next ((runGutter_issued h hd hpause hjob).trans (gvReduce_legal hfn hranges))
  case attRun =>
    exact fun _ _ _ _ _ _ h hd hpause hjob hheader hlist =>
      congrArg Outcome.next ((runGutter_issued h hd hpause hjob).trans (attRun_legal hheader hlist))
  case attComb =>
    exact fun _ _ _ _ _ _ h hd hpause hjob hwide hformat hheader hlist =>
      congrArg Outcome.next ((runGutter_issued h hd hpause hjob).trans (attComb_legal hwide hformat hheader hlist))

/-! ### The events of a column (R171, R172, R174) -/

theorem gutter_modGutter_other (s : State) {c d : Nat} (f : GutterUnit → GutterUnit) (h : d ≠ c) : gutter (modGutter s c f) d = gutter s d := by
  simp [gutter, modGutter, tget_tmod_other _ _ f h]

@[simp] theorem gutter_atTime (t : Nat) (s : State) (c : Nat) : gutter (atTime t s) c = gutter s c := rfl
@[simp] theorem gutter_incF (s : State) (i k c : Nat) : gutter (incF s i k) c = gutter s c := rfl
@[simp] theorem gutter_emit (s : State) (o : Out) (c : Nat) : gutter (emit s o) c = gutter s c := rfl

theorem keepsBut_modGutter (s : State) (c : Nat) (f : GutterUnit → GutterUnit) : KeepsBut [.gutters] s (modGutter s c f) := by
  intro p hp
  cases p <;> simp_all [Part.Same]

/-- A column event of local time `t`: column `c` changes by `f`, and its count in the four folios from `base` rises by one (R178). -/
def columnCounted (t c base : Nat) (f : GutterUnit → GutterUnit) (s : State) : State :=
  incF (modGutter (atTime t s) c f) (base + c / 256) (c % 256)

section
variable (t c base : Nat) (f : GutterUnit → GutterUnit) (s : State)

theorem gutter_columnCounted_same : gutter (columnCounted t c base f s) c = f (gutter s c) := by
  simp [columnCounted]

theorem gutter_columnCounted_other {d : Nat} (h : d ≠ c) : gutter (columnCounted t c base f s) d = gutter s d := by
  simp [columnCounted, gutter_modGutter_other _ f h]

theorem getF_columnCounted : getF (columnCounted t c base f s) (base + c / 256) (c % 256) =
    (getF s (base + c / 256) (c % 256) + 1) % 2 ^ folioWidth (base + c / 256) (c % 256) :=
  getF_incF_same _ _ _

theorem foliosBut_columnCounted : FoliosBut [(base + c / 256, c % 256)] s (columnCounted t c base f s) :=
  foliosBut_incF rfl (Nat.mod_lt c (by decide))

theorem keepsBut_columnCounted : KeepsBut [.now, .gutters, .dict] s (columnCounted t c base f s) :=
  ((keepsBut_atTime t s).trans (keepsBut_modGutter _ c f)).trans (keepsBut_incF _ _ _)

end

section
variable {t c : Nat} {s : State}

/-- One of the repeats that the count of work has called for is used up. -/
def repeatUsed (g : GutterUnit) : GutterUnit := { g with repeats := g.repeats - 1 }

/-- A refresh stops the unit. -/
def refreshPaused (g : GutterUnit) : GutterUnit := { g with refreshPause := true }

/-- Access `x` waits until the unit's span ends. -/
def accessHeld (x : HeldAccess) (g : GutterUnit) : GutterUnit := { g with held := g.held ++ [x] }

theorem exec_spotCheck_same (h : (gutter (atTime t s) c).repeats ≠ 0) :
    exec (.spotCheck t c false) s = .next (columnCounted t c 0x3424 repeatUsed s) :=
  if_neg h

theorem exec_spotCheck_differs {j : Nat} (h : (gutter (atTime t s) c).repeats ≠ 0) (hjob : (gutter (atTime t s) c).seq.job = some j) :
    exec (.spotCheck t c true) s = .next (unitEvent (uncorrectable
      (incF (modSeq (columnCounted t c 0x3424 repeatUsed s) (128 + c) (fun q => { q with mismatch := true })) (0x3420 + c / 256) (c % 256))
      (unitColumn c) 3 0 (some j) ((gutter (atTime t s) c).seq.sp % 1024) 0) j (unitColumn c)) := by
  change execSpotCheck t c true s = _
  simp only [execSpotCheck, if_neg h, hjob]
  rfl

theorem exec_ordinaryAccess_served {id beats : Nat} {slot : Bool} (h : ownsPort s c = false ∨ slot = true) :
    exec (.ordinaryAccess t c id beats slot) s = .next (emit (atTime t s) (.columnData c id false)) := by
  refine if_neg fun hheld : ownsPort s c = true ∧ slot = false => ?_
  rcases h with hfree | hslot
  · exact ne_false_of_eq_true hheld.1 hfree
  · exact ne_false_of_eq_true hslot hheld.2

theorem exec_ordinaryAccess_held {id beats : Nat} (h : ownsPort s c = true) :
    exec (.ordinaryAccess t c id beats false) s =
      .next (emit (columnCounted t c 0x3414 (accessHeld { id := id, beats := beats, sinceNs := max s.now t }) s) (.columnData c id true)) :=
  if_pos (show ownsPort s c = true ∧ false = false from ⟨h, rfl⟩)

theorem exec_refreshDue_running (h : ownsPort s c = true) (hpause : (gutter s c).refreshPause = false) :
    exec (.refreshDue t c) s = .next (columnCounted t c 0x341C refreshPaused s) :=
  if_pos (show ownsPort s c = true ∧ (gutter s c).refreshPause = false from ⟨h, hpause⟩)

end

/-! ### A write to the broadcast window (R155) -/

theorem exec_broadcastWrite_quire {t index jb addr : Nat} {data : List Byte} {s : State} (hwindow : inBroadcast addr = true) (hdata : data ≠ [])
    (hfit : (addr - 0x180000000000) % 0x400000 + data.length ≤ 0x400000) (hbundle : bundleOf (atTime t s) jb addr = true)
    (hjob : (quire (atTime t s) index).job = some jb) :
    exec (.broadcastWrite t 0 index jb addr data) s =
      .next ((storeMoves (atTime t s) 0 addr data.length).foldl (fun u m => writeBytes u m.dst data) (atTime t s)) :=
  (if_neg (not_or.mpr ⟨ne_false_of_eq_true hwindow, hdata⟩)).trans (if_pos ⟨.inl rfl, hfit, hbundle, .inr hjob⟩)

/-- Settles O27: each event past its guard; the counting ones by the rules of the column and the count that they write. -/
theorem columnEventsComplete : Obligations.ColumnEventsComplete := by
  refine ⟨?spotSame, ?spotDiffers, ?access, ?spanEnd, ?refreshDue, ?refreshComplete, ?broadcast⟩
  case spotSame =>
    exact fun t c s h => ⟨_, exec_spotCheck_same h, gutter_columnCounted_same t c _ _ s, fun _ hd => gutter_columnCounted_other t c _ _ s hd,
      getF_columnCounted t c _ _ s, keepsBut_columnCounted t c _ _ s, foliosBut_columnCounted t c _ _ s⟩
  case spotDiffers => exact fun _ _ _ _ h hjob => exec_spotCheck_differs h hjob
  case access =>
    intro t c id beats slot s
    constructor
    · exact fun h => ⟨_, exec_ordinaryAccess_served h, rfl, (keepsBut_atTime t s).trans (keepsBut_emit _ _)⟩
    · rintro howns rfl
      refine ⟨_, exec_ordinaryAccess_held howns, ?held, rfl, foliosBut_columnCounted t c _ _ s, ?frame⟩
      case held => rw [gutter_emit, gutter_columnCounted_same]; rfl
      case frame => exact ((keepsBut_columnCounted t c _ _ s).trans (keepsBut_emit _ _)).mono (by decide)
  case spanEnd => exact fun _ _ _ => rfl
  case refreshDue =>
    exact fun t c s howns hpause => ⟨_, exec_refreshDue_running howns hpause, gutter_columnCounted_same t c _ _ s,
      foliosBut_columnCounted t c _ _ s, getF_columnCounted t c _ _ s, keepsBut_columnCounted t c _ _ s⟩
  case refreshComplete =>
    exact fun t c s => ⟨_, rfl, gutter_modGutter_same _ c _, fun _ hd => gutter_modGutter_other _ _ hd,
      (keepsBut_atTime t s).trans (keepsBut_modGutter _ c _)⟩
  case broadcast =>
    exact fun _ _ _ _ _ _ hwindow hdata hfit hbundle hjob => exec_broadcastWrite_quire hwindow hdata hfit hbundle hjob

end Sys2Proof.Machine
end

section
/-! PROOFS. The statement of chapter 7 on stores: a transfer that begins as another completes.

When the first outstanding transfer of a quire completes, the next one begins, and one that halts writes the beats before its failing beat (R136,
R364). Those bytes belong to the next transfer, and not to the one that completes. -/

namespace Sys2Proof.Machine

open Host

/-- Column 0 offset 32 MiB, in its column pool: where the transfers of this counterexample load from. -/
def poolAddr : Nat := columnAddr 0 0x2000000

/-- A dma.ld of no rows. -/
def emptyLoad : Transfer :=
  { moves := [], event := 0, load := true, away := [], fault := { corrected := [], halt := none }, gather := none }

/-- A dma.ld of one row of two beats, the second of which meets an uncorrectable error (R364). -/
def haltingLoad : Transfer :=
  { moves := [{ src := poolAddr, dst := quireAddr 3 0, len := 128 }], event := 0, load := true, away := [],
    fault := { corrected := [], halt := some (1, poolAddr + 64) }, gather := none }

/-- Columns of 48 MiB, a byte 7 in column 0, and quire 3 of job 0 with `emptyLoad` and then `haltingLoad` outstanding. -/
def haltingNext : State :=
  { setF State.reset 0x3400 0x02 48 with
    mem := [(poolAddr, 7)]
    quires := [(3, { Sequencer.zero with job := some 0, transfers := [emptyLoad, haltingLoad] })] }

/-- Byte 0 of the SRAM of quire 3 in the state that a command answers. -/
def sramByteAfter : Outcome State Fault Refusal → Option Byte
  | .next u => some (memGet u.mem (quireAddr 3 0))
  | _ => none

/-- `emptyLoad` completes, and the first beat of `haltingLoad` reaches the SRAM before it halts. -/
theorem sramByteAfter_haltingNext : sramByteAfter (exec (.transferComplete 0 3) haltingNext) = some 7 := by decide +kernel

/-- Refutes O60: as a transfer completes, the one behind it begins, and where that one halts at an uncorrectable error the beats before it are
written (R364): here one beat into quire 3, though the transfer that completes stores nothing. -/
theorem not_storesLandWhereComputed : ¬ Obligations.StoresLandWhereComputed := by
  rintro ⟨-, -, htransfer, -⟩
  obtain ⟨u, hexec, hkeeps⟩ := htransfer 0 3 emptyLoad [haltingLoad] haltingNext (by decide +kernel) rfl (by simp [haltingLoad])
  have hbefore : memGet (atTime 0 haltingNext).mem (quireAddr 3 0) = 0 := by decide +kernel
  have hstored : memGet u.mem (quireAddr 3 0) = 7 := by simpa [hexec, sramByteAfter] using sramByteAfter_haltingNext
  have hkept := hkeeps (quireAddr 3 0) (by simp [emptyLoad])
  rw [hstored, hbefore] at hkept
  exact absurd hkept (by decide)

end Sys2Proof.Machine
end

section
/-! PROOFS. The statement of chapter 8: attention at distance. -/

namespace Sys2Proof.Machine

open Host

/-! ### A message of a live source, for another member or for this package (R189, R190) -/

section
variable {b : State} {src member : Nat} {dropped relayed taken : Outcome State Fault Refusal}

theorem receipt_live (hlive : deadSource b src = false) : (if deadSource b src then dropped else taken) = taken :=
  if_neg (ne_true_of_eq_false hlive)

theorem receipt_relayed (hlive : deadSource b src = false) (hother : member ≠ ownEndpoint b) :
    (if deadSource b src then dropped else if member ≠ ownEndpoint b then relayed else taken) = relayed :=
  (receipt_live hlive).trans (if_pos hother)

theorem receipt_own (hlive : deadSource b src = false) :
    (if deadSource b src then dropped else if ownEndpoint b ≠ ownEndpoint b then relayed else taken) = taken :=
  (receipt_live hlive).trans (if_neg (not_not.mpr rfl))

end

/-- A message of type `type` from a live source, whose header is sound (R190). -/
structure SoundSpan (b : State) (h : BitVec 512) (type : Nat) : Prop where
  live : deadSource b (fld h 503 488) = false
  ok : spanOk b h type = true

/-- A sound message that calls on this package as a member, for a pass of another owner that no later one has overtaken (R191). -/
structure CallsMember (b : State) (h : BitVec 512) (type : Nat) : Prop extends SoundSpan b h type where
  notOwner : (headerPass h).owner ≠ ownEndpoint b
  current : overtaken b (headerPass h) = false

/-! ### Ring members (R183, R187, R188) -/

section
variable {t k : Nat} {h : BitVec 512} {payload bs : List Byte} {p q : SpanPass} {a : HostAsk} {u s : State}

/-- RING_PLAN with a list that this package is not yet in: it appends itself and forwards the frame (R183). -/
theorem exec_ringPlan_appended {ready : List Nat} : let b := atTime t s
    let l := (List.range (payload.length / 2)).map (fun k => ofBytesLE ((payload.drop (2 * k)).take 2))
    deadSource b (fld h 503 488) = false → fld h 511 504 = 0x20 → fld h 293 293 ≠ 0 → fld h 252 221 = payload.length →
    payload.length % 2 = 0 → l ≠ [] → l.length < 16 → l.contains (ownEndpoint b) = false →
      exec (.ringPlan t h ⟨payload, ready⟩) s = .next (sendPlan b (fld h 295 294) (l ++ [ownEndpoint b])) := by
  intro b l hlive htype hring hlen heven hsome hroom hnew
  have hsound : ¬ (fld h 511 504 ≠ 0x20 ∨ fld h 293 293 = 0 ∨ fld h 252 221 ≠ payload.length ∨ payload.length % 2 = 1 ∨ l = [] ∨
      16 < l.length) := by
    simp [htype, hring, hlen, heven, hsome, hroom.le]
  exact (receipt_live hlive).trans <| (if_neg hsound).trans <| (if_neg (ne_true_of_eq_false hnew)).trans (if_neg hroom.ne)

/-- QUERY at a member that holds spans of the pass (R187). -/
theorem exec_query_taken : let b := atTime t s
    let p := headerPass h
    let n := rowLengths (imageOf b p.job) h
    CallsMember b h 0x21 → fld h 252 221 = n.1 + n.2 → openSpan b p.job (n.1 + n.2) payload = (u, some bs) →
      exec (.query t ⟨ownEndpoint b, h, k⟩ payload) s = .next (takeQuery p bs n.1 (fld h 314 302) u) := by
  intro b p n hcalls hlen hopen
  have hguard : ¬ (spanOk b h 0x21 = false ∨ fld h 252 221 ≠ n.1 + n.2 ∨ p.owner = ownEndpoint b ∨ overtaken b p = true) := by
    simp [p, hcalls.ok, hlen, hcalls.notOwner, hcalls.current]
  simp only [b, p, n] at hopen
  exact (receipt_own hcalls.live).trans <| (if_neg hguard).trans <| by simp only [hopen, p, n, b]

/-- BLOCK_REQ at a member that holds spans of the pass (R188 step 2). -/
theorem exec_blockReq_taken : let b := atTime t s
    let p := headerPass h
    CallsMember b h 0x24 →
      exec (.blockReq t ⟨ownEndpoint b, h, k⟩) s = .next (runPass (openShard (dropOlder b p) p.job p.owner p.sig p.epoch p.anchor)
        { p with known := true, block := some (fld h 391 376) }) := by
  intro b p hcalls
  have hguard : ¬ (spanOk b h 0x24 = false ∨ p.owner = ownEndpoint b ∨ overtaken b p = true) := by
    simp [p, hcalls.ok, hcalls.notOwner, hcalls.current]
  exact (receipt_own hcalls.live).trans (if_neg hguard)

/-- KV_PUT at a member whose shard of the signature opens: what the shard held past KV_LEN goes, and the rows are taken (R188 step 4). -/
theorem exec_kvPutMessage_taken {x : Shard} : let b := atTime t s
    let p := headerPass h
    let n := (rowLengths (imageOf b p.job) h).2
    let v := openShard u p.job p.owner p.sig p.epoch p.anchor
    CallsMember b h 0x26 → fld h 252 221 = n → openSpan b p.job n payload = (u, some bs) → shardOf v p.job p.owner p.sig p.epoch = some x →
      exec (.kvPutMessage t ⟨ownEndpoint b, h, k⟩ payload) s = .next (takeRows (rollbackShard v x p.kvLen)
        ((shardOf (rollbackShard v x p.kvLen) p.job p.owner p.sig p.epoch).getD x) p.layer p.qp0
        (cutRows (fld h 314 302) ((kvRowBytes (imageOf b p.job)).1 + (kvRowBytes (imageOf b p.job)).2) bs)) := by
  intro b p n v hcalls hlen hopen hshard
  have hguard : ¬ (spanOk b h 0x26 = false ∨ fld h 252 221 ≠ n ∨ p.owner = ownEndpoint b ∨ overtaken b p = true) := by
    simp [p, hcalls.ok, hlen, hcalls.notOwner, hcalls.current]
  simp only [b, p, n, v] at hopen hshard
  exact (receipt_own hcalls.live).trans <| (if_neg hguard).trans <| by simp only [hopen, hshard, v, p, b]

/-! ### Passes in progress (R187, R188) -/

/-- ACC for a pass in progress here, which goes on with the accumulator (R187 step 4). -/
theorem exec_acc_taken : let b := atTime t s
    let p := headerPass h
    let i := imageOf b p.job
    let rows := p.qpos * i.qHeads
    SoundSpan b h 0x22 → fld h 252 221 = rows * (64 + 4 * i.headDim) → findPass b p = some q →
    openSpan b p.job (rows * (64 + 4 * i.headDim)) payload = (u, some bs) →
      exec (.acc t ⟨ownEndpoint b, h, k⟩ payload) s =
        .next (runPass (keepRows (countHolders u p k) p.job 0 (rowsFrom i rows bs)) { q with acc := some (rowsFrom i rows bs) }) := by
  intro b p i rows hsound hlen hfind hopen
  have hguard : ¬ (spanOk b h 0x22 = false ∨ fld h 252 221 ≠ rows * (64 + 4 * i.headDim)) := by simp [hsound.ok, hlen]
  simp only [b, p, i, rows] at hfind hopen
  exact (receipt_own hsound.live).trans <| (if_neg hguard).trans <| by simp only [hfind, hopen, b, p, i, rows]

/-- OUTPUT at the owner of the pass (R187 step 5). -/
theorem exec_output_taken : let b := atTime t s
    let p := headerPass h
    SoundSpan b h 0x23 → findPass b p = some q → q.owner = ownEndpoint b → openSpan b p.job (fld h 252 221) payload = (u, some bs) →
      exec (.output t ⟨ownEndpoint b, h, k⟩ payload) s = .next (putPass (countHolders u p k) { q with sent := true, output := some bs }) := by
  intro b p hsound hfind howner hopen
  have hok : ¬ spanOk b h 0x23 = false := ne_false_of_eq_true hsound.ok
  simp only [b, p] at hfind hopen
  refine (receipt_own hsound.live).trans <| (if_neg hok).trans ?_
  simp only [hfind]
  exact (if_neg (not_not.mpr howner)).trans <| by simp only [hopen, p]

/-- BLOCK at the owner, from a member that the pass awaits (R188 step 3). -/
theorem exec_block_taken : let b := atTime t s
    let p := headerPass h
    let i := imageOf b p.job
    let l := blockLeaves b { q with spanHi := p.spanHi } (fld h 391 376) (fld h 503 488)
    SoundSpan b h 0x25 → findPass b p = some q → p.owner = ownEndpoint b → q.awaits.contains (fld h 503 488) = true →
    fld h 252 221 = l.length * (payloadBytes i + scaleBytesOf i) → openSpan b p.job (fld h 252 221) payload = (u, some bs) →
      exec (.block t ⟨ownEndpoint b, h, k⟩ payload) s =
        .next (blockTaken q (l.map (fun x => x.1)) (fld h 503 488) (fillLeaves p.job p.layer l bs (countHolders u p k))) := by
  intro b p i l hsound hfind howner hawaited hlen hopen
  have hok : ¬ spanOk b h 0x25 = false := ne_false_of_eq_true hsound.ok
  have hguard : ¬ (p.owner ≠ ownEndpoint b ∨ q.awaits.contains (fld h 503 488) = false ∨
      fld h 252 221 ≠ l.length * (payloadBytes i + scaleBytesOf i)) := by
    rintro (hforeign | hnotAwaited | hother)
    · exact hforeign howner
    · exact ne_false_of_eq_true hawaited hnotAwaited
    · exact hother hlen
  simp only [b, p] at hfind hopen
  refine (receipt_own hsound.live).trans <| (if_neg hok).trans ?_
  simp only [hfind]
  exact (if_neg hguard).trans <| by simp only [hopen, b, p, l]

/-! ### Cache hosts and their holders (R193 to R195) -/

/-- ATTEND that its host job takes, its units busy: it waits in the queue (R194). -/
theorem exec_attend_queued : let b := atTime t s
    let j := fld h 421 416
    deadSource b (fld h 503 488) = false → openSpan b j (fld h 252 221) payload = (u, some bs) → attendCode u h (some bs) = none →
      exec (.attend t h payload false) s = .next { u with span := { u.span with attends := u.span.attends ++
        [{ src := fld h 503 488, job := j, srcJob := nfld (ofBytesLE (payload.take 64)) 503 498, header := h, payload := bs }] } } := by
  intro b j hlive hopen htaken
  simp only [b, j] at hopen
  show execAttend t h payload false s = _
  unfold execAttend
  refine (receipt_live hlive).trans ?_
  simp only [hopen, htaken, j, Option.getD_some, Bool.false_eq_true, if_false]

/-- A message of a cache host from a live source, RSVD zero, that answers an ask of a pass in progress (R190, R193). -/
structure AnswersAsk (b : State) (h : BitVec 512) (type : Nat) (p : SpanPass) (a : HostAsk) : Prop where
  live : deadSource b (fld h 503 488) = false
  type_eq : fld h 511 504 = type
  rsvd : fld h 423 422 = 0
  rsvdLow : fld h 220 0 = 0
  asked : askedPass b h = some (p, a)

theorem AnswersAsk.sound {b : State} {type : Nat} (ha : AnswersAsk b h type p a) :
    ¬ (fld h 511 504 ≠ type ∨ fld h 423 422 ≠ 0 ∨ fld h 220 0 ≠ 0) := by
  simp [ha.type_eq, ha.rsvd, ha.rsvdLow]

/-- PARTIALS in time, of an ask sent once: merged as own span partials (R193). -/
theorem exec_partials_inTime : let b := atTime t s
    let i := imageOf b p.job
    let n := p.qpos * i.qHeads
    let k := a.hi + 1 - a.lo
    let got := (List.range k).map (fun d => (a.hi - d, rowsFrom i n (bs.drop (d * n * (64 + 4 * i.headDim)))))
    AnswersAsk b h 0x28 p a → fld h 252 221 = k * n * (64 + 4 * i.headDim) → openSpan b p.job (fld h 252 221) payload = (u, some bs) →
    a.late = false → a.retried = false →
      exec (.partials t h payload) s = .next (runPass (addF (got.foldl (fun u x => keepRows u p.job (x.1 + 1) x.2) u) 0x3816 p.job k)
        { p with spans := p.spans ++ got, asks := p.asks.filter (fun x => !decide (x = a)) }) := by
  intro b i n k got hanswers hlen hopen hinTime honce
  have hlength : ¬ fld h 252 221 ≠ k * n * (64 + 4 * i.headDim) := not_not.mpr hlen
  have hkept : ¬ (a.late = true ∨ a.retried = true) := by simp [hinTime, honce]
  have hasked := hanswers.asked
  simp only [b] at hasked hopen
  refine (receipt_live hanswers.live).trans <| (if_neg hanswers.sound).trans ?_
  simp only [hasked]
  exact (if_neg hlength).trans <| by simp only [hopen, if_neg hkept, b, i, n, k, got]

/-- REFUSE of an ask is counted, and the tier of its spans is late since the ask was sent (R195, R239). -/
def askRefused (b : State) (p : SpanPass) (a : HostAsk) : State :=
  passLate (incF b 0x3818 p.job) p a.sentNs (spansTier b p (askSpans a))

/-- A first refusal for a full queue is retried at the next step; any other leaves the spans to be attended otherwise (R195). -/
theorem exec_spanRefuse_answers (hanswers : AnswersAsk (atTime t s) h 0x29 p a) :
    exec (.spanRefuse t h) s =
      if fld h 292 285 = 4 ∧ a.retried = false then
        .next (putPass (askRefused (atTime t s) p a) { p with asks := p.asks.map (fun x => if x = a then { a with retryDue := true } else x) })
      else
        .next (runPass (askRefused (atTime t s) p a)
          { p with asks := p.asks.filter (fun x => !decide (x = a)), refused := p.refused ++ askSpans a, todo := p.todo ++ askSpans a }) := by
  refine (receipt_live hanswers.live).trans <| (if_neg hanswers.sound).trans ?_
  simp only [hanswers.asked, askRefused]

end

/-- Settles O29: each message by its receipt, past the guards of its kind. -/
theorem spanMessagesComplete : Obligations.SpanMessagesComplete := by
  refine ⟨?ringPlan, ?query, ?acc, ?output, ?blockReq, ?block, ?kvPut, ?relay, ?attend, ?partials, ?refuse, ?timeout⟩
  case ringPlan => exact fun _ _ _ _ _ => exec_ringPlan_appended
  case query =>
    exact fun _ _ _ _ _ _ _ hlive hok hlen howner hcurrent hopen => exec_query_taken ⟨⟨hlive, hok⟩, howner, hcurrent⟩ hlen hopen
  case acc => exact fun _ _ _ _ _ _ _ _ hlive hok hlen hfind hopen => exec_acc_taken ⟨hlive, hok⟩ hlen hfind hopen
  case output => exact fun _ _ _ _ _ _ _ _ hlive hok hfind howner hopen => exec_output_taken ⟨hlive, hok⟩ hfind howner hopen
  case blockReq => exact fun _ _ _ _ hlive hok howner hcurrent => exec_blockReq_taken ⟨⟨hlive, hok⟩, howner, hcurrent⟩
  case block =>
    exact fun _ _ _ _ _ _ _ _ hlive hok hfind howner hawaited hlen hopen =>
      exec_block_taken ⟨hlive, hok⟩ hfind howner hawaited hlen hopen
  case kvPut =>
    exact fun _ _ _ _ _ _ _ _ hlive hok hlen howner hcurrent hopen hshard =>
      exec_kvPutMessage_taken ⟨⟨hlive, hok⟩, howner, hcurrent⟩ hlen hopen hshard
  case relay =>
    intro t member k h payload s b hlive hother
    exact ⟨receipt_relayed hlive hother, receipt_relayed hlive hother, receipt_relayed hlive hother, receipt_relayed hlive hother,
      receipt_relayed hlive hother, receipt_relayed hlive hother⟩
  case attend => exact fun _ _ _ _ _ _ => exec_attend_queued
  case partials =>
    exact fun _ _ _ _ _ _ _ _ hlive htype hrsvd hlow hasked hlen hopen hinTime honce =>
      exec_partials_inTime ⟨hlive, htype, hrsvd, hlow, hasked⟩ hlen hopen hinTime honce
  case refuse =>
    intro t h p a s b late hlive htype hrsvd hlow hasked
    have hrefuse := exec_spanRefuse_answers ⟨hlive, htype, hrsvd, hlow, hasked⟩
    constructor
    · exact fun hfull honce => hrefuse.trans (if_pos ⟨hfull, honce⟩)
    · exact fun hfinal => hrefuse.trans (if_neg fun hagain => hfinal.elim (· hagain.1) (ne_true_of_eq_false hagain.2))
  case timeout => exact fun _ _ _ => rfl

end Sys2Proof.Machine
end

section
/-! PROOFS. The statement of chapter 9: handoff messages and timers. -/

namespace Sys2Proof.Machine

open Host

/-! ### A short message is taken (R199, R203) -/

/-- A short message of the awaited type, from a live source and with no RSVD bit set, takes its effect. -/
theorem recvShort_good {s : State} {h : BitVec 1024} {type : Nat} (f : State → State) (hgood : GoodShort s h type) :
    recvShort s h type f = f s := by
  obtain ⟨htype, hlive, hrsvd⟩ := hgood
  simp [recvShort, htype, hlive, hrsvd]

/-- A command that receives a short message answers what `f` makes of a good one. -/
theorem receipt_short {s u : State} {h : BitVec 1024} {type : Nat} {f : State → State} (hgood : GoodShort s h type) (hf : f s = u) :
    (Outcome.next (recvShort s h type f) : Outcome State Fault Refusal) = .next u :=
  congrArg Outcome.next ((recvShort_good f hgood).trans hf)

section
variable {t n sig : Nat} {h : BitVec 1024} {objs : List (Nat × Nat × List Byte)} {s : State}

/-! ### Offers and the leaf stream (R208, R209) -/

/-- OFFER of a live source with every RSVD bit zero goes through on_offer (R208). -/
theorem exec_offer_sound {words : List Nat} {readable : Bool} (htype : fld h 1023 1016 = 0x10)
    (hlive : deadSource (atTime t s) (fld h 1015 1000) = false) (hhigh : fld h 817 816 = 0) (hmid : fld h 584 576 = 0)
    (hlow : fld h 415 0 = 0) : exec (.offer t h words readable) s = .next (onOffer (atTime t s) h words readable) := by
  have hrsvd : ¬ (fld h 817 816 ≠ 0 ∨ fld h 584 576 ≠ 0 ∨ fld h 415 0 ≠ 0) := by simp [hhigh, hmid, hlow]
  exact (if_neg (not_not.mpr htype)).trans <| (receipt_live hlive).trans (if_neg hrsvd)

/-- ACCEPT of the offer of entry `n`: the groups from the wanted position on are streamed (R209). -/
theorem exec_accept_offered (hgood : GoodShort (atTime t s) h 0x11) (hoffered : offered (atTime t s) h = some n) :
    exec (.accept t ⟨h, objs⟩) s = .next (streamLeaves objs
      (modRecord (atTime t s) n (fun r => { r with fromGroup := some (fld h 407 384), accepted := true })) n (fld h 407 384)) :=
  receipt_short hgood (by simp only [hoffered])

/-- RESEND of a leaf of the offer of entry `n`: it is sent once more (R209). -/
theorem exec_resend_offered (hgood : GoodShort (atTime t s) h 0x17) (hoffered : offered (atTime t s) h = some n) :
    exec (.resend t ⟨h, objs⟩) s = .next (sendLeaf objs (atTime t s) n (fld h 407 384) (fld h 383 376)).1 :=
  receipt_short hgood (by simp only [hoffered])

/-- The leaf that a LEAF message names is awaited by the handoff `r` into entry `n`, at the epoch of the entry (R209). -/
structure AwaitsLeaf (b : State) (h : BitVec 1024) (n : Nat) (r : HandoffIn) : Prop where
  entry : shortEntry b h = some n
  incoming : incomingOf b n = some r
  state : (sigE b n).state = .handoffIn
  running : r.stopped = false
  wanted : r.wanted.contains (fld h 407 384, fld h 383 376) = true
  epoch : (sigE b n).ownerEpoch.toNat = fld h 455 424

/-- LEAF of an awaited leaf that opens and has the bytes its job's leaves have: it is placed (R209). -/
theorem exec_leaf_placed {object raw : List Byte} {r : HandoffIn} {u : State} : let b := atTime t s
    let p := fld h 407 384
    let l := fld h 383 376
    let j := (sigE b n).job.toNat
    GoodShort b h 0x12 → AwaitsLeaf b h n r →
    openObject b ((leafOf b j (r.groups.getD (p - r.fromGroup) 0) l).column / 512) object = (u, .ok raw) →
    raw.length = payloadBytes (imageOf u j) + scaleBytesOf (imageOf u j) → raw.length = fld h 366 335 →
      exec (.leaf t h object) s = .next (placeStreamLeaf u n p l (fld h 375 369) raw r) := by
  intro b p l j hgood hawaits hopen hsize hlen
  obtain ⟨hentry, hincoming, hstate, hrunning, hwanted, hepoch⟩ := hawaits
  have hunwanted : ¬ ((sigE b n).state ≠ .handoffIn ∨ r.stopped = true ∨ r.wanted.contains (p, l) = false ∨
      (sigE b n).ownerEpoch.toNat ≠ fld h 455 424) := by
    rintro (hother | hstopped | hreceived | hstale)
    · exact hother hstate
    · exact ne_true_of_eq_false hrunning hstopped
    · exact ne_false_of_eq_true hwanted hreceived
    · exact hstale hepoch
  have hwhole : ¬ (raw.length ≠ payloadBytes (imageOf u j) + scaleBytesOf (imageOf u j) ∨ raw.length ≠ fld h 366 335) :=
    not_or.mpr ⟨not_not.mpr hsize, not_not.mpr hlen⟩
  refine receipt_short hgood ?_
  simp only [b, p, l, j] at hentry hincoming hopen
  simp only [hentry, hincoming]
  exact (if_neg hunwanted).trans <| by simp only [hopen]; exact if_neg hwhole

/-! ### Confirms (R210, R211, R213) -/

/-- What a CONFIRM of an offered signature does before the kind of its handoff tells where the entry goes: its record is dropped, and the
confirm is counted (R211). -/
def confirmTaken (b : State) (n : Nat) : State := incF (dropRecord b n) 0x2061 (sigE b n).job.toNat

/-- CONFIRM: a holder enters AWAY, unless the handoff was a MOVE; every other entry is freed, a moved one with a bookmark of the job asked for
(R211). -/
theorem exec_confirm_offered : let b := atTime t s
    let u := confirmTaken b n
    GoodShort b h 0x13 → shortEntry b h = some n → offered b h = some n →
      exec (.confirm t h) s = .next (
        if (sigA u n).holder = true ∧ (sigA b n).handoffKind ≠ 2 then
          setSigState (modA u n (fun a => { a with probeAtNs := u.now + getF u 0x2060 0x03 * 1000 })) n .away
        else freeEntry (if (sigA b n).handoffKind = 2 then
          modJob u (sigE b n).job.toNat (fun x => { x with bookmark := { x.bookmark with requested := true } }) else u) n) :=
  fun hgood hentry hoffered => receipt_short hgood (by simp only [hentry, hoffered]; rfl)

theorem exec_confirmDelivered_waiting (hwaiting : (sigA (atTime t s) sig).confirmWaiting = true) :
    exec (.confirmDelivered t sig) s = .next (confirmDone (atTime t s) sig) :=
  congrArg Outcome.next (if_pos hwaiting)

/-- A CONFIRM that cannot be delivered: the handoff's receiver probes its sender at once, and next after 2 ms (R210, R213). -/
theorem exec_confirmUndeliverable_waiting {r : HandoffIn} (hwaiting : (sigA (atTime t s) sig).confirmWaiting = true)
    (hincoming : incomingOf (atTime t s) sig = some r) :
    exec (.confirmUndeliverable t sig) s = .next (modA (sendShort (atTime t s) r.sender 0x15 sig 0 0 0) sig
      (fun a => { a with probeAtNs := (atTime t s).now + 2000000 })) :=
  (if_neg (ne_false_of_eq_true hwaiting)).trans (by simp only [hincoming])

/-! ### Leases and claims (R212) -/

/-- A lease ends unless its time is yet to come or a CONFIRM that has arrived goes first (R211, R212; log 142). -/
theorem exec_leaseExpiry_recorded {r : ReleaseRecord} (hrecord : recordOf (atTime t s) sig = some r) :
    exec (.leaseExpiry t sig) s = .next (if (atTime t s).now < r.leaseEndNs ∨ confirmQueued (atTime t s) sig = true
      then atTime t s else leaseExpired (atTime t s) sig r) := by
  show execLeaseExpiry t sig s = _
  simp only [execLeaseExpiry, hrecord]

/-- CLAIM about entry `n` acts when its epoch is above the entry's (R212). -/
theorem exec_claim_entry (hgood : GoodShort (atTime t s) h 0x14) (hentry : shortEntry (atTime t s) h = some n) :
    exec (.claim t h) s = .next (if (sigE (atTime t s) n).ownerEpoch.toNat < fld h 455 424
      then claimed (atTime t s) n (fld h 503 488) else atTime t s) :=
  receipt_short hgood (by simp only [hentry])

/-! ### Probes (R213) -/

/-- The holder of an entry in AWAY probes its peer when the time for it has come (R213). -/
theorem exec_handoffProbeTimer_away (hstate : (sigE (atTime t s) sig).state = .away)
    (hdue : (sigA (atTime t s) sig).probeAtNs ≤ (atTime t s).now) : let b := atTime t s
    exec (.handoffProbeTimer t sig) s = .next (modA (sendShort b (sigE b sig).peerEndpoint.toNat 0x15 sig 0 0 0) sig
      (fun a => { a with probeAtNs := b.now + getF b 0x2060 0x03 * 1000 })) :=
  (if_pos hstate).trans (if_pos hdue)

/-- HANDOFF_PROBE of a key that has an entry is answered with the state and epoch of the entry (R213). -/
theorem exec_handoffProbe_entry : let b := atTime t s
    GoodShort b h 0x15 → shortEntry b h = some n → exec (.handoffProbe t h) s =
      .next (transmit b (.message 1 (fld h 503 488) (shortHeader b 0x16 (fld h 487 472) n (sigE b n).ownerEpoch.toNat (fld h 423 418)
        (sigCode (sigE b n).state) 0 0 0 0 (fld h 334 271)) [])) :=
  fun hgood hentry => receipt_short hgood (by simp only [hentry])

/-- PROBE_REPLY that knows no entry: the holder in AWAY rebuilds the signature (Table 9-7). -/
theorem exec_probeReply_away (hgood : GoodShort (atTime t s) h 0x16) (hentry : shortEntry (atTime t s) h = some n)
    (hstate : (sigE (atTime t s) n).state = .away) (hnone : fld h 417 414 = 0) :
    exec (.probeReply t h) s = .next (rebuild (atTime t s) n) :=
  receipt_short hgood (by simp only [hentry, hstate, hnone, if_true])

/-- PROBE_REPLY that knows no entry: a handoff being received is given up as if its sender had claimed it (Table 9-7). -/
theorem exec_probeReply_handoffIn (hgood : GoodShort (atTime t s) h 0x16) (hentry : shortEntry (atTime t s) h = some n)
    (hstate : (sigE (atTime t s) n).state = .handoffIn) (hnone : fld h 417 414 = 0) :
    exec (.probeReply t h) s = .next (claimed (atTime t s) n (fld h 503 488)) :=
  receipt_short hgood (by simp only [hentry, hstate, hnone, reduceCtorEq, if_false, if_true, true_or])

end

/-- Settles O30: each message past the guards of its receipt; CONFIRM, CLAIM and a lease's end by the branch their condition picks. -/
theorem handoffCommandsComplete : Obligations.HandoffCommandsComplete := by
  refine ⟨?offer, ?accept, ?resend, ?leaf, ?confirm, ?delivered, ?undeliverable, ?lease, ?claim, ?timer, ?probe, ?reply⟩
  case offer => exact fun _ _ _ _ _ => exec_offer_sound
  case accept => exact fun _ _ _ _ _ => exec_accept_offered
  case resend => exact fun _ _ _ _ _ => exec_resend_offered
  case leaf =>
    exact fun _ _ _ _ _ _ _ _ hgood hentry hincoming hstate hrunning hwanted hepoch hopen hsize hlen =>
      exec_leaf_placed hgood ⟨hentry, hincoming, hstate, hrunning, hwanted, hepoch⟩ hopen hsize hlen
  case confirm =>
    intro t n h s b j u hgood hentry hoffered
    have hconfirm := exec_confirm_offered hgood hentry hoffered
    refine ⟨?_, ?_, ?_⟩
    · exact fun hholder hkind => hconfirm.trans (congrArg Outcome.next (if_pos ⟨hholder, hkind⟩))
    · intro hmoved
      rw [if_neg (fun hkept => hkept.2 hmoved), if_pos hmoved] at hconfirm
      exact hconfirm
    · intro hother hkind
      rw [if_neg (fun hkept => ne_true_of_eq_false hother hkept.1), if_neg hkind] at hconfirm
      exact hconfirm
  case delivered => exact fun _ _ _ => exec_confirmDelivered_waiting
  case undeliverable => exact fun _ _ _ _ => exec_confirmUndeliverable_waiting
  case lease =>
    intro t sig r s b hrecord
    have hlease := exec_leaseExpiry_recorded hrecord
    constructor
    · intro hended hnone
      have hdue : ¬ (b.now < r.leaseEndNs ∨ confirmQueued b sig = true) := not_or.mpr ⟨hended.not_gt, ne_true_of_eq_false hnone⟩
      exact hlease.trans (congrArg Outcome.next (if_neg hdue))
    · exact fun hkept => hlease.trans (congrArg Outcome.next (if_pos hkept))
  case claim =>
    intro t n h s b hgood hentry
    have hclaim := exec_claim_entry hgood hentry
    constructor
    · exact fun hlower => hclaim.trans (congrArg Outcome.next (if_pos hlower))
    · exact fun hsame => hclaim.trans (congrArg Outcome.next (if_neg hsame.not_gt))
  case timer => exact fun _ _ _ => exec_handoffProbeTimer_away
  case probe => exact fun _ _ _ _ => exec_handoffProbe_entry
  case reply =>
    exact fun _ _ _ _ hgood hentry => ⟨exec_probeReply_away hgood hentry, exec_probeReply_handoffIn hgood hentry⟩

end Sys2Proof.Machine
end

section
/-! SUPPORT. Frames of composed operations: a frame is read from the outermost operation inwards, as the model's functions are written. -/

namespace Sys2Proof.Machine

open Host

section
variable {l m : List Part} {s u v : State}

theorem KeepsBut.same : KeepsBut l s s := by
  intro p _
  cases p
  case mem => exact fun _ => rfl
  all_goals rfl

theorem KeepsBut.refl : KeepsBut [] s s := .same

/-- `KeepsBut.trans` with the later change first. -/
theorem KeepsBut.after (huv : KeepsBut m u v) (hsu : KeepsBut l s u) : KeepsBut (l ++ m) s v := hsu.trans huv

theorem KeepsBut.ite {c : Prop} [Decidable c] (hu : KeepsBut l s u) (hv : KeepsBut m s v) : KeepsBut (l ++ m) s (if c then u else v) := by
  split
  · exact hu.mono (List.subset_append_left l m)
  · exact hv.mono (List.subset_append_right l m)

theorem KeepsBut.foldl {α : Type} {f : State → α → State} (h : ∀ u x, KeepsBut l u (f u x)) {xs : List α} : KeepsBut l s (xs.foldl f s) := by
  induction xs generalizing s with
  | nil => exact .same
  | cons x xs ih => exact .mono (List.append_subset.mpr ⟨List.Subset.refl l, List.Subset.refl l⟩) (.after ih (h s x))

/-- The state of an operation that answers a value with it. -/
theorem KeepsBut.fst {α : Type} {p : State × α} {x : α} (h : KeepsBut l s p.1) (hp : p = (u, x)) : KeepsBut l s u := by
  rwa [hp] at h

end

/-- The parts that the work of the package changes: all but power and boot. -/
abbrev workParts : List Part :=
  [.now, .out, .free, .mem, .dict, .sig, .cw, .jobs, .starts, .quires, .gutters, .handoff, .span, .tier, .flash, .fabric, .queue, .link,
    .press, .traffic, .err, .kettle]

/-- The parts that storing a bookmark changes (R256, R397). -/
abbrev bookParts : List Part := [.out, .free, .mem, .dict, .jobs, .tier, .flash, .fabric, .queue, .link, .traffic, .err]

/-! ### One part is replaced -/

section
variable {s : State}

theorem keepsBut_freeCtr {x : Nat} : KeepsBut [.free] s { s with freeCtr := x } := by
  intro p hp
  cases p <;> simp [Part.Same] at hp ⊢

theorem keepsBut_mem {x : List Cell} : KeepsBut [.mem] s { s with mem := x } := by
  intro p hp
  cases p <;> simp [Part.Same] at hp ⊢

theorem keepsBut_dict {x : DictState} : KeepsBut [.dict] s { s with dict := x } := by
  intro p hp
  cases p <;> simp [Part.Same] at hp ⊢

theorem keepsBut_sig {x : SigTable} : KeepsBut [.sig] s { s with sig := x } := by
  intro p hp
  cases p <;> simp [Part.Same] at hp ⊢

theorem keepsBut_cw {x : CwIndex} : KeepsBut [.cw] s { s with cw := x } := by
  intro p hp
  cases p <;> simp [Part.Same] at hp ⊢

theorem keepsBut_starts {x : List Nat} : KeepsBut [.starts] s { s with starts := x } := by
  intro p hp
  cases p <;> simp [Part.Same] at hp ⊢

theorem keepsBut_quires {x : Tbl Sequencer} : KeepsBut [.quires] s { s with quires := x } := by
  intro p hp
  cases p <;> simp [Part.Same] at hp ⊢

theorem keepsBut_gutters {x : Tbl GutterUnit} : KeepsBut [.gutters] s { s with gutters := x } := by
  intro p hp
  cases p <;> simp [Part.Same] at hp ⊢

theorem keepsBut_handoff {x : HandoffState} : KeepsBut [.handoff] s { s with handoff := x } := by
  intro p hp
  cases p <;> simp [Part.Same] at hp ⊢

theorem keepsBut_span {x : SpanState} : KeepsBut [.span] s { s with span := x } := by
  intro p hp
  cases p <;> simp [Part.Same] at hp ⊢

theorem keepsBut_tier {x : TierState} : KeepsBut [.tier] s { s with tier := x } := by
  intro p hp
  cases p <;> simp [Part.Same] at hp ⊢

theorem keepsBut_flash {x : FlashState} : KeepsBut [.flash] s { s with flash := x } := by
  intro p hp
  cases p <;> simp [Part.Same] at hp ⊢

theorem keepsBut_fabric {x : FabricState} : KeepsBut [.fabric] s { s with fabric := x } := by
  intro p hp
  cases p <;> simp [Part.Same] at hp ⊢

theorem keepsBut_queue {x : QueueState} : KeepsBut [.queue] s { s with queue := x } := by
  intro p hp
  cases p <;> simp [Part.Same] at hp ⊢

theorem keepsBut_link {x : LinksState} : KeepsBut [.link] s { s with link := x } := by
  intro p hp
  cases p <;> simp [Part.Same] at hp ⊢

theorem keepsBut_press {x : PressState} : KeepsBut [.press] s { s with press := x } := by
  intro p hp
  cases p <;> simp [Part.Same] at hp ⊢

theorem keepsBut_traffic {x : TrafficState} : KeepsBut [.traffic] s { s with traffic := x } := by
  intro p hp
  cases p <;> simp [Part.Same] at hp ⊢

theorem keepsBut_err {x : ErrorState} : KeepsBut [.err] s { s with err := x } := by
  intro p hp
  cases p <;> simp [Part.Same] at hp ⊢

theorem keepsBut_kettle {x : KettleState} : KeepsBut [.kettle] s { s with kettle := x } := by
  intro p hp
  cases p <;> simp [Part.Same] at hp ⊢

theorem keepsBut_power {x : PowerState} : KeepsBut [.power] s { s with power := x } := by
  intro p hp
  cases p <;> simp [Part.Same] at hp ⊢

theorem keepsBut_boot {x : BootState} : KeepsBut [.boot] s { s with boot := x } := by
  intro p hp
  cases p <;> simp [Part.Same] at hp ⊢

/-! ### Several parts are replaced at once -/

theorem keepsBut_sig_handoff {x : SigTable} {y : HandoffState} : KeepsBut [.sig, .handoff] s { s with sig := x, handoff := y } :=
  .after (keepsBut_handoff (s := { s with sig := x })) keepsBut_sig

theorem keepsBut_quires_gutters {x : Tbl Sequencer} {y : Tbl GutterUnit} : KeepsBut [.quires, .gutters] s { s with quires := x, gutters := y } :=
  .after (keepsBut_gutters (s := { s with quires := x })) keepsBut_quires

theorem keepsBut_tier_fabric {x : TierState} {y : FabricState} : KeepsBut [.tier, .fabric] s { s with tier := x, fabric := y } :=
  .after (keepsBut_fabric (s := { s with tier := x })) keepsBut_tier

theorem keepsBut_power_boot {x : PowerState} {y : BootState} : KeepsBut [.power, .boot] s { s with power := x, boot := y } :=
  .after (keepsBut_boot (s := { s with power := x })) keepsBut_power

theorem keepsBut_mem_sig_cw_power {w : List Cell} {x : SigTable} {y : CwIndex} {z : PowerState} :
    KeepsBut [.mem, .sig, .cw, .power] s { s with mem := w, sig := x, cw := y, power := z } :=
  .after (keepsBut_power (s := { s with mem := w, sig := x, cw := y })) <| .after (keepsBut_cw (s := { s with mem := w, sig := x })) <|
    .after (keepsBut_sig (s := { s with mem := w })) keepsBut_mem

end

end Sys2Proof.Machine
end

section
/-! SUPPORT. Frames of the model's operations: which parts of the state each one may change, in the order of the definitions. -/

namespace Sys2Proof.Machine

open Host

/-! ### Output, folios, memory and the records of jobs, sequencers and units -/

theorem keepsBut_transmit {s : State} {o : Out} : KeepsBut [.out] s (transmit s o) :=
  .mono (by decide) <| .ite .refl (keepsBut_emit _ _)

theorem keepsBut_draw {s : State} : KeepsBut [.free] s (draw s) := keepsBut_freeCtr

theorem keepsBut_setF {s : State} {idx sub v : Nat} : KeepsBut [.dict] s (setF s idx sub v) := keepsBut_dict

theorem keepsBut_addF {s : State} {idx sub n : Nat} : KeepsBut [.dict] s (addF s idx sub n) := keepsBut_setF

theorem keepsBut_maxF {s : State} {idx sub v : Nat} : KeepsBut [.dict] s (maxF s idx sub v) :=
  .mono (by decide) <| .ite keepsBut_setF .refl

theorem keepsBut_setBitF {s : State} {idx sub b : Nat} {on : Bool} : KeepsBut [.dict] s (setBitF s idx sub b on) :=
  keepsBut_setF

theorem keepsBut_initStage {n : Nat} {s : State} : KeepsBut [.dict] s (initStage n s) := keepsBut_setBitF

theorem keepsBut_journal {s : State} {e : JournalEntry} : KeepsBut [.dict] s (journal s e) :=
  .mono (by decide) <| .ite
    (.after (keepsBut_incF _ _ _) <| .after keepsBut_dict (keepsBut_incF _ _ _))
    (.after keepsBut_dict (keepsBut_incF _ _ _))

theorem keepsBut_devSetF {s : State} {idx sub v : Nat} : KeepsBut [.dict] s (devSetF s idx sub v) :=
  .mono (by decide) <| .after keepsBut_journal keepsBut_setF

theorem keepsBut_writeBytes {s : State} {a : Nat} {bs : List Byte} : KeepsBut [.mem] s (writeBytes s a bs) := by
  rw [writeBytes_eq]
  exact keepsBut_mem

theorem keepsBut_writeNat {s : State} {a n v : Nat} : KeepsBut [.mem] s (writeNat s a n v) := keepsBut_writeBytes

/-- Whichever kind of sequencer it is. -/
theorem keepsBut_anySeq {s : State} {i : Nat} {x : Sequencer} : KeepsBut [.quires, .gutters] s (setSeq s i x) :=
  .mono (by decide) <| .ite keepsBut_quires keepsBut_gutters

theorem keepsBut_modSeq {s : State} {i : Nat} {f : Sequencer → Sequencer} : KeepsBut [.quires, .gutters] s (modSeq s i f) :=
  keepsBut_anySeq

theorem keepsBut_modUnit {s : State} {u : Nat} {f : UnitState → UnitState} : KeepsBut [.err] s (modUnit s u f) :=
  keepsBut_err

/-! ### The error log (R365, R366) -/

theorem keepsBut_logEntry {s : State} {e : ErrEntry} : KeepsBut [.out, .dict, .err] s (logEntry s e) :=
  .mono (by decide) <| .ite
    (.after (.ite (keepsBut_emit _ _) .refl) <| .after (keepsBut_incF _ _ _) <| .after keepsBut_setF keepsBut_err)
    (keepsBut_incF _ _ _)

theorem keepsBut_logErr {s : State} {cause unit plane : Nat} {jb : Option Nat} {detail addr : Nat} :
    KeepsBut [.out, .dict, .err] s (logErr s cause unit plane jb detail addr) :=
  keepsBut_logEntry

theorem keepsBut_logMaster {s : State} {cause unit plane : Nat} {jb : Option Nat} {detail master : Nat} :
    KeepsBut [.out, .dict, .err] s (logMaster s cause unit plane jb detail master) :=
  keepsBut_logEntry

theorem keepsBut_addrLog {s : State} {mem addr : Nat} {uncorrectable : Bool} :
    KeepsBut [.dict, .err] s (addrLog s mem addr uncorrectable) :=
  .mono (by decide) <| .ite keepsBut_err <| .ite keepsBut_err (keepsBut_incF _ _ _)

theorem keepsBut_memError {s : State} {mem addr : Nat} {correctable : Bool} : KeepsBut [.dict, .err] s (memError s mem addr correctable) :=
  .mono (by decide) <| .after keepsBut_addrLog (.ite (keepsBut_incF _ _ _) (keepsBut_incF _ _ _))

/-! ### Press slices and check-value units (chapter 15) -/

theorem keepsBut_setKeySlot {s : State} {j : Nat} {k : KeySlot} : KeepsBut [.dict, .press] s (setKeySlot s j k) :=
  .mono (by decide) <| .after keepsBut_setF keepsBut_press

theorem keepsBut_zeroKey {s : State} {j : Nat} : KeepsBut [.dict, .press] s (zeroKey s j) :=
  .mono (by decide) <| .after keepsBut_setF keepsBut_setKeySlot

theorem keepsBut_startZeroing {s : State} {j : Nat} : KeepsBut [.dict, .press] s (startZeroing s j) :=
  .mono (by decide) <| .ite .refl <| .ite keepsBut_zeroKey keepsBut_setKeySlot

theorem keepsBut_busyEngine {s : State} {enc : Bool} {n j raw : Nat} : KeepsBut [.press] s (busyEngine s enc n j raw) :=
  keepsBut_press

theorem keepsBut_saltRedraw {s : State} {j : Nat} : KeepsBut [.free, .dict, .press] s (saltRedraw s j) :=
  .mono (by decide) <| .after (keepsBut_incF _ _ _) <| .after keepsBut_setKeySlot <| keepsBut_draw

theorem keepsBut_caseObject {s : State} {j stride half : Nat} {raw : List Byte} :
    KeepsBut [.free, .dict, .press] s (caseObject s j stride half raw).1 := by
  dsimp only [caseObject]
  split
  · split
    · exact .same
    · exact .mono (by decide) <| .after keepsBut_addF <| .after keepsBut_addF <| .after (keepsBut_incF _ _ _) <|
        .after keepsBut_busyEngine <| .after keepsBut_press <| .ite keepsBut_saltRedraw .refl
  · exact .same

theorem keepsBut_openWith {s : State} {keys : State} {j half : Nat} {obj : List Byte} :
    KeepsBut [.dict, .press] s (openWith s keys j half obj).1 := by
  unfold openWith
  split
  · exact .same
  · split
    · exact .mono (by decide) keepsBut_busyEngine
    · exact .mono (by decide) <| .after (keepsBut_incF _ _ _) keepsBut_busyEngine

theorem keepsBut_openObject {s : State} {half : Nat} {obj : List Byte} : KeepsBut [.dict, .press] s (openObject s half obj).1 :=
  keepsBut_openWith

theorem keepsBut_cvuSet {s : State} {u v : Nat} : KeepsBut [.dict] s (cvuSet s u v) := keepsBut_setF

theorem keepsBut_cvuBytes {s : State} {u : Nat} {bs : List Byte} : KeepsBut [.dict] s (cvuBytes s u bs) :=
  keepsBut_cvuSet

theorem keepsBut_cvuRaise {s : State} {u b : Nat} : KeepsBut [.dict, .press] s (cvuRaise s u b) :=
  .mono (by decide) <| .after keepsBut_setBitF keepsBut_press

theorem keepsBut_cvuDmaComplete {t u status done : Nat} {data : List Byte} {s : State} :
    KeepsBut [.now, .dict, .press] s (cvuDmaComplete t u status done data s) := by
  dsimp only [cvuDmaComplete]
  split
  · exact .mono (by decide) (keepsBut_atTime _ _)
  · exact .mono (by decide) <| .after (.ite .refl keepsBut_cvuRaise) <| .after keepsBut_setBitF <| .after keepsBut_cvuBytes <|
      .after keepsBut_press <| keepsBut_atTime _ _

/-! ### The flash tier (chapter 11) -/

theorem keepsBut_takeSector {s : State} {ch : Nat} {x : State × Nat} (h : takeSector s ch = some x) : KeepsBut [.free, .flash] s x.1 := by
  unfold takeSector at h
  generalize pickFreeUnit s ch = fresh at h
  extract_lets v go at h
  generalize (listedUnits s ch).find? _ = opened at h
  cases opened with
  | some e =>
    obtain rfl := Option.some.inj h
    exact .mono (by decide) keepsBut_flash
  | none =>
    cases fresh with
    | some u =>
      obtain rfl := Option.some.inj h
      exact .mono (by decide) <| .after keepsBut_flash keepsBut_draw
    | none => cases h

theorem keepsBut_storeMap {s : State} {pages : List Nat} : KeepsBut [.mem] s (storeMap s pages) :=
  .mono (by decide) <| .ite .refl (.foldl fun _ _ => keepsBut_writeBytes)

theorem keepsBut_flashAnswer {s : State} {w : FlashWrite} {ok : Bool} : KeepsBut [.out, .tier, .flash] s (flashAnswer s w ok) := by
  unfold flashAnswer
  split
  · exact .mono (by decide) (keepsBut_emit _ _)
  · exact .mono (by decide) <| .ite .refl keepsBut_tier
  · exact .same
  · exact .mono (by decide) keepsBut_flash

theorem keepsBut_flashStateUpdate {s : State} : KeepsBut [.out, .dict, .tier, .flash, .err] s (flashStateUpdate s) :=
  .mono (by decide) <| .ite .refl <| .ite
    (.ite .refl <| .after keepsBut_flash <| .after (.foldl fun _ _ => keepsBut_flashAnswer) <| .after keepsBut_logErr <| keepsBut_setF)
    (.ite keepsBut_setF keepsBut_setF)

theorem keepsBut_discardAt {s : State} {first n : Nat} : KeepsBut [.out, .mem, .dict, .tier, .flash, .err] s (discardAt s first n) :=
  .mono (by decide) <| .ite .refl <| .after keepsBut_flashStateUpdate <| .after keepsBut_storeMap <| keepsBut_flash

theorem keepsBut_placeWrite {s u : State} {w : FlashWrite} {confirm : Bool} (h : placeWrite s w confirm = some u) :
    KeepsBut [.out, .free, .mem, .tier, .flash] s u := by
  simp only [placeWrite] at h
  split at h
  · cases h
  next v slot hsector =>
    obtain rfl := Option.some.inj h
    exact .mono (by decide) <| .after (.ite keepsBut_flashAnswer .refl) <| .after keepsBut_storeMap <| .after keepsBut_flash <|
      (keepsBut_takeSector hsector)

theorem keepsBut_flashPump {n : Nat} {s : State} : KeepsBut [.out, .free, .mem, .tier, .flash] s (flashPump n s) := by
  induction n generalizing s with
  | zero => exact .same
  | succ n ih =>
    unfold flashPump
    split
    · exact .same
    · split
      · exact .same
      · split
        next hplaced => exact .mono (by decide) <| .after ih <| .after (keepsBut_placeWrite hplaced) <| keepsBut_flash
        · exact .same

theorem keepsBut_showDirty {s : State} : KeepsBut [.dict] s (showDirty s) := keepsBut_setF

theorem keepsBut_queueWrite {s : State} {w : FlashWrite} : KeepsBut [.out, .free, .mem, .dict, .tier, .flash, .err] s (queueWrite s w) :=
  .mono (by decide) <| .after keepsBut_flashStateUpdate <| .after keepsBut_showDirty <| .after keepsBut_flashPump <| keepsBut_flash

theorem keepsBut_flashWrite {t id page : Nat} {data : List Byte} {s : State} :
    KeepsBut [.now, .out, .free, .mem, .dict, .tier, .flash, .err] s (flashWrite t id page data s) :=
  .mono (by decide) <| .ite (.after (keepsBut_emit _ _) <| keepsBut_atTime _ _) (.after keepsBut_queueWrite <| keepsBut_atTime _ _)

theorem keepsBut_countUncorrectable {s : State} {page : Nat} : KeepsBut [.flash] s (countUncorrectable s page) :=
  keepsBut_flash

theorem keepsBut_countCorrected {s : State} {page : Nat} : KeepsBut [.dict, .flash, .err] s (countCorrected s page) :=
  .mono (by decide) <| .after keepsBut_memError keepsBut_flash

theorem keepsBut_checkpoint {s : State} : KeepsBut [.free, .flash] s (checkpoint s) :=
  .mono (by decide) <| .after keepsBut_draw (.ite keepsBut_flash .refl)

theorem keepsBut_flashTempSample {t : Nat} {temps : List Int} {s : State} : KeepsBut [.now, .free, .flash] s (flashTempSample t temps s) :=
  .mono (by decide) <| .ite (keepsBut_atTime _ _) (.after keepsBut_checkpoint <| .after keepsBut_flash <| keepsBut_atTime _ _)

theorem keepsBut_discardGen {slot g : Nat} {s : State} : KeepsBut [.out, .mem, .dict, .tier, .flash, .err] s (discardGen slot g s) :=
  keepsBut_discardAt

theorem keepsBut_bookmarkDiscardAction {slot : Nat} {s : State} :
    KeepsBut [.out, .mem, .dict, .tier, .flash, .err] s (bookmarkDiscardAction slot s) :=
  .mono (by decide) <| .ite .refl (.after keepsBut_discardGen keepsBut_discardGen)

theorem keepsBut_stopWrites {s : State} {j g : Nat} : KeepsBut [.flash] s (stopWrites s j g) := keepsBut_flash

theorem keepsBut_flashDiscard {s : State} {addr n : Nat} : KeepsBut [.out, .mem, .dict, .tier, .flash, .err] s (flashDiscard s addr n) :=
  .mono (by decide) <| .ite .refl keepsBut_discardAt

/-! ### Completions and notices of queue pairs (R296, R299) -/

theorem keepsBut_setQp {s : State} {q : Nat} {x : QueuePair} : KeepsBut [.queue] s (setQp s q x) := keepsBut_queue

theorem keepsBut_modQp {s : State} {q : Nat} {f : QueuePair → QueuePair} : KeepsBut [.queue] s (modQp s q f) :=
  keepsBut_setQp

theorem keepsBut_writeCompletion {s : State} {q : Nat} {e : BitVec 256} : KeepsBut [.out, .mem, .queue] s (writeCompletion s q e) :=
  .mono (by decide) <| .after (.ite (keepsBut_emit _ _) .refl) <| .after keepsBut_modQp <| keepsBut_writeNat

theorem keepsBut_pumpCompletions {n : Nat} {s : State} {q : Nat} : KeepsBut [.out, .mem, .queue] s (pumpCompletions n s q) := by
  induction n generalizing s with
  | zero => exact .same
  | succ n ih =>
    dsimp only [pumpCompletions]
    split
    · exact .same
    · exact .mono (by decide) <| .ite (.after ih <| .after keepsBut_writeCompletion <| keepsBut_setQp) .refl

theorem keepsBut_postCompletion {s : State} {q : Nat} {e : BitVec 256} : KeepsBut [.out, .mem, .queue] s (postCompletion s q e) :=
  .mono (by decide) <| .after keepsBut_pumpCompletions keepsBut_modQp

theorem keepsBut_pumpNotices {n : Nat} {s : State} {q : Nat} : KeepsBut [.out, .mem, .queue] s (pumpNotices n s q) := by
  induction n generalizing s with
  | zero => exact .same
  | succ n ih =>
    dsimp only [pumpNotices]
    split
    · exact .same
    · split
      · exact .mono (by decide) <| .after ih <| .after keepsBut_postCompletion <| .after keepsBut_modQp <| .after (keepsBut_emit _ _) <|
          keepsBut_writeBytes
      · exact .same

theorem keepsBut_hostDeliver {s : State} {q : Nat} {bytes : List Byte} : KeepsBut [.out, .mem, .queue] s (hostDeliver s q bytes) :=
  .mono (by decide) <| .after keepsBut_pumpNotices keepsBut_modQp

/-! ### Signatures and their notices (chapter 2) -/

theorem keepsBut_setSigState {s : State} {n : Nat} {st : SigState} : KeepsBut [.dict, .sig, .handoff] s (setSigState s n st) :=
  .mono (by decide) <| .ite (.after keepsBut_sig_handoff (keepsBut_modE _ _ _)) (.after keepsBut_maxF (keepsBut_modE _ _ _))

theorem keepsBut_sendNotice {s : State} {dest : Nat} {via : Option Nat} {h : BitVec 256} {toks : List Nat} :
    KeepsBut [.out, .mem, .queue] s (sendNotice s dest via h toks) := by
  unfold sendNotice
  split
  · exact .mono (by decide) <| .after keepsBut_hostDeliver (keepsBut_emit _ _)
  · exact .mono (by decide) keepsBut_transmit

theorem keepsBut_refuseRequest {s : State} {q : AdmitRequest} {code : Nat} :
    KeepsBut [.out, .mem, .dict, .queue] s (refuseRequest s q code) :=
  .mono (by decide) <| .after (keepsBut_incF _ _ _) keepsBut_sendNotice

theorem keepsBut_refuseWaiting {s : State} {j : Nat} : KeepsBut [.out, .mem, .dict, .sig, .queue] s (refuseWaiting s j) :=
  .mono (by decide) <| .after (.foldl fun _ _ => keepsBut_refuseRequest) keepsBut_sig

theorem keepsBut_startSweep {s : State} {j : Nat} : KeepsBut [.cw] s (startSweep s j) := keepsBut_cw

/-! ### Links and what leaves through them (chapters 12 and 14) -/

theorem keepsBut_setLink {s : State} {l : Nat} {x : Link} : KeepsBut [.link] s (setLink s l x) := keepsBut_link

theorem keepsBut_modLink {s : State} {l : Nat} {f : Link → Link} : KeepsBut [.link] s (modLink s l f) :=
  keepsBut_setLink

theorem keepsBut_sendWord {s : State} {l kind body : Nat} : KeepsBut [.out, .link] s (sendWord s l kind body) :=
  .mono (by decide) <| .ite .refl (.after (keepsBut_emit _ _) keepsBut_setLink)

theorem keepsBut_sendIdle {s : State} {l : Nat} : KeepsBut [.out, .link] s (sendIdle s l) := keepsBut_sendWord

theorem keepsBut_putOnWire {s : State} {l seq : Nat} {i : LinkItem} {stomped : Bool} :
    KeepsBut [.out, .link] s (putOnWire s l seq i stomped) :=
  .mono (by decide) <| .ite .refl (.after (keepsBut_emit _ _) keepsBut_setLink)

theorem keepsBut_noteDeparture {s : State} {h : BitVec 256} {payload : List Byte} : KeepsBut [.queue] s (noteDeparture s h payload) :=
  .mono (by decide) <| .ite keepsBut_queue .refl

theorem keepsBut_sendItem {s : State} {l : Nat} {i : LinkItem} {stomped : Bool} :
    KeepsBut [.out, .dict, .queue, .link] s (sendItem s l i stomped) :=
  .mono (by decide) <| .after (.ite keepsBut_setF .refl) <| .after keepsBut_modLink <| .after keepsBut_putOnWire <| keepsBut_noteDeparture

theorem keepsBut_shaperTake {s : State} {q cost : Nat} : KeepsBut [.traffic] s (shaperTake s q cost) :=
  .mono (by decide) <| .ite keepsBut_traffic .refl

theorem keepsBut_countHeld {s : State} {i : EgressItem} : KeepsBut [.dict, .traffic] s (countHeld s i) := by
  unfold countHeld
  split
  · exact .same
  · exact .mono (by decide) <| .after (.ite keepsBut_setF .refl) keepsBut_traffic

theorem keepsBut_egressWait {s : State} {q wait : Nat} : KeepsBut [.out, .dict, .traffic, .err] s (egressWait s q wait) :=
  .mono (by decide) <| .ite (.ite (.after keepsBut_logErr <| .after keepsBut_traffic <| keepsBut_maxF) keepsBut_maxF) .refl

theorem keepsBut_departEgress {s : State} {i : EgressItem} : KeepsBut [.out, .dict, .traffic, .err] s (departEgress s i) :=
  .mono (by decide) <| .after keepsBut_egressWait <| .after keepsBut_traffic <| .after keepsBut_shaperTake <|
    .after (.ite keepsBut_shaperTake .refl) <| keepsBut_countHeld

theorem keepsBut_sendNext {s u : State} {l : Nat} (h : sendNext s l = some u) :
    KeepsBut [.out, .dict, .queue, .link, .traffic, .err] s u := by
  simp only [sendNext] at h
  split at h
  · obtain rfl := Option.some.inj h
    exact .mono (by decide) <| .after keepsBut_sendItem <| .after keepsBut_modLink <| keepsBut_modLink
  · split at h
    · obtain rfl := Option.some.inj h
      exact .mono (by decide) <| .after keepsBut_sendItem <| .after keepsBut_modLink <| keepsBut_modLink
    · split at h
      · obtain rfl := Option.some.inj h
        exact .mono (by decide) <| .after keepsBut_sendItem <| .after keepsBut_modLink <| keepsBut_modLink
      · split at h
        · obtain rfl := Option.some.inj h
          exact .mono (by decide) <| .after keepsBut_sendItem <| .after keepsBut_modLink <| keepsBut_departEgress
        · cases h

theorem keepsBut_pumpLink {n : Nat} {s : State} {l : Nat} {sent : Bool} :
    KeepsBut [.out, .dict, .queue, .link, .traffic, .err] s (pumpLink n s l sent) := by
  induction n generalizing s sent with
  | zero => exact .same
  | succ n ih =>
    unfold pumpLink
    split
    next hsent => exact .mono (by decide) <| .after ih (keepsBut_sendNext hsent)
    · exact .mono (by decide) <| .ite keepsBut_sendIdle .refl

theorem keepsBut_runLink {s : State} {l : Nat} : KeepsBut [.out, .dict, .queue, .link, .traffic, .err] s (runLink s l) :=
  .mono (by decide) <| .ite .refl keepsBut_pumpLink

theorem keepsBut_noteHeld {s : State} : KeepsBut [.traffic] s (noteHeld s) := by
  refine .foldl fun u i => ?_
  split
  · exact .same
  · exact keepsBut_traffic

theorem keepsBut_runLinks {s : State} : KeepsBut [.out, .dict, .queue, .link, .traffic, .err] s (runLinks s) :=
  .mono (by decide) <| .after keepsBut_noteHeld (.foldl fun _ _ => keepsBut_runLink)

theorem keepsBut_enqueueLink {s : State} {l plane : Nat} {h : BitVec 256} {payload : List Byte} :
    KeepsBut [.out, .dict, .queue, .link, .traffic, .err] s (enqueueLink s l plane h payload) :=
  .mono (by decide) <| .after keepsBut_runLink <| .after (.ite keepsBut_setF .refl) keepsBut_modLink

theorem keepsBut_routeOut {s : State} {plane : Nat} {h : BitVec 256} {payload : List Byte} :
    KeepsBut [.out, .dict, .queue, .link, .traffic, .err] s (routeOut s plane h payload) := by
  unfold routeOut
  split
  · exact keepsBut_enqueueLink
  · exact .mono (by decide) keepsBut_noteDeparture

theorem keepsBut_respond {s : State} {q : BitVec 256} {type status : Nat} {payload : List Byte} :
    KeepsBut [.out, .dict, .queue, .link, .traffic, .err] s (respond s q type status payload) :=
  .mono (by decide) <| .after keepsBut_routeOut keepsBut_transmit

theorem keepsBut_launch {s : State} {queue : Option Nat} {h : BitVec 256} {payload : List Byte} {dst : Option Nat} :
    KeepsBut [.out, .dict, .fabric, .queue, .link, .traffic, .err] s (launch s queue h payload dst) := by
  unfold launch
  split
  · exact .mono (by decide) <| .after keepsBut_runLinks <| .after keepsBut_traffic <| .after keepsBut_transmit <| keepsBut_fabric
  · exact .mono (by decide) <| .after keepsBut_routeOut <| .after keepsBut_transmit <| keepsBut_fabric

theorem keepsBut_issue {s : State} {type dest srcJob cls idx vn off len op : Nat} {ordered : Bool} {payload : List Byte} {dst : Option Nat} :
    KeepsBut [.out, .free, .dict, .fabric, .queue, .link, .traffic, .err] s
      (issue s type dest srcJob cls idx vn off len op ordered payload dst).1 := by
  unfold issue
  split
  · exact .same
  · dsimp only
    split
    · exact .mono (by decide) <| .after keepsBut_fabric keepsBut_draw
    · exact .mono (by decide) <| .after keepsBut_launch keepsBut_draw

/-! ### Masters, quarantine and regions (chapters 12, 13 and 17) -/

theorem keepsBut_markFrozen {s : State} {cls idx : Nat} {on : Bool} : KeepsBut [.quires, .gutters, .queue] s (markFrozen s cls idx on) :=
  .mono (by decide) <| .ite keepsBut_modSeq <| .ite keepsBut_queue .refl

theorem keepsBut_setRegion {s : State} {r : Nat} {x : Region} : KeepsBut [.queue] s (setRegion s r x) := keepsBut_queue

theorem keepsBut_regionResult {s : State} {code key : Nat} : KeepsBut [.dict] s (regionResult s code key) :=
  keepsBut_setF

theorem keepsBut_finishRevoke {s : State} {r : Nat} : KeepsBut [.dict, .fabric, .queue] s (finishRevoke s r) :=
  .mono (by decide) <| .after (keepsBut_incF _ _ _) <| .after keepsBut_regionResult <| .after keepsBut_setRegion <|
    .ite .refl keepsBut_fabric

theorem keepsBut_checkDrains {s : State} : KeepsBut [.dict, .fabric, .queue] s (checkDrains s) :=
  .mono (by decide) <| .foldl fun _ _ => .ite .refl keepsBut_finishRevoke

theorem keepsBut_flushReceives {s : State} {q upto : Nat} : KeepsBut [.out, .mem, .queue] s (flushReceives s q upto) :=
  .mono (by decide) <| .after keepsBut_modQp (.foldl fun _ _ => keepsBut_postCompletion)

theorem keepsBut_qpFlush {s : State} {q : Nat} {f : SendMsg → Nat} : KeepsBut [.out, .mem, .dict, .fabric, .queue] s (qpFlush s q f) :=
  .mono (by decide) <| .after keepsBut_checkDrains <| .after keepsBut_modQp <| .after keepsBut_flushReceives <|
    .after (.foldl fun _ _ => .ite keepsBut_postCompletion .refl) <| keepsBut_setQp

theorem keepsBut_qpError {s : State} {q : Nat} : KeepsBut [.out, .mem, .dict, .fabric, .queue] s (qpError s q) :=
  keepsBut_qpFlush

theorem keepsBut_released {s : State} {m : FrozenMaster} :
    KeepsBut [.out, .mem, .dict, .quires, .gutters, .fabric, .queue, .err] s (released s m) :=
  .mono (by decide) <| .after keepsBut_logMaster <| .after (.ite keepsBut_qpError .refl) <| .after keepsBut_markFrozen keepsBut_fabric

theorem keepsBut_sendThaw {m : FrozenMaster} {s : State} {e : Nat} :
    KeepsBut [.out, .free, .dict, .fabric, .queue, .link, .traffic, .err] s (sendThaw m s e) := by
  unfold sendThaw
  split
  · exact .same
  · exact .mono (by decide) <| .after keepsBut_launch keepsBut_draw

theorem keepsBut_startRelease {s : State} {m : FrozenMaster} : KeepsBut workParts s (startRelease s m) :=
  .mono (by decide) <| .ite .refl <| .ite keepsBut_released (.after keepsBut_fabric (.foldl fun _ _ => keepsBut_sendThaw))

theorem keepsBut_quarantine {s : State} {h : BitVec 256} : KeepsBut [.free, .dict, .fabric] s (quarantine s h) := by
  unfold quarantine
  split
  · exact .same
  · split
    · exact .mono (by decide) (keepsBut_incF _ _ _)
    · exact .mono (by decide) <| .after keepsBut_draw keepsBut_fabric

theorem keepsBut_refuseTx {s : State} {h : BitVec 256} {status : Nat} :
    KeepsBut [.out, .free, .dict, .fabric, .queue, .link, .traffic, .err] s (refuseTx s h status) :=
  .mono (by decide) <| .after keepsBut_respond <| .after (keepsBut_incF _ _ _) <| .ite keepsBut_quarantine .refl

theorem keepsBut_endXlates {s : State} {j : Nat} : KeepsBut [.fabric] s (endXlates s j) := keepsBut_fabric

theorem keepsBut_revokeRegion {s : State} {r : Nat} : KeepsBut [.dict, .fabric, .queue] s (revokeRegion s r) :=
  .mono (by decide) <| .ite .refl <| .after keepsBut_checkDrains <| .ite keepsBut_setRegion (.after keepsBut_fabric keepsBut_setRegion)

theorem keepsBut_destroyQp {s : State} {q : Nat} : KeepsBut workParts s (destroyQp s q) := by
  refine .mono (by decide) <| .after keepsBut_checkDrains <| .after (l := workParts) keepsBut_setQp ?_
  split
  · exact keepsBut_startRelease
  · exact .same

theorem keepsBut_endQueues {s : State} {j : Nat} : KeepsBut workParts s (endQueues s j) :=
  .mono (by decide) <| .after keepsBut_queue <| .after (.foldl fun _ _ => keepsBut_devSetF) <|
    .after (.foldl fun _ _ => .after keepsBut_setQp keepsBut_destroyQp) <| .foldl fun _ _ => keepsBut_revokeRegion

/-! ### Bookmarks on their way (R256, R397) -/

theorem keepsBut_sendLoan {s : State} {dest type loan kind size base : Nat} :
    KeepsBut [.out] s (sendLoan s dest type loan kind size base) :=
  keepsBut_transmit

theorem keepsBut_bookStatus {s : State} {j : Nat} {seq : Option Nat} {records status : Nat} :
    KeepsBut [.dict] s (bookStatus s j seq records status) :=
  keepsBut_setF

theorem keepsBut_bookStore {s : State} {j target first : Nat} {ps : List (List Byte)} :
    KeepsBut bookParts s (bookStore s j target first ps).1 := by
  induction ps generalizing s first with
  | nil => exact .same
  | cons p r ih =>
    unfold bookStore
    split
    · split
      · exact .mono (by decide) <| .after ih keepsBut_queueWrite
      · exact .same
    · split
      · exact .same
      · split
        next hissue => exact .mono (by decide) (keepsBut_issue.fst hissue)
        next hissue =>
          split
          next hstore => exact .mono (by decide) <| .after (ih.fst hstore) ((keepsBut_issue.fst hissue))
          next hstore => exact .mono (by decide) <| .after (ih.fst hstore) ((keepsBut_issue.fst hissue))

theorem keepsBut_modWrite {s : State} {j : Nat} {w : Option BookmarkWrite} : KeepsBut [.jobs] s (modWrite s j w) :=
  keepsBut_modJob _ _ _

theorem keepsBut_abandonBook {s : State} {j records : Nat} : KeepsBut [.dict, .jobs] s (abandonBook s j records) :=
  .mono (by decide) <| .after keepsBut_bookStatus keepsBut_modWrite

theorem keepsBut_bookPump {s : State} {j : Nat} : KeepsBut bookParts s (bookPump s j) := by
  unfold bookPump
  split
  · exact .same
  · refine .mono (by decide) <| .ite keepsBut_abandonBook <| .ite .refl <|
      .ite (m := bookParts) (.ite .refl (.after keepsBut_bookStatus keepsBut_modWrite)) ?_
    split
    next hstore => exact .mono (by decide) <| .after keepsBut_modWrite (keepsBut_bookStore.fst hstore)
    next hstore => exact .mono (by decide) <| .after keepsBut_abandonBook (keepsBut_bookStore.fst hstore)

theorem keepsBut_answerFlash {s : State} : KeepsBut bookParts s (answerFlash s) := by
  refine .mono (by decide) <| .after (.foldl (l := bookParts) fun u x => ?_) keepsBut_flash
  split
  · exact .mono (by decide) <| .ite keepsBut_respond keepsBut_refuseTx
  · refine .mono (by decide) <| .ite (m := bookParts) .refl ?_
    split
    · exact .mono (by decide) keepsBut_modWrite
    · exact .same
  · exact .same

theorem keepsBut_bookPumps {s : State} : KeepsBut bookParts s (bookPumps s) :=
  .mono (by decide) <| .after keepsBut_answerFlash <| .after (.foldl fun _ _ => keepsBut_bookPump) keepsBut_answerFlash

/-! ### What ends with a job (R349, R393) -/

theorem keepsBut_floodNote {s : State} {note subject inc image jb : Nat} :
    KeepsBut [.out, .link, .kettle] s (floodNote s note subject inc image jb) :=
  .mono (by decide) <| .after (.foldl fun _ _ => keepsBut_sendWord) keepsBut_kettle

theorem keepsBut_setJobMode {s : State} {j : Nat} {m : JobMode} : KeepsBut [.dict, .jobs] s (setJobMode s j m) :=
  .mono (by decide) <| .after keepsBut_setF (keepsBut_modJob _ _ _)

theorem keepsBut_endHandling {s : State} {u : Nat} : KeepsBut [.err] s (endHandling s u) := keepsBut_modUnit

theorem keepsBut_releaseSets {s : State} {j : Nat} : KeepsBut workParts s (releaseSets s j) :=
  .mono (by decide) <| .after (.foldl fun _ _ => keepsBut_modGutter _ _ _) <| .after (.foldl fun _ _ => keepsBut_anySeq) <|
    .after (.foldl fun _ _ => keepsBut_startRelease) <| .foldl fun _ _ => keepsBut_endHandling

theorem keepsBut_discardJobFlash {s : State} {j : Nat} : KeepsBut [.out, .mem, .dict, .tier, .flash, .err] s (discardJobFlash s j) :=
  .foldl fun _ _ => keepsBut_flashDiscard

theorem keepsBut_attendRefuse {code : Nat} {s : State} {a : AttendWork} : KeepsBut [.out, .dict] s (attendRefuse code s a) :=
  .mono (by decide) <| .after (keepsBut_incF _ _ _) keepsBut_transmit

theorem keepsBut_endSpans {s : State} {j : Nat} : KeepsBut [.out, .dict, .span] s (endSpans s j) :=
  .mono (by decide) <| .after keepsBut_span <| .after (.foldl fun _ _ => .ite keepsBut_setF .refl) <|
    .foldl fun _ _ => keepsBut_attendRefuse

theorem keepsBut_endHandoffs {s : State} {j : Nat} : KeepsBut [.dict, .handoff] s (endHandoffs s j) :=
  .mono (by decide) <| .after keepsBut_setF keepsBut_handoff

theorem keepsBut_dropTargets {s : State} {j : Nat} : KeepsBut [.fabric] s (dropTargets s j) := keepsBut_fabric

theorem keepsBut_dropJobWork {s : State} {j : Nat} : KeepsBut [.sig, .fabric] s (dropJobWork s j) :=
  .mono (by decide) <| .after keepsBut_fabric keepsBut_sig

theorem keepsBut_releaseJob {s : State} {j : Nat} {open0 : List Nat} {keep : JobSt → JobSt} :
    KeepsBut workParts s (releaseJob s j open0 keep) :=
  .mono (by decide) <| .after keepsBut_setF <| .after keepsBut_setF <| .after (keepsBut_modJob _ _ _) <| .after keepsBut_dropTargets <|
    .after keepsBut_dropJobWork <| .after keepsBut_releaseSets <| .after keepsBut_endHandoffs <| .after keepsBut_endSpans <|
      .after keepsBut_startSweep <| .after keepsBut_tier <| .after (.foldl fun _ _ => keepsBut_stopWrites) <|
        .after keepsBut_discardJobFlash <| .after keepsBut_endQueues keepsBut_endXlates

theorem keepsBut_freeSigs {s : State} {j : Nat} : KeepsBut [.dict, .sig, .handoff] s (freeSigs s j) :=
  .foldl fun _ _ => keepsBut_setSigState

theorem keepsBut_writeRemoteFolio {s : State} {dest idx sub width v : Nat} :
    KeepsBut [.out, .free, .dict, .fabric, .queue, .link, .traffic, .err] s (writeRemoteFolio s dest idx sub width v) :=
  keepsBut_issue

theorem keepsBut_discardBookmarks {s : State} {j : Nat} : KeepsBut workParts s (discardBookmarks s j) :=
  .mono (by decide) <| .foldl fun _ _ => .ite .refl <| .ite keepsBut_bookmarkDiscardAction keepsBut_writeRemoteFolio

theorem keepsBut_endKey {s : State} {j : Nat} : KeepsBut [.dict, .jobs, .press] s (endKey s j) :=
  .mono (by decide) <| .ite (.after keepsBut_setF <| .after keepsBut_setJobMode <| keepsBut_startZeroing) keepsBut_startZeroing

theorem keepsBut_finishEnd {s : State} {j : Nat} : KeepsBut workParts s (finishEnd s j) :=
  .mono (by decide) <| .ite .refl <| .after keepsBut_endKey <| .after keepsBut_discardBookmarks <|
    .after keepsBut_releaseJob keepsBut_freeSigs

theorem keepsBut_acceptStart {s : State} {j : Nat} {restart : Bool} : KeepsBut [.dict, .jobs, .starts] s (acceptStart s j restart) :=
  .mono (by decide) <| .after keepsBut_setF <| .after keepsBut_setF <| .after keepsBut_setF <| .after keepsBut_starts <|
    .after (keepsBut_modJob _ _ _) <| keepsBut_setJobMode

theorem keepsBut_restartJob {s : State} {j : Nat} : KeepsBut [.dict, .jobs, .starts] s (restartJob s j) :=
  .mono (by decide) <| .ite (.after (keepsBut_incF _ _ _) keepsBut_acceptStart) .refl

theorem keepsBut_tearDown {s : State} {j : Nat} {how : Teardown} {flood : Bool} : KeepsBut workParts s (tearDown s j how flood) := by
  dsimp only [tearDown]
  split
  · exact .same
  · exact .same
  · exact .mono (by decide) <| .after (keepsBut_incF _ _ _) keepsBut_finishEnd
  · exact .mono (by decide) <| .after (.ite keepsBut_restartJob .refl) <| .after (keepsBut_modJob _ _ _) <|
      .after (.ite keepsBut_floodNote .refl) <| .after keepsBut_starts <| .after keepsBut_refuseWaiting <| .after keepsBut_setJobMode <|
        .after (keepsBut_incF _ _ _) <| .after keepsBut_releaseJob keepsBut_freeSigs

theorem keepsBut_tearDownJob {s : State} {j : Nat} : KeepsBut workParts s (tearDownJob s j) := keepsBut_tearDown

/-! ### Links leave service and train (chapter 14) -/

theorem keepsBut_noteChange {s : State} : KeepsBut [.fabric] s (noteChange s) := keepsBut_fabric

theorem keepsBut_leaveService {s : State} {l : Nat} {m : LinkMode} : KeepsBut workParts s (leaveService s l m) :=
  .mono (by decide) <| .after (.ite (.foldl fun _ _ => keepsBut_tearDownJob) .refl) <|
    .after (.ite keepsBut_noteChange .refl) keepsBut_setLink

theorem keepsBut_disableLink {s : State} {l : Nat} : KeepsBut workParts s (disableLink s l) :=
  .mono (by decide) <| .ite .refl keepsBut_leaveService

theorem keepsBut_sendParam {s : State} {l : Nat} : KeepsBut [.out, .link] s (sendParam s l) :=
  .mono (by decide) <| .after keepsBut_sendWord keepsBut_modLink

theorem keepsBut_tryTrain {s : State} {l : Nat} : KeepsBut [.out, .link] s (tryTrain s l) :=
  .mono (by decide) <| .ite (.after keepsBut_sendParam keepsBut_setLink) .refl

theorem keepsBut_setDisableBit {s : State} {l : Nat} {on : Bool} : KeepsBut [.dict] s (setDisableBit s l on) :=
  keepsBut_devSetF

/-! ### Fences and errors of units (R361, R362, R370) -/

theorem keepsBut_stopSequencers {s : State} : KeepsBut [.quires, .gutters] s (stopSequencers s) :=
  keepsBut_quires_gutters

theorem keepsBut_goDark {s : State} : KeepsBut [.out, .link] s (goDark s) :=
  .mono (by decide) <| .ite .refl (.after (keepsBut_emit _ _) keepsBut_link)

theorem keepsBut_packageFailed {s : State} : KeepsBut [.out, .quires, .gutters, .link, .err] s (packageFailed s) :=
  .mono (by decide) <| .after (.ite .refl keepsBut_err) <| .after keepsBut_goDark keepsBut_stopSequencers

theorem keepsBut_logFence {s : State} {u reason : Nat} : KeepsBut [.out, .dict, .err] s (logFence s u reason) :=
  keepsBut_logEntry

theorem keepsBut_withdrawRole {s : State} {reason : Nat} : KeepsBut workParts s (withdrawRole s reason) :=
  .mono (by decide) <| .after keepsBut_setF <| .after keepsBut_setF (.foldl fun _ _ => keepsBut_tearDown)

theorem keepsBut_barSteps {s : State} {j : Nat} : KeepsBut [.jobs] s (barSteps s j) := keepsBut_modJob _ _ _

theorem keepsBut_fenceEffect {s : State} {u : Nat} : KeepsBut workParts s (fenceEffect s u) := by
  unfold fenceEffect
  split
  · split
    · exact .mono (by decide) keepsBut_barSteps
    · exact .same
  · split
    · exact .mono (by decide) keepsBut_barSteps
    · exact .same
  · exact .mono (by decide) <| .after keepsBut_disableLink keepsBut_setDisableBit
  · exact keepsBut_withdrawRole
  · exact keepsBut_withdrawRole
  · exact .mono (by decide) <| .ite keepsBut_packageFailed .refl
  · exact .mono (by decide) keepsBut_packageFailed
  · exact .mono (by decide) keepsBut_packageFailed
  · exact .same

theorem keepsBut_fence {s : State} {u reason : Nat} : KeepsBut workParts s (fence s u reason) :=
  .mono (by decide) <| .ite .refl <| .after keepsBut_fenceEffect <| .after keepsBut_logFence keepsBut_modUnit

theorem keepsBut_failSelfTest {s : State} {u : Nat} : KeepsBut [.err] s (failSelfTest s u) := keepsBut_err

/-- An error is counted against a unit whose handling may have ended: `c` says that it has, `d` that it is not counted. -/
theorem keepsBut_errorCounted {c d : Prop} [Decidable c] [Decidable d] {s : State} {u : Nat} {f : UnitState → UnitState} :
    KeepsBut [.err] s (failSelfTest (if d then (if c then endHandling s u else s) else modUnit (if c then endHandling s u else s) u f) u) :=
  .mono (by decide) <| .after keepsBut_failSelfTest <|
    .ite (.ite keepsBut_endHandling .refl) (.after keepsBut_modUnit (.ite keepsBut_endHandling .refl))

theorem keepsBut_uncorrectableBy {s : State} {u cause plane : Nat} {jb : Option Nat} {detail addr master : Nat} :
    KeepsBut workParts s (uncorrectableBy s u cause plane jb detail addr master) := by
  unfold uncorrectableBy
  refine .mono (by decide) <| .ite (m := workParts) keepsBut_logEntry ?_
  dsimp only
  split
  · exact .mono (by decide) <| .after (keepsBut_incF _ _ _) keepsBut_errorCounted
  · exact .mono (by decide) <| .ite keepsBut_errorCounted (.after keepsBut_logEntry <| .after keepsBut_modUnit <| keepsBut_errorCounted)
  · exact .mono (by decide) <| .ite keepsBut_errorCounted (.after (keepsBut_incF _ _ _) <| .after keepsBut_fence <|
      .after keepsBut_modUnit <| .after keepsBut_logEntry <| keepsBut_errorCounted)

theorem keepsBut_correctable {s : State} {u : Nat} : KeepsBut workParts s (correctable s u) :=
  .mono (by decide) <| .ite
    (.ite
      (.after keepsBut_fence <| .after keepsBut_logErr <| .after keepsBut_modUnit <| .after keepsBut_failSelfTest keepsBut_modUnit)
      (.after keepsBut_logErr <| .after keepsBut_modUnit <| .after keepsBut_failSelfTest keepsBut_modUnit))
    (.after keepsBut_failSelfTest keepsBut_modUnit)

/-- A correctable error of a unit of a kind that is not fenced for them goes no further than the error log (R370). -/
theorem keepsBut_correctable_unfenced {s : State} {u : Nat} (hkind : ¬ (1 ≤ u / 4096 ∧ u / 4096 ≤ 4)) :
    KeepsBut [.out, .dict, .err] s (correctable s u) := by
  simp only [correctable, if_neg hkind]
  exact .mono (by decide) <| .ite (.after keepsBut_logErr <| .after keepsBut_modUnit <| .after keepsBut_failSelfTest keepsBut_modUnit)
    (.after keepsBut_failSelfTest keepsBut_modUnit)

theorem keepsBut_channelHalt {s : State} {u plane : Nat} {jb : Option Nat} {beat mem addr master : Nat} :
    KeepsBut workParts s (channelHalt s u plane jb beat mem addr master) :=
  .mono (by decide) <| .after keepsBut_uncorrectableBy keepsBut_memError

theorem keepsBut_stayFenced {s : State} {u : Nat} : KeepsBut workParts s (stayFenced s u) :=
  .mono (by decide) <| .ite (.after keepsBut_disableLink keepsBut_setDisableBit) .refl

theorem keepsBut_flashRetried {s : State} {page : Nat} : KeepsBut workParts s (flashRetried s page) :=
  .mono (by decide) <| .after keepsBut_correctable keepsBut_countCorrected

theorem keepsBut_flashFault {s : State} {page cls : Nat} : KeepsBut workParts s (flashFault s page cls) :=
  .mono (by decide) <| .after keepsBut_channelHalt keepsBut_countUncorrectable

/-! ### Control words of links (R313, R314, R319) -/

theorem keepsBut_takeLinkAck {s : State} {l ack : Nat} : KeepsBut [.link] s (takeLinkAck s l ack) := keepsBut_modLink

theorem keepsBut_enterRetrain {s : State} {l : Nat} : KeepsBut [.out, .dict, .link] s (enterRetrain s l) :=
  .mono (by decide) <| .ite (.after keepsBut_sendParam <| .after (keepsBut_incF _ _ _) <| keepsBut_modLink) .refl

theorem keepsBut_sendCredit {s : State} {l : Nat} : KeepsBut [.out, .link] s (sendCredit s l) :=
  .mono (by decide) <| .after keepsBut_modLink keepsBut_sendWord

theorem keepsBut_heardGood {s : State} {l : Nat} : KeepsBut [.link] s (heardGood s l) := keepsBut_modLink

/-- A control word changes what its receipt does, and what `f` makes of it. -/
theorem keepsBut_recvWord {parts : List Part} {s : State} {l : Nat} {w : BitVec 256} {kind : Nat} {ok : LinkMode → Bool} {f : State → State}
    (hf : ∀ u, KeepsBut parts u (f u)) : KeepsBut (parts ++ [.out, .dict, .queue, .link, .traffic, .err]) s (recvWord s l w kind ok f) := by
  refine .mono ?_ <| .ite .refl <| .ite (keepsBut_incF _ _ _) <| .after (.ite keepsBut_runLink .refl) <|
    .after (hf _) (.ite (.after keepsBut_heardGood keepsBut_takeLinkAck) .refl)
  intro p
  simp
  tauto

theorem keepsBut_newDelay {s : State} {l v : Nat} : KeepsBut [.dict, .fabric, .link] s (newDelay s l v) :=
  .mono (by decide) <| .ite (.after keepsBut_modLink <| .after keepsBut_fabric <| keepsBut_setF) keepsBut_setF

theorem keepsBut_setLaser {s : State} {e : Nat} {x : LaserSource} : KeepsBut [.dict, .link] s (setLaser s e x) :=
  .mono (by decide) <| .after keepsBut_setF keepsBut_link

/-! ### Loans (R234, R237) -/

theorem keepsBut_showLent {s : State} : KeepsBut [.dict] s (showLent s) :=
  .mono (by decide) <| .after keepsBut_setF keepsBut_setF

theorem keepsBut_reclaimLoan {s : State} {r : LentRange} : KeepsBut [.out, .mem, .dict, .tier, .flash, .fabric, .err] s (reclaimLoan s r) :=
  .mono (by decide) <| .after keepsBut_showLent <| .after (.ite (.after keepsBut_flash keepsBut_flashDiscard) .refl) <| keepsBut_tier_fabric

/-! ### Power, clocks, boot and the port (chapters 20 and 21) -/

theorem keepsBut_modHalf {s : State} {h : Nat} {f : HalfPower → HalfPower} : KeepsBut [.power] s (modHalf s h f) :=
  keepsBut_power

theorem keepsBut_setK {s : State} {h k : Nat} : KeepsBut [.dict] s (setK s h k) :=
  .mono (by decide) <| .ite .refl <| .after (.ite keepsBut_initStage .refl) <| .after (keepsBut_incF _ _ _) keepsBut_setF

theorem keepsBut_showCauses {power : Bool} {s : State} : KeepsBut [.dict] s (showCauses power s) := keepsBut_setF

theorem keepsBut_lowerK {s : State} {h : Nat} : KeepsBut [.dict, .power] s (lowerK s h) :=
  .mono (by decide) <| .ite (.after keepsBut_setK keepsBut_modHalf) .refl

theorem keepsBut_vrhotOn {s : State} {h : Nat} : KeepsBut [.dict, .power] s (vrhotOn s h) :=
  .mono (by decide) <| .after keepsBut_setK keepsBut_modHalf

theorem keepsBut_startRise {s : State} {h : Nat} : KeepsBut [.dict, .power] s (startRise s h) :=
  .mono (by decide) <| .ite (.after (.ite keepsBut_modHalf .refl) <| .after keepsBut_setK keepsBut_modHalf) .refl

theorem keepsBut_leavePath {s : State} : KeepsBut [.out, .power] s (leavePath s) :=
  .mono (by decide) <| .ite (.after (keepsBut_emit _ _) keepsBut_power) .refl

theorem keepsBut_setWords {s : State} {idx n v : Nat} : KeepsBut [.dict] s (setWords s idx n v) :=
  .foldl fun _ _ => keepsBut_setF

theorem keepsBut_loadReserved {s : State} : KeepsBut [.mem] s (loadReserved s) := .foldl fun _ _ => keepsBut_writeBytes

theorem keepsBut_loadImg {l : List (Nat × Nat × Nat)} {s : State} : KeepsBut [.dict] s (loadImg l s) := keepsBut_dict

theorem keepsBut_applyOverride {s : State} {e : Nat × Nat × Nat} : KeepsBut [.dict] s (applyOverride s e) :=
  .mono (by decide) <| .ite keepsBut_dict (keepsBut_incF _ _ _)

theorem keepsBut_startLinks {s : State} : KeepsBut [.link] s (startLinks s) :=
  .mono (by decide) <| .after keepsBut_link (.foldl fun _ _ => .ite .refl keepsBut_setLink)

theorem keepsBut_useConfig {k : Nat} {b : BootImage} {s : State} : KeepsBut [.dict, .link, .boot] s (useConfig k b s) :=
  .mono (by decide) <| .after keepsBut_startLinks <| .after keepsBut_setWords <| .after keepsBut_setWords <| .after keepsBut_setF <|
    .after (.foldl fun _ _ => keepsBut_applyOverride) <| .after keepsBut_loadImg keepsBut_boot

theorem keepsBut_verifyImages {found : List (Nat × BootImage)} {s : State} :
    KeepsBut [.dict, .link, .power, .boot] s (verifyImages found s) := by
  unfold verifyImages
  dsimp only
  split
  · exact .mono (by decide) <| .after keepsBut_power keepsBut_setF
  · split
    · exact .mono (by decide) <| .after keepsBut_initStage <| .after keepsBut_setF <| .after keepsBut_useConfig <|
        .after keepsBut_setWords <| .after keepsBut_setF <| .after keepsBut_power_boot keepsBut_setF
    · exact .mono (by decide) <| .after keepsBut_initStage <| .after keepsBut_setF <| .after keepsBut_setF <| .after keepsBut_setWords <|
        .after keepsBut_setF <| .after keepsBut_power_boot keepsBut_setF

theorem keepsBut_portRestart {s : State} {j : Nat} : KeepsBut [.dict, .jobs, .starts] s (portRestart s j) :=
  .mono (by decide) <| .ite .refl <| .ite (keepsBut_modJob _ _ _) keepsBut_restartJob

theorem keepsBut_discardFrame {s : State} : KeepsBut [.dict] s (discardFrame s) := keepsBut_incF _ _ _

theorem keepsBut_sendPdu {s : State} {dest header : Nat} {values : List Nat} : KeepsBut [.out] s (sendPdu s dest header values) :=
  keepsBut_emit _ _

end Sys2Proof.Machine
end

section
/-! PROOFS. The statements of chapter 10: memory tiers and lending. -/

namespace Sys2Proof.Machine

open Host

/-! ### A loan message is taken (R234, R236) -/

/-- A loan message of type `type` from a live source, sound by Table 10-5. -/
structure SoundLoan (b : State) (h : BitVec 512) (type : Nat) : Prop where
  live : deadSource b (fld h 503 488) = false
  ok : loanOk h type = true

/-- A command that receives a loan message answers what it makes of a sound one. -/
theorem receipt_loan {b : State} {h : BitVec 512} {type : Nat} {dropped unsound taken : Outcome State Fault Refusal}
    (hsound : SoundLoan b h type) : (if deadSource b (fld h 503 488) then dropped else if loanOk h type = false then unsound else taken) = taken :=
  (if_neg (ne_true_of_eq_false hsound.live)).trans (if_neg (ne_false_of_eq_true hsound.ok))

/-! ### Advertisements (R234) -/

section
variable {t : Nat} {h : BitVec 512} {s : State}

/-- The advertisements that `a` leaves: it takes the place of the lender's last of its kind (R234). -/
def advertKept (l : List AdvertSeen) (a : AdvertSeen) : List AdvertSeen :=
  l.filter (fun x => !(decide (x.lender = a.lender) && decide (x.kind = a.kind))) ++ [a]

theorem exec_advert_sound (hsound : SoundLoan (atTime t s) h 0x30) :
    let a : AdvertSeen := { lender := fld h 503 488, kind := fld h 471 470, freeGib := fld h 469 453, receivedNs := max s.now t }
    exec (.advert t h) s = .next { (atTime t s) with tier := { s.tier with adverts := advertKept s.tier.adverts a } } :=
  receipt_loan hsound

end

/-- Settles O33: past its guards the message changes the adverts of the tiers and nothing else. -/
theorem advertsRemembered : Obligations.AdvertsRemembered :=
  fun t _ s hlive hok => ⟨_, exec_advert_sound ⟨hlive, hok⟩, rfl, rfl, (keepsBut_atTime t s).trans keepsBut_tier⟩

/-! ### LPDDR6 upkeep (R224 to R226) -/

/-- The record of channel `ch` of `s` is `c`. -/
def channelSet (s : State) (ch : Nat) (c : LpChannel) : State := { s with tier := { s.tier with channels := tput s.tier.channels ch c } }

theorem lpChannel_trained {s : State} {ch : Nat} {c : LpChannel} (h : lpChannel s ch = some c) : c.trained = true := by
  obtain ⟨x, -, hx⟩ := Option.bind_eq_some_iff.mp h
  by_cases htrained : x.trained = true
  · rw [if_pos htrained] at hx
    exact Option.some.inj hx ▸ htrained
  · simp [htrained] at hx

theorem lpChannel_channelSet_same (s : State) (ch : Nat) {c : LpChannel} (h : c.trained = true) : lpChannel (channelSet s ch c) ch = some c := by
  simp [lpChannel, channelSet, tfind_tput_same, h]

theorem lpChannel_channelSet_other (s : State) {ch d : Nat} (c : LpChannel) (h : d ≠ ch) : lpChannel (channelSet s ch c) d = lpChannel s d := by
  simp [lpChannel, channelSet, tfind_tput_other _ c h]

theorem keepsBut_channelSet (s : State) (ch : Nat) (c : LpChannel) : KeepsBut [.tier] s (channelSet s ch c) := keepsBut_tier

section
variable {t ch : Nat} {c : LpChannel} {s : State}

theorem exec_lpddr6RefreshRateRead_trained {rate : Nat} (h : lpChannel (atTime t s) ch = some c) :
    exec (.lpddr6RefreshRateRead t ch rate) s = .next (channelSet (atTime t s) ch { c with refreshRate := rate }) := by
  show execLpddr6RefreshRateRead t ch rate s = _
  simp only [execLpddr6RefreshRateRead, h]
  rfl

theorem exec_lpddr6Retrain_due (h : lpChannel (atTime t s) ch = some c) (hdue : c.retrainedNs + 100000000 ≤ (atTime t s).now) :
    exec (.lpddr6Retrain t ch) s = .next (channelSet (atTime t s) ch { c with retrainedNs := (atTime t s).now }) := by
  show execLpddr6Retrain t ch s = _
  simp only [execLpddr6Retrain, h]
  exact if_neg hdue.not_gt

theorem exec_lpddr6EccCountRead_trained {count : Nat} (h : lpChannel (atTime t s) ch = some c) :
    exec (.lpddr6EccCountRead t ch count) s = .next ((List.range (count - c.eccCount)).foldl
      (fun u _ => correctable (incF u 0x6004 (0x10 + ch)) (unitLpddr ch)) (channelSet (atTime t s) ch { c with eccCount := count })) := by
  show execLpddr6EccCountRead t ch count s = _
  simp only [execLpddr6EccCountRead, h]
  rfl
end

/-- Settles O34: each reading writes one record of the table of channels, which leaves it trained as it was found. -/
theorem lpddr6Upkeep : Obligations.Lpddr6Upkeep := by
  refine ⟨?rate, ?retrain, ?count⟩
  case rate =>
    intro t ch rate c s h
    have htrained : c.trained = true := lpChannel_trained h
    refine ⟨_, exec_lpddr6RefreshRateRead_trained h, ?_, ?_, ?_⟩
    · exact lpChannel_channelSet_same _ ch htrained
    · exact fun d hd => lpChannel_channelSet_other _ _ hd
    · exact (keepsBut_atTime t s).trans (keepsBut_channelSet _ ch _)
  case retrain =>
    intro t ch c s h hdue
    have htrained : c.trained = true := lpChannel_trained h
    refine ⟨_, exec_lpddr6Retrain_due h hdue, ?_, ?_, ?_⟩
    · exact lpChannel_channelSet_same _ ch htrained
    · exact fun d hd => lpChannel_channelSet_other _ _ hd
    · exact (keepsBut_atTime t s).trans (keepsBut_channelSet _ ch _)
  case count => exact fun _ _ _ _ _ => exec_lpddr6EccCountRead_trained

/-! ### Ends of moves (R227, R240) -/

/-- What the event that ends move `m` does, by its outcome: the target has confirmed, a read was uncorrectable, a write could not be made. -/
def moveEnded (s : State) (jb : Nat) (m : TierMove) (read : MoveRead) : Nat → State
  | 0 => moveDone (read.bad.foldl engineRepeat s) m read.objects
  | 1 =>
    let u := (read.bad.take 1).foldl (fun v a => engineFault v jb a) ((read.bad.drop 1).foldl engineRepeat s)
    if u.tier.moves.contains m then moveLost u m else u
  | _ => abandonMove (read.bad.foldl engineRepeat s) m

section
variable {t jb group outcome : Nat} {m : TierMove} {read : MoveRead} {s : State}

theorem exec_tierMoveComplete_started
    (hlive : (atTime t s).tier.ending.any (fun e => decide (e.job = jb) && decide (e.group = group)) = false)
    (hmove : moveOf (atTime t s) jb group = some m) (hstarted : m.started = true) :
    exec (.tierMoveComplete t jb group outcome read) s =
      .next (bookPumps (emptyLoans (pumpPasses (moveEnded (atTime t s) jb m read outcome)))) := by
  refine (if_neg (ne_true_of_eq_false hlive)).trans ?_
  simp only [hmove, if_neg (ne_false_of_eq_true hstarted)]
  match outcome with
  | 0 => rfl
  | 1 => rfl
  | _ + 2 => rfl

/-- The end of a move of a job that has been torn down only frees the space that the move held (Table 10-7). -/
theorem exec_tierMoveComplete_tornDown
    (hending : (atTime t s).tier.ending.any (fun e => decide (e.job = jb) && decide (e.group = group)) = true) :
    exec (.tierMoveComplete t jb group outcome read) s =
      .next (bookPumps (emptyLoans (pumpPasses (endWrites (atTime t s) jb group)))) :=
  if_pos hending

end

/-! ### Lending (R233, R234, R237) -/

section
variable {t : Nat} {h : BitVec 512} {s : State}

/-- The source of a REQUEST is remembered as one that asks (R233). -/
def askerNoted (b : State) (src : Nat) : State :=
  { b with tier := { b.tier with askers := b.tier.askers.filter (fun a => decide (a.1 ≠ src)) ++ [(src, b.now)] } }

/-- REQUEST: none wanted is a poll, one of another volume is answered with none, and one of this volume with what is free (R234; log 82). -/
theorem exec_request_sound (hsound : SoundLoan (atTime t s) h 0x31) : let b := atTime t s
    let src := fld h 503 488
    exec (.request t h) s =
      if fld h 469 453 = 0 then .next (askerNoted b src)
      else if volumeOf src ≠ volumeOf (ownEndpoint b) then .next (sendLoan (askerNoted b src) src 0x32 0 (fld h 471 470) 0 0)
      else .next (grantLoan (askerNoted b src) src (fld h 471 470) (fld h 469 453)) :=
  receipt_loan hsound

/-- The loan that a GRANT answers ask `a` with. -/
def loanGranted (h : BitVec 512) (a : LoanAsked) : LoanEntry :=
  ⟨fld h 503 488, a.kind, false, false, a.bestEffort, fld h 469 453, fld h 452 417, fld h 487 472⟩

theorem exec_grant_taken {k : Nat} {a : LoanAsked} (hsound : SoundLoan (atTime t s) h 0x32)
    (hasked : (atTime t s).tier.asked.find? (fun a => decide (a.lender = fld h 503 488) && decide (a.kind = fld h 471 470)) = some a)
    (hentry : firstFrom (fun k => (tfind (atTime t s).tier.loans k).isNone) 64 0 = some k)
    (hpos : 1 ≤ fld h 469 453) (hmax : fld h 469 453 ≤ 1024) : let b := atTime t s
    exec (.grant t h) s = .next (loanWindows (loanGranted h a) 64 0
      { b with tier := { b.tier with asked := b.tier.asked.erase a, loans := tput b.tier.loans k (loanGranted h a) } }) := by
  have hsize : ¬ (fld h 469 453 = 0 ∨ 1024 < fld h 469 453) := by omega
  refine (receipt_loan hsound).trans ?_
  simp only [hasked, hentry, if_neg hsize]
  rfl

theorem exec_recall_sound (hsound : SoundLoan (atTime t s) h 0x33) : let b := atTime t s
    let marked := b.tier.loans.map (fun x =>
      (x.1, if x.2.lender = fld h 503 488 ∧ x.2.loanId = fld h 487 472 then { x.2 with recalled := true } else x.2))
    exec (.recall t h) s = .next (emptyLoans (cancelInto { b with tier := { b.tier with loans := marked } })) :=
  receipt_loan hsound

theorem exec_release_lent {r : LentRange} (hsound : SoundLoan (atTime t s) h 0x34)
    (hlent : (atTime t s).tier.lent.find? (fun r => decide (r.loanId = fld h 487 472) && decide (r.borrower = fld h 503 488)) = some r) :
    exec (.release t h) s = .next (reclaimLoan (atTime t s) r) :=
  (receipt_loan hsound).trans (by simp only [hlent])

end

/-! ### The outbound entries of a loan (R267) -/

theorem firstFrom_holds {p : Nat → Bool} {n lo k : Nat} (h : firstFrom p n lo = some k) : p k = true := by
  induction n generalizing lo with
  | zero => simp [firstFrom] at h
  | succ n ih =>
    by_cases hlo : p lo = true
    · simp only [firstFrom, hlo, if_true, Option.some.injEq] at h
      exact h ▸ hlo
    · simp only [firstFrom, hlo] at h
      exact ih h

/-- `u` is `s` with outbound entries added: every entry of `s` stands in `u` too. -/
structure OutboundsAdded (s u : State) : Prop where
  frame : KeepsBut [.fabric] s u
  rest : u.fabric = { s.fabric with outbound := u.fabric.outbound }
  kept : ∀ w o, tfind s.fabric.outbound w = some o → tfind u.fabric.outbound w = some o

theorem OutboundsAdded.refl (s : State) : OutboundsAdded s s := ⟨.same, rfl, fun _ _ ho => ho⟩

theorem OutboundsAdded.trans {s u v : State} (hsu : OutboundsAdded s u) (huv : OutboundsAdded u v) : OutboundsAdded s v where
  frame := .mono (by decide) (hsu.frame.trans huv.frame)
  rest := by rw [huv.rest, hsu.rest]
  kept w o ho := huv.kept w o (hsu.kept w o ho)

/-- Outbound entry `w` of `s` is `o`. -/
def outboundSet (s : State) (w : Nat) (o : OutEntry) : State := { s with fabric := { s.fabric with outbound := tput s.fabric.outbound w o } }

theorem outboundsAdded_outboundSet {s : State} {w : Nat} (o : OutEntry) (hfree : (tfind s.fabric.outbound w).isNone = true) :
    OutboundsAdded s (outboundSet s w o) where
  frame := keepsBut_fabric
  rest := rfl
  kept k x hx := by
    have hne : k ≠ w := by
      rintro rfl
      simp [hx] at hfree
    exact (tfind_tput_other _ o hne).trans hx

theorem outboundsAdded_loanWindows (e : LoanEntry) (fuel k : Nat) (s : State) : OutboundsAdded s (loanWindows e fuel k s) := by
  induction fuel generalizing k s with
  | zero => exact .refl s
  | succ fuel ih =>
    unfold loanWindows
    split
    · exact .refl s
    · split
      · exact .refl s
      next w hw => exact (outboundsAdded_outboundSet _ (firstFrom_holds hw)).trans (ih _ _)

/-! ### The commands, each where it acts -/

/-- Settles O32: each command past its guards, the messages by their receipt; the windows of a loan by what adding outbound entries keeps. -/
theorem tierCommandsComplete : Obligations.TierCommandsComplete := by
  refine ⟨?pass, ?moved, ?tornDown, ?advertise, ?poll, ?request, ?grant, ?windows, ?recalled, ?released⟩
  case pass => exact fun _ _ => rfl
  case moved =>
    intro t jb group m bad objects s b settled r hlive hmove hstarted
    have hended (outcome : Nat) {u : State} (hu : moveEnded b jb m ⟨bad, objects⟩ outcome = u) :
        exec (.tierMoveComplete t jb group outcome ⟨bad, objects⟩) s = .next (settled u) :=
      hu ▸ exec_tierMoveComplete_started hlive hmove hstarted
    refine ⟨hended 0 rfl, ?_, hended 2 rfl⟩
    rintro a l rfl
    exact hended 1 rfl
  case tornDown => exact fun _ _ _ _ _ _ => exec_tierMoveComplete_tornDown
  case advertise => exact fun _ _ hrole => if_neg hrole
  case poll => exact fun _ _ => ⟨rfl, rfl⟩
  case request =>
    intro t h s b src u hlive hok
    have hrequest := exec_request_sound ⟨hlive, hok⟩
    refine ⟨?_, ?_, ?_⟩
    · exact fun hnone => hrequest.trans (if_pos hnone)
    · exact fun hsome hforeign => hrequest.trans <| (if_neg hsome).trans (if_pos hforeign)
    · exact fun hsome hsame => hrequest.trans <| (if_neg hsome).trans (if_neg (not_not.mpr hsame))
  case grant => exact fun _ _ _ _ _ hlive hok => exec_grant_taken ⟨hlive, hok⟩
  case windows =>
    intro e fuel k w o s u
    obtain ⟨hframe, hrest, hkept⟩ := outboundsAdded_loanWindows e fuel k s
    exact ⟨hframe, hrest, hkept w o⟩
  case recalled => exact fun _ _ _ hlive hok => exec_recall_sound ⟨hlive, hok⟩
  case released => exact fun _ _ _ _ hlive hok => exec_release_lent ⟨hlive, hok⟩

end Sys2Proof.Machine
end

section
/-! PROOFS. The statement of chapter 10 on frames: what the commands of tiers, flash, links, presses, errors, power and boot
leave unchanged. -/

namespace Sys2Proof.Machine

open Host

/-! ### A frame of a command -/

/-- The state that an outcome answers, if it answers one, keeps what `s` holds in all parts but those listed. -/
def NextKeeps (l : List Part) (s : State) (o : Outcome State Fault Refusal) : Prop := ∀ u, o = .next u → KeepsBut l s u

section
variable {l m : List Part} {s u : State}

theorem NextKeeps.next (hml : m ⊆ l) (h : KeepsBut m s u) : NextKeeps l s (.next u) := by
  rintro _ ⟨⟩
  exact h.mono hml

theorem NextKeeps.mono {o : Outcome State Fault Refusal} (h : NextKeeps m s o) (hml : m ⊆ l) : NextKeeps l s o :=
  fun u ho => (h u ho).mono hml

theorem NextKeeps.ite {c : Prop} [Decidable c] {a b : Outcome State Fault Refusal} (ha : NextKeeps l s a) (hb : NextKeeps l s b) :
    NextKeeps l s (if c then a else b) := by
  split
  · exact ha
  · exact hb

end

section
variable {t : Nat} {s : State}

/-! ### Tiers and lending (chapter 10) -/

theorem nextKeeps_advert {h : BitVec 512} : NextKeeps [.now, .dict, .tier] s (exec (.advert t h) s) :=
  .ite (.next (by decide) <| .after (keepsBut_incF _ _ _) (keepsBut_atTime t s)) <|
    .ite (.next (by decide) (keepsBut_atTime t s)) (.next (by decide) <| .after keepsBut_tier (keepsBut_atTime t s))

theorem nextKeeps_grant {h : BitVec 512} : NextKeeps [.now, .dict, .tier, .fabric] s (exec (.grant t h) s) := by
  refine .ite (.next (by decide) <| .after (keepsBut_incF _ _ _) (keepsBut_atTime t s)) <| .ite (.next (by decide) (keepsBut_atTime t s)) ?_
  split
  · exact .next (by decide) (keepsBut_atTime t s)
  · dsimp only
    split
    · exact .next (by decide) <| .after keepsBut_tier (keepsBut_atTime t s)
    · exact .ite (.next (by decide) <| .after keepsBut_tier (keepsBut_atTime t s)) <| .next (by decide) <|
        .after (outboundsAdded_loanWindows _ _ _ _).frame <| .after keepsBut_tier <| .after keepsBut_tier (keepsBut_atTime t s)

theorem nextKeeps_release {h : BitVec 512} :
    NextKeeps [.now, .out, .mem, .dict, .tier, .flash, .fabric, .err] s (exec (.release t h) s) := by
  refine .ite (.next (by decide) <| .after (keepsBut_incF _ _ _) (keepsBut_atTime t s)) <| .ite (.next (by decide) (keepsBut_atTime t s)) ?_
  split
  · exact .next (by decide) <| .after keepsBut_reclaimLoan (keepsBut_atTime t s)
  · exact .next (by decide) (keepsBut_atTime t s)

theorem nextKeeps_advertTimer : NextKeeps [.now, .out] s (exec (.advertTimer t) s) :=
  .ite (.next (by decide) (keepsBut_atTime t s)) <| .next (by decide) <|
    .after (.foldl fun _ _ => .foldl fun _ _ => keepsBut_sendLoan) (keepsBut_atTime t s)

theorem nextKeeps_lenderListPoll : NextKeeps [.now, .out] s (exec (.lenderListPoll t) s) :=
  .next (by decide) <| .after (.foldl fun _ _ => keepsBut_sendLoan) (keepsBut_atTime t s)

theorem nextKeeps_lpddr6RefreshRateRead {channel rate : Nat} :
    NextKeeps [.now, .tier] s (exec (.lpddr6RefreshRateRead t channel rate) s) := by
  change NextKeeps _ s (execLpddr6RefreshRateRead t channel rate s)
  dsimp only [execLpddr6RefreshRateRead]
  split
  · exact .next (by decide) <| .after keepsBut_tier (keepsBut_atTime t s)
  · exact .next (by decide) (keepsBut_atTime t s)

theorem nextKeeps_lpddr6Retrain {channel : Nat} : NextKeeps [.now, .tier] s (exec (.lpddr6Retrain t channel) s) := by
  change NextKeeps _ s (execLpddr6Retrain t channel s)
  dsimp only [execLpddr6Retrain]
  split
  · exact .ite (.next (by decide) (keepsBut_atTime t s)) (.next (by decide) <| .after keepsBut_tier (keepsBut_atTime t s))
  · exact .next (by decide) (keepsBut_atTime t s)

/-! ### The flash tier (chapter 11) -/

theorem nextKeeps_flashTempSample {temps : List Int} : NextKeeps [.now, .free, .flash] s (exec (.flashTempSample t temps) s) :=
  .next (by decide) keepsBut_flashTempSample

theorem nextKeeps_flashWrite {id page : Nat} {data : List Byte} : NextKeeps (.now :: bookParts) s (exec (.flashWrite t id page data) s) :=
  .next (by decide) <| .after keepsBut_bookPumps keepsBut_flashWrite

/-- A read that is retried raises a correctable error of a flash channel, a kind of unit that is not fenced for them (R257, R370). -/
theorem keepsBut_flashRetried_channel {page : Nat} : KeepsBut [.dict, .flash, .err, .out] s (flashRetried s page) :=
  .mono (by decide) <| .after (keepsBut_correctable_unfenced (by unfold unitFlash; omega)) keepsBut_countCorrected

/-- A read that is answered at once changes nothing else. -/
theorem keepsBut_flashAnswered {id result : Nat} {bytes : List Byte} :
    KeepsBut [.now, .out] s (emit (atTime t s) (.flashData id result bytes)) :=
  .after (keepsBut_emit _ _) (keepsBut_atTime t s)

theorem nextKeeps_flashRead_readable {id page effort : Nat} (heffort : flashEffort effort ≠ 2) :
    NextKeeps [.now, .out, .dict, .flash, .err] s (exec (.flashRead t id page effort) s) := by
  refine .next (by decide) <| .ite keepsBut_flashAnswered <| .ite keepsBut_flashAnswered <|
    .ite (m := [.now, .out, .dict, .flash, .err]) keepsBut_flashAnswered ?_
  have hkinds : flashEffort effort = 0 ∨ flashEffort effort = 1 := by
    unfold flashEffort at heffort ⊢
    omega
  rcases hkinds with hplain | hretried
  · rw [if_pos hplain]
    exact .mono (by decide) keepsBut_flashAnswered
  · rw [if_neg (by simp [hretried]), if_pos hretried]
    exact .mono (by decide) <| .after (keepsBut_emit _ _) <| .after keepsBut_flashRetried_channel (keepsBut_atTime t s)

theorem nextKeeps_flashRead {id page effort : Nat} : NextKeeps workParts s (exec (.flashRead t id page effort) s) :=
  .next (by decide) <| .ite keepsBut_flashAnswered <| .ite keepsBut_flashAnswered <| .ite keepsBut_flashAnswered <|
    .ite keepsBut_flashAnswered <| .ite (.after (keepsBut_emit _ _) <| .after keepsBut_flashRetried (keepsBut_atTime t s))
      (.after (keepsBut_emit _ _) <| .after keepsBut_flashFault (keepsBut_atTime t s))

/-! ### Regions, links and lasers (chapters 13 and 14) -/

theorem nextKeeps_revokeTimeout {region : Nat} : NextKeeps [.now, .dict, .fabric, .queue] s (exec (.revokeTimeout t region) s) :=
  .next (by decide) <| .ite (.after keepsBut_finishRevoke (keepsBut_atTime t s)) (keepsBut_atTime t s)

section
variable {link : Nat}

theorem nextKeeps_creditTimer : NextKeeps [.now, .out, .link] s (exec (.creditTimer t link) s) := by
  refine .next (List.Subset.refl _) ?_
  split
  · exact .mono (by decide) <| .ite (.after keepsBut_sendCredit (keepsBut_atTime t s)) (keepsBut_atTime t s)
  · exact .mono (by decide) (keepsBut_atTime t s)

theorem nextKeeps_idleTimer : NextKeeps [.now, .out, .link] s (exec (.idleTimer t link) s) := by
  refine .next (List.Subset.refl _) ?_
  split
  · exact .mono (by decide) <| .ite (.after keepsBut_sendIdle (keepsBut_atTime t s)) (keepsBut_atTime t s)
  · exact .mono (by decide) (keepsBut_atTime t s)

theorem nextKeeps_linkProbeTimer : NextKeeps [.now, .out, .link] s (exec (.linkProbeTimer t link) s) :=
  .next (by decide) <| .ite (.after keepsBut_sendWord <| .after keepsBut_setLink (keepsBut_atTime t s)) (keepsBut_atTime t s)

theorem nextKeeps_pulseTimer : NextKeeps [.now, .out, .link] s (exec (.pulseTimer t) s) :=
  .ite (.next (by decide) (keepsBut_atTime t s)) <| .next (by decide) <| .after (.foldl fun _ _ => keepsBut_sendWord) (keepsBut_atTime t s)

theorem nextKeeps_lightDetected : NextKeeps [.now, .out, .link] s (exec (.lightDetected t link) s) :=
  .next (by decide) <| .after keepsBut_tryTrain <| .after keepsBut_modLink (keepsBut_atTime t s)

theorem nextKeeps_trainingComplete : NextKeeps [.now, .link] s (exec (.trainingComplete t link) s) :=
  .next (by decide) <| .ite (.after keepsBut_setLink (keepsBut_atTime t s)) (keepsBut_atTime t s)

theorem nextKeeps_testingComplete : NextKeeps [.now, .link] s (exec (.testingComplete t link) s) :=
  .next (by decide) <| .ite (.after keepsBut_setLink (keepsBut_atTime t s)) (keepsBut_atTime t s)

theorem nextKeeps_holdoffExpiry : NextKeeps [.now, .out, .link] s (exec (.holdoffExpiry t link) s) :=
  .next (by decide) <| .ite (.after keepsBut_tryTrain <| .after keepsBut_setLink (keepsBut_atTime t s)) (keepsBut_atTime t s)

theorem nextKeeps_laserSourceReady {engine tempC : Nat} :
    NextKeeps [.now, .out, .dict, .link] s (exec (.laserSourceReady t engine tempC) s) :=
  .next (by decide) <| .after keepsBut_initStage <| .after (.foldl fun _ _ => keepsBut_tryTrain) <|
    .after keepsBut_setLaser (keepsBut_atTime t s)

theorem nextKeeps_linkProbe {word : BitVec 256} :
    NextKeeps [.now, .out, .dict, .queue, .link, .traffic, .err] s (exec (.linkProbe t link word) s) :=
  .next (by decide) <| .after (keepsBut_recvWord fun _ => keepsBut_sendWord) (keepsBut_atTime t s)

theorem nextKeeps_echo {word : BitVec 256} :
    NextKeeps [.now, .out, .dict, .fabric, .queue, .link, .traffic, .err] s (exec (.echo t link word) s) :=
  .next (by decide) <| .after (keepsBut_recvWord fun _ => .after keepsBut_newDelay keepsBut_modLink) (keepsBut_atTime t s)

theorem nextKeeps_lossOfLock : NextKeeps [.now, .out, .dict, .link] s (exec (.lossOfLock t link) s) :=
  .next (by decide) <| .after keepsBut_enterRetrain (keepsBut_atTime t s)

theorem nextKeeps_measuringComplete : NextKeeps [.now, .dict, .fabric, .link] s (exec (.measuringComplete t link) s) :=
  .next (by decide) <| .ite (.after keepsBut_initStage <| .after keepsBut_noteChange <|
    .after keepsBut_setLink (keepsBut_atTime t s)) (keepsBut_atTime t s)

end

/-! ### Press slices, casing and keys (chapter 15) -/

theorem nextKeeps_cvuDmaComplete {u status done : Nat} {data : List Byte} :
    NextKeeps [.now, .dict, .press] s (exec (.cvuDmaComplete t u status done data) s) :=
  .next (by decide) keepsBut_cvuDmaComplete

theorem nextKeeps_keyZeroed {jb : Nat} : NextKeeps [.now, .dict, .jobs, .press] s (exec (.keyZeroed t jb) s) :=
  .ite (.next (by decide) (keepsBut_atTime t s)) <| .next (by decide) <| .after keepsBut_endKey (keepsBut_atTime t s)

theorem nextKeeps_openObject {half : Nat} {obj : List Byte} :
    NextKeeps [.now, .out, .dict, .press] s (exec (.openObject t half obj) s) := by
  change NextKeeps _ s (execOpenObject t half obj s)
  dsimp only [execOpenObject]
  split
  next hopen => exact .next (by decide) <| .after (keepsBut_emit _ _) <| .after (keepsBut_openObject.fst hopen) (keepsBut_atTime t s)
  next hfailed =>
    have hkeeps := (keepsBut_atTime t s).trans (keepsBut_openObject.fst hfailed)
    exact .next (by decide) <| .ite hkeeps <| .after (keepsBut_emit _ _) hkeeps

theorem nextKeeps_caseObject {j stride half : Nat} {raw : List Byte} :
    NextKeeps [.now, .out, .free, .dict, .press] s (exec (.caseObject t j stride half raw) s) := by
  change NextKeeps _ s (execCaseObject t j stride half raw s)
  dsimp only [execCaseObject]
  split
  next hcased => exact .next (by decide) <| .after (keepsBut_emit _ _) <| .after (keepsBut_caseObject.fst hcased) (keepsBut_atTime t s)
  next hrefused => exact .next (by decide) <| .after (keepsBut_caseObject.fst hrefused) (keepsBut_atTime t s)

/-! ### Local errors (chapter 17) -/

theorem nextKeeps_ceHourRollover : NextKeeps [.now, .err] s (exec (.ceHourRollover t) s) :=
  .next (by decide) <| .after keepsBut_err (keepsBut_atTime t s)

section
variable {unit : Nat}

theorem nextKeeps_handlingEnd : NextKeeps [.now, .err] s (exec (.handlingEnd t unit) s) :=
  .next (by decide) <| .after keepsBut_endHandling (keepsBut_atTime t s)

theorem nextKeeps_handlingLimitExpiry : NextKeeps [.now, .err] s (exec (.handlingLimitExpiry t unit) s) :=
  .next (by decide) <| .ite (.after keepsBut_endHandling (keepsBut_atTime t s)) (keepsBut_atTime t s)

/-- The end of a self-test reports its result; besides, a unit that stays fenced changes `l`. -/
theorem nextKeeps_reinstateSelfTestDone {ok : Bool} {checker : Nat} {l : List Part} (hstay : ∀ u, KeepsBut l u (stayFenced u unit)) :
    NextKeeps ([.now, .out, .dict, .err] ++ l) s (exec (.reinstateSelfTestDone t unit ok checker) s) := by
  have hreported {e : ErrorState} {f : UnitState → UnitState} {cause detail result : Nat} : KeepsBut [.now, .out, .dict, .err] s
      (setF (logErr (modUnit { (atTime t s) with err := e } unit f) cause unit 1 none detail 0) 0x6021 0x02 result) :=
    .mono (by decide) <| .after keepsBut_setF <| .after keepsBut_logErr <| .after keepsBut_modUnit <|
      .after keepsBut_err (keepsBut_atTime t s)
  change NextKeeps _ s (execReinstateSelfTestDone t unit ok checker s)
  dsimp only [execReinstateSelfTestDone]
  split
  · exact .next (by simp) (keepsBut_atTime t s)
  · exact .ite (.next (List.subset_append_left _ l) hreported) (.next (List.Subset.refl _) (.after (hstay _) hreported))

theorem nextKeeps_reinstateSelfTestDone_workParts {ok : Bool} {checker : Nat} :
    NextKeeps workParts s (exec (.reinstateSelfTestDone t unit ok checker) s) :=
  (nextKeeps_reinstateSelfTestDone fun _ => keepsBut_stayFenced).mono (by decide)

theorem nextKeeps_reinstateSelfTestDone_notLink {ok : Bool} {checker : Nat} (hkind : unit / 4096 ≠ 3) :
    NextKeeps [.now, .out, .dict, .fabric, .err, .link] s (exec (.reinstateSelfTestDone t unit ok checker) s) := by
  have hstay (u : State) : KeepsBut [] u (stayFenced u unit) := by
    rw [stayFenced, if_neg hkind]
    exact .refl
  exact (nextKeeps_reinstateSelfTestDone hstay).mono (by decide)

end

/-! ### Plithen frames and tip-in images (chapters 4 and 19) -/

theorem nextKeeps_frameDiscard {dest ethertype : Nat} {payload : List Byte} :
    NextKeeps [.now, .dict] s (exec (.frameDiscard t dest ethertype payload) s) :=
  .next (by decide) <| .ite (keepsBut_atTime t s) <| .ite (.after keepsBut_discardFrame (keepsBut_atTime t s)) (keepsBut_atTime t s)

theorem nextKeeps_announceTimer : NextKeeps [.now, .out, .free] s (exec (.announceTimer t) s) :=
  .ite (.next (by decide) (keepsBut_atTime t s)) <| .next (by decide) <| .after keepsBut_sendPdu <|
    .after keepsBut_draw (keepsBut_atTime t s)

theorem nextKeeps_tipinLoadDone {ss : Nat} {image : ImageInfo} : NextKeeps [.now, .dict] s (exec (.tipinLoadDone t ss image) s) := by
  have hcode {code : Nat} : NextKeeps [.now, .dict] s (.next (setF (atTime t s) 0x2826 ss code)) :=
    .next (by decide) <| .after keepsBut_setF (keepsBut_atTime t s)
  exact .ite (.next (by decide) (keepsBut_atTime t s)) <| .ite hcode <| .ite hcode <| .ite hcode <| .ite hcode <| .next (by decide) <|
    .after keepsBut_setF <| .after keepsBut_setF (keepsBut_atTime t s)

/-! ### Power, clocks and boot (chapters 20 and 21) -/

theorem nextKeeps_ijtagAccess {instrument : Nat} : NextKeeps [.now, .out] s (exec (.ijtagAccess t instrument) s) :=
  .next (by decide) <| .after (keepsBut_emit _ _) (keepsBut_atTime t s)

theorem nextKeeps_localTimeCorrection {left : List Int} : NextKeeps [.now, .power] s (exec (.localTimeCorrection t left) s) :=
  .ite (.next (by decide) (keepsBut_atTime t s)) <| .next (by decide) <| .after keepsBut_power (keepsBut_atTime t s)

theorem nextKeeps_stackTrainingComplete {large : Bool} : NextKeeps [.now, .dict, .power] s (exec (.stackTrainingComplete t large) s) :=
  .ite (.next (by decide) (keepsBut_atTime t s)) <| .next (by decide) <| .after keepsBut_initStage <| .after keepsBut_power <|
    .after keepsBut_setF <| .after keepsBut_setF <| .after keepsBut_setF (keepsBut_atTime t s)

theorem nextKeeps_vrhotAssert {east : Bool} : NextKeeps [.now, .dict, .power] s (exec (.vrhotAssert t east) s) :=
  .ite (.next (by decide) (keepsBut_atTime t s)) <| .next (by decide) <| .after keepsBut_showCauses <|
    .after keepsBut_vrhotOn (keepsBut_atTime t s)

theorem nextKeeps_vrhotEnd {east : Bool} : NextKeeps [.now, .dict, .power] s (exec (.vrhotEnd t east) s) :=
  .next (by decide) <| .after keepsBut_showCauses <| .after keepsBut_modHalf (keepsBut_atTime t s)

theorem nextKeeps_powerLimitCheck : NextKeeps [.now, .free, .dict, .power] s (exec (.powerLimitCheck t) s) :=
  .ite (.next (by decide) (keepsBut_atTime t s)) <| .ite
    (.next (by decide) <| .after keepsBut_showCauses <| .after keepsBut_power <| .after keepsBut_lowerK <|
      .after keepsBut_setF (keepsBut_atTime t s))
    (.next (by decide) <| .after keepsBut_showCauses <| .after (.ite (.after keepsBut_draw keepsBut_setK) .refl) <|
      .after keepsBut_startRise <| .after keepsBut_startRise <| .after keepsBut_power <| .after keepsBut_setF (keepsBut_atTime t s))

theorem nextKeeps_pfailRelease : NextKeeps [.now, .out, .power] s (exec (.pfailRelease t) s) :=
  .next (by decide) <| .after keepsBut_leavePath <| .after keepsBut_power (keepsBut_atTime t s)

theorem nextKeeps_updateComplete {image : BootImage} {readBack : Bool} :
    NextKeeps [.now, .dict, .boot] s (exec (.updateComplete t image readBack) s) := by
  change NextKeeps _ s (execUpdateComplete t image readBack s)
  dsimp only [execUpdateComplete]
  split
  · exact .next (by decide) (keepsBut_atTime t s)
  · exact .ite (.next (by decide) <| .after keepsBut_setF <| .after keepsBut_boot (keepsBut_atTime t s))
      (.next (by decide) <| .after keepsBut_setF <| .after keepsBut_boot <| .after keepsBut_boot (keepsBut_atTime t s))

theorem nextKeeps_memoryFillComplete : NextKeeps [.now, .mem, .dict, .sig, .cw, .power] s (exec (.memoryFillComplete t) s) :=
  .ite (.next (by decide) (keepsBut_atTime t s)) <| .next (by decide) <| .after keepsBut_initStage <| .after keepsBut_loadReserved <|
    .after keepsBut_mem_sig_cw_power (keepsBut_atTime t s)

theorem nextKeeps_imagesVerified {found : List (Nat × BootImage)} :
    NextKeeps [.now, .dict, .link, .power, .boot] s (exec (.imagesVerified t found) s) :=
  .ite (.next (by decide) (keepsBut_atTime t s)) <| .next (by decide) <| .after keepsBut_verifyImages (keepsBut_atTime t s)

theorem nextKeeps_pcieL0Reached {rate width : Nat} {flit : Bool} {unmasked : List Nat} :
    NextKeeps [.now, .dict, .jobs, .starts, .boot] s (exec (.pcieL0Reached t rate width flit unmasked) s) :=
  .ite (.next (by decide) (keepsBut_atTime t s)) <| .next (by decide) <| .after (.foldl fun _ _ => keepsBut_portRestart) <|
    .after keepsBut_setF <| .after keepsBut_boot (keepsBut_atTime t s)

end

/-! ### The commands together -/

theorem NextKeeps.power_boot {s u : State} {o : Outcome State Fault Refusal} (h : NextKeeps workParts s o) (ho : o = .next u) :
    u.power = s.power ∧ u.boot = s.boot :=
  ⟨h u ho .power (by decide), h u ho .boot (by decide)⟩

/-- Settles O59: each command by the frames of the operations it is made of. -/
theorem unitCommandFrames : Obligations.UnitCommandFrames := by
  unfold Obligations.UnitCommandFrames
  exact ⟨
    fun _ _ _ => nextKeeps_advert,
    fun _ _ _ => nextKeeps_grant,
    fun _ _ => nextKeeps_advertTimer,
    fun _ _ => nextKeeps_lenderListPoll,
    fun _ _ _ _ => nextKeeps_lpddr6RefreshRateRead,
    fun _ _ _ => nextKeeps_lpddr6Retrain,
    fun _ _ _ => nextKeeps_flashTempSample,
    fun _ _ _ _ _ s' heffort => nextKeeps_flashRead_readable heffort s',
    fun _ _ _ _ _ _ => nextKeeps_flashRead.power_boot,
    fun _ _ _ _ _ _ => nextKeeps_reinstateSelfTestDone_workParts.power_boot,
    fun _ _ _ _ _ => nextKeeps_flashWrite,
    fun _ _ _ => nextKeeps_release,
    fun _ _ _ => nextKeeps_revokeTimeout,
    fun _ _ _ => nextKeeps_creditTimer,
    fun _ _ _ => nextKeeps_idleTimer,
    fun _ _ _ => nextKeeps_linkProbeTimer,
    fun _ _ => nextKeeps_pulseTimer,
    fun _ _ _ => nextKeeps_lightDetected,
    fun _ _ _ => nextKeeps_trainingComplete,
    fun _ _ _ => nextKeeps_testingComplete,
    fun _ _ _ => nextKeeps_holdoffExpiry,
    fun _ _ _ _ => nextKeeps_laserSourceReady,
    fun _ _ _ _ => nextKeeps_linkProbe,
    fun _ _ _ => nextKeeps_lossOfLock,
    fun _ _ _ _ => nextKeeps_echo,
    fun _ _ _ => nextKeeps_measuringComplete,
    fun _ _ _ _ _ _ => nextKeeps_cvuDmaComplete,
    fun _ _ _ => nextKeeps_keyZeroed,
    fun _ _ _ _ => nextKeeps_openObject,
    fun _ _ _ _ _ _ => nextKeeps_caseObject,
    fun _ _ => nextKeeps_ceHourRollover,
    fun _ _ _ => nextKeeps_handlingEnd,
    fun _ _ _ => nextKeeps_handlingLimitExpiry,
    fun _ _ _ _ _ s' hkind => nextKeeps_reinstateSelfTestDone_notLink hkind s',
    fun _ _ _ _ _ => nextKeeps_frameDiscard,
    fun _ _ => nextKeeps_announceTimer,
    fun _ _ _ _ => nextKeeps_tipinLoadDone,
    fun _ _ _ => nextKeeps_ijtagAccess,
    fun _ _ _ => nextKeeps_localTimeCorrection,
    fun _ _ _ => nextKeeps_stackTrainingComplete,
    fun _ _ _ => nextKeeps_vrhotAssert,
    fun _ _ _ => nextKeeps_vrhotEnd,
    fun _ _ => nextKeeps_powerLimitCheck,
    fun _ _ => nextKeeps_pfailRelease,
    fun _ _ _ _ => nextKeeps_updateComplete,
    fun _ _ => nextKeeps_memoryFillComplete,
    fun _ _ _ => nextKeeps_imagesVerified,
    fun _ _ _ _ _ _ => nextKeeps_pcieL0Reached⟩

end Sys2Proof.Machine
end

section
/-! PROOFS. The statements of chapter 11: the flash tier. -/

namespace Sys2Proof.Machine

open Host

/-! ### What a read of the flash window answers (R245, R250) -/

/-- The map has been rebuilt, and the page lies in the logical space: the window answers a read of it. -/
structure FlashServed (s : State) (page : Nat) : Prop where
  rebuilt : 2 ≤ flashState s
  inside : page < flashPages s

/-- The map names a sector of the page, and no discard that comes first takes it away. -/
structure FlashHeld (t : Nat) (s : State) (page : Nat) : Prop where
  mapped : (tget FlashMapEntry.zero s.flash.map page).mapped = true
  stays : discardQueued (atTime t s) t page = false

section
variable {t id page effort : Nat} {s : State}

theorem FlashServed.not_refused (h : FlashServed s page) : ¬(flashState s = 0 ∨ flashState s = 1 ∨ flashPages s ≤ page) := by
  obtain ⟨hrebuilt, hinside⟩ := h
  omega

theorem FlashHeld.not_zeros (h : FlashHeld t s page) :
    ¬((tget FlashMapEntry.zero s.flash.map page).mapped = false ∨ discardQueued (atTime t s) t page = true) := by
  simp [h.mapped, h.stays]

theorem exec_flashRead_zeros (hserved : FlashServed s page)
    (hzeros : (tget FlashMapEntry.zero s.flash.map page).mapped = false ∨ discardQueued (atTime t s) t page = true) :
    exec (.flashRead t id page effort) s = .next (emit (atTime t s) (.flashData id 0 (List.replicate 4096 0))) :=
  congrArg Outcome.next <| (if_neg hserved.not_refused).trans (if_pos hzeros)

theorem exec_flashRead_poisoned (hserved : FlashServed s page) (hheld : FlashHeld t s page)
    (hpoison : (tget FlashMapEntry.zero s.flash.map page).poisoned = true) :
    exec (.flashRead t id page effort) s = .next (emit (atTime t s) (.flashData id 1 [])) :=
  congrArg Outcome.next <| (if_neg hserved.not_refused).trans <| (if_neg hheld.not_zeros).trans (if_pos hpoison)

/-- A held page that is not poisoned is answered by the effort that its codewords take. -/
theorem exec_flashRead_decoded (hserved : FlashServed s page) (hheld : FlashHeld t s page)
    (hsound : (tget FlashMapEntry.zero s.flash.map page).poisoned = false) : let b := atTime t s
    exec (.flashRead t id page effort) s = .next (
      if flashEffort effort = 0 then emit b (.flashData id 0 (flashPageData s.flash page))
      else if flashEffort effort = 1 then emit (flashRetried b page) (.flashData id 0 (flashPageData s.flash page))
      else emit (flashFault b page 0) (.flashData id 1 [])) :=
  congrArg Outcome.next <| (if_neg hserved.not_refused).trans <| (if_neg hheld.not_zeros).trans (if_neg (ne_true_of_eq_false hsound))

end

/-! ### What a read of the flash window leaves (R250, R257, R370) -/

@[simp] theorem unitOf_incF (s : State) (idx k u : Nat) : unitOf (incF s idx k) u = unitOf s u := rfl

@[simp] theorem unitOf_addrLog (s : State) (mem addr u : Nat) (unc : Bool) : unitOf (addrLog s mem addr unc) u = unitOf s u := by
  dsimp only [addrLog]
  split
  · rfl
  · split <;> rfl

@[simp] theorem unitOf_memError (s : State) (mem addr u : Nat) (corr : Bool) : unitOf (memError s mem addr corr) u = unitOf s u := by
  cases corr <;> exact unitOf_addrLog ..

/-- The first error of a unit whose slot is IDLE goes no further than the error log: it fences nothing (R370). -/
theorem keepsBut_uncorrectableBy_idle {s : State} {u cause plane : Nat} {jb : Option Nat} {detail addr master : Nat}
    (hidle : (unitOf s u).slot = .idle) : KeepsBut [.out, .dict, .err] s (uncorrectableBy s u cause plane jb detail addr master) := by
  have hslot : ¬((unitOf s u).slot ≠ .idle ∧ handlingOver s u = true) := fun h => h.1 hidle
  simp only [uncorrectableBy, if_neg hslot]
  simp only [hidle]
  exact .mono (by decide) <| .ite keepsBut_logEntry <| .ite (.after keepsBut_failSelfTest (.ite .refl keepsBut_modUnit))
    (.after keepsBut_logEntry <| .after keepsBut_modUnit <| .after keepsBut_failSelfTest (.ite .refl keepsBut_modUnit))

@[simp] theorem modFlashHealth_map (x : FlashState) (ch : Nat) (f : FlashHealth → FlashHealth) : (modFlashHealth x ch f).map = x.map := rfl

@[simp] theorem modFlashHealth_sectors (x : FlashState) (ch : Nat) (f : FlashHealth → FlashHealth) :
    (modFlashHealth x ch f).sectors = x.sectors := rfl

/-- The data of the flash tier are as they were, and what else differs is the time, the answers and the record of errors. -/
structure FlashDataKept (s u : State) : Prop where
  map : u.flash.map = s.flash.map
  sectors : u.flash.sectors = s.flash.sectors
  frame : KeepsBut [.now, .out, .flash, .dict, .err] s u

section
variable {t page ch : Nat} {f : FlashHealth → FlashHealth} {o : Out} {s u v : State}

theorem FlashDataKept.ite {c : Prop} [Decidable c] (hu : c → FlashDataKept s u) (hv : ¬c → FlashDataKept s v) :
    FlashDataKept s (if c then u else v) := by
  split
  next h => exact hu h
  next h => exact hv h

theorem flashDataKept_answered : FlashDataKept s (emit (atTime t s) o) :=
  ⟨rfl, rfl, .mono (by decide) <| .after (keepsBut_emit _ _) (keepsBut_atTime t s)⟩

/-- A health record holds no data, so an error that is counted in one and then goes no further than the error log keeps the data. -/
theorem FlashDataKept.of_health (h : KeepsBut [.out, .dict, .err] { atTime t s with flash := modFlashHealth s.flash ch f } u) :
    FlashDataKept s u := by
  have hflash : u.flash = modFlashHealth s.flash ch f := h .flash (by decide)
  exact ⟨by rw [hflash, modFlashHealth_map], by rw [hflash, modFlashHealth_sectors],
    .mono (by decide) <| .after h <| .after keepsBut_flash (keepsBut_atTime t s)⟩

theorem flashDataKept_retried : FlashDataKept s (emit (flashRetried (atTime t s) page) o) :=
  .of_health <| .mono (by decide) <| .after (keepsBut_emit _ _) <|
    .after (keepsBut_correctable_unfenced (by unfold unitFlash; omega)) keepsBut_memError

theorem flashDataKept_fault {cls : Nat} (hidle : (unitOf s (unitFlash (flashChannel s.flash page))).slot = .idle) :
    FlashDataKept s (emit (flashFault (atTime t s) page cls) o) :=
  .of_health <| .mono (by decide) <| .after (keepsBut_emit _ _) <|
    .after (keepsBut_uncorrectableBy_idle ((congrArg UnitState.slot (unitOf_memError ..)).trans hidle)) keepsBut_memError

end

theorem flashEffort_eq_two {effort : Nat} (hclean : flashEffort effort ≠ 0) (hretried : flashEffort effort ≠ 1) : flashEffort effort = 2 := by
  unfold flashEffort at *
  omega

theorem exec_flashRead_keepsData {t id page effort : Nat} {s : State}
    (hfirst : flashEffort effort ≠ 2 ∨ (unitOf s (unitFlash (flashChannel s.flash page))).slot = .idle) :
    Gives (exec (.flashRead t id page effort) s) (FlashDataKept s) :=
  ⟨_, rfl, .ite (fun _ => flashDataKept_answered) fun _ => .ite (fun _ => flashDataKept_answered) fun _ =>
    .ite (fun _ => flashDataKept_answered) fun _ => .ite (fun _ => flashDataKept_answered) fun hclean =>
    .ite (fun _ => flashDataKept_retried) fun hretried =>
    flashDataKept_fault (hfirst.resolve_left (not_not_intro (flashEffort_eq_two hclean hretried)))⟩

/-- Settles O36: by what the map holds of the page and how its codewords decode; what a read leaves follows from the effects alone. -/
theorem flashReadResults : Obligations.FlashReadResults := by
  intro t id page effort s hrebuilt hinside
  have hserved : FlashServed s page := ⟨hrebuilt, hinside⟩
  refine ⟨?zeros, ?poisoned, ?clean, ?retried, ?fault, ?kept⟩
  case zeros => exact fun hzeros => ⟨_, exec_flashRead_zeros hserved hzeros, rfl, keepsBut_flashAnswered⟩
  case poisoned =>
    exact fun hmapped hstays hpoison => ⟨_, exec_flashRead_poisoned hserved ⟨hmapped, hstays⟩ hpoison, rfl, keepsBut_flashAnswered⟩
  case clean =>
    intro hmapped hstays hsound heffort
    have hread := exec_flashRead_decoded (id := id) (effort := effort) hserved ⟨hmapped, hstays⟩ hsound
    exact ⟨_, hread.trans (by rw [if_pos heffort]), rfl, keepsBut_flashAnswered⟩
  case retried =>
    intro hmapped hstays hsound heffort
    rw [exec_flashRead_decoded hserved ⟨hmapped, hstays⟩ hsound, if_neg (by simp [heffort]), if_pos heffort]
  case fault =>
    intro hmapped hstays hsound heffort
    rw [exec_flashRead_decoded hserved ⟨hmapped, hstays⟩ hsound, if_neg (by simp [heffort]), if_neg (by simp [heffort])]
  case kept =>
    intro hfirst
    obtain ⟨u, hu, hmap, hsectors, hframe⟩ := exec_flashRead_keepsData (id := id) hfirst
    exact ⟨u, hu, hmap, hsectors, hframe⟩

/-! ### Writes (R249, R258) -/

/-- The commands that move data of the tier end by seeing to the bookmarks on their way (R256). -/
theorem next_bookPumps {u v : State} (h : u = v) : (.next (bookPumps u) : Outcome State Fault Refusal) = .next (bookPumps v) := by
  rw [h]

section
variable {t id page ch : Nat} {data : List Byte} {s : State}

theorem exec_flashWrite_taken (htakes : flashTakes (atTime t s) = true) (hinside : page < flashPages (atTime t s)) : let b := atTime t s
    exec (.flashWrite t id page data) s = .next (bookPumps (queueWrite b (newWrite b (.user id) page data))) := by
  have htaken : ¬(flashTakes (atTime t s) = false ∨ flashPages (atTime t s) ≤ page) := by simp [htakes, hinside]
  exact next_bookPumps (if_neg htaken)

theorem exec_flashWrite_refused (hrefused : flashTakes (atTime t s) = false ∨ flashPages (atTime t s) ≤ page) :
    exec (.flashWrite t id page data) s = .next (bookPumps (emit (atTime t s) (.flashAck id false))) :=
  next_bookPumps (if_pos hrefused)

theorem exec_flashProgramComplete_programmed {w : FlashWrite} (hnext : nextProgram (atTime t s).flash ch = some w) :
    let u := programWrite (atTime t s) w
    exec (.flashProgramComplete t ch true) s = .next (bookPumps (flashStateUpdate (showDirty (flashPump u.flash.waiting.length u)))) := by
  show execFlashProgramComplete t ch true s = _
  simp only [execFlashProgramComplete, flashProgramComplete, hnext, if_pos]

/-! ### Reclaim and erase (R252, R253) -/

/-- Channel `ch` reclaims until its free units have reached the high mark (R252). -/
def reclaimRunning (b : State) (ch : Nat) : State :=
  { b with flash := { b.flash with reclaiming := if b.flash.reclaiming.contains ch then b.flash.reclaiming else ch :: b.flash.reclaiming } }

theorem exec_flashReclaim_chosen {k : Nat} {read : ReclaimRead}
    (hstate : flashState (atTime t s) = 2 ∨ flashState (atTime t s) = 3 ∨ flashState (atTime t s) = 4)
    (hwanted : reclaimWanted (atTime t s) ch = true) (hopen : (atTime t s).flash.flushing = false)
    (hchosen : chooseReclaim (reclaimRunning (atTime t s) ch) ch = some k) : let r := reclaimRunning (atTime t s) ch
    let u := (unitPages r.flash ch k).foldl (reclaimPage ch read) r
    exec (.flashReclaim t ch read) s = .next (bookPumps (if unitPages u.flash ch k ≠ [] then u
      else { u with flash := setFlashUnit u.flash ch k { flashUnit u.flash ch k with use := .erasing } })) := by
  refine next_bookPumps ((if_pos ⟨hstate, hwanted, hopen⟩).trans ?_)
  unfold reclaimRunning at hchosen
  simp only [hchosen]
  rfl

theorem exec_flashEraseComplete_erased {k : Nat} (herasing : (flashUnit (atTime t s).flash ch k).use = .erasing) : let b := atTime t s
    let e := flashUnit b.flash ch k
    let u := incF { b with flash := setFlashUnit b.flash ch k { e with use := .free, erases := e.erases + 1, valid := 0, next := 0 } } 0x7011 ch
    exec (.flashEraseComplete t ch k true) s = .next (bookPumps (showDirty (flashPump u.flash.waiting.length (flashStateUpdate u)))) :=
  next_bookPumps ((if_pos herasing).trans (if_pos rfl))

theorem exec_flashEraseComplete_failed {k : Nat} (herasing : (flashUnit (atTime t s).flash ch k).use = .erasing) : let b := atTime t s
    let f := modFlashHealth b.flash ch (fun h => { h with eraseFails := min 65535 (h.eraseFails + 1) })
    exec (.flashEraseComplete t ch k false) s = .next (bookPumps (retireUnit { b with flash := f } ch k)) :=
  next_bookPumps ((if_pos herasing).trans (if_neg Bool.false_ne_true))

/-! ### Temperatures and the rebuild (R257, R260) -/

theorem exec_flashTempSample_rebuilt {temps : List Int} (hrebuilt : 2 ≤ flashState s) :
    exec (.flashTempSample t temps) s = .next (checkpoint { (atTime t s) with
      flash := (s.flash.channels.zip temps).foldl (fun f e => modFlashHealth f e.1 (sampleHealth e.2)) s.flash }) := by
  have hstate : ¬(flashState s = 0 ∨ flashState s = 1) := by omega
  exact congrArg Outcome.next (if_neg hstate)

/-- The journal and the flush reserve are replayed, full units closed, health records restored and the maps stored (R260). -/
def flashRebuilt (b : State) : State :=
  let f : State := { b with flash := replayFlush b.flash }
  let o := f.flash.units.filter (fun e => decide (e.2.use = .opened))
  let r := setF (o.foldl (fun u e => closeUnit u (e.1 / 2 ^ 24) (e.1 % 2 ^ 24)) f) 0x7000 0x01 2
  storeMap { r with flash := { r.flash with health := r.flash.healthSaved } } (r.flash.map.map (fun e => e.1))

theorem exec_flashRebuildComplete_flushed {d : Nat} (hrebuilding : flashState (atTime t s) = 1)
    (hflush : (flashRebuilt (atTime t s)).flash.lastFlush = some d) : exec (.flashRebuildComplete t) s =
      .next (initStage 10 (flashStateUpdate (setF (flashRebuilt (atTime t s)) 0x7020 0x04 (2 ^ 31 + min d (2 ^ 24 - 1))))) := by
  refine congrArg Outcome.next ((if_pos hrebuilding).trans ?_)
  unfold flashRebuilt at hflush
  simp only [hflush]
  rfl

end

/-- Settles O35: each command past its guards, with the choices of its match as the hypotheses name them. -/
theorem flashCommandsComplete : Obligations.FlashCommandsComplete := by
  refine ⟨?write, ?refused, ?program, ?reclaim, ?erase, ?sample, ?rebuild⟩
  case write => exact fun _ _ _ _ _ htakes hinside => exec_flashWrite_taken htakes hinside
  case refused => exact fun _ _ _ _ _ hrefused => exec_flashWrite_refused hrefused
  case program => exact fun _ _ _ _ hnext => exec_flashProgramComplete_programmed hnext
  case reclaim =>
    intro t ch k read s b r hstate hwanted hopen hchosen u
    have hreclaim := exec_flashReclaim_chosen (read := read) hstate hwanted hopen hchosen
    exact ⟨fun hempty => hreclaim.trans (next_bookPumps (if_neg (not_not_intro hempty))),
      fun hleft => hreclaim.trans (next_bookPumps (if_pos hleft))⟩
  case erase => exact fun _ _ _ _ herasing => ⟨exec_flashEraseComplete_erased herasing, exec_flashEraseComplete_failed herasing⟩
  case sample => exact fun _ _ _ hrebuilt => exec_flashTempSample_rebuilt hrebuilt
  case rebuild => exact fun _ _ _ hrebuilding hflush => exec_flashRebuildComplete_flushed hrebuilding hflush

end Sys2Proof.Machine
end

section
/-! PROOFS. The statements of chapter 12: the fabric. -/

namespace Sys2Proof.Machine

open Host

section
variable {b : State} {h : BitVec 256} {type : Nat} {payload : List Byte} {read : TargetRead} {back : List (Nat × List Byte)} {o : Outstanding}

/-! ### Transactions of another endpoint (R271, R276, R297) -/

theorem refuseUnknown_foreign (hforeign : hDest h ≠ ownEndpoint b) : refuseUnknown b h = b := if_pos (Or.inr hforeign)

theorem memoryRequest_foreign (hforeign : hDest h ≠ ownEndpoint b) : memoryRequest type b h payload read back = b :=
  (if_pos (Or.inr hforeign)).trans (refuseUnknown_foreign hforeign)

theorem takeResponse_foreign (hforeign : hDest h ≠ ownEndpoint b) : takeResponse b h type payload = b := if_pos (Or.inr hforeign)

/-! ### Requests served at their home (R271, R273) -/

/-- A transaction of type `type` has come to its home from a live source. -/
structure AtHome (b : State) (h : BitVec 256) (type : Nat) : Prop where
  type : hType h = type
  dest : hDest h = ownEndpoint b
  live : deadSource b (hSource h) = false

theorem AtHome.not_elsewhere (hhome : AtHome b h type) : ¬(hType h ≠ type ∨ hDest h ≠ ownEndpoint b) :=
  not_or.mpr ⟨not_not.mpr hhome.type, not_not.mpr hhome.dest⟩

/-- A request below the management window goes through the checks of R273. -/
theorem memoryRequest_device (hhome : AtHome b h type) (hdevice : hOffset h < 0xFF0000000000) :
    memoryRequest type b h payload read back = serveRequest b h payload read back :=
  (if_neg hhome.not_elsewhere).trans <| (if_neg (ne_true_of_eq_false hhome.live)).trans (if_neg hdevice.not_ge)

/-! ### Answers (R276, R274) -/

theorem takeResponse_answering (hanswering : Answering b h type o) : takeResponse b h type payload =
    let u := completeTx b o (hStatus h) (if hStatus h = 0 then payload else []) (some (hSource h))
    if hType o.header = 8 then thawAcked u o.master (hSource h) else u := by
  obtain ⟨htype, hdest, hlive, hanswers⟩ := hanswering
  refine (if_neg (AtHome.not_elsewhere ⟨htype, hdest, hlive⟩)).trans <| (if_neg (ne_true_of_eq_false hlive)).trans ?_
  simp only [hanswers, decide_eq_true_eq]

/-- An answer to a transaction other than a THAW completes it, and does nothing else. -/
theorem takeResponse_completes (hanswering : Answering b h type o) (hother : hType o.header ≠ 8) : takeResponse b h type payload =
    completeTx b o (hStatus h) (if hStatus h = 0 then payload else []) (some (hSource h)) :=
  (takeResponse_answering hanswering).trans (if_neg hother)

/-- An answer of status 0 completes its transaction with the payload that it brings. -/
theorem takeResponse_succeeds (hanswering : Answering b h type o) (hstatus : hStatus h = 0) (hother : hType o.header ≠ 8) :
    takeResponse b h type payload = completeTx b o 0 payload (some (hSource h)) := by
  rw [takeResponse_completes hanswering hother, hstatus, if_pos rfl]

/-- The acknowledgement of a THAW also counts towards the release of its master. -/
theorem takeResponse_thawed (hanswering : Answering b h type o) (hstatus : hStatus h = 0) (hthaw : hType o.header = 8) :
    takeResponse b h type [] = thawAcked (completeTx b o 0 [] (some (hSource h))) o.master (hSource h) := by
  rw [takeResponse_answering hanswering, if_pos hthaw, hstatus, if_pos rfl]

/-- An answer of another status completes its transaction without a payload. -/
theorem takeResponse_fails (hanswering : Answering b h type o) (hstatus : hStatus h ≠ 0) (hother : hType o.header ≠ 8) :
    takeResponse b h type payload = completeTx b o (hStatus h) [] (some (hSource h)) := by
  rw [takeResponse_completes hanswering hother, if_neg hstatus]

end

/-! ### Outbound accesses (R267, R268, R270) -/

/-- The outbound entry of the window in which a device physical address lies. -/
def outboundAt (b : State) (addr : Nat) : OutEntry := outboundOf b ((addr - 0xD00000000000) / 0x400000000)

/-- The offset at the target of a device physical address in an outbound window. -/
def outboundOffset (e : OutEntry) (addr : Nat) : Nat := (e.offsetBase + (addr - 0xD00000000000) % 0x400000000) % 2 ^ 48

/-- The requests that an access becomes: their places in it, and their bytes. -/
def outboundPieces (op aop off len : Nat) (data : List Byte) : List (Nat × Nat) :=
  let n := if op = 1 then len else data.length
  if op = 3 then (if atomicKept aop off n then [(0, n)] else []) else msgPieces (off % 4096) n

/-- A master that is not frozen accesses an address of the outbound windows through an entry that admits it. -/
structure OutboundAdmitted (b : State) (cls index jb addr : Nat) : Prop where
  low : 0xD00000000000 ≤ addr
  high : addr < 0xE00000000000
  running : frozenOf b cls index = none
  granted : outboundRefused (outboundAt b addr) cls jb = false

section
variable {t cls index jb op aop addr len : Nat} {data : List Byte} {dst : Option Nat} {s : State}

theorem exec_outboundAccess_frozen (hfrozen : (frozenOf s cls index).isSome = true) :
    exec (.outboundAccess t cls index jb op aop addr len data dst) s = .next (atTime t s) :=
  if_pos (Or.inr (Or.inr hfrozen))

theorem exec_outboundAccess_admitted (hadmitted : OutboundAdmitted (atTime t s) cls index jb addr)
    (hdst : op = 1 → dstRefused (atTime t s) cls jb dst len = false) {pieces : List (Nat × Nat)} : let e := outboundAt (atTime t s) addr
    let off := outboundOffset e addr
    outboundPieces op aop off len data = pieces → exec (.outboundAccess t cls index jb op aop addr len data dst) s =
      .next (pieces.foldl (issuePiece e cls index jb op aop off data dst) (atTime t s)) := by
  rintro e off rfl
  obtain ⟨hlow, hhigh, hrunning, hgranted⟩ := hadmitted
  have hissues : ¬(addr < 0xD00000000000 ∨ 0xE00000000000 ≤ addr ∨ (frozenOf (atTime t s) cls index).isSome = true) := by
    simp [hlow, hhigh, hrunning]
  have hplaced : ¬(op = 1 ∧ dstRefused (atTime t s) cls jb dst len = true) := fun h => ne_true_of_eq_false (hdst h.1) h.2
  exact (if_neg hissues).trans <| (if_neg (ne_true_of_eq_false hgranted)).trans (if_neg hplaced)

theorem outboundPieces_load {off : Nat} : outboundPieces 1 aop off len data = msgPieces (off % 4096) len := rfl

theorem outboundPieces_store {off : Nat} : outboundPieces 2 aop off len data = msgPieces (off % 4096) data.length := rfl

theorem outboundPieces_atomic {off : Nat} (hkept : atomicKept aop off data.length = true) :
    outboundPieces 3 aop off len data = [(0, data.length)] := if_pos hkept

end

/-! ### Refusals, THAWs, time-outs, coherence and epochs (R274, R279, R282, R285) -/

section
variable {t tag member line d : Nat} {exclusive : Bool} {h : BitVec 256} {data payload : List Byte} {back : List (Nat × List Byte)}
  {o : Outstanding} {view : EpochView} {s : State}

/-- A REFUSE of a transaction whose master is no queue pair is an answer like the others. -/
theorem exec_refuse_transaction (hmaster : hMaster h / 2 ^ 13 ≠ 3) : exec (.refuse t h) s = .next (takeResponse (atTime t s) h 7 []) :=
  if_neg (fun hqueue => hmaster hqueue.2.1)

/-- A REFUSE that is not for this package is taken as an answer, whoever its master. -/
theorem exec_refuse_foreign (hforeign : hDest h ≠ ownEndpoint s) : exec (.refuse t h) s = .next (takeResponse (atTime t s) h 7 []) :=
  if_neg (fun hqueue => hforeign hqueue.2.2.1)

theorem exec_thaw_foreign (hforeign : hDest h ≠ ownEndpoint s) : exec (.thaw t h) s = .next (atTime t s) :=
  (if_pos (Or.inr hforeign)).trans (congrArg Outcome.next (refuseUnknown_foreign hforeign))

/-- `q` is a quarantine entry of another master than the one that a THAW names. -/
def keptByThaw (h : BitVec 256) (q : Nat × QuarantineEntry) : Bool :=
  !(decide (q.2.source = hSource h) && decide (q.2.srcJob = hSrcJob h) && decide (q.2.master = hMaster h))

/-- A THAW with every RSVD bit zero clears the quarantine of the master that it names, and is acknowledged (R274). -/
theorem exec_thaw_sound (hhome : AtHome (atTime t s) h 8) (hhigh : fld h 106 104 = 0) (hlow : fld h 63 0 = 0) : let b := atTime t s
    exec (.thaw t h) s =
      .next (respond { b with fabric := { b.fabric with quarantine := b.fabric.quarantine.filter (keptByThaw h) } } h 5 0 []) := by
  have hsound : ¬(fld h 106 104 ≠ 0 ∨ fld h 63 0 ≠ 0) := not_or.mpr ⟨not_not.mpr hhigh, not_not.mpr hlow⟩
  exact (if_neg hhome.not_elsewhere).trans <| (receipt_live hhome.live).trans (if_neg hsound)

theorem exec_transactionTimeout_late (hfind : (atTime t s).fabric.outstanding.find? (fun o => decide (o.tag = tag)) = some o)
    (hlate : o.issuedNs + getF (atTime t s) 0x4000 0x05 * 1000 ≤ (atTime t s).now) :
    exec (.transactionTimeout t tag) s = .next (emit (completeTx (atTime t s) o 0xA [] none) (.suspectPath o.dest)) := by
  show execTransactionTimeout t tag s = _
  simp only [execTransactionTimeout, hfind, if_pos hlate]

/-- A live member of the binding speaks of a line that the home has for it. -/
structure BindingCalls (b : State) (member line : Nat) : Prop where
  peer : (bindingPeers b).contains member = true
  live : b.fabric.deadEndpoints.contains member = false
  allowed : targetAllowed b (line / 64) 1 = true

theorem BindingCalls.not_ignored {b : State} (hcalls : BindingCalls b member line) : ¬((bindingPeers b).contains member = false ∨
    b.fabric.deadEndpoints.contains member = true ∨ targetAllowed b (line / 64) 1 = false) := by
  obtain ⟨hpeer, hlive, hallowed⟩ := hcalls
  simp only [hpeer, hlive, hallowed, reduceCtorEq, or_self, not_false_eq_true]

theorem exec_bindingCoherence_grant (hcalls : BindingCalls (atTime t s) member line) :
    exec (.bindingCoherence t (b2n exclusive) member line data back) s = .next (grantLine (atTime t s) member line exclusive back) := by
  refine (if_neg hcalls.not_ignored).trans ?_
  cases exclusive <;> rfl

theorem exec_bindingCoherence_return (hcalls : BindingCalls (atTime t s) member line) :
    exec (.bindingCoherence t 2 member line data back) s = .next (returnLine (atTime t s) member line data) :=
  if_neg hcalls.not_ignored

theorem exec_routeEpoch_due (hdue : epochDue (atTime t s) view = some d) (hpast : d ≤ (atTime t s).now)
    (hspeaking : speaking (atTime t s) = true) : exec (.routeEpoch t view) s = .next (openEpoch (atTime t s) view) := by
  refine (if_neg (ne_false_of_eq_true hspeaking)).trans ?_
  simp only [hdue, if_pos hpast]

end

/-- Settles O37: an access past its guards by its operation, a request by its home, an answer by the transaction that it completes. -/
theorem fabricCommandsComplete : Obligations.FabricCommandsComplete := by
  refine ⟨?access, ?load, ?store, ?atomic, ?loadResp, ?storeAck, ?atomicResp, ?refuse, ?coherence, ?timeout, ?thaw, ?epoch⟩
  case access =>
    intro t cls index jb op aop addr len data dst s b e off hlow hhigh hrunning hgranted
    have hadmitted : OutboundAdmitted b cls index jb addr := ⟨hlow, hhigh, hrunning, hgranted⟩
    refine ⟨?loads, ?stores, ?operates⟩
    case loads =>
      rintro rfl hdst
      exact exec_outboundAccess_admitted hadmitted (fun _ => hdst) outboundPieces_load
    case stores =>
      rintro rfl
      exact exec_outboundAccess_admitted hadmitted (fun h => absurd h (by decide)) outboundPieces_store
    case operates =>
      rintro rfl hkept
      exact exec_outboundAccess_admitted hadmitted (fun h => absurd h (by decide)) (outboundPieces_atomic hkept)
  case load | store => exact fun _ _ _ _ _ htype hdest hlive hdevice => congrArg Outcome.next (memoryRequest_device ⟨htype, hdest, hlive⟩ hdevice)
  case atomic => exact fun _ _ _ _ _ _ htype hdest hlive hdevice => congrArg Outcome.next (memoryRequest_device ⟨htype, hdest, hlive⟩ hdevice)
  case loadResp | atomicResp => exact fun _ _ _ _ _ hanswering hstatus hother => congrArg Outcome.next (takeResponse_succeeds hanswering hstatus hother)
  case storeAck =>
    exact fun _ _ _ _ hanswering hstatus => ⟨fun hother => congrArg Outcome.next (takeResponse_succeeds hanswering hstatus hother),
      fun hthaw => congrArg Outcome.next (takeResponse_thawed hanswering hstatus hthaw)⟩
  case refuse =>
    exact fun _ _ _ _ hanswering hstatus hother hmaster =>
      (exec_refuse_transaction hmaster).trans (congrArg Outcome.next (takeResponse_fails hanswering hstatus hother))
  case coherence =>
    intro t member line exclusive data back s b hpeer hlive hallowed
    have hcalls : BindingCalls b member line := ⟨hpeer, hlive, hallowed⟩
    exact ⟨exec_bindingCoherence_grant hcalls, exec_bindingCoherence_return hcalls⟩
  case timeout => exact fun _ _ _ _ => exec_transactionTimeout_late
  case thaw => exact fun _ _ _ htype hdest hlive => exec_thaw_sound ⟨htype, hdest, hlive⟩
  case epoch => exact fun _ _ _ _ => exec_routeEpoch_due

/-- Settles O38: requests and answers by their destination, which each command asks for first; the access by its frozen master. -/
theorem strangersIgnored : Obligations.StrangersIgnored := by
  refine ⟨?foreign, ?frozen⟩
  case foreign =>
    intro t h payload read back s b hforeign
    refine ⟨?load, ?store, ?atomic, exec_thaw_foreign hforeign, ?loadResp, ?storeAck, ?atomicResp, ?refuse⟩
    case load | store | atomic => exact congrArg Outcome.next (memoryRequest_foreign hforeign)
    case loadResp | storeAck | atomicResp => exact congrArg Outcome.next (takeResponse_foreign hforeign)
    case refuse => exact (exec_refuse_foreign hforeign).trans (congrArg Outcome.next (takeResponse_foreign hforeign))
  case frozen => exact fun _ _ _ _ _ _ _ _ _ _ _ => exec_outboundAccess_frozen

end Sys2Proof.Machine
end

section
/-! PROOFS. The statement of chapter 13: queues, keys and reliable delivery. -/

namespace Sys2Proof.Machine

open Host

/-! ### Doorbells (R295) -/

section
variable {b : State} {q cls index jb : Nat} {post : QueuePair → QueuePair} {f : State → State}

theorem ringDoorbell_barred (hbarred : mayRing b q cls jb = false) : ringDoorbell b q cls index jb post f = freezeBy b cls index jb 293 :=
  if_pos hbarred

theorem ringDoorbell_ready (hallowed : mayRing b q cls jb = true) (hready : (qp b q).mode = .ready) :
    ringDoorbell b q cls index jb post f = f (modQp b q post) := by
  rw [ringDoorbell, if_neg (ne_false_of_eq_true hallowed), hready]

theorem ringDoorbell_reset (hallowed : mayRing b q cls jb = true) (hreset : (qp b q).mode = .reset) :
    ringDoorbell b q cls index jb post f = b := by
  rw [ringDoorbell, if_neg (ne_false_of_eq_true hallowed), hreset]

/-! ### Packets for this package (R297, R299) -/

theorem takePacket_here {h : BitVec 256} {type : Nat} (hhere : packetHere b h type = true) : takePacket b h type f = f b := if_pos hhere

end

/-! ### Timers of a queue pair that sends, and of a region that drains (R299, R301, R302, R304) -/

section
variable {t q psn msn t0 due k : Nat} {p : TxPacket} {m : SendMsg} {b s : State}

/-- An acknowledgement that has waited 2 µs is sent (R301). -/
theorem exec_ackTimer_due (holdest : (qp (atTime t s) q).ackOldestNs = some t0) (hdue : t0 + 2000 ≤ (atTime t s).now)
    (hready : (qp (atTime t s) q).mode = .ready) (hrunning : (qp (atTime t s) q).frozen = false) :
    exec (.ackTimer t q) s = .next (sendAckNak (atTime t s) q none 0) := by
  show execAckTimer t q s = _
  simp only [execAckTimer, holdest]
  exact congrArg Outcome.next (if_pos ⟨hdue, hready, hrunning⟩)

/-- A packet that no ACK has covered in time is repeated, or its message fails (R302). -/
theorem exec_repeatTimeout_overdue (hfind : (qp (atTime t s) q).tx.find? (fun p => decide (p.psn = psn)) = some p)
    (hover : overdue p (getF (atTime t s) 0x4100 0x04 * 1000) (atTime t s).now = true)
    (hready : (qp (atTime t s) q).mode = .ready) (hrunning : (qp (atTime t s) q).frozen = false) :
    exec (.repeatTimeout t q psn) s = .next (repeatPacket (atTime t s) q p) := by
  show execRepeatTimeout t q psn s = _
  simp only [execRepeatTimeout, hfind]
  exact congrArg Outcome.next (if_pos ⟨hover, hready, hrunning⟩)

/-- A message whose receiver was not ready has all its packets sent again once its wait is over (R299). -/
theorem rnrRepeat_due (hfind : (qp b q).msgs.find? (fun m => decide (m.msn = msn)) = some m) (hwait : m.rnrAtNs = some due) (hdue : due ≤ b.now)
    (hready : (qp b q).mode = .ready) (hrunning : (qp b q).frozen = false) : rnrRepeat b q msn =
    let r := modMsg b q msn (fun y => { y with rnrAtNs := none, rnrTries := y.rnrTries + 1 })
    ((qp r q).tx.filter (fun p => decide (p.msn = msn))).foldl (fun u p =>
      sendTx (modQp u q (fun x => { x with tx := x.tx.map (fun y => if y = p then { p with departNs := none } else y) })) q
        { p with departNs := none }) r := by
  have hsends : ¬(b.now < due ∨ (qp b q).mode ≠ .ready ∨ (qp b q).frozen = true) := by
    simp only [hready, hrunning, hdue.not_gt, ne_eq, not_true, reduceCtorEq, or_self, not_false_eq_true]
  simp only [rnrRepeat, hfind, hwait, if_neg hsends]

/-- A region that has drained for the time of folio 0x4100.08 is revoked (R304). -/
theorem exec_revokeTimeout_late (hdraining : (regionOf (atTime t s) k).mode = .draining)
    (hlate : (regionOf (atTime t s) k).drainNs + getF (atTime t s) 0x4100 0x08 * 1000000 ≤ (atTime t s).now) :
    exec (.revokeTimeout t k) s = .next (finishRevoke (atTime t s) k) :=
  congrArg Outcome.next (if_pos ⟨hdraining, hlate⟩)

end

/-- Settles O39: doorbells by their writer and the mode of the queue pair, packets by their type and destination, timers by what they wait for. -/
theorem queueCommandsComplete : Obligations.QueueCommandsComplete := by
  refine ⟨?sendBell, ?receiveBell, ?completionBell, ?unserved, ?packets, ?ackTimer, ?repeatTimeout, ?rnrRetry, ?revokeTimeout⟩
  case sendBell | receiveBell => exact fun _ _ _ _ _ _ _ _ hallowed hready => congrArg Outcome.next (ringDoorbell_ready hallowed hready)
  case completionBell => exact fun _ _ _ _ _ _ _ hallowed hready => congrArg Outcome.next (ringDoorbell_ready hallowed hready)
  case unserved =>
    intro t q cls index jb value host s b d
    refine ⟨?barredPost, ?barredRoom, ?resetPost, ?resetRoom⟩
    case barredPost => exact fun hbarred => ⟨congrArg Outcome.next (ringDoorbell_barred hbarred), congrArg Outcome.next (ringDoorbell_barred hbarred)⟩
    case barredRoom => exact fun hbarred => congrArg Outcome.next (ringDoorbell_barred hbarred)
    case resetPost =>
      exact fun hallowed hreset =>
        ⟨congrArg Outcome.next (ringDoorbell_reset hallowed hreset), congrArg Outcome.next (ringDoorbell_reset hallowed hreset)⟩
    case resetRoom => exact fun hallowed hreset => congrArg Outcome.next (ringDoorbell_reset hallowed hreset)
  case packets =>
    intro t h g payload imm bad s b
    refine ⟨?write, ?send, ?readReq, ?readResp, ?atomicReq, ?atomicResp, ?ack, ?nak⟩
    case write | send | readReq | readResp | atomicReq | atomicResp | ack | nak => exact fun hhere => congrArg Outcome.next (takePacket_here hhere)
  case ackTimer => exact fun _ _ _ _ => exec_ackTimer_due
  case repeatTimeout => exact fun _ _ _ _ _ => exec_repeatTimeout_overdue
  case rnrRetry =>
    exact fun _ _ _ _ _ _ hfind hwait hdue hready hrunning => congrArg Outcome.next (rnrRepeat_due hfind hwait hdue hready hrunning)
  case revokeTimeout => exact fun _ _ _ => exec_revokeTimeout_late

end Sys2Proof.Machine
end

section
/-! PROOFS. The statements on the block as a whole: every command answers a next state, which keeps the queue of waiting commands and the
canonical form of memory; and what reset leaves.

Each operation of the model has one lemma here, under the heading of its file: what it makes of a state that keeps the form keeps the form.
Its proof follows the operation's own branches and cites the lemma of each operation that it calls. Only `writeByte`, `resetPackage` and
`execMemoryFillComplete` write memory, and no operation writes the queue. -/

namespace Sys2Proof.Machine

open Host

/-! ### What every operation keeps -/

/-- What every operation of the model keeps: the queue of waiting commands, and the canonical form of memory. -/
structure KeepsForm (s u : State) : Prop where
  waiting : u.pending = s.pending
  memory : s.MemOk → u.MemOk

/-- A command answers a next state, which keeps the queue and the form of memory. -/
def Runs (s : State) (o : Outcome State Fault Refusal) : Prop := Gives o (KeepsForm s)

section
variable {s u v : State} {α β : Type} {c : Prop} [Decidable c]

theorem KeepsForm.rfl : KeepsForm s s := ⟨Eq.refl _, id⟩

theorem KeepsForm.trans (h : KeepsForm s u) (hv : KeepsForm u v) : KeepsForm s v :=
  ⟨hv.waiting.trans h.waiting, fun hs => hv.memory (h.memory hs)⟩

/-- A change of any fields but the queue and memory. -/
theorem KeepsForm.fields (h :
    KeepsForm s u) {now out freeCtr dict sig cw jobs starts quires gutters handoff span tier flash fabric queue link
    press traffic err kettle power boot} :
    KeepsForm s ⟨u.pending, now, out, freeCtr, u.mem, dict, sig, cw, jobs, starts, quires, gutters, handoff, span, tier, flash, fabric,
        queue,
      link, press, traffic, err, kettle, power, boot⟩ :=
  ⟨h.waiting, h.memory⟩

theorem KeepsForm.ite {a b : State} (ha : KeepsForm s a) (hb : KeepsForm s b) : KeepsForm s (if c then a else b) := by
  split
  · exact ha
  · exact hb

theorem KeepsForm.dite {a : c → State} {b : ¬c → State} (ha : ∀ hc, KeepsForm s (a hc)) (hb : ∀ hc, KeepsForm s (b hc)) :
    KeepsForm s (if hc : c then a hc else b hc) := by
  split
  · exact ha _
  · exact hb _

theorem KeepsForm.iteFst {a b : State × β} (ha : KeepsForm s a.1) (hb : KeepsForm s b.1) : KeepsForm s (if c then a else b).1 := by
  split
  · exact ha
  · exact hb

theorem KeepsForm.iteSome {a b : State} (ha : KeepsForm s a) (hb : KeepsForm s b) (hv : (if c then some a else some b) = some v) :
    KeepsForm s v := by
  split at hv
  · cases hv
    exact ha
  · cases hv
    exact hb

theorem KeepsForm.fst {p : State × β} {b : β} (h : KeepsForm s p.1) (hp : p = (v, b)) : KeepsForm s v := by
  subst hp
  exact h

theorem KeepsForm.foldl {f : State → α → State} {l : List α} (hf : ∀ v a, KeepsForm s v → KeepsForm s (f v a)) (h : KeepsForm s u) :
    KeepsForm s (l.foldl f u) := by
  induction l generalizing u with
  | nil => exact h
  | cons a l ih => exact ih (hf _ _ h)

theorem KeepsForm.foldlFst {f : State × β → α → State × β} {l : List α} {p : State × β}
    (hf : ∀ p a, KeepsForm s p.1 → KeepsForm s (f p a).1) (h : KeepsForm s p.1) : KeepsForm s (l.foldl f p).1 := by
  induction l generalizing p with
  | nil => exact h
  | cons a l ih => exact ih (hf _ _ h)

theorem Runs.next (h : KeepsForm s u) : Runs s (.next u) := ⟨u, Eq.refl _, h⟩

theorem Runs.ite {a b : Outcome State Fault Refusal} (ha : Runs s a) (hb : Runs s b) : Runs s (if c then a else b) := by
  split
  · exact ha
  · exact hb

end

section
variable {s u : State}

/-! ### Ops -/

theorem KeepsForm.atTime {t : Nat} (h : KeepsForm s u) : KeepsForm s (Machine.atTime t u) :=
  .fields h

theorem KeepsForm.emit {o : Out} (h : KeepsForm s u) : KeepsForm s (Machine.emit u o) :=
  .fields h

theorem KeepsForm.transmit {o : Out} (h : KeepsForm s u) : KeepsForm s (Machine.transmit u o) := by
  unfold Machine.transmit
  exact .ite h <| .emit h

theorem KeepsForm.draw (h : KeepsForm s u) : KeepsForm s (Machine.draw u) :=
  .fields h

theorem KeepsForm.setF {idx sub v' : Nat} (h : KeepsForm s u) : KeepsForm s (Machine.setF u idx sub v') :=
  .fields h

theorem KeepsForm.addF {idx sub n : Nat} (h : KeepsForm s u) : KeepsForm s (Machine.addF u idx sub n) := by
  unfold Machine.addF
  exact .setF h

theorem KeepsForm.incF {idx sub : Nat} (h : KeepsForm s u) : KeepsForm s (Machine.incF u idx sub) := by
  unfold Machine.incF
  exact .addF h

theorem KeepsForm.maxF {idx sub v' : Nat} (h : KeepsForm s u) : KeepsForm s (Machine.maxF u idx sub v') := by
  unfold Machine.maxF
  exact .ite (.setF h) h

theorem KeepsForm.setBitF {idx sub b : Nat} {on : Bool} (h : KeepsForm s u) : KeepsForm s (Machine.setBitF u idx sub b on) := by
  unfold Machine.setBitF
  exact .setF h

theorem KeepsForm.journal {e : JournalEntry} (h : KeepsForm s u) : KeepsForm s (Machine.journal u e) := by
  unfold Machine.journal
  exact .ite (.incF <| .fields <| .incF h) <| .fields <| .incF h

theorem KeepsForm.devSetF {idx sub v' : Nat} (h : KeepsForm s u) : KeepsForm s (Machine.devSetF u idx sub v') := by
  unfold Machine.devSetF
  exact .journal <| .setF h

theorem KeepsForm.writeBytes {a : Nat} {l : List Byte} (h : KeepsForm s u) : KeepsForm s (Machine.writeBytes u a l) :=
  h.trans ⟨by rw [writeBytes_eq], writeBytes_wf l u a⟩

theorem KeepsForm.writeNat {a n v' : Nat} (h : KeepsForm s u) : KeepsForm s (Machine.writeNat u a n v') := by
  unfold Machine.writeNat
  exact .writeBytes h

theorem KeepsForm.doMove {m : Move} (h : KeepsForm s u) : KeepsForm s (Machine.doMove u m) := by
  unfold Machine.doMove
  exact .writeBytes h

theorem KeepsForm.setJob {j : Nat} {x : JobSt} (h : KeepsForm s u) : KeepsForm s (Machine.setJob u j x) :=
  .fields h

theorem KeepsForm.modJob {j : Nat} {f : JobSt → JobSt} (h : KeepsForm s u) : KeepsForm s (Machine.modJob u j f) := by
  unfold Machine.modJob
  exact .setJob h

theorem KeepsForm.setSeq {i : Nat} {x : Sequencer} (h : KeepsForm s u) : KeepsForm s (Machine.setSeq u i x) := by
  unfold Machine.setSeq
  exact .ite (.fields h) <| .fields h

theorem KeepsForm.modSeq {i : Nat} {f : Sequencer → Sequencer} (h : KeepsForm s u) : KeepsForm s (Machine.modSeq u i f) := by
  unfold Machine.modSeq
  exact .setSeq h

theorem KeepsForm.modGutter {c : Nat} {f : GutterUnit → GutterUnit} (h : KeepsForm s u) : KeepsForm s (Machine.modGutter u c f) :=
  .fields h

theorem KeepsForm.modUnit {u' : Nat} {f : UnitState → UnitState} (h : KeepsForm s u) : KeepsForm s (Machine.modUnit u u' f) :=
  .fields h

theorem KeepsForm.logEntry {e : ErrEntry} (h : KeepsForm s u) : KeepsForm s (Machine.logEntry u e) := by
  unfold Machine.logEntry
  exact .ite (.ite (.emit <| .incF <| .setF <| .fields h) <| .incF <| .setF <| .fields h) <| .incF h

theorem KeepsForm.logErr {cause unit plane : Nat} {jb : Option Nat} {detail addr : Nat} (h : KeepsForm s u) :
    KeepsForm s (Machine.logErr u cause unit plane jb detail addr) := by
  unfold Machine.logErr
  exact .logEntry h

theorem KeepsForm.logMaster {cause unit plane : Nat} {jb : Option Nat} {detail master : Nat} (h : KeepsForm s u) :
    KeepsForm s (Machine.logMaster u cause unit plane jb detail master) := by
  unfold Machine.logMaster
  exact .logEntry h

theorem KeepsForm.addrLog {mem addr : Nat} {uncorrectable : Bool} (h : KeepsForm s u) :
    KeepsForm s (Machine.addrLog u mem addr uncorrectable) := by
  unfold Machine.addrLog
  exact .ite (.fields h) <| .ite (.fields h) <| .incF h

theorem KeepsForm.memError {mem addr : Nat} {correctable : Bool} (h : KeepsForm s u) :
    KeepsForm s (Machine.memError u mem addr correctable) := by
  unfold Machine.memError
  exact .addrLog <| .ite (.incF h) <| .incF h

theorem KeepsForm.initStage {n : Nat} (h : KeepsForm s u) : KeepsForm s (Machine.initStage n u) := by
  unfold Machine.initStage
  exact .setBitF h

/-! ### Press -/

theorem KeepsForm.setKeySlot {j : Nat} {k : KeySlot} (h : KeepsForm s u) : KeepsForm s (Machine.setKeySlot u j k) := by
  unfold Machine.setKeySlot
  exact .setF <| .fields h

theorem KeepsForm.installKey {j : Nat} {k : BitVec 256} (h : KeepsForm s u) : KeepsForm s (Machine.installKey u j k) := by
  unfold Machine.installKey
  exact .setF <| .setKeySlot <| .draw h

theorem KeepsForm.zeroKey {j : Nat} (h : KeepsForm s u) : KeepsForm s (Machine.zeroKey u j) := by
  unfold Machine.zeroKey
  exact .setF <| .setKeySlot h

theorem KeepsForm.startZeroing {j : Nat} (h : KeepsForm s u) : KeepsForm s (Machine.startZeroing u j) := by
  unfold Machine.startZeroing
  exact .ite h <| .ite (.zeroKey h) <| .setKeySlot h

theorem KeepsForm.busyEngine {enc : Bool} {n j raw : Nat} (h : KeepsForm s u) : KeepsForm s (Machine.busyEngine u enc n j raw) :=
  .fields h

theorem KeepsForm.saltRedraw {j : Nat} (h : KeepsForm s u) : KeepsForm s (Machine.saltRedraw u j) := by
  unfold Machine.saltRedraw
  exact .incF <| .setKeySlot <| .draw h

theorem KeepsForm.caseObject {j stride half : Nat} {raw : List Byte} (h : KeepsForm s u) :
    KeepsForm s (Machine.caseObject u j stride half raw).1 := by
  dsimp only [Machine.caseObject]
  split
  · exact .iteFst h <| .addF <| .addF <| .incF <| .busyEngine <| .fields <| .ite (.saltRedraw h) h
  · exact h

theorem Runs.execCaseObject {t j stride half : Nat} {raw : List Byte} (h :
    KeepsForm s u) : Runs s (Machine.execCaseObject t j stride half raw u) := by
  dsimp only [Machine.execCaseObject]
  split
  next heq => exact .next <| .emit <| .fst (.caseObject <| .atTime h) heq
  next heq => exact .next <| .fst (.caseObject <| .atTime h) heq

theorem KeepsForm.openWith {keys : State} {j half : Nat} {obj : List Byte} (h : KeepsForm s u) :
    KeepsForm s (Machine.openWith u keys j half obj).1 := by
  unfold Machine.openWith
  split
  · exact h
  · dsimp only
    split
    · exact .busyEngine h
    · exact .incF <| .busyEngine h

theorem KeepsForm.openObject {half : Nat} {obj : List Byte} (h : KeepsForm s u) : KeepsForm s (Machine.openObject u half obj).1 := by
  unfold Machine.openObject
  exact .openWith h

theorem Runs.execOpenObject {t half : Nat} {obj : List Byte} (h : KeepsForm s u) : Runs s (Machine.execOpenObject t half obj u) := by
  dsimp only [Machine.execOpenObject]
  split
  next heq => exact .next <| .emit <| .fst (.openObject <| .atTime h) heq
  next heq =>
    have hw := KeepsForm.fst (.openObject <| .atTime h) heq
    exact .next <| .ite hw <| .emit hw

theorem KeepsForm.cvuSet {u' v' : Nat} (h : KeepsForm s u) : KeepsForm s (Machine.cvuSet u u' v') := by
  unfold Machine.cvuSet
  exact .setF h

theorem KeepsForm.cvuBytes {u' : Nat} {bs : List Byte} (h : KeepsForm s u) : KeepsForm s (Machine.cvuBytes u u' bs) := by
  unfold Machine.cvuBytes
  exact .cvuSet h

theorem KeepsForm.cvuRaise {u' b : Nat} (h : KeepsForm s u) : KeepsForm s (Machine.cvuRaise u u' b) := by
  unfold Machine.cvuRaise
  exact .setBitF <| .fields h

theorem KeepsForm.cvuRefused {u' : Nat} (h : KeepsForm s u) : KeepsForm s (Machine.cvuRefused u u') := by
  unfold Machine.cvuRefused
  exact .cvuRaise h

theorem KeepsForm.cvuStop {u' : Nat} (h : KeepsForm s u) : KeepsForm s (Machine.cvuStop u u') := by
  unfold Machine.cvuStop
  split
  · exact h
  · exact .setBitF <| .draw <| .draw <| .fields <| .ite (.cvuBytes h) <| .cvuSet h

theorem KeepsForm.cvuStartAction {u' : Nat} (h : KeepsForm s u) : KeepsForm s (Machine.cvuStartAction u' u) := by
  unfold Machine.cvuStartAction
  exact .cvuSet <| .cvuStop h

theorem KeepsForm.cvuRunAction {u' : Nat} (h : KeepsForm s u) : KeepsForm s (Machine.cvuRunAction u' u) := by
  unfold Machine.cvuRunAction
  exact .setBitF <| .fields h

theorem KeepsForm.cvuStopAction {u' : Nat} (h : KeepsForm s u) : KeepsForm s (Machine.cvuStopAction u' u) := by
  unfold Machine.cvuStopAction
  exact .cvuStop h

theorem KeepsForm.cvuFeedAction {u' v' : Nat} (h : KeepsForm s u) : KeepsForm s (Machine.cvuFeedAction u' v' u) := by
  unfold Machine.cvuFeedAction
  exact .cvuBytes h

theorem KeepsForm.cvuFeedByteAction {u' v' : Nat} (h : KeepsForm s u) : KeepsForm s (Machine.cvuFeedByteAction u' v' u) := by
  unfold Machine.cvuFeedByteAction
  exact .cvuBytes h

theorem KeepsForm.cvuDmaComplete {t u' status done : Nat} {data : List Byte} (h : KeepsForm s u) :
    KeepsForm s (Machine.cvuDmaComplete t u' status done data u) := by
  dsimp only [Machine.cvuDmaComplete]
  split
  · exact .atTime h
  · exact .ite (.setBitF <| .cvuBytes <| .fields <| .atTime h) <| .cvuRaise <| .setBitF <| .cvuBytes <| .fields <| .atTime h

theorem Runs.execCvuDmaComplete {t u' status done : Nat} {data : List Byte} (h :
    KeepsForm s u) : Runs s (Machine.execCvuDmaComplete t u' status done data u) := by
  unfold Machine.execCvuDmaComplete
  exact .next <| .cvuDmaComplete h

/-! ### Flash -/

theorem KeepsForm.takeSector {ch : Nat} {p : State × Nat} (h : KeepsForm s u) (hp : Machine.takeSector u ch = some p) :
    KeepsForm s p.1 := by
  unfold Machine.takeSector at hp
  generalize pickFreeUnit u ch = fresh at hp
  extract_lets v go at hp
  generalize (listedUnits u ch).find? _ = opened at hp
  cases opened with
  | some e =>
    obtain rfl := Option.some.inj hp
    exact .fields h
  | none =>
    cases fresh with
    | some u =>
      obtain rfl := Option.some.inj hp
      exact .fields <| .draw h
    | none => cases hp

theorem KeepsForm.storeMap {pages : List Nat} (h : KeepsForm s u) : KeepsForm s (Machine.storeMap u pages) := by
  unfold Machine.storeMap
  exact .ite h <| .foldl (fun _ _ hv => .writeBytes hv) h

theorem KeepsForm.flashAnswer {w : FlashWrite} {ok : Bool} (h : KeepsForm s u) : KeepsForm s (Machine.flashAnswer u w ok) := by
  unfold Machine.flashAnswer
  split
  · exact .emit h
  · exact .ite h <| .fields h
  · exact h
  · exact .fields h

theorem KeepsForm.flashStateUpdate (h : KeepsForm s u) : KeepsForm s (Machine.flashStateUpdate u) := by
  unfold Machine.flashStateUpdate
  exact .ite h <| .ite (.ite h <| .fields <| .foldl (fun _ _ hv => .flashAnswer hv) <| .logErr <| .setF h) <| .ite (.setF h) <| .setF h

theorem KeepsForm.discardAt {first n : Nat} (h : KeepsForm s u) : KeepsForm s (Machine.discardAt u first n) := by
  unfold Machine.discardAt
  exact .ite h <| .flashStateUpdate <| .storeMap <| .fields h

theorem KeepsForm.placeWrite {w : FlashWrite} {confirm : Bool} (h : KeepsForm s u) (hv : Machine.placeWrite u w confirm = some v) :
    KeepsForm s v := by
  dsimp only [Machine.placeWrite] at hv
  split at hv
  · cases hv
  next heq =>
    cases hv
    have hw := KeepsForm.takeSector h heq
    exact .ite (.flashAnswer <| .storeMap <| .fields hw) <| .storeMap <| .fields hw

theorem KeepsForm.flashPump {n : Nat} (h : KeepsForm s u) : KeepsForm s (Machine.flashPump n u) := by
  induction n generalizing u with
  | zero =>
    exact h
  | succ n ih =>
    unfold Machine.flashPump
    refine .ite h ?_
    split
    · exact h
    · split
      next heq1 => exact ih <| .placeWrite (.fields h) heq1
      · exact h

theorem KeepsForm.showDirty (h : KeepsForm s u) : KeepsForm s (Machine.showDirty u) := by
  unfold Machine.showDirty
  exact .setF h

theorem KeepsForm.queueWrite {w : FlashWrite} (h : KeepsForm s u) : KeepsForm s (Machine.queueWrite u w) := by
  unfold Machine.queueWrite
  exact .flashStateUpdate <| .showDirty <| .flashPump <| .fields h

theorem KeepsForm.flashWrite {t id page : Nat} {data : List Byte} (h : KeepsForm s u) :
    KeepsForm s (Machine.flashWrite t id page data u) := by
  unfold Machine.flashWrite
  exact .ite (.emit <| .atTime h) <| .queueWrite <| .atTime h

theorem KeepsForm.countUncorrectable {page : Nat} (h : KeepsForm s u) : KeepsForm s (Machine.countUncorrectable u page) :=
  .fields h

theorem KeepsForm.closeUnit {ch u' : Nat} (h : KeepsForm s u) : KeepsForm s (Machine.closeUnit u ch u') := by
  unfold Machine.closeUnit
  exact .ite (.fields h) h

theorem KeepsForm.copyPage {ch page : Nat} (h : KeepsForm s u) : KeepsForm s (Machine.copyPage ch u page) := by
  dsimp only [Machine.copyPage]
  split
  · exact h
  next heq => exact .closeUnit <| .storeMap <| .fields <| .takeSector h heq

theorem KeepsForm.reslot {u' : Nat} {w : FlashWrite} (h : KeepsForm s u) : KeepsForm s (Machine.reslot u' u w) := by
  refine .ite h ?_
  split
  · exact h
  next heq =>
    have hw := KeepsForm.takeSector h heq
    exact .ite (.storeMap <| .fields hw) <| .fields hw

theorem KeepsForm.retireUnit {ch u' : Nat} (h : KeepsForm s u) : KeepsForm s (Machine.retireUnit u ch u') := by
  unfold Machine.retireUnit
  exact .flashStateUpdate <| .fields h

theorem KeepsForm.programWrite {w : FlashWrite} (h : KeepsForm s u) : KeepsForm s (Machine.programWrite u w) := by
  unfold Machine.programWrite
  exact .ite (.closeUnit <| .fields h) <| .flashAnswer <| .closeUnit <| .fields h

theorem KeepsForm.flashProgramComplete {t ch : Nat} {ok : Bool} (h : KeepsForm s u) :
    KeepsForm s (Machine.flashProgramComplete t ch ok u) := by
  dsimp only [Machine.flashProgramComplete]
  split
  · exact .atTime h
  · exact .ite (.flashStateUpdate <| .showDirty <| .flashPump <| .programWrite <| .atTime h) <| .retireUnit <|
      .foldl (fun _ _ hv => .copyPage hv) <| .foldl (fun _ _ hv => .reslot hv) <| .fields <| .atTime h

theorem KeepsForm.countCorrected {page : Nat} (h : KeepsForm s u) : KeepsForm s (Machine.countCorrected u page) := by
  unfold Machine.countCorrected
  exact .memError <| .fields h

theorem KeepsForm.flashEraseComplete {t ch u' : Nat} {ok : Bool} (h : KeepsForm s u) :
    KeepsForm s (Machine.flashEraseComplete t ch u' ok u) := by
  unfold Machine.flashEraseComplete
  exact .ite (.ite (.showDirty <| .flashPump <| .flashStateUpdate <| .incF <| .fields <| .atTime h) <| .retireUnit <| .fields <|
      .atTime h) <| .atTime h

theorem KeepsForm.checkpoint (h : KeepsForm s u) : KeepsForm s (Machine.checkpoint u) := by
  unfold Machine.checkpoint
  exact .draw <| .ite (.fields h) h

theorem KeepsForm.flashTempSample {t : Nat} {temps : List Int} (h : KeepsForm s u) : KeepsForm s (Machine.flashTempSample t temps u) := by
  unfold Machine.flashTempSample
  exact .ite (.atTime h) <| .checkpoint <| .fields <| .atTime h

theorem Runs.execFlashTempSample {t : Nat} {temps : List Int} (h : KeepsForm s u) : Runs s (Machine.execFlashTempSample t temps u) := by
  unfold Machine.execFlashTempSample
  exact .next <| .flashTempSample h

theorem KeepsForm.flashRebuildComplete {t : Nat} (h : KeepsForm s u) : KeepsForm s (Machine.flashRebuildComplete t u) := by
  refine .ite ?_ (.atTime h)
  refine .initStage ?_
  refine .flashStateUpdate ?_
  split
  · exact .setF <| .storeMap <| .fields <| .setF <| .foldl (fun _ _ hv1 => .closeUnit hv1) <| .fields <| .atTime h
  · exact .ite (.storeMap <| .fields <| .setF <| .foldl (fun _ _ hv1 => .closeUnit hv1) <| .fields <| .atTime h) <| .draw <| .logErr <|
        .storeMap <| .fields <| .setF <| .foldl (fun _ _ hv1 => .closeUnit hv1) <| .fields <| .atTime h

theorem Runs.execFlashRebuildComplete {t : Nat} (h : KeepsForm s u) : Runs s (Machine.execFlashRebuildComplete t u) := by
  unfold Machine.execFlashRebuildComplete
  exact .next <| .flashRebuildComplete h

theorem KeepsForm.discardAction {v' : Nat} (h : KeepsForm s u) : KeepsForm s (Machine.discardAction v' u) := by
  unfold Machine.discardAction
  exact .discardAt h

theorem KeepsForm.discardGen {slot g : Nat} (h : KeepsForm s u) : KeepsForm s (Machine.discardGen slot g u) := by
  unfold Machine.discardGen
  exact .discardAt h

theorem KeepsForm.bookmarkDiscardAction {slot : Nat} (h : KeepsForm s u) : KeepsForm s (Machine.bookmarkDiscardAction slot u) := by
  unfold Machine.bookmarkDiscardAction
  exact .ite h <| .discardGen <| .discardGen h

theorem KeepsForm.bookmarkCommit {t slot g : Nat} (h : KeepsForm s u) : KeepsForm s (Machine.bookmarkCommit t slot g u) := by
  refine .ite (.atTime h) ?_
  split
  · exact .incF <| .discardGen <| .atTime h
  · split
    · exact .incF <| .discardGen <| .atTime h
    · exact .ite (.incF <| .discardGen <| .atTime h) <| .ite (.incF <| .atTime h) <| .atTime h

/-! ### Rings -/

theorem KeepsForm.setQp {q : Nat} {x : QueuePair} (h : KeepsForm s u) : KeepsForm s (Machine.setQp u q x) :=
  .fields h

theorem KeepsForm.modQp {q : Nat} {f : QueuePair → QueuePair} (h : KeepsForm s u) : KeepsForm s (Machine.modQp u q f) := by
  unfold Machine.modQp
  exact .setQp h

theorem KeepsForm.writeCompletion {q : Nat} {e : BitVec 256} (h : KeepsForm s u) : KeepsForm s (Machine.writeCompletion u q e) := by
  unfold Machine.writeCompletion
  exact .ite (.emit <| .modQp <| .writeNat h) <| .modQp <| .writeNat h

theorem KeepsForm.pumpCompletions {n k : Nat} (h : KeepsForm s u) : KeepsForm s (Machine.pumpCompletions n u k) := by
  induction n generalizing u k with
  | zero =>
    exact h
  | succ n ih =>
    unfold Machine.pumpCompletions
    dsimp only
    split
    · exact h
    · exact .ite (ih <| .writeCompletion <| .setQp h) h

theorem KeepsForm.postCompletion {q : Nat} {e : BitVec 256} (h : KeepsForm s u) : KeepsForm s (Machine.postCompletion u q e) := by
  unfold Machine.postCompletion
  exact .pumpCompletions <| .modQp h

theorem KeepsForm.pumpNotices {n k : Nat} (h : KeepsForm s u) : KeepsForm s (Machine.pumpNotices n u k) := by
  induction n generalizing u k with
  | zero =>
    exact h
  | succ n ih =>
    unfold Machine.pumpNotices
    dsimp only
    split
    · exact h
    · exact .ite (ih <| .postCompletion <| .modQp <| .emit <| .writeBytes h) h

theorem KeepsForm.hostDeliver {q : Nat} {bytes : List Byte} (h : KeepsForm s u) : KeepsForm s (Machine.hostDeliver u q bytes) := by
  unfold Machine.hostDeliver
  exact .pumpNotices <| .modQp h

/-! ### Sig -/

theorem KeepsForm.modE {n : Nat} {f : SigEntry → SigEntry} (h : KeepsForm s u) : KeepsForm s (Machine.modE u n f) :=
  .fields h

theorem KeepsForm.modA {n : Nat} {f : SigAux → SigAux} (h : KeepsForm s u) : KeepsForm s (Machine.modA u n f) :=
  .fields h

theorem KeepsForm.setSigState {n : Nat} {st : SigState} (h : KeepsForm s u) : KeepsForm s (Machine.setSigState u n st) := by
  unfold Machine.setSigState
  exact .ite (.fields <| .modE h) <| .maxF <| .modE h

theorem KeepsForm.badTrigger (h : KeepsForm s u) : KeepsForm s (Machine.badTrigger u) := by
  unfold Machine.badTrigger
  exact .incF h

theorem KeepsForm.noteEstimate {n : Nat} (h : KeepsForm s u) : KeepsForm s (Machine.noteEstimate u n) := by
  unfold Machine.noteEstimate
  exact .modE h

theorem KeepsForm.noteSlacks {l : List Nat} (h : KeepsForm s u) : KeepsForm s (Machine.noteSlacks u l) := by
  unfold Machine.noteSlacks
  exact .foldl (fun _ _ hv => .ite hv <| .noteEstimate hv) h

theorem KeepsForm.appendLog {n : Nat} {toks : List Nat} (h : KeepsForm s u) : KeepsForm s (Machine.appendLog u n toks) := by
  unfold Machine.appendLog
  exact .modA <| .writeBytes h

theorem KeepsForm.placeLog {n : Nat} {toks : List Nat} {gen : Nat} (h : KeepsForm s u) : KeepsForm s (Machine.placeLog u n toks gen) := by
  unfold Machine.placeLog
  exact .appendLog <| .modA <| .modE <| .draw h

theorem KeepsForm.sendNotice {dest : Nat} {via : Option Nat} {h' : BitVec 256} {toks : List Nat} (h : KeepsForm s u) :
    KeepsForm s (Machine.sendNotice u dest via h' toks) := by
  unfold Machine.sendNotice
  split
  · exact .hostDeliver <| .emit h
  · exact .transmit h

theorem KeepsForm.notify {n kind reason count pos time : Nat} {toks : List Nat} (h : KeepsForm s u) :
    KeepsForm s (Machine.notify u n kind reason count pos time toks) := by
  unfold Machine.notify
  exact .modA <| .sendNotice h

theorem KeepsForm.sendAdmitted {n : Nat} (h : KeepsForm s u) : KeepsForm s (Machine.sendAdmitted u n) := by
  unfold Machine.sendAdmitted
  exact .notify h

theorem KeepsForm.sendTokensFrom {n pos count : Nat} (h : KeepsForm s u) : KeepsForm s (Machine.sendTokensFrom u n pos count) := by
  unfold Machine.sendTokensFrom
  exact .notify h

theorem KeepsForm.sendTokensRange {n k i m : Nat} (h : KeepsForm s u) : KeepsForm s (Machine.sendTokensRange n u k i m) := by
  induction n generalizing u k i m with
  | zero =>
    exact h
  | succ n ih =>
    unfold Machine.sendTokensRange
    exact .ite h <| ih <| .sendTokensFrom h

theorem KeepsForm.sendTokens {n : Nat} (h : KeepsForm s u) : KeepsForm s (Machine.sendTokens u n) := by
  unfold Machine.sendTokens
  exact .ite (.modA <| .sendTokensRange h) h

theorem KeepsForm.sendEnd {n : Nat} (h : KeepsForm s u) : KeepsForm s (Machine.sendEnd u n) := by
  unfold Machine.sendEnd
  exact .notify h

theorem KeepsForm.checkEnded {n : Nat} (h : KeepsForm s u) : KeepsForm s (Machine.checkEnded u n) := by
  unfold Machine.checkEnded
  exact .ite (.sendEnd <| .setSigState h) h

theorem KeepsForm.refuseRequest {q : AdmitRequest} {code : Nat} (h : KeepsForm s u) : KeepsForm s (Machine.refuseRequest u q code) := by
  unfold Machine.refuseRequest
  exact .incF <| .sendNotice h

theorem KeepsForm.refuseWaiting {j : Nat} (h : KeepsForm s u) : KeepsForm s (Machine.refuseWaiting u j) := by
  unfold Machine.refuseWaiting
  exact .foldl (fun _ _ hv => .refuseRequest hv) <| .fields h

/-! ### Leaf -/

theorem KeepsForm.setGroup {j g : Nat} {d : GroupDesc} (h : KeepsForm s u) : KeepsForm s (Machine.setGroup u j g d) := by
  unfold Machine.setGroup
  exact .modJob h

theorem KeepsForm.modGroup {j g : Nat} {f : GroupDesc → GroupDesc} (h : KeepsForm s u) : KeepsForm s (Machine.modGroup u j g f) := by
  unfold Machine.modGroup
  exact .setGroup h

theorem KeepsForm.setLeaf {j g l : Nat} {d : LeafDesc} (h : KeepsForm s u) : KeepsForm s (Machine.setLeaf u j g l d) := by
  unfold Machine.setLeaf
  exact .modJob h

theorem KeepsForm.takeGroupAt {j writer : Nat} {cols : List Nat} {places : List (Nat × Nat)} {p : State × Nat} (h : KeepsForm s u)
    (hp : Machine.takeGroupAt u j writer cols places = some p) : KeepsForm s p.1 := by
  unfold Machine.takeGroupAt at hp
  split at hp
  · cases hp
  · cases hp
    exact .foldl (fun _ _ hv => .setLeaf <| .writeBytes hv) <| .setGroup <| .draw <| .modJob h

theorem KeepsForm.takeGroup {j writer : Nat} {cols : List Nat} {p : State × Nat} (h : KeepsForm s u)
    (hp : Machine.takeGroup u j writer cols = some p) : KeepsForm s p.1 := by
  unfold Machine.takeGroup at hp
  split at hp
  · cases hp
  · exact .takeGroupAt h hp

theorem KeepsForm.returnGroup {j g : Nat} (h : KeepsForm s u) : KeepsForm s (Machine.returnGroup u j g) := by
  unfold Machine.returnGroup
  exact .modJob <| .setGroup <| .foldl (fun _ _ hv => .setLeaf hv) h

theorem KeepsForm.decRef {j g : Nat} (h : KeepsForm s u) : KeepsForm s (Machine.decRef u j g) := by
  unfold Machine.decRef
  exact .ite (.ite (.modGroup <| .setGroup h) <| .returnGroup <| .setGroup h) <| .setGroup h

theorem KeepsForm.incRef {j g : Nat} (h : KeepsForm s u) : KeepsForm s (Machine.incRef u j g) := by
  unfold Machine.incRef
  exact .modGroup h

theorem KeepsForm.storePage {n k : Nat} (h : KeepsForm s u) : KeepsForm s (Machine.storePage n u k) := by
  unfold Machine.storePage
  split
  · exact .writeBytes h
  · exact h

theorem KeepsForm.storePages {n : Nat} (h : KeepsForm s u) : KeepsForm s (Machine.storePages u n) := by
  unfold Machine.storePages
  exact .foldl (fun _ _ hv => .storePage hv) h

theorem KeepsForm.setList {n p : Nat} {g : Option Nat} (h : KeepsForm s u) : KeepsForm s (Machine.setList u n p g) := by
  unfold Machine.setList
  exact .storePage <| .modA h

theorem KeepsForm.clearEntry {n p : Nat} (h : KeepsForm s u) : KeepsForm s (Machine.clearEntry u n p) := by
  unfold Machine.clearEntry
  split
  · exact h
  · exact .decRef <| .setList h

theorem KeepsForm.reserve {n need : Nat} {working : Bool} (h : KeepsForm s u) (hv : Machine.reserve u n need working = some v) :
    KeepsForm s v := by
  dsimp only [Machine.reserve] at hv
  split at hv
  · cases hv
    exact .modE <| .storePages <| .modA <| .modJob <| .draw h
  · cases hv

theorem KeepsForm.unreserve {n : Nat} (h : KeepsForm s u) : KeepsForm s (Machine.unreserve u n) := by
  unfold Machine.unreserve
  exact .modE <| .modA <| .modJob h

theorem KeepsForm.dropList {n : Nat} (h : KeepsForm s u) : KeepsForm s (Machine.dropList u n) := by
  unfold Machine.dropList
  exact .foldl (fun _ _ hv => .decRef hv) <| .storePages <| .modA h

theorem KeepsForm.releaseLeaves {n : Nat} (h : KeepsForm s u) : KeepsForm s (Machine.releaseLeaves u n) := by
  unfold Machine.releaseLeaves
  exact .unreserve <| .dropList h

theorem KeepsForm.copySlots {j q : Nat} {a b : LeafDesc} (h : KeepsForm s u) : KeepsForm s (Machine.copySlots u j q a b) := by
  unfold Machine.copySlots
  exact .foldl (fun _ _ hv => .doMove <| .doMove hv) h

theorem KeepsForm.copyGroup {n p q g g2 : Nat} (h : KeepsForm s u) : KeepsForm s (Machine.copyGroup u n p q g g2) := by
  unfold Machine.copyGroup
  exact .incF <| .decRef <| .setList <| .modGroup <| .foldl (fun _ _ hv => .copySlots hv) h

theorem KeepsForm.rollbackAt {n kv p : Nat} (h : KeepsForm s u) : KeepsForm s (Machine.rollbackAt n kv u p) := by
  dsimp only [Machine.rollbackAt]
  split
  · exact h
  · exact .ite (.ite (.clearEntry <| .modGroup <| .addF h) <| .modGroup <| .addF h) h

theorem KeepsForm.rollback {n base count kv : Nat} (h : KeepsForm s u) : KeepsForm s (Machine.rollback u n base count kv) := by
  unfold Machine.rollback
  exact .foldl (fun _ _ hv => .rollbackAt hv) h

theorem KeepsForm.modNode {id : Nat} {f : CwNode → CwNode} (h : KeepsForm s u) : KeepsForm s (Machine.modNode u id f) :=
  .fields h

theorem KeepsForm.takeNode {n id : Nat} (h : KeepsForm s u) : KeepsForm s (Machine.takeNode n u id) := by
  unfold Machine.takeNode
  exact .modNode <| .incRef <| .setList h

theorem KeepsForm.clearSlot {id : Nat} (h : KeepsForm s u) : KeepsForm s (Machine.clearSlot u id) :=
  .fields h

theorem KeepsForm.evictNode {id : Nat} (h : KeepsForm s u) : KeepsForm s (Machine.evictNode u id) := by
  unfold Machine.evictNode
  exact .ite h <| .decRef <| .modGroup <| .ite (.modNode <| .clearSlot h) <| .modNode <| .modNode <| .clearSlot h

theorem KeepsForm.makeSlot {key : Nat} {path : List Nat} (h : KeepsForm s u) (hv : Machine.makeSlot u key path = some v) :
    KeepsForm s v := by
  dsimp only [Machine.makeSlot] at hv
  split at hv
  · cases hv
    exact h
  · split at hv
    · cases hv
      exact .evictNode h
    · cases hv

theorem KeepsForm.insertNode {j slot ver key g : Nat} {run : List Nat} {parent : Option Nat} {path : List Nat} {p : State × Nat}
    (h : KeepsForm s u) (hp : Machine.insertNode u j slot ver key g run parent path = some p) : KeepsForm s p.1 := by
  unfold Machine.insertNode at hp
  split at hp
  · cases hp
  next heq =>
    dsimp only at hp
    split at hp
    · cases hp
    · have hw := KeepsForm.makeSlot h heq
      cases hp
      dsimp only
      refine .modGroup <| .incRef ?_
      cases parent with
      | none => exact .fields <| .modNode <| .writeBytes <| .draw hw
      | some p => exact .modNode <| .fields <| .modNode <| .writeBytes <| .draw hw

theorem KeepsForm.insertWalk {j slot ver len : Nat} {partials : Bool} {groups : List (Option Nat)} {toks : List Nat} {parent : Option Nat}
    {path : List Nat} (h : KeepsForm s u) : KeepsForm s (Machine.insertWalk j slot ver len partials groups toks parent path u) := by
  induction groups generalizing u toks parent path with
  | nil => exact h
  | cons a r ih =>
    cases a with
    | none => exact h
    | some g =>
      unfold Machine.insertWalk
      refine .ite h (.ite ?_ (.ite h (.ite h (.ite (.incF h) ?_))))
      · dsimp only
        split
        · exact ih h
        · refine .ite (.incF h) ?_
          split
          next heq => exact ih <| .insertNode h heq
          · exact .incF h
      · have hw {held : List Nat} : KeepsForm s (held.foldl Machine.evictNode u) := .foldl (fun _ _ hv => .evictNode hv) h
        dsimp only
        split
        next heq => exact .insertNode hw heq
        · exact .incF hw

theorem KeepsForm.insertSig {n : Nat} (h : KeepsForm s u) : KeepsForm s (Machine.insertSig u n) := by
  unfold Machine.insertSig
  exact .ite h <| .insertWalk h

theorem KeepsForm.evictSubtree {n k : Nat} (h : KeepsForm s u) : KeepsForm s (Machine.evictSubtree n u k) := by
  induction n generalizing u k with
  | zero =>
    unfold Machine.evictSubtree
    exact .evictNode h
  | succ n ih =>
    unfold Machine.evictSubtree
    exact .evictNode <| .foldl (fun _ _ hv => ih hv) h

theorem KeepsForm.evictGroup {j g : Nat} (h : KeepsForm s u) : KeepsForm s (Machine.evictGroup u j g) := by
  unfold Machine.evictGroup
  split
  · exact .evictSubtree h
  · exact h

theorem KeepsForm.sweepNodes {ids : List Nat} (h : KeepsForm s u) : KeepsForm s (Machine.sweepNodes u ids) := by
  unfold Machine.sweepNodes
  exact .foldl (fun _ _ hv => .modNode <| .clearSlot hv) h

theorem KeepsForm.startSweep {j : Nat} (h : KeepsForm s u) : KeepsForm s (Machine.startSweep u j) :=
  .fields h

/-! ### Net -/

theorem KeepsForm.setLink {l : Nat} {x : Link} (h : KeepsForm s u) : KeepsForm s (Machine.setLink u l x) :=
  .fields h

theorem KeepsForm.modLink {l : Nat} {f : Link → Link} (h : KeepsForm s u) : KeepsForm s (Machine.modLink u l f) := by
  unfold Machine.modLink
  exact .setLink h

theorem KeepsForm.sendWord {l kind body : Nat} (h : KeepsForm s u) : KeepsForm s (Machine.sendWord u l kind body) := by
  unfold Machine.sendWord
  exact .ite h <| .emit <| .setLink h

theorem KeepsForm.sendIdle {l : Nat} (h : KeepsForm s u) : KeepsForm s (Machine.sendIdle u l) := by
  unfold Machine.sendIdle
  exact .sendWord h

theorem KeepsForm.sendLinkNak {l : Nat} (h : KeepsForm s u) : KeepsForm s (Machine.sendLinkNak u l) := by
  unfold Machine.sendLinkNak
  exact .modLink <| .sendWord h

theorem KeepsForm.putOnWire {l seq : Nat} {i : LinkItem} {stomped : Bool} (h : KeepsForm s u) :
    KeepsForm s (Machine.putOnWire u l seq i stomped) := by
  unfold Machine.putOnWire
  exact .ite h <| .emit <| .setLink h

theorem KeepsForm.noteDeparture {h' : BitVec 256} {payload : List Byte} (h : KeepsForm s u) :
    KeepsForm s (Machine.noteDeparture u h' payload) := by
  unfold Machine.noteDeparture
  exact .ite (.fields h) h

theorem KeepsForm.sendItem {l : Nat} {i : LinkItem} {stomped : Bool} (h : KeepsForm s u) :
    KeepsForm s (Machine.sendItem u l i stomped) := by
  unfold Machine.sendItem
  exact .ite (.setF <| .modLink <| .putOnWire <| .noteDeparture h) <| .modLink <| .putOnWire <| .noteDeparture h

theorem KeepsForm.shaperTake {q cost : Nat} (h : KeepsForm s u) : KeepsForm s (Machine.shaperTake u q cost) := by
  unfold Machine.shaperTake
  exact .ite (.fields h) h

theorem KeepsForm.countHeld {i : EgressItem} (h : KeepsForm s u) : KeepsForm s (Machine.countHeld u i) := by
  unfold Machine.countHeld
  split
  · exact h
  · exact .ite (.setF <| .fields h) <| .fields h

theorem KeepsForm.egressWait {q wait : Nat} (h : KeepsForm s u) : KeepsForm s (Machine.egressWait u q wait) := by
  unfold Machine.egressWait
  exact .ite (.ite (.logErr <| .fields <| .maxF h) <| .maxF h) h

theorem KeepsForm.departEgress {i : EgressItem} (h : KeepsForm s u) : KeepsForm s (Machine.departEgress u i) := by
  unfold Machine.departEgress
  exact .egressWait <| .fields <| .shaperTake <| .ite (.shaperTake <| .countHeld h) <| .countHeld h

theorem KeepsForm.sendNext {l : Nat} (h : KeepsForm s u) (hv : Machine.sendNext u l = some v) : KeepsForm s v := by
  unfold Machine.sendNext at hv
  dsimp only at hv
  split at hv
  · cases hv
    exact .sendItem <| .modLink <| .modLink h
  · split at hv
    · cases hv
      exact .sendItem <| .modLink <| .modLink h
    · split at hv
      · cases hv
        exact .sendItem <| .modLink <| .modLink h
      · split at hv
        · cases hv
          exact .sendItem <| .modLink <| .departEgress h
        · cases hv

theorem KeepsForm.pumpLink {n k : Nat} {b : Bool} (h : KeepsForm s u) : KeepsForm s (Machine.pumpLink n u k b) := by
  induction n generalizing u k b with
  | zero =>
    exact h
  | succ n ih =>
    unfold Machine.pumpLink
    split
    next heq => exact ih <| .sendNext h heq
    · exact .ite (.sendIdle h) h

theorem KeepsForm.runLink {l : Nat} (h : KeepsForm s u) : KeepsForm s (Machine.runLink u l) := by
  unfold Machine.runLink
  exact .ite h <| .pumpLink h

theorem KeepsForm.noteHeld (h : KeepsForm s u) : KeepsForm s (Machine.noteHeld u) := by
  refine .foldl (fun _ _ hv => ?_) h
  split
  · exact hv
  · exact .fields hv

theorem KeepsForm.runLinks (h : KeepsForm s u) : KeepsForm s (Machine.runLinks u) := by
  unfold Machine.runLinks
  exact .noteHeld <| .foldl (fun _ _ hv => .runLink hv) h

theorem KeepsForm.enqueueLink {l plane : Nat} {h' : BitVec 256} {payload : List Byte} (h : KeepsForm s u) :
    KeepsForm s (Machine.enqueueLink u l plane h' payload) := by
  unfold Machine.enqueueLink
  exact .runLink <| .ite (.setF <| .modLink h) <| .modLink h

theorem KeepsForm.routeOut {plane : Nat} {h' : BitVec 256} {payload : List Byte} (h : KeepsForm s u) :
    KeepsForm s (Machine.routeOut u plane h' payload) := by
  unfold Machine.routeOut
  split
  · exact .enqueueLink h
  · exact .noteDeparture h

theorem KeepsForm.respond {q : BitVec 256} {type status : Nat} {payload : List Byte} (h : KeepsForm s u) :
    KeepsForm s (Machine.respond u q type status payload) := by
  unfold Machine.respond
  exact .routeOut <| .transmit h

theorem KeepsForm.launch {queue : Option Nat} {h' : BitVec 256} {payload : List Byte} {dst : Option Nat} (h : KeepsForm s u) :
    KeepsForm s (Machine.launch u queue h' payload dst) := by
  dsimp only [Machine.launch]
  split
  · exact .runLinks <| .fields <| .transmit <| .fields h
  · exact .routeOut <| .transmit <| .fields h

theorem KeepsForm.issue {type dest srcJob cls idx vn off len op : Nat} {ordered : Bool} {payload : List Byte} {dst : Option Nat}
    (h : KeepsForm s u) : KeepsForm s (Machine.issue u type dest srcJob cls idx vn off len op ordered payload dst).1 := by
  unfold Machine.issue
  split
  · exact h
  · exact .iteFst (.fields <| .draw h) <| .launch <| .draw h

/-! ### Access -/

theorem KeepsForm.markFrozen {cls idx : Nat} {on : Bool} (h : KeepsForm s u) : KeepsForm s (Machine.markFrozen u cls idx on) := by
  unfold Machine.markFrozen
  exact .ite (.modSeq h) <| .ite (.fields h) h

theorem KeepsForm.freezeQuiet {cls idx jb : Nat} (h : KeepsForm s u) : KeepsForm s (Machine.freezeQuiet u cls idx jb) := by
  unfold Machine.freezeQuiet
  exact .ite (.fields <| .markFrozen h) h

theorem KeepsForm.freezeMaster {cls idx jb rule : Nat} (h : KeepsForm s u) : KeepsForm s (Machine.freezeMaster u cls idx jb rule) := by
  unfold Machine.freezeMaster
  exact .ite (.logMaster <| .freezeQuiet h) h

theorem KeepsForm.setRegion {r : Nat} {x : Region} (h : KeepsForm s u) : KeepsForm s (Machine.setRegion u r x) :=
  .fields h

theorem KeepsForm.regionResult {code key : Nat} (h : KeepsForm s u) : KeepsForm s (Machine.regionResult u code key) := by
  unfold Machine.regionResult
  exact .setF h

theorem KeepsForm.finishRevoke {r : Nat} (h : KeepsForm s u) : KeepsForm s (Machine.finishRevoke u r) := by
  unfold Machine.finishRevoke
  exact .incF <| .regionResult <| .setRegion <| .ite h <| .fields h

theorem KeepsForm.checkDrains (h : KeepsForm s u) : KeepsForm s (Machine.checkDrains u) := by
  unfold Machine.checkDrains
  exact .foldl (fun _ _ hv => .ite hv <| .finishRevoke hv) h

theorem KeepsForm.flushReceives {q upto : Nat} (h : KeepsForm s u) : KeepsForm s (Machine.flushReceives u q upto) := by
  unfold Machine.flushReceives
  exact .modQp <| .foldl (fun _ _ hv => .postCompletion hv) h

theorem KeepsForm.qpFlush {q : Nat} {f : SendMsg → Nat} (h : KeepsForm s u) : KeepsForm s (Machine.qpFlush u q f) := by
  unfold Machine.qpFlush
  exact .checkDrains <| .modQp <| .flushReceives <| .foldl (fun _ _ hv => .ite (.postCompletion hv) hv) <| .setQp h

theorem KeepsForm.qpError {q : Nat} (h : KeepsForm s u) : KeepsForm s (Machine.qpError u q) := by
  unfold Machine.qpError
  exact .qpFlush h

theorem KeepsForm.released {m : FrozenMaster} (h : KeepsForm s u) : KeepsForm s (Machine.released u m) := by
  unfold Machine.released
  exact .logMaster <| .ite (.qpError <| .markFrozen <| .fields h) <| .markFrozen <| .fields h

theorem KeepsForm.sendThaw {m : FrozenMaster} {e : Nat} (h : KeepsForm s u) : KeepsForm s (Machine.sendThaw m u e) := by
  unfold Machine.sendThaw
  split
  · exact h
  · exact .launch <| .draw h

theorem KeepsForm.addThaw {cls idx e : Nat} (h : KeepsForm s u) : KeepsForm s (Machine.addThaw u cls idx e) := by
  unfold Machine.addThaw
  split
  · exact h
  · exact .ite h <| .fields <| .ite (.sendThaw h) h

theorem KeepsForm.startRelease {m : FrozenMaster} (h : KeepsForm s u) : KeepsForm s (Machine.startRelease u m) := by
  unfold Machine.startRelease
  exact .ite h <| .ite (.released h) <| .fields <| .foldl (fun _ _ hv => .sendThaw hv) h

theorem KeepsForm.thawAcked {master e : Nat} (h : KeepsForm s u) : KeepsForm s (Machine.thawAcked u master e) := by
  unfold Machine.thawAcked
  split
  · exact h
  · split
    · exact h
    · exact .ite (.released h) <| .fields h

theorem KeepsForm.quarantine {h' : BitVec 256} (h : KeepsForm s u) : KeepsForm s (Machine.quarantine u h') := by
  refine .ite h ?_
  split
  · exact .incF h
  · exact .draw <| .fields h

theorem KeepsForm.refuseTx {h' : BitVec 256} {status : Nat} (h : KeepsForm s u) : KeepsForm s (Machine.refuseTx u h' status) := by
  unfold Machine.refuseTx
  exact .respond <| .incF <| .ite (.quarantine h) h

theorem KeepsForm.countRefusal {k : Nat} (h : KeepsForm s u) : KeepsForm s (Machine.countRefusal u k) :=
  .fields h

theorem KeepsForm.flashBytes {o : FlashFor} {a : Nat} {bs : List Byte} (h : KeepsForm s u) : KeepsForm s (Machine.flashBytes u o a bs) := by
  unfold Machine.flashBytes
  exact .queueWrite h

theorem KeepsForm.targetWrite {a : Nat} {bs : List Byte} (h : KeepsForm s u) : KeepsForm s (Machine.targetWrite u a bs) := by
  unfold Machine.targetWrite
  exact .ite (.foldl (fun _ _ hv => .ite hv <| .flashBytes hv) h) <| .writeBytes h

theorem KeepsForm.doAtomic {a op : Nat} {payload : List Byte} (h : KeepsForm s u) : KeepsForm s (Machine.doAtomic u a op payload).1 := by
  unfold Machine.doAtomic
  exact .targetWrite h

theorem KeepsForm.sendCoherence {type member line : Nat} (h : KeepsForm s u) : KeepsForm s (Machine.sendCoherence u type member line) := by
  unfold Machine.sendCoherence
  exact .routeOut <| .transmit h

theorem KeepsForm.poisonLine {line : Nat} (h : KeepsForm s u) : KeepsForm s (Machine.poisonLine u line) := by
  unfold Machine.poisonLine
  exact .ite h <| .incF <| .fields h

theorem KeepsForm.recallLine {back : List (Nat × List Byte)} {m line : Nat} (h : KeepsForm s u) :
    KeepsForm s (Machine.recallLine u back m line) := by
  dsimp only [Machine.recallLine]
  split
  · exact .targetWrite <| .incF <| .sendCoherence h
  · exact .poisonLine <| .incF <| .sendCoherence h

theorem KeepsForm.settleLine {back : List (Nat × List Byte)} {store : Bool} {line : Nat} (h : KeepsForm s u) :
    KeepsForm s (Machine.settleLine back store u line) := by
  unfold Machine.settleLine
  split
  · exact h
  · refine .fields ?_
    refine .ite ?_ ?_
    · refine .foldl (fun _ _ hv1 => .sendCoherence hv1) ?_
      split
      · exact .recallLine h
      · exact h
    · split
      · exact .recallLine h
      · exact h

theorem KeepsForm.settleRange {a n : Nat} {store : Bool} {back : List (Nat × List Byte)} (h : KeepsForm s u) :
    KeepsForm s (Machine.settleRange u a n store back) := by
  unfold Machine.settleRange
  exact .foldl (fun _ _ hv => .settleLine hv) h

theorem KeepsForm.settleOwn {a n : Nat} {store : Bool} (h : KeepsForm s u) : KeepsForm s (Machine.settleOwn u a n store) := by
  unfold Machine.settleOwn
  exact .ite (.settleRange <| .draw h) h

theorem KeepsForm.clearPoison {a n : Nat} (h : KeepsForm s u) : KeepsForm s (Machine.clearPoison u a n) :=
  .fields h

theorem KeepsForm.ownWrite {a : Nat} {bs : List Byte} (h : KeepsForm s u) : KeepsForm s (Machine.ownWrite u a bs) := by
  unfold Machine.ownWrite
  exact .clearPoison <| .targetWrite <| .settleOwn h

theorem KeepsForm.addXlate {e : XlateEntry} (h : KeepsForm s u) : KeepsForm s (Machine.addXlate u e).1 := by
  unfold Machine.addXlate
  split
  · exact h
  · exact .draw <| .fields h

theorem KeepsForm.writeXlate {e : XlateEntry} (h : KeepsForm s u) : KeepsForm s (Machine.writeXlate u e).1 := by
  unfold Machine.writeXlate
  exact .iteFst (.addXlate h) <| .logErr h

theorem KeepsForm.endXlates {j : Nat} (h : KeepsForm s u) : KeepsForm s (Machine.endXlates u j) :=
  .fields h

theorem KeepsForm.clearXlates {j : Nat} (h : KeepsForm s u) : KeepsForm s (Machine.clearXlates u j) :=
  .fields h

/-! ### Tiers -/

theorem KeepsForm.readLoan {a n : Nat} (h : KeepsForm s u) : KeepsForm s (Machine.readLoan u a n) := by
  refine .ite ?_ h
  split
  · exact .emit h
  · exact h

theorem KeepsForm.writeLoan {a : Nat} {obj : List Byte} (h : KeepsForm s u) : KeepsForm s (Machine.writeLoan u a obj) := by
  unfold Machine.writeLoan
  split
  · exact .emit h
  · exact h

theorem KeepsForm.storeLeaf {j : Nat} {p : Nat × Nat} {bs : List Byte} (h : KeepsForm s u) : KeepsForm s (Machine.storeLeaf u j p bs) := by
  unfold Machine.storeLeaf
  exact .writeBytes <| .writeBytes h

theorem KeepsForm.flashStore {j g addr n : Nat} {bs : List Byte} (h : KeepsForm s u) (hv : Machine.flashStore u j g addr n bs = .ok v) :
    KeepsForm s v := by
  dsimp only [Machine.flashStore] at hv
  split at hv
  · cases hv
  · cases hv
    exact .discardAt <| .foldl (fun _ _ hv => .queueWrite hv) h

theorem KeepsForm.stopWrites {j g : Nat} (h : KeepsForm s u) : KeepsForm s (Machine.stopWrites u j g) :=
  .fields h

theorem KeepsForm.flashDiscard {addr n : Nat} (h : KeepsForm s u) : KeepsForm s (Machine.flashDiscard u addr n) := by
  unfold Machine.flashDiscard
  exact .ite h <| .discardAt h

theorem KeepsForm.writeLeafTo {j g half : Nat} {t : Tier} {p : Nat × Nat} {bs : List Byte} (h : KeepsForm s u)
    (hv : Machine.writeLeafTo u j g half t p bs = .ok v) : KeepsForm s v := by
  unfold Machine.writeLeafTo at hv
  split at hv
  · cases hv
    exact .storeLeaf h
  · split at hv
    · cases hv
    next heq =>
      have hw := KeepsForm.fst (.caseObject h) heq
      split at hv
      · cases hv
        exact .writeLoan hw
      · exact .flashStore hw hv

theorem KeepsForm.readLeafFrom {j half : Nat} {d : LeafDesc} {obj : List Byte} (h : KeepsForm s u) :
    KeepsForm s (Machine.readLeafFrom u j half d obj).1 := by
  have hopened {o : List Byte} : KeepsForm s (match Machine.openObject u half o with
      | (s, .ok r) => (s, some r)
      | (s, .error _) => (s, none) : State × Option (List Byte)).1 := by
    have hw := KeepsForm.openObject (half := half) (obj := o) h
    generalize Machine.openObject u half o = x at hw ⊢
    obtain ⟨v, _ | r⟩ := x <;> exact hw
  unfold Machine.readLeafFrom
  generalize flashObject u _ _ = held
  cases d.tier with
  | flash =>
    refine .iteFst hopened ?_
    cases held with
    | some o => exact hopened
    | none => exact h
  | neighbour => exact hopened
  | _ => exact h

theorem KeepsForm.sendLeaves {j g : Nat} {t : Tier} {l : List (Nat × (Nat × Nat) × List Byte)} (h : KeepsForm s u) :
    KeepsForm s (Machine.sendLeaves j g t l u).1 := by
  induction l generalizing u with
  | nil => exact h
  | cons e r ih =>
    obtain ⟨l, p, o⟩ := e
    unfold Machine.sendLeaves
    dsimp only
    split
    next heq => exact .fst (.readLeafFrom h) heq
    next heq =>
      have hw := KeepsForm.fst (.readLeafFrom h) heq
      split
      · exact hw
      next heq1 => exact ih <| .writeLeafTo hw heq1

theorem KeepsForm.setMove {m m2 : TierMove} (h : KeepsForm s u) : KeepsForm s (Machine.setMove u m m2) :=
  .fields h

theorem KeepsForm.sendMove {m : TierMove} {objs : List (List Byte)} (h : KeepsForm s u) : KeepsForm s (Machine.sendMove u m objs).1 := by
  unfold Machine.sendMove
  exact .sendLeaves <| .setMove h

theorem KeepsForm.startMoveAt {m : TierMove} (h : KeepsForm s u) : KeepsForm s (Machine.startMoveAt u m) := by
  refine .ite h ?_
  refine .ite ?_ ?_
  · refine .ite (.foldl (fun _ _ hv => .readLoan hv) <| .draw <| .setMove h) ?_
    split
    next heq => exact .fst (.sendMove <| .draw <| .setMove h) heq
    next heq => exact .setMove <| .fst (.sendMove <| .draw <| .setMove h) heq
    next heq => exact .setMove <| .fst (.sendMove <| .draw <| .setMove h) heq
  · split
    · exact h
    · refine .ite (.foldl (fun _ _ hv1 => .readLoan hv1) <| .draw <| .setMove h) ?_
      split
      next heq1 => exact .fst (.sendMove <| .draw <| .setMove h) heq1
      next heq1 => exact .setMove <| .fst (.sendMove <| .draw <| .setMove h) heq1
      next heq1 => exact .setMove <| .fst (.sendMove <| .draw <| .setMove h) heq1

theorem KeepsForm.startMoves (h : KeepsForm s u) : KeepsForm s (Machine.startMoves u) := by
  unfold Machine.startMoves
  exact .foldl (fun _ _ hv => .startMoveAt hv) h

theorem KeepsForm.queueMove {m : TierMove} (h : KeepsForm s u) : KeepsForm s (Machine.queueMove u m) := by
  unfold Machine.queueMove
  exact .startMoves <| .fields <| .modGroup h

theorem KeepsForm.dropMove {m : TierMove} (h : KeepsForm s u) : KeepsForm s (Machine.dropMove u m) :=
  .fields h

theorem KeepsForm.endMoving {j g : Nat} (h : KeepsForm s u) : KeepsForm s (Machine.endMoving u j g) := by
  unfold Machine.endMoving
  exact .ite (.modGroup h) <| .returnGroup <| .modGroup h

theorem KeepsForm.placeLeafAt {j g : Nat} {t : Tier} {e : Nat × Nat × Nat} (h : KeepsForm s u) :
    KeepsForm s (Machine.placeLeafAt j g t u e) := by
  unfold Machine.placeLeafAt
  exact .ite (.flashDiscard <| .setLeaf h) <| .setLeaf h

theorem KeepsForm.finishMove {m : TierMove} (h : KeepsForm s u) : KeepsForm s (Machine.finishMove u m) := by
  unfold Machine.finishMove
  exact .startMoves <| .ite (.incF <| .endMoving <| .dropMove <| .foldl (fun _ _ hv => .placeLeafAt hv) h) <| .ite (.endMoving <|
      .dropMove <| .foldl (fun _ _ hv => .placeLeafAt hv) h) <| .incF <| .endMoving <| .dropMove <| .foldl (fun _ _ hv => .placeLeafAt hv) h

theorem KeepsForm.demoteTo {j g : Nat} {p : TierPlace} (h : KeepsForm s u) : KeepsForm s (Machine.demoteTo u j g p) := by
  unfold Machine.demoteTo
  split
  · exact h
  · exact .queueMove <| .draw h

theorem KeepsForm.placeGroup {j g : Nat} (h : KeepsForm s u) : KeepsForm s (Machine.placeGroup u j g).1 := by
  dsimp only [Machine.placeGroup]
  split
  · exact h
  · split
    · exact .demoteTo h
    · split
      · exact h
      · split
        · exact h
        · split
          · exact .evictNode h
          · exact .evictNode h

theorem KeepsForm.sendLoan {dest type loan kind size base : Nat} (h : KeepsForm s u) :
    KeepsForm s (Machine.sendLoan u dest type loan kind size base) := by
  unfold Machine.sendLoan
  exact .transmit h

theorem KeepsForm.requestLoan {c : Nat} (h : KeepsForm s u) : KeepsForm s (Machine.requestLoan u c) := by
  refine .ite h ?_
  dsimp only
  split
  · exact h
  · exact .ite h <| .sendLoan <| .fields h

theorem KeepsForm.askForLoan {c : Nat} (h : KeepsForm s u) : KeepsForm s (Machine.askForLoan u c) := by
  unfold Machine.askForLoan
  exact .ite (.requestLoan h) h

theorem KeepsForm.demoteLoop {j : Nat} {named : List Nat} {n : Nat} (h : KeepsForm s u) : KeepsForm s (Machine.demoteLoop j named n u) := by
  induction n generalizing u with
  | zero =>
    exact h
  | succ n ih =>
    unfold Machine.demoteLoop
    refine .ite ?_ h
    split
    · exact h
    · split
      next heq1 => exact ih <| .demoteTo <| .fst (.placeGroup h) heq1
      next heq1 => exact .fst (.placeGroup h) heq1
      next heq1 => exact .askForLoan <| .fst (.placeGroup h) heq1

theorem KeepsForm.demoteJob {j : Nat} {named : List Nat} (h : KeepsForm s u) : KeepsForm s (Machine.demoteJob u j named) := by
  unfold Machine.demoteJob
  exact .ite (.fields <| .ite (.demoteLoop <| .ite (.fields h) h) <| .ite (.fields h) h) <| .ite (.demoteLoop <| .ite (.fields h) h) <|
      .ite (.fields h) h

theorem KeepsForm.demotionPass {j : Nat} {named : List Nat} (h : KeepsForm s u) : KeepsForm s (Machine.demotionPass u j named) := by
  unfold Machine.demotionPass
  exact .foldl (fun _ _ hv => .demoteJob hv) h

theorem KeepsForm.growDemote {j n startNs : Nat} {cols : State → List Nat} {named : List Nat} (h : KeepsForm s u) :
    KeepsForm s (Machine.growDemote u j n startNs cols named).1 := by
  unfold Machine.growDemote
  split
  · exact h
  · split
    next heq1 =>
      refine .iteFst ?_ h
      dsimp only
      split
      · exact .demotionPass h
      · split
        next heq3 => exact .takeGroupAt (.demotionPass h) heq3
        · exact .demotionPass h
    next heq1 => exact .fst (.placeGroup h) heq1
    next heq1 => exact .askForLoan <| .fst (.placeGroup h) heq1

theorem KeepsForm.makeColumnRoom {j g : Nat} {named : List Nat} {n : Nat} (h : KeepsForm s u) :
    KeepsForm s (Machine.makeColumnRoom j g named n u).1 := by
  induction n generalizing u with
  | zero =>
    exact h
  | succ n ih =>
    unfold Machine.makeColumnRoom
    refine .iteFst h ?_
    dsimp only
    split
    · exact h
    · split
      next heq1 => exact ih <| .demoteTo <| .fst (.placeGroup h) heq1
      next heq1 => exact .fst (.placeGroup h) heq1
      next heq1 => exact .askForLoan <| .fst (.placeGroup h) heq1

theorem KeepsForm.queuePromotion {j g : Nat} {urgent : Bool} {named : List Nat} (h : KeepsForm s u) :
    KeepsForm s (Machine.queuePromotion u j g urgent named).1 := by
  unfold Machine.queuePromotion
  exact .iteFst (.makeColumnRoom h) <| .queueMove <| .makeColumnRoom h

theorem KeepsForm.promoteWith {j g : Nat} {urgent : Bool} {named : List Nat} (h : KeepsForm s u) :
    KeepsForm s (Machine.promoteWith u j g urgent named).1 := by
  dsimp only [Machine.promoteWith]
  split
  · exact .iteFst h <| .queuePromotion h
  · exact .iteFst (.startMoves <| .iteFst (.makeColumnRoom <| .setMove h) <| .setMove h) <| .iteFst (.setMove h) <| .iteFst (.endMoving <|
        .dropMove h) <| .queuePromotion <| .endMoving <| .dropMove h

theorem KeepsForm.promote {j g : Nat} {urgent : Bool} (h : KeepsForm s u) : KeepsForm s (Machine.promote u j g urgent) := by
  unfold Machine.promote
  exact .promoteWith h

theorem KeepsForm.promoteTaken {n : Nat} {nodes : List Nat} (h : KeepsForm s u) : KeepsForm s (Machine.promoteTaken n nodes u) := by
  unfold Machine.promoteTaken
  exact .foldl (fun _ _ hv => .ite hv <| .promote hv) h

theorem KeepsForm.startSwapOut {v' n : Nat} (h : KeepsForm s u) : KeepsForm s (Machine.startSwapOut u v' n) := by
  unfold Machine.startSwapOut
  exact .incF <| .modJob <| .modA <| .modE <| .setSigState h

theorem KeepsForm.countStall {n : Nat} (h : KeepsForm s u) : KeepsForm s (Machine.countStall u n) := by
  unfold Machine.countStall
  exact .incF <| .modE h

theorem KeepsForm.growFree {j n : Nat} {cols : State → List Nat} (h : KeepsForm s u) : KeepsForm s (Machine.growFree u j n cols).1 := by
  have htaken {p : State × Nat} (hp : (if owedOther u j n then none else Machine.takeGroup u j n (cols u)) = some p) : KeepsForm s p.1 := by
    split at hp
    · cases hp
    · exact .takeGroup h hp
  unfold Machine.growFree
  split
  next heq => exact htaken heq
  · split
    · exact h
    · dsimp only
      split
      next heq => exact .takeGroup (.evictNode h) heq
      · exact .evictNode h

theorem KeepsForm.settleOwed {n : Nat} (h : KeepsForm s u) : KeepsForm s (Machine.settleOwed u n) := by
  unfold Machine.settleOwed
  exact .foldl (fun _ _ hv => .ite (.modA hv) hv) h

theorem KeepsForm.grow {n : Nat} {cols : State → List Nat} {startNs : Nat} {named : List Nat} (h : KeepsForm s u) :
    KeepsForm s (Machine.grow u n cols startNs named).1 := by
  dsimp only [Machine.grow]
  split
  next heq => exact .fst (.growFree h) heq
  next heq =>
    have hw := KeepsForm.fst (.growFree h) heq
    split
    next heq1 => exact .fst (.growDemote hw) heq1
    next heq1 =>
      have hw1 := KeepsForm.fst (.growDemote hw) heq1
      split
      · exact .startSwapOut <| .countStall <| .noteSlacks hw1
      · exact .countStall <| .noteSlacks hw1

theorem KeepsForm.resolve {n pos startNs : Nat} {named : List Nat} (h : KeepsForm s u) :
    KeepsForm s (Machine.resolve u n pos startNs named).1 := by
  dsimp only [Machine.resolve]
  split
  · split
    next heq => exact .fst (.grow h) heq
    next heq => exact .settleOwed <| .setList <| .modGroup <| .fst (.grow h) heq
  · refine .iteFst (.iteFst (.ite (.countStall <| .promoteWith h) <| .incF <| .countStall <| .promoteWith h) ?_) h
    split
    next heq => exact .fst (.grow h) heq
    next heq =>
      have hw := KeepsForm.fst (.grow h) heq
      dsimp only
      exact .settleOwed <| .copyGroup hw

/-! ### BookBase -/

theorem KeepsForm.bookStatus {j : Nat} {seq : Option Nat} {records status : Nat} (h : KeepsForm s u) :
    KeepsForm s (Machine.bookStatus u j seq records status) := by
  unfold Machine.bookStatus
  exact .setF h

theorem KeepsForm.bookStore {j target first : Nat} {l : List (List Byte)} (h : KeepsForm s u) :
    KeepsForm s (Machine.bookStore u j target first l).1 := by
  induction l generalizing u first with
  | nil => exact h
  | cons bytes rest ih =>
    unfold Machine.bookStore
    refine .iteFst (.iteFst (ih <| .queueWrite h) h) ?_
    split
    · exact h
    · dsimp only
      split
      next heq => exact .fst (.issue h) heq
      next heq =>
        have hw := KeepsForm.fst (.issue h) heq
        split
        next heq2 => exact .fst (ih hw) heq2
        next heq2 => exact .fst (ih hw) heq2

theorem KeepsForm.modWrite {j : Nat} {w : Option BookmarkWrite} (h : KeepsForm s u) : KeepsForm s (Machine.modWrite u j w) := by
  unfold Machine.modWrite
  exact .modJob h

theorem KeepsForm.abandonBook {j records : Nat} (h : KeepsForm s u) : KeepsForm s (Machine.abandonBook u j records) := by
  unfold Machine.abandonBook
  exact .bookStatus <| .modWrite h

theorem KeepsForm.bookPump {j : Nat} (h : KeepsForm s u) : KeepsForm s (Machine.bookPump u j) := by
  unfold Machine.bookPump
  split
  · exact h
  · refine .ite (.abandonBook h) ?_
    refine .ite h ?_
    refine .ite (.ite h <| .bookStatus <| .modWrite h) ?_
    split
    next heq1 => exact .modWrite <| .fst (.bookStore h) heq1
    next heq1 => exact .abandonBook <| .fst (.bookStore h) heq1

theorem KeepsForm.answerFlash (h : KeepsForm s u) : KeepsForm s (Machine.answerFlash u) := by
  refine .foldl (fun _ _ hv => ?_) (.fields h)
  split
  · exact .ite (.respond hv) <| .refuseTx hv
  · refine .ite hv ?_
    split
    · exact .modWrite hv
    · exact hv
  · exact hv

theorem KeepsForm.bookPumps (h : KeepsForm s u) : KeepsForm s (Machine.bookPumps u) := by
  unfold Machine.bookPumps
  exact .answerFlash <| .foldl (fun _ _ hv => .bookPump hv) <| .answerFlash h

theorem KeepsForm.bookFail {tag : Nat} (h : KeepsForm s u) : KeepsForm s (Machine.bookFail u tag) := by
  refine .foldl (fun _ _ hv => ?_) h
  split
  · exact .ite (.modWrite hv) hv
  · exact hv

/-! ### Queue -/

theorem KeepsForm.refuseUnknown {h' : BitVec 256} (h : KeepsForm s u) : KeepsForm s (Machine.refuseUnknown u h') := by
  unfold Machine.refuseUnknown
  exact .ite h <| .ite (.incF h) <| .refuseTx h

theorem KeepsForm.sendQueuePacket {jb vn : Nat} {h' qh : BitVec 256} {payload : List Byte} (h : KeepsForm s u) :
    KeepsForm s (Machine.sendQueuePacket u jb vn h' qh payload) := by
  unfold Machine.sendQueuePacket
  exact .ite (.runLinks <| .fields <| .transmit h) <| .routeOut <| .transmit h

theorem KeepsForm.reportMsgs {n k : Nat} (h : KeepsForm s u) : KeepsForm s (Machine.reportMsgs n u k) := by
  induction n generalizing u k with
  | zero =>
    exact h
  | succ n ih =>
    unfold Machine.reportMsgs
    dsimp only
    split
    · exact h
    · split
      · exact h
      · exact ih <| .ite (.postCompletion <| .setQp h) <| .setQp h

theorem KeepsForm.report {q : Nat} (h : KeepsForm s u) : KeepsForm s (Machine.report u q) := by
  unfold Machine.report
  exact .reportMsgs h

theorem KeepsForm.failMsg {q msn status : Nat} (h : KeepsForm s u) : KeepsForm s (Machine.failMsg u q msn status) := by
  unfold Machine.failMsg
  exact .qpFlush <| .ite (.freezeMaster h) <| .ite (.freezeMaster h) h

theorem KeepsForm.readDescriptor {q : Nat} (h : KeepsForm s u) : KeepsForm s (Machine.readDescriptor u q) := by
  dsimp only [Machine.readDescriptor]
  split
  · exact .failMsg <| .setQp h
  · exact .setQp h

theorem KeepsForm.readDescriptors {n k : Nat} (h : KeepsForm s u) : KeepsForm s (Machine.readDescriptors n u k) := by
  induction n generalizing u k with
  | zero =>
    exact h
  | succ n ih =>
    unfold Machine.readDescriptors
    exact .ite (ih <| .readDescriptor h) h

theorem KeepsForm.sendTx {q : Nat} {p : TxPacket} (h : KeepsForm s u) : KeepsForm s (Machine.sendTx u q p) := by
  unfold Machine.sendTx
  exact .sendQueuePacket h

theorem KeepsForm.modMsg {q msn : Nat} {f : SendMsg → SendMsg} (h : KeepsForm s u) : KeepsForm s (Machine.modMsg u q msn f) := by
  unfold Machine.modMsg
  exact .modQp h

theorem KeepsForm.issueRead {q : Nat} {m : SendMsg} {k : Nat} (h : KeepsForm s u) : KeepsForm s (Machine.issueRead u q m k) := by
  unfold Machine.issueRead
  exact .sendQueuePacket <| .modMsg <| .modQp h

theorem KeepsForm.issuePackets {n k : Nat} (h : KeepsForm s u) : KeepsForm s (Machine.issuePackets n u k) := by
  induction n generalizing u k with
  | zero =>
    exact h
  | succ n ih =>
    unfold Machine.issuePackets
    refine .ite h ?_
    split
    · exact h
    · exact .ite h <| .ite (.ite (ih <| .issueRead h) h) <| ih <| .sendTx <| .modMsg <| .modQp h

theorem KeepsForm.runSend {q : Nat} (h : KeepsForm s u) : KeepsForm s (Machine.runSend u q) := by
  unfold Machine.runSend
  exact .report <| .issuePackets <| .readDescriptors h

theorem KeepsForm.sendAckNak {q : Nat} {nak : Option Nat} {msn : Nat} (h : KeepsForm s u) :
    KeepsForm s (Machine.sendAckNak u q nak msn) := by
  unfold Machine.sendAckNak
  exact .sendQueuePacket <| .modQp h

theorem KeepsForm.placePsns {q psn n : Nat} (h : KeepsForm s u) : KeepsForm s (Machine.placePsns u q psn n) := by
  unfold Machine.placePsns
  exact .modQp h

theorem KeepsForm.fastRepeat {q ack sack : Nat} {p : TxPacket} (h : KeepsForm s u) : KeepsForm s (Machine.fastRepeat q ack sack u p) := by
  unfold Machine.fastRepeat
  exact .ite (.sendTx <| .incF <| .modQp h) h

theorem KeepsForm.takeAck {q ack sack : Nat} (h : KeepsForm s u) : KeepsForm s (Machine.takeAck u q ack sack) := by
  unfold Machine.takeAck
  exact .runSend <| .report <| .foldl (fun _ _ hv => .fastRepeat hv) <| .modQp h

theorem KeepsForm.repeatPacket {q : Nat} {p : TxPacket} (h : KeepsForm s u) : KeepsForm s (Machine.repeatPacket u q p) := by
  unfold Machine.repeatPacket
  exact .ite (.failMsg <| .emit h) <| .sendTx <| .incF <| .modQp h

theorem KeepsForm.revokeRegion {r : Nat} (h : KeepsForm s u) : KeepsForm s (Machine.revokeRegion u r) := by
  unfold Machine.revokeRegion
  exact .ite h <| .checkDrains <| .ite (.setRegion h) <| .fields <| .setRegion h

theorem KeepsForm.registerRegion {r lo hi : Nat} (h : KeepsForm s u) : KeepsForm s (Machine.registerRegion u r lo hi) := by
  obtain ⟨entry, hentry⟩ : ∃ f, f = regionXlate := ⟨_, Eq.refl _⟩
  obtain ⟨write, hwrite⟩ : ∃ f, f = Machine.writeXlate := ⟨_, Eq.refl _⟩
  have hwritten {v e} (hv : KeepsForm s v) : KeepsForm s (write v e).1 := hwrite ▸ .writeXlate hv
  unfold Machine.registerRegion
  rw [← hentry, ← hwrite]
  refine .ite (.regionResult h) ?_
  split
  · exact .regionResult h
  · refine .ite (.regionResult <| .setRegion <| .draw h) (.ite ?_ (.regionResult h))
    split
    · exact .regionResult h
    · split
      · exact .regionResult h
      next heq => exact .regionResult <| .setRegion <| .fst (hwritten <| .draw h) heq

theorem KeepsForm.createQp {q : Nat} {x : QueuePair} (h : KeepsForm s u) : KeepsForm s (Machine.createQp u q x) := by
  unfold Machine.createQp
  exact .setQp h

theorem KeepsForm.resetQp {q : Nat} (h : KeepsForm s u) : KeepsForm s (Machine.resetQp u q) := by
  unfold Machine.resetQp
  exact .checkDrains <| .setQp h

theorem KeepsForm.destroyQp {q : Nat} (h : KeepsForm s u) : KeepsForm s (Machine.destroyQp u q) := by
  refine .checkDrains ?_
  refine .setQp ?_
  split
  · exact .startRelease h
  · exact h

theorem KeepsForm.endQueues {j : Nat} (h : KeepsForm s u) : KeepsForm s (Machine.endQueues u j) := by
  unfold Machine.endQueues
  exact .fields <| .foldl (fun _ _ hv => .devSetF hv) <| .foldl (fun _ _ hv => .setQp <| .destroyQp hv) <|
      .foldl (fun _ _ hv => .revokeRegion hv) h

theorem KeepsForm.drawSpaceKey {j : Nat} (h : KeepsForm s u) : KeepsForm s (Machine.drawSpaceKey u j) := by
  unfold Machine.drawSpaceKey
  exact .draw <| .fields h

theorem KeepsForm.runChain {n k i m : Nat} (h : KeepsForm s u) : KeepsForm s (Machine.runChain n k u i m).1 := by
  induction k generalizing u i m with
  | zero =>
    exact h
  | succ k ih =>
    unfold Machine.runChain
    exact .iteFst (.fields h) <| ih <| .fields h

theorem KeepsForm.police {h' : BitVec 256} {destJob bytes : Nat} (h : KeepsForm s u) :
    KeepsForm s (Machine.police u h' destJob bytes).1 := by
  refine .iteFst h ?_
  split
  · exact h
  · exact .foldl (fun _ _ hv1 => .incF hv1) <| .runChain h

theorem KeepsForm.notePacket {q : Nat} {qh : BitVec 256} (h : KeepsForm s u) : KeepsForm s (Machine.notePacket u q qh) := by
  unfold Machine.notePacket
  exact .modQp h

theorem KeepsForm.noteMsn {q : Nat} {qh : BitVec 256} (h : KeepsForm s u) : KeepsForm s (Machine.noteMsn u q qh) := by
  unfold Machine.noteMsn
  exact .modQp h

theorem KeepsForm.reportRecv {n k : Nat} (h : KeepsForm s u) : KeepsForm s (Machine.reportRecv n u k) := by
  induction n generalizing u k with
  | zero =>
    exact h
  | succ n ih =>
    unfold Machine.reportRecv
    dsimp only
    split
    · exact h
    · exact ih <| .ite (.postCompletion <| .modQp <| .setQp h) <| .ite (.postCompletion <| .setQp h) <| .setQp h

theorem KeepsForm.recordRecv {q opcode : Nat} {h' qh : BitVec 256} {off n len key : Nat} (h : KeepsForm s u) :
    KeepsForm s (Machine.recordRecv u q opcode h' qh off n len key) := by
  unfold Machine.recordRecv
  exact .setQp h

theorem KeepsForm.afterPlace {q psn n msn : Nat} (h : KeepsForm s u) : KeepsForm s (Machine.afterPlace u q psn n msn) := by
  unfold Machine.afterPlace
  exact .ite (.sendAckNak <| .checkDrains <| .reportRecv <| .placePsns h) <| .checkDrains <| .reportRecv <| .placePsns h

theorem KeepsForm.dropPsn {q : Nat} {c : PsnClass} (h : KeepsForm s u) : KeepsForm s (Machine.dropPsn u q c) := by
  unfold Machine.dropPsn
  exact .ite (.sendAckNak <| .incF h) <| .incF h

theorem KeepsForm.admitPacket {h' qh : BitVec 256} {payload : List Byte} (h : KeepsForm s u) :
    KeepsForm s (Machine.admitPacket u h' qh payload).1 := by
  refine .iteFst (.incF h) ?_
  dsimp only
  split
  next heq => exact .fst (.police h) heq
  next heq =>
    have hw := KeepsForm.fst (.police h) heq
    exact .iteFst (.refuseTx hw) <| .iteFst (.refuseTx hw) <| .iteFst (.refuseTx hw) <| .iteFst (.refuseTx hw) <| .iteFst hw <| .noteMsn <|
        .notePacket hw

theorem KeepsForm.refuseBy {h' : BitVec 256} {e : Nat × Option Nat} (h : KeepsForm s u) : KeepsForm s (Machine.refuseBy u h' e) := by
  refine .refuseTx ?_
  split
  · exact .countRefusal h
  · exact h

theorem KeepsForm.recvWrite {h' qh : BitVec 256} {payload : List Byte} {imm : Bool} (h : KeepsForm s u) :
    KeepsForm s (Machine.recvWrite u h' qh payload imm) := by
  unfold Machine.recvWrite
  split
  next heq => exact .fst (.admitPacket h) heq
  next heq =>
    have hw := KeepsForm.fst (.admitPacket h) heq
    split
    · exact .refuseBy hw
    · split
      · exact .afterPlace <| .recordRecv <| .ite (.incF <| .ownWrite hw) <| .ownWrite hw
      · exact .dropPsn hw

theorem KeepsForm.recvFails {q m opcode status wr source : Nat} (h : KeepsForm s u) :
    KeepsForm s (Machine.recvFails u q m opcode status wr source) := by
  unfold Machine.recvFails
  exact .qpError <| .postCompletion <| .modQp <| .flushReceives h

theorem KeepsForm.recvSend {h' qh : BitVec 256} {payload : List Byte} {imm : Bool} (h : KeepsForm s u) :
    KeepsForm s (Machine.recvSend u h' qh payload imm) := by
  unfold Machine.recvSend
  split
  next heq => exact .fst (.admitPacket h) heq
  next heq =>
    have hw := KeepsForm.fst (.admitPacket h) heq
    dsimp only
    split
    · exact .ite (.sendAckNak hw) <| .ite (.recvFails <| .sendAckNak hw) <| .ite (.recvFails <| .freezeMaster hw) <| .afterPlace <|
          .recordRecv <| .ownWrite hw
    · exact .dropPsn hw

theorem KeepsForm.sendReadResp {q : Nat} {req : BitVec 256} {p : Nat × (Nat × Nat) × List Byte} (h : KeepsForm s u) :
    KeepsForm s (Machine.sendReadResp q req u p) := by
  unfold Machine.sendReadResp
  exact .sendQueuePacket h

theorem KeepsForm.recvReadReq {h' qh : BitVec 256} {bad : Bool} (h : KeepsForm s u) : KeepsForm s (Machine.recvReadReq u h' qh bad) := by
  unfold Machine.recvReadReq
  split
  next heq => exact .fst (.admitPacket h) heq
  next heq =>
    have hw := KeepsForm.fst (.admitPacket h) heq
    dsimp only
    split
    · exact .refuseBy hw
    · refine .ite (.refuseTx <| .foldl (fun _ _ hv2 => .settleOwn hv2) hw) ?_
      split
      · exact .incF <| .foldl (fun _ _ hv3 => .settleOwn hv3) hw
      · exact .ite (.afterPlace <| .foldl (fun _ _ hv3 => .recordRecv hv3) <| .foldl (fun _ _ hv3 => .sendReadResp hv3) <|
            .foldl (fun _ _ hv3 => .settleOwn hv3) hw) <| .foldl (fun _ _ hv3 => .sendReadResp hv3) <|
            .foldl (fun _ _ hv3 => .settleOwn hv3) hw

theorem KeepsForm.recvAtomicReq {h' qh : BitVec 256} {payload : List Byte} {bad : Bool} (h : KeepsForm s u) :
    KeepsForm s (Machine.recvAtomicReq u h' qh payload bad) := by
  dsimp only [Machine.recvAtomicReq]
  split
  next heq => exact .fst (.admitPacket h) heq
  next heq =>
    have hw := KeepsForm.fst (.admitPacket h) heq
    split
    · exact .sendQueuePacket <| .incF hw
    · split
      · exact .refuseBy hw
      · refine .ite (.refuseTx hw) ?_
        split
        · exact .incF hw
        · exact .ite (.refuseTx <| .settleOwn hw) <| .sendQueuePacket <| .afterPlace <| .recordRecv <| .modQp <|
            .ite (.incF <| .doAtomic <| .settleOwn hw) <| .doAtomic <| .settleOwn hw

theorem KeepsForm.recvReadResp {h' qh : BitVec 256} {payload : List Byte} (h : KeepsForm s u) :
    KeepsForm s (Machine.recvReadResp u h' qh payload) := by
  refine .ite (.incF h) ?_
  refine .ite h ?_
  dsimp only
  split
  · exact .incF <| .notePacket h
  · split
    · exact .notePacket h
    · exact .runSend <| .report <| .modMsg <| .modQp <| .ownWrite <| .notePacket h

theorem KeepsForm.recvAtomicResp {h' qh : BitVec 256} {payload : List Byte} (h : KeepsForm s u) :
    KeepsForm s (Machine.recvAtomicResp u h' qh payload) := by
  refine .ite (.incF h) ?_
  refine .ite h ?_
  dsimp only
  split
  · exact .incF <| .notePacket h
  · exact .runSend <| .report <| .modMsg <| .modQp <| .ownWrite <| .notePacket h

theorem KeepsForm.recvAck {h' qh : BitVec 256} {payload : List Byte} (h : KeepsForm s u) :
    KeepsForm s (Machine.recvAck u h' qh payload) := by
  unfold Machine.recvAck
  exact .ite (.incF h) <| .ite h <| .takeAck <| .notePacket h

theorem KeepsForm.recvNak {h' qh : BitVec 256} {payload : List Byte} (h : KeepsForm s u) :
    KeepsForm s (Machine.recvNak u h' qh payload) := by
  refine .ite (.incF h) ?_
  refine .ite h ?_
  dsimp only
  split
  · exact .takeAck <| .notePacket h
  · exact .ite (.failMsg <| .takeAck <| .notePacket h) <| .ite (.failMsg <| .takeAck <| .notePacket h) <| .modMsg <| .takeAck <|
        .notePacket h

theorem KeepsForm.rnrRepeat {q msn : Nat} (h : KeepsForm s u) : KeepsForm s (Machine.rnrRepeat u q msn) := by
  unfold Machine.rnrRepeat
  split
  · exact h
  · split
    · exact h
    · exact .ite h <| .foldl (fun _ _ hv2 => .sendTx <| .modQp hv2) <| .modMsg h

theorem KeepsForm.queueRefused {h' : BitVec 256} (h : KeepsForm s u) : KeepsForm s (Machine.queueRefused u h') := by
  dsimp only [Machine.queueRefused]
  split
  · exact h
  · exact .ite (.addThaw <| .failMsg h) <| .failMsg h

theorem KeepsForm.queuesDead {e : Nat} (h : KeepsForm s u) : KeepsForm s (Machine.queuesDead u e) := by
  unfold Machine.queuesDead
  exact .foldl (fun _ _ hv => .checkDrains <| .modQp <| .ite (.qpFlush hv) hv) h

/-! ### Jobs -/

theorem KeepsForm.floodNote {note subject inc image jb : Nat} (h : KeepsForm s u) :
    KeepsForm s (Machine.floodNote u note subject inc image jb) := by
  unfold Machine.floodNote
  exact .foldl (fun _ _ hv => .sendWord hv) <| .fields h

theorem KeepsForm.setJobMode {j : Nat} {m : JobMode} (h : KeepsForm s u) : KeepsForm s (Machine.setJobMode u j m) := by
  unfold Machine.setJobMode
  exact .setF <| .modJob h

theorem KeepsForm.endHandling {u' : Nat} (h : KeepsForm s u) : KeepsForm s (Machine.endHandling u u') := by
  unfold Machine.endHandling
  exact .modUnit h

theorem KeepsForm.releaseSets {j : Nat} (h : KeepsForm s u) : KeepsForm s (Machine.releaseSets u j) := by
  unfold Machine.releaseSets
  exact .foldl (fun _ _ hv => .modGutter hv) <| .foldl (fun _ _ hv => .setSeq hv) <| .foldl (fun _ _ hv => .startRelease hv) <|
      .foldl (fun _ _ hv => .endHandling hv) h

theorem KeepsForm.discardJobFlash {j : Nat} (h : KeepsForm s u) : KeepsForm s (Machine.discardJobFlash u j) := by
  unfold Machine.discardJobFlash
  exact .foldl (fun _ _ hv => .flashDiscard hv) h

theorem KeepsForm.attendRefuse {code : Nat} {a : AttendWork} (h : KeepsForm s u) : KeepsForm s (Machine.attendRefuse code u a) := by
  unfold Machine.attendRefuse
  exact .incF <| .transmit h

theorem KeepsForm.endSpans {j : Nat} (h : KeepsForm s u) : KeepsForm s (Machine.endSpans u j) := by
  unfold Machine.endSpans
  exact .fields <| .foldl (fun _ _ hv => .ite (.setF hv) hv) <| .foldl (fun _ _ hv => .attendRefuse hv) h

theorem KeepsForm.endHandoffs {j : Nat} (h : KeepsForm s u) : KeepsForm s (Machine.endHandoffs u j) := by
  unfold Machine.endHandoffs
  exact .setF <| .fields h

theorem KeepsForm.dropTargets {j : Nat} (h : KeepsForm s u) : KeepsForm s (Machine.dropTargets u j) :=
  .fields h

theorem KeepsForm.dropJobWork {j : Nat} (h : KeepsForm s u) : KeepsForm s (Machine.dropJobWork u j) := by
  unfold Machine.dropJobWork
  exact .fields <| .fields h

theorem KeepsForm.releaseJob {j : Nat} {open0 : List Nat} {keep : JobSt → JobSt} (h : KeepsForm s u) :
    KeepsForm s (Machine.releaseJob u j open0 keep) := by
  unfold Machine.releaseJob
  exact .setF <| .setF <| .modJob <| .dropTargets <| .dropJobWork <| .releaseSets <| .endHandoffs <| .endSpans <| .startSweep <| .fields <|
      .foldl (fun _ _ hv => .stopWrites hv) <| .discardJobFlash <| .endQueues <| .endXlates h

theorem KeepsForm.freeSigs {j : Nat} (h : KeepsForm s u) : KeepsForm s (Machine.freeSigs u j) := by
  unfold Machine.freeSigs
  exact .foldl (fun _ _ hv => .setSigState hv) h

theorem KeepsForm.writeRemoteFolio {dest idx sub width v' : Nat} (h : KeepsForm s u) :
    KeepsForm s (Machine.writeRemoteFolio u dest idx sub width v') := by
  unfold Machine.writeRemoteFolio
  exact .issue h

theorem KeepsForm.discardBookmarks {j : Nat} (h : KeepsForm s u) : KeepsForm s (Machine.discardBookmarks u j) := by
  unfold Machine.discardBookmarks
  exact .foldl (fun _ _ hv => .ite hv <| .ite (.bookmarkDiscardAction hv) <| .writeRemoteFolio hv) h

theorem KeepsForm.endKey {j : Nat} (h : KeepsForm s u) : KeepsForm s (Machine.endKey u j) := by
  unfold Machine.endKey
  exact .ite (.setF <| .setJobMode <| .startZeroing h) <| .startZeroing h

theorem KeepsForm.finishEnd {j : Nat} (h : KeepsForm s u) : KeepsForm s (Machine.finishEnd u j) := by
  unfold Machine.finishEnd
  exact .ite h <| .endKey <| .discardBookmarks <| .releaseJob <| .freeSigs h

theorem KeepsForm.acceptStart {j : Nat} {restart : Bool} (h : KeepsForm s u) : KeepsForm s (Machine.acceptStart u j restart) := by
  unfold Machine.acceptStart
  exact .setF <| .setF <| .setF <| .fields <| .modJob <| .setJobMode h

theorem KeepsForm.restartJob {j : Nat} (h : KeepsForm s u) : KeepsForm s (Machine.restartJob u j) := by
  unfold Machine.restartJob
  exact .ite (.incF <| .acceptStart h) h

theorem KeepsForm.tearDown {j : Nat} {how : Teardown} {flood : Bool} (h : KeepsForm s u) :
    KeepsForm s (Machine.tearDown u j how flood) := by
  dsimp only [Machine.tearDown]
  split
  · exact h
  · exact h
  · exact .incF <| .finishEnd h
  · exact .ite (.restartJob <| .modJob <| .ite (.floodNote <| .fields <| .refuseWaiting <| .setJobMode <| .incF <| .releaseJob <|
        .freeSigs h) <| .fields <| .refuseWaiting <| .setJobMode <| .incF <| .releaseJob <| .freeSigs h) <| .modJob <| .ite (.floodNote <|
        .fields <| .refuseWaiting <| .setJobMode <| .incF <| .releaseJob <| .freeSigs h) <| .fields <| .refuseWaiting <| .setJobMode <|
        .incF <| .releaseJob <| .freeSigs h

theorem KeepsForm.tearDownJob {j : Nat} (h : KeepsForm s u) : KeepsForm s (Machine.tearDownJob u j) := by
  unfold Machine.tearDownJob
  exact .tearDown h

theorem KeepsForm.loseGroup {j g : Nat} {t : Tier} (h : KeepsForm s u) : KeepsForm s (Machine.loseGroup u j g t) := by
  unfold Machine.loseGroup
  exact .ite (.evictGroup <| .ite (.incF h) h) <| .tearDownJob <| .logErr <| .ite (.incF h) h

/-! ### LinkBase -/

theorem KeepsForm.noteChange (h : KeepsForm s u) : KeepsForm s (Machine.noteChange u) :=
  .fields h

theorem KeepsForm.trainFail {l cause : Nat} {count : Bool} (h : KeepsForm s u) : KeepsForm s (Machine.trainFail u l cause count) := by
  unfold Machine.trainFail
  exact .setF h

theorem KeepsForm.leaveService {l : Nat} {m : LinkMode} (h : KeepsForm s u) : KeepsForm s (Machine.leaveService u l m) := by
  unfold Machine.leaveService
  exact .ite (.foldl (fun _ _ hv => .tearDownJob hv) <| .ite (.noteChange <| .setLink h) <| .setLink h) <| .ite (.noteChange <|
      .setLink h) <| .setLink h

theorem KeepsForm.enterDown {l : Nat} (h : KeepsForm s u) : KeepsForm s (Machine.enterDown u l) := by
  unfold Machine.enterDown
  exact .leaveService h

theorem KeepsForm.failTraining {l cause : Nat} (h : KeepsForm s u) : KeepsForm s (Machine.failTraining u l cause) := by
  unfold Machine.failTraining
  exact .trainFail <| .enterDown h

theorem KeepsForm.disableLink {l : Nat} (h : KeepsForm s u) : KeepsForm s (Machine.disableLink u l) := by
  unfold Machine.disableLink
  exact .ite h <| .leaveService h

theorem KeepsForm.sendParam {l : Nat} (h : KeepsForm s u) : KeepsForm s (Machine.sendParam u l) := by
  unfold Machine.sendParam
  exact .sendWord <| .modLink h

theorem KeepsForm.tryTrain {l : Nat} (h : KeepsForm s u) : KeepsForm s (Machine.tryTrain u l) := by
  unfold Machine.tryTrain
  exact .ite (.sendParam <| .setLink h) h

theorem KeepsForm.enableLink {l : Nat} (h : KeepsForm s u) : KeepsForm s (Machine.enableLink u l) := by
  unfold Machine.enableLink
  exact .ite (.tryTrain <| .enterDown h) h

theorem KeepsForm.fenceLink {l : Nat} (h : KeepsForm s u) : KeepsForm s (Machine.fenceLink u l) := by
  unfold Machine.fenceLink
  exact .leaveService h

theorem KeepsForm.setDisableBit {l : Nat} {on : Bool} (h : KeepsForm s u) : KeepsForm s (Machine.setDisableBit u l on) := by
  unfold Machine.setDisableBit
  exact .devSetF h

/-! ### Errors -/

theorem KeepsForm.stopSequencers (h : KeepsForm s u) : KeepsForm s (Machine.stopSequencers u) :=
  .fields h

theorem KeepsForm.goDark (h : KeepsForm s u) : KeepsForm s (Machine.goDark u) := by
  unfold Machine.goDark
  exact .ite h <| .emit <| .fields h

theorem KeepsForm.packageFailed (h : KeepsForm s u) : KeepsForm s (Machine.packageFailed u) := by
  unfold Machine.packageFailed
  exact .ite (.goDark <| .stopSequencers h) <| .fields <| .goDark <| .stopSequencers h

theorem KeepsForm.logFence {u' reason : Nat} (h : KeepsForm s u) : KeepsForm s (Machine.logFence u u' reason) := by
  unfold Machine.logFence
  exact .logEntry h

theorem KeepsForm.withdrawRole {reason : Nat} (h : KeepsForm s u) : KeepsForm s (Machine.withdrawRole u reason) := by
  unfold Machine.withdrawRole
  exact .setF <| .setF <| .foldl (fun _ _ hv => .tearDown hv) h

theorem KeepsForm.barSteps {j : Nat} (h : KeepsForm s u) : KeepsForm s (Machine.barSteps u j) := by
  unfold Machine.barSteps
  exact .modJob h

theorem KeepsForm.fenceEffect {u' : Nat} (h : KeepsForm s u) : KeepsForm s (Machine.fenceEffect u u') := by
  dsimp only [Machine.fenceEffect]
  split
  · split
    · exact .barSteps h
    · exact h
  · split
    · exact .barSteps h
    · exact h
  · exact .disableLink <| .setDisableBit h
  · exact .withdrawRole h
  · exact .withdrawRole h
  · exact .ite (.packageFailed h) h
  · exact .packageFailed h
  · exact .packageFailed h
  · exact h

theorem KeepsForm.fence {u' reason : Nat} (h : KeepsForm s u) : KeepsForm s (Machine.fence u u' reason) := by
  unfold Machine.fence
  exact .ite h <| .fenceEffect <| .logFence <| .modUnit h

theorem KeepsForm.failSelfTest {u' : Nat} (h : KeepsForm s u) : KeepsForm s (Machine.failSelfTest u u') :=
  .fields h

theorem KeepsForm.uncorrectableBy {u' cause plane : Nat} {jb : Option Nat} {detail addr master : Nat} (h : KeepsForm s u) :
    KeepsForm s (Machine.uncorrectableBy u u' cause plane jb detail addr master) := by
  refine .ite (.logEntry h) ?_
  dsimp only
  split
  · exact .incF <| .failSelfTest <| .ite (.ite (.endHandling h) h) <| .modUnit <| .ite (.endHandling h) h
  · exact .ite (.failSelfTest <| .ite (.ite (.endHandling h) h) <| .modUnit <| .ite (.endHandling h) h) <| .logEntry <| .modUnit <|
        .failSelfTest <| .ite (.ite (.endHandling h) h) <| .modUnit <| .ite (.endHandling h) h
  · exact .ite (.failSelfTest <| .ite (.ite (.endHandling h) h) <| .modUnit <| .ite (.endHandling h) h) <| .incF <| .fence <| .modUnit <|
        .logEntry <| .failSelfTest <| .ite (.ite (.endHandling h) h) <| .modUnit <| .ite (.endHandling h) h

theorem KeepsForm.uncorrectable {u' cause plane : Nat} {jb : Option Nat} {detail addr : Nat} (h : KeepsForm s u) :
    KeepsForm s (Machine.uncorrectable u u' cause plane jb detail addr) := by
  unfold Machine.uncorrectable
  exact .uncorrectableBy h

theorem KeepsForm.correctable {u' : Nat} (h : KeepsForm s u) : KeepsForm s (Machine.correctable u u') := by
  unfold Machine.correctable
  exact .ite (.ite (.fence <| .logErr <| .modUnit <| .failSelfTest <| .modUnit h) <| .logErr <| .modUnit <| .failSelfTest <| .modUnit h) <|
      .failSelfTest <| .modUnit h

theorem KeepsForm.correctableAt {u' mem addr : Nat} (h : KeepsForm s u) : KeepsForm s (Machine.correctableAt u u' mem addr) := by
  unfold Machine.correctableAt
  exact .correctable <| .memError h

theorem KeepsForm.uncorrectableAt {u' cause plane : Nat} {jb : Option Nat} {detail mem addr : Nat} (h : KeepsForm s u) :
    KeepsForm s (Machine.uncorrectableAt u u' cause plane jb detail mem addr) := by
  unfold Machine.uncorrectableAt
  exact .uncorrectable <| .memError h

theorem KeepsForm.channelHalt {u' plane : Nat} {jb : Option Nat} {beat mem addr master : Nat} (h : KeepsForm s u) :
    KeepsForm s (Machine.channelHalt u u' plane jb beat mem addr master) := by
  unfold Machine.channelHalt
  exact .uncorrectableBy <| .memError h

theorem KeepsForm.endBars {j : Nat} (h : KeepsForm s u) : KeepsForm s (Machine.endBars u j) := by
  unfold Machine.endBars
  exact .ite h <| .foldl (fun _ _ hv => .modSeq hv) h

theorem KeepsForm.settleLate {j : Nat} {r : Option StepRun} (h : KeepsForm s u) : KeepsForm s (Machine.settleLate u j r) := by
  unfold Machine.settleLate
  split
  · exact .ite h <| .addF <| .incF <| .foldl (fun _ _ hv1 => .modE hv1) h
  · exact h

theorem KeepsForm.dropOwnPasses {j : Nat} {p : Nat → Bool} (h : KeepsForm s u) : KeepsForm s (Machine.dropOwnPasses u j p) :=
  .fields h

theorem KeepsForm.voidStep {j : Nat} (h : KeepsForm s u) : KeepsForm s (Machine.voidStep u j) := by
  unfold Machine.voidStep
  exact .ite (.addF <| .foldl (fun _ _ hv => .modSeq hv) <| .modJob <| .dropOwnPasses <| .settleLate <| .settleLate h) h

theorem KeepsForm.unitEvent {j u' : Nat} (h : KeepsForm s u) : KeepsForm s (Machine.unitEvent u j u') := by
  dsimp only [Machine.unitEvent]
  split
  · exact .ite (.tearDownJob <| .fence <| .modJob <| .voidStep h) <| .modJob <| .voidStep h
  · exact .modJob <| .voidStep h

theorem KeepsForm.programTrap {j : Nat} (h : KeepsForm s u) : KeepsForm s (Machine.programTrap u j) := by
  unfold Machine.programTrap
  exact .ite h <| .ite (.tearDown <| .modJob <| .voidStep h) <| .modJob <| .voidStep h

theorem KeepsForm.sequencerFrozen {j : Nat} (h : KeepsForm s u) : KeepsForm s (Machine.sequencerFrozen u j) := by
  unfold Machine.sequencerFrozen
  exact .tearDownJob <| .voidStep h

theorem KeepsForm.freezeBy {cls idx jb rule : Nat} (h : KeepsForm s u) : KeepsForm s (Machine.freezeBy u cls idx jb rule) := by
  unfold Machine.freezeBy
  exact .ite (.sequencerFrozen <| .freezeMaster h) <| .freezeMaster h

theorem KeepsForm.trapAt {i cause a : Nat} (h : KeepsForm s u) : KeepsForm s (Machine.trapAt u i cause a) := by
  dsimp only [Machine.trapAt]
  split
  · exact h
  · exact .ite (.unitEvent <| .uncorrectable <| .ite (.incF <| .setSeq h) <| .incF <| .setSeq h) <| .ite (.sequencerFrozen <| .logErr <|
        .ite (.freezeQuiet <| .ite (.incF <| .setSeq h) <| .incF <| .setSeq h) <| .ite (.incF <| .setSeq h) <| .incF <| .setSeq h) <|
        .programTrap <| .logErr <| .ite (.incF <| .setSeq h) <| .incF <| .setSeq h

theorem KeepsForm.trapSeq {i cause : Nat} (h : KeepsForm s u) : KeepsForm s (Machine.trapSeq u i cause) := by
  unfold Machine.trapSeq
  exact .trapAt h

theorem KeepsForm.trapMemory {i cause mem a : Nat} (h : KeepsForm s u) : KeepsForm s (Machine.trapMemory u i cause mem a) := by
  unfold Machine.trapMemory
  exact .trapAt <| .memError h

theorem Runs.execHandlingEnd {t unit : Nat} (h : KeepsForm s u) : Runs s (Machine.execHandlingEnd t unit u) := by
  unfold Machine.execHandlingEnd
  exact .next <| .endHandling <| .atTime h

theorem Runs.execHandlingLimitExpiry {t unit : Nat} (h : KeepsForm s u) : Runs s (Machine.execHandlingLimitExpiry t unit u) := by
  unfold Machine.execHandlingLimitExpiry
  exact .next <| .ite (.endHandling <| .atTime h) <| .atTime h

theorem Runs.execCeHourRollover {t : Nat} (h : KeepsForm s u) : Runs s (Machine.execCeHourRollover t u) := by
  unfold Machine.execCeHourRollover
  exact .next <| .fields <| .atTime h

theorem Runs.execNocHopRetrainDone {t half hop : Nat} (h : KeepsForm s u) : Runs s (Machine.execNocHopRetrainDone t half hop u) := by
  unfold Machine.execNocHopRetrainDone
  exact .next <| .ite (.uncorrectable <| .fields <| .atTime h) <| .correctable <| .fields <| .atTime h

theorem KeepsForm.reinstateAction {u' : Nat} (h : KeepsForm s u) : KeepsForm s (Machine.reinstateAction u' u) := by
  unfold Machine.reinstateAction
  exact .ite h <| .ite (.enableLink <| .setDisableBit <| .fields <| .modUnit <| .setF h) <| .fields <| .modUnit <| .setF h

theorem KeepsForm.stayFenced {u' : Nat} (h : KeepsForm s u) : KeepsForm s (Machine.stayFenced u u') := by
  unfold Machine.stayFenced
  exact .ite (.disableLink <| .setDisableBit h) h

theorem Runs.execReinstateSelfTestDone {t unit : Nat} {ok : Bool} {checker : Nat} (h :
    KeepsForm s u) : Runs s (Machine.execReinstateSelfTestDone t unit ok checker u) := by
  dsimp only [Machine.execReinstateSelfTestDone]
  split
  · exact .next <| .atTime h
  · exact .ite (.next <| .setF <| .logErr <| .modUnit <| .fields <| .atTime h) <| .next <| .stayFenced <| .setF <| .logErr <| .modUnit <|
        .fields <| .atTime h

theorem KeepsForm.proveUnit {u' : Nat} {ok : Bool} {checker : Nat} (h : KeepsForm s u) :
    KeepsForm s (Machine.proveUnit u u' ok checker) := by
  unfold Machine.proveUnit
  exact .ite (.modUnit h) <| .ite h <| .setF <| .fence <| .logErr h

theorem Runs.execStartupCheckersProved {t : Nat} {failed : List (Nat × Nat)} (h :
    KeepsForm s u) : Runs s (Machine.execStartupCheckersProved t failed u) := by
  unfold Machine.execStartupCheckersProved
  exact .next <| .initStage <| .setF <| .fields <| .foldl (fun _ _ hv => .ite hv <| .modUnit hv) <| .foldl (fun _ _ hv => .proveUnit hv) <|
      .atTime h

theorem KeepsForm.tailAction {v' : Nat} (h : KeepsForm s u) : KeepsForm s (Machine.tailAction v' u) := by
  unfold Machine.tailAction
  exact .setF <| .setF h

theorem KeepsForm.addrlogClearAction {mm : Nat} (h : KeepsForm s u) : KeepsForm s (Machine.addrlogClearAction mm u) :=
  .fields h

theorem KeepsForm.releaseAction {v' : Nat} (h : KeepsForm s u) : KeepsForm s (Machine.releaseAction v' u) := by
  unfold Machine.releaseAction
  split
  · exact .startRelease h
  · exact h

theorem Runs.execThawWaitEnd {t cls index : Nat} (h : KeepsForm s u) : Runs s (Machine.execThawWaitEnd t cls index u) := by
  dsimp only [Machine.execThawWaitEnd]
  split
  · exact .next <| .atTime h
  · split
    · exact .next <| .atTime h
    · exact .next <| .ite (.released <| .atTime h) <| .atTime h

theorem KeepsForm.injectCorrectableAction {u' : Nat} (h : KeepsForm s u) : KeepsForm s (Machine.injectCorrectableAction u' u) := by
  unfold Machine.injectCorrectableAction
  exact .ite (.fields h) <| .correctableAt <| .draw h

theorem KeepsForm.injectUncorrectableAction {u' : Nat} (h : KeepsForm s u) : KeepsForm s (Machine.injectUncorrectableAction u' u) := by
  unfold Machine.injectUncorrectableAction
  exact .uncorrectableAt <| .draw h

theorem KeepsForm.injectPathAction {u' : Nat} (h : KeepsForm s u) : KeepsForm s (Machine.injectPathAction u' u) := by
  unfold Machine.injectPathAction
  exact .ite (.fields h) <| .uncorrectable h

theorem Runs.execUcieModuleFail {t module : Nat} (h : KeepsForm s u) : Runs s (Machine.execUcieModuleFail t module u) := by
  unfold Machine.execUcieModuleFail
  exact .next <| .fence <| .atTime h

/-! ### Fabric -/

theorem KeepsForm.abandonMove {m : TierMove} (h : KeepsForm s u) : KeepsForm s (Machine.abandonMove u m) := by
  refine .ite (.startMoves <| .endMoving <| .dropMove <| .stopWrites h) ?_
  refine .ite (.evictGroup <| .startMoves <| .endMoving <| .dropMove <| .stopWrites h) ?_
  split
  · exact .promote <| .startMoves <| .endMoving <| .dropMove <| .stopWrites h
  · exact .startMoves <| .endMoving <| .dropMove <| .stopWrites h

theorem KeepsForm.moveLost {m : TierMove} (h : KeepsForm s u) : KeepsForm s (Machine.moveLost u m) := by
  unfold Machine.moveLost
  exact .ite (.loseGroup <| .startMoves <| .endMoving <| .dropMove <| .stopWrites h) <| .startMoves <| .endMoving <| .dropMove <|
      .stopWrites h

theorem KeepsForm.releaseOne {st : State × List Withheld} {w : Withheld} (h : KeepsForm s st.1) :
    KeepsForm s (Machine.releaseOne st w).1 := by
  unfold Machine.releaseOne
  exact .iteFst h <| .launch h

theorem KeepsForm.releaseHeld {dest : Nat} (h : KeepsForm s u) : KeepsForm s (Machine.releaseHeld u dest) := by
  unfold Machine.releaseHeld
  exact .fields <| .foldlFst (fun _ _ hv => .releaseOne hv) <| .fields h

theorem KeepsForm.failTier {jb status : Nat} {h' : BitVec 256} (h : KeepsForm s u) : KeepsForm s (Machine.failTier u jb status h') := by
  unfold Machine.failTier
  split
  · exact h
  · exact .ite (.abandonMove h) <| .ite (.moveLost h) <| .abandonMove h

theorem KeepsForm.failSpan {jb status : Nat} {h' : BitVec 256} (h : KeepsForm s u) : KeepsForm s (Machine.failSpan u jb status h') := by
  unfold Machine.failSpan
  exact .ite (.tearDownJob h) <| .addF <| .fields h

theorem KeepsForm.thawLate {cls idx jb : Nat} {refuser : Option Nat} (h : KeepsForm s u) :
    KeepsForm s (Machine.thawLate u cls idx jb refuser) := by
  unfold Machine.thawLate
  split
  · exact .sendThaw h
  · exact h

theorem KeepsForm.failMaster {master jb status : Nat} {refuser : Option Nat} {h' : BitVec 256} (h : KeepsForm s u) :
    KeepsForm s (Machine.failMaster u master jb status refuser h') := by
  refine .ite h ?_
  refine .ite ?_ ?_
  · split
    · exact .addThaw h
    · exact h
  · refine .ite ?_ ?_
    · refine .ite ?_ (.ite (.thawLate h) h)
      refine .ite ?_ (.tearDownJob <| .voidStep h)
      refine .trapSeq ?_
      split
      · exact .addThaw <| .freezeQuiet h
      · exact .freezeQuiet h
    · refine .ite (.ite (.tearDownJob <| .logMaster h) <| .ite (.failTier h) <| .failSpan h) ?_
      refine .ite (.ite (.logMaster h) h) ?_
      refine .ite ?_ h
      refine .ite ?_ h
      split
      · exact .addThaw <| .freezeMaster h
      · exact .freezeMaster h

theorem KeepsForm.completeTx {o : Outstanding} {status : Nat} {payload : List Byte} {refuser : Option Nat} (h : KeepsForm s u) :
    KeepsForm s (Machine.completeTx u o status payload refuser) := by
  refine .bookPumps ?_
  refine .releaseHeld ?_
  refine .ite ?_ (.bookFail <| .failMaster <| .incF <| .emit <| .fields h)
  split
  · exact .ownWrite <| .emit <| .fields h
  · exact .emit <| .fields h

theorem KeepsForm.takeResponse {h' : BitVec 256} {type : Nat} {payload : List Byte} (h : KeepsForm s u) :
    KeepsForm s (Machine.takeResponse u h' type payload) := by
  refine .ite h ?_
  refine .ite (.incF <| .incF h) ?_
  split
  · exact .incF h
  · exact .ite (.thawAcked <| .completeTx h) <| .completeTx h

theorem KeepsForm.dropMember {e : Nat} (h : KeepsForm s u) : KeepsForm s (Machine.dropMember u e) := by
  unfold Machine.dropMember
  exact .foldl (fun _ _ hv => .poisonLine hv) <| .fields h

theorem KeepsForm.fabricDead {e : Nat} (h : KeepsForm s u) : KeepsForm s (Machine.fabricDead u e) := by
  unfold Machine.fabricDead
  exact .queuesDead <| .dropMember <| .bookPumps <| .foldl (fun _ _ hv => .bookFail <| .failMaster <| .emit <| .incF hv) <|
      .foldl (fun _ _ hv => .completeTx hv) <| .fields h

theorem KeepsForm.localRefuse {cls idx jb : Nat} (h : KeepsForm s u) : KeepsForm s (Machine.localRefuse u cls idx jb) := by
  refine .ite (.trapSeq <| .emit h) ?_
  refine .ite ?_ (.emit h)
  split
  · exact .failMsg <| .emit h
  · exact .freezeMaster <| .emit h

theorem KeepsForm.failAtOnce {cls idx jb status type dest off : Nat} (h : KeepsForm s u) :
    KeepsForm s (Machine.failAtOnce u cls idx jb status type dest off) := by
  unfold Machine.failAtOnce
  exact .failMaster <| .emit <| .incF h

theorem KeepsForm.sramRefuse {cls idx jb a : Nat} (h : KeepsForm s u) : KeepsForm s (Machine.sramRefuse u cls idx jb a) := by
  unfold Machine.sramRefuse
  exact .ite (.trapSeq h) <| .freezeMaster h

theorem KeepsForm.issuePiece {e : OutEntry} {cls index jb op aop off : Nat} {data : List Byte} {dst : Option Nat} {p : Nat × Nat}
    (h : KeepsForm s u) : KeepsForm s (Machine.issuePiece e cls index jb op aop off data dst u p) := by
  dsimp only [Machine.issuePiece]
  split
  next heq => exact .fst (.issue h) heq
  next heq => exact .failAtOnce <| .fst (.issue h) heq

theorem Runs.execOutboundAccess {t cls index jb op aop addr len : Nat} {data : List Byte} {dst : Option Nat} (h :
    KeepsForm s u) : Runs s (Machine.execOutboundAccess t cls index jb op aop addr len data dst u) := by
  unfold Machine.execOutboundAccess
  exact .ite (.next <| .atTime h) <| .ite (.next <| .localRefuse <| .atTime h) <| .ite (.next <| .sramRefuse <| .atTime h) <| .next <|
      .foldl (fun _ _ hv => .issuePiece hv) <| .atTime h

theorem KeepsForm.serviceError {h' : BitVec 256} {a beat : Nat} (h : KeepsForm s u) : KeepsForm s (Machine.serviceError u h' a beat) := by
  unfold Machine.serviceError
  exact .ite (.channelHalt <| .countUncorrectable h) <| .channelHalt h

theorem KeepsForm.flashRetried {page : Nat} (h : KeepsForm s u) : KeepsForm s (Machine.flashRetried u page) := by
  unfold Machine.flashRetried
  exact .correctable <| .countCorrected h

theorem KeepsForm.engineRepeat {a : Nat} (h : KeepsForm s u) : KeepsForm s (Machine.engineRepeat u a) := by
  unfold Machine.engineRepeat
  exact .ite h <| .ite (.flashRetried h) <| .correctableAt h

theorem KeepsForm.performFlash {h' : BitVec 256} {a : Nat} {payload : List Byte} (h : KeepsForm s u) :
    KeepsForm s (Machine.performFlash u h' a payload) := by
  unfold Machine.performFlash
  exact .ite (.respond h) <| .ite (.respond h) <| .ite (.bookPumps <| .flashBytes <| .clearPoison h) <| .bookPumps <| .flashBytes h

theorem KeepsForm.perform {h' : BitVec 256} {a : Nat} {payload : List Byte} {read : TargetRead} {back : List (Nat × List Byte)}
    (h : KeepsForm s u) : KeepsForm s (Machine.perform u h' a payload read back) := by
  dsimp only [Machine.perform]
  split
  · exact .respond <| .serviceError <| .foldl (fun _ _ hv1 => .engineRepeat hv1) <| .settleRange h
  · refine .ite (.respond <| .foldl (fun _ _ hv1 => .engineRepeat hv1) <| .settleRange h) ?_
    refine .ite (.performFlash <| .foldl (fun _ _ hv1 => .engineRepeat hv1) <| .settleRange h) ?_
    refine .ite (.respond <| .clearPoison <| .targetWrite <| .foldl (fun _ _ hv1 => .engineRepeat hv1) <| .settleRange h) ?_
    refine .ite (.respond <| .foldl (fun _ _ hv1 => .engineRepeat hv1) <| .settleRange h) ?_
    split
    · exact .respond <| .foldl (fun _ _ hv2 => .engineRepeat hv2) <| .settleRange h
    · exact .ite (.respond <| .foldl (fun _ _ hv2 => .engineRepeat hv2) <| .settleRange h) <| .respond <| .doAtomic <|
          .foldl (fun _ _ hv2 => .engineRepeat hv2) <| .settleRange h

theorem KeepsForm.serveRequest {h' : BitVec 256} {payload : List Byte} {read : TargetRead} {back : List (Nat × List Byte)} (h :
    KeepsForm s u) : KeepsForm s (Machine.serveRequest u h' payload read back) := by
  refine .ite (.refuseTx h) ?_
  refine .ite (.refuseTx h) ?_
  dsimp only
  split
  · refine .refuseTx ?_
    split
    · exact .countRefusal h
    · exact h
  · exact .perform h

theorem KeepsForm.flashFault {page cls : Nat} (h : KeepsForm s u) : KeepsForm s (Machine.flashFault u page cls) := by
  unfold Machine.flashFault
  exact .channelHalt <| .countUncorrectable h

theorem Runs.execFlashRead {t id page effort : Nat} (h : KeepsForm s u) : Runs s (Machine.execFlashRead t id page effort u) := by
  unfold Machine.execFlashRead
  exact .next <| .ite (.emit <| .atTime h) <| .ite (.emit <| .atTime h) <| .ite (.emit <| .atTime h) <| .ite (.emit <| .atTime h) <|
      .ite (.emit <| .flashRetried <| .atTime h) <| .emit <| .flashFault <| .atTime h

theorem Runs.execFlashWrite {t id page : Nat} {data : List Byte} (h :
    KeepsForm s u) : Runs s (Machine.execFlashWrite t id page data u) := by
  unfold Machine.execFlashWrite
  exact .next <| .bookPumps <| .flashWrite h

theorem Runs.execFlashProgramComplete {t ch : Nat} {ok : Bool} (h :
    KeepsForm s u) : Runs s (Machine.execFlashProgramComplete t ch ok u) := by
  unfold Machine.execFlashProgramComplete
  exact .next <| .bookPumps <| .flashProgramComplete h

theorem KeepsForm.reclaimPage {ch : Nat} {read : ReclaimRead} {page : Nat} (h : KeepsForm s u) :
    KeepsForm s (Machine.reclaimPage ch read u page) := by
  unfold Machine.reclaimPage
  exact .ite h <| .ite (.ite (.endHandling <| .flashFault <| .incF <| .storeMap <| .fields h) <| .flashFault <| .incF <| .storeMap <|
      .fields h) <| .copyPage <| .ite (.flashRetried h) h

theorem Runs.execFlashReclaim {t ch : Nat} {read : ReclaimRead} (h : KeepsForm s u) : Runs s (Machine.execFlashReclaim t ch read u) := by
  refine .next ?_
  refine .bookPumps ?_
  refine .ite ?_ (.fields <| .atTime h)
  dsimp only
  split
  · exact .flashStateUpdate <| .fields <| .atTime h
  · exact .ite (.foldl (fun _ _ hv1 => .reclaimPage hv1) <| .fields <| .atTime h) <| .fields <| .foldl (fun _ _ hv1 => .reclaimPage hv1) <|
        .fields <| .atTime h

theorem Runs.execFlashEraseComplete {t ch u' : Nat} {ok : Bool} (h :
    KeepsForm s u) : Runs s (Machine.execFlashEraseComplete t ch u' ok u) := by
  unfold Machine.execFlashEraseComplete
  exact .next <| .bookPumps <| .flashEraseComplete h

theorem Runs.execLoadResp {t : Nat} {header : BitVec 256} {payload : List Byte} (h :
    KeepsForm s u) : Runs s (Machine.execLoadResp t header payload u) := by
  unfold Machine.execLoadResp
  exact .next <| .takeResponse <| .atTime h

theorem Runs.execStoreAck {t : Nat} {header : BitVec 256} (h : KeepsForm s u) : Runs s (Machine.execStoreAck t header u) := by
  unfold Machine.execStoreAck
  exact .next <| .takeResponse <| .atTime h

theorem Runs.execAtomicResp {t : Nat} {header : BitVec 256} {payload : List Byte} (h :
    KeepsForm s u) : Runs s (Machine.execAtomicResp t header payload u) := by
  unfold Machine.execAtomicResp
  exact .next <| .takeResponse <| .atTime h

theorem Runs.execRefuse {t : Nat} {header : BitVec 256} (h : KeepsForm s u) : Runs s (Machine.execRefuse t header u) := by
  unfold Machine.execRefuse
  exact .ite (.next <| .queueRefused <| .incF <| .atTime h) <| .next <| .takeResponse <| .atTime h

theorem Runs.execThaw {t : Nat} {header : BitVec 256} (h : KeepsForm s u) : Runs s (Machine.execThaw t header u) := by
  unfold Machine.execThaw
  exact .ite (.next <| .refuseUnknown <| .atTime h) <| .ite (.next <| .incF <| .atTime h) <| .ite (.next <| .refuseTx <| .atTime h) <|
      .next <| .respond <| .fields <| .atTime h

theorem KeepsForm.quarantineClearAction {k : Nat} (h : KeepsForm s u) : KeepsForm s (Machine.quarantineClearAction k u) :=
  .fields h

theorem Runs.execTransactionTimeout {t tag : Nat} (h : KeepsForm s u) : Runs s (Machine.execTransactionTimeout t tag u) := by
  dsimp only [Machine.execTransactionTimeout]
  split
  · exact .next <| .atTime h
  · exact .ite (.next <| .emit <| .completeTx <| .atTime h) <| .next <| .atTime h

theorem KeepsForm.sendGrant {member line : Nat} (h : KeepsForm s u) : KeepsForm s (Machine.sendGrant u member line) := by
  unfold Machine.sendGrant
  exact .routeOut <| .transmit h

theorem KeepsForm.makeRoom {line : Nat} {back : List (Nat × List Byte)} (h : KeepsForm s u) :
    KeepsForm s (Machine.makeRoom u line back) := by
  refine .ite h ?_
  split
  · exact .settleLine <| .ite h <| .incF h
  · exact h

theorem KeepsForm.grantLine {member line : Nat} {modified : Bool} {back : List (Nat × List Byte)} (h : KeepsForm s u) :
    KeepsForm s (Machine.grantLine u member line modified back) := by
  unfold Machine.grantLine
  exact .ite (.sendGrant <| .settleLine <| .makeRoom h) <| .sendGrant <| .fields <| .settleLine <| .makeRoom h

theorem KeepsForm.returnLine {member line : Nat} {data : List Byte} (h : KeepsForm s u) :
    KeepsForm s (Machine.returnLine u member line data) := by
  unfold Machine.returnLine
  split
  · exact h
  · exact .fields <| .ite (.targetWrite h) h

theorem Runs.execBindingCoherence {t kind member line : Nat} {data : List Byte} {back : List (Nat × List Byte)} (h :
    KeepsForm s u) : Runs s (Machine.execBindingCoherence t kind member line data back u) := by
  unfold Machine.execBindingCoherence
  exact .ite (.next <| .atTime h) <| .ite (.next <| .grantLine <| .atTime h) <| .next <| .returnLine <| .atTime h

/-! ### Drain -/

theorem KeepsForm.releaseDrained {n : Nat} (h : KeepsForm s u) : KeepsForm s (Machine.releaseDrained u n) := by
  unfold Machine.releaseDrained
  exact .ite (.modA h) <| .releaseLeaves <| .modA h

theorem KeepsForm.dropSwapped {n : Nat} (h : KeepsForm s u) : KeepsForm s (Machine.dropSwapped u n) := by
  unfold Machine.dropSwapped
  exact .modJob h

theorem KeepsForm.drain {n reason : Nat} (h : KeepsForm s u) : KeepsForm s (Machine.drain u n reason) := by
  unfold Machine.drain
  exact .checkEnded <| .releaseDrained <| .dropSwapped <| .fields <| .modA <| .modE <| .setSigState <| .insertSig h

theorem KeepsForm.stopSig {n reason : Nat} {cancel : Bool} (h : KeepsForm s u) : KeepsForm s (Machine.stopSig u n reason cancel) := by
  unfold Machine.stopSig
  split
  · exact .drain h
  · exact .drain h
  · exact .drain h
  · exact .drain h
  · exact .drain h
  · exact .drain h
  · exact .modA h
  · exact .modA h
  · exact .ite (.modE h) <| .badTrigger h
  · exact .ite (.modE h) <| .badTrigger h
  · exact .ite (.modE h) <| .badTrigger h
  · exact .badTrigger h

theorem KeepsForm.enterState {n : Nat} {st : SigState} (h : KeepsForm s u) : KeepsForm s (Machine.enterState u n st) := by
  unfold Machine.enterState
  exact .ite (.drain <| .setSigState h) <| .setSigState h

theorem KeepsForm.setOverdue {n : Nat} (h : KeepsForm s u) : KeepsForm s (Machine.setOverdue u n) := by
  unfold Machine.setOverdue
  exact .incF <| .modE h

theorem Runs.execBudgetExpiry {t sig : Nat} (h : KeepsForm s u) : Runs s (Machine.execBudgetExpiry t sig u) := by
  unfold Machine.execBudgetExpiry
  exact .next <| .ite (.setOverdue <| .atTime h) <| .atTime h

theorem Runs.execLifetimeExpiry {t sig : Nat} (h : KeepsForm s u) : Runs s (Machine.execLifetimeExpiry t sig u) := by
  unfold Machine.execLifetimeExpiry
  exact .next <| .ite (.stopSig <| .atTime h) <| .atTime h

theorem KeepsForm.badHome (h : KeepsForm s u) : KeepsForm s (Machine.badHome u) := by
  unfold Machine.badHome
  exact .incF h

theorem KeepsForm.homeAck {m : BitVec 256} (h : KeepsForm s u) : KeepsForm s (Machine.homeAck u m) := by
  unfold Machine.homeAck
  exact .ite (.badHome h) <| .ite (.checkEnded <| .modE h) <| .ite (.modA h) h

theorem KeepsForm.freeEntry {n : Nat} (h : KeepsForm s u) : KeepsForm s (Machine.freeEntry u n) := by
  unfold Machine.freeEntry
  exact .ite (.setSigState <| .modJob h) <| .setSigState <| .releaseLeaves h

theorem KeepsForm.releaseWaiting {j : Nat} (h : KeepsForm s u) : KeepsForm s (Machine.releaseWaiting u j) := by
  unfold Machine.releaseWaiting
  exact .foldl (fun _ _ hv => .releaseDrained hv) <| .modJob <| .foldl (fun _ _ hv => .modJob <| .foldl (fun _ _ hv1 => .decRef hv1) hv) h

theorem KeepsForm.homeEndAck {m : BitVec 256} (h : KeepsForm s u) : KeepsForm s (Machine.homeEndAck u m) := by
  unfold Machine.homeEndAck
  exact .ite (.badTrigger h) <| .ite (.badHome h) <| .ite (.freeEntry h) <| .badTrigger h

theorem KeepsForm.homeMessage {m : BitVec 256} (h : KeepsForm s u) : KeepsForm s (Machine.homeMessage u m) := by
  unfold Machine.homeMessage
  exact .ite (.incF h) <| .ite (.badHome h) <| .ite (.homeAck h) <| .ite (.homeEndAck h) <| .stopSig h

theorem KeepsForm.homeKind {m : BitVec 256} {kind : Nat} (h : KeepsForm s u) : KeepsForm s (Machine.homeKind u m kind) := by
  unfold Machine.homeKind
  exact .ite (.homeMessage h) <| .badHome h

theorem Runs.execHomeAck {t : Nat} {message : BitVec 256} (h : KeepsForm s u) : Runs s (Machine.execHomeAck t message u) := by
  unfold Machine.execHomeAck
  exact .next <| .homeKind <| .atTime h

theorem Runs.execEndAck {t : Nat} {message : BitVec 256} (h : KeepsForm s u) : Runs s (Machine.execEndAck t message u) := by
  unfold Machine.execEndAck
  exact .next <| .homeKind <| .atTime h

theorem Runs.execCancel {t : Nat} {message : BitVec 256} (h : KeepsForm s u) : Runs s (Machine.execCancel t message u) := by
  unfold Machine.execCancel
  exact .next <| .homeKind <| .atTime h

theorem Runs.execUnsizedMessage {t : Nat} (h : KeepsForm s u) : Runs s (Machine.execUnsizedMessage t u) := by
  unfold Machine.execUnsizedMessage
  exact .next <| .badHome <| .atTime h

theorem Runs.execKeepaliveTimer {t sig : Nat} (h : KeepsForm s u) : Runs s (Machine.execKeepaliveTimer t sig u) := by
  unfold Machine.execKeepaliveTimer
  exact .next <| .ite (.ite (.sendEnd <| .atTime h) <| .ite (.atTime h) <| .notify <| .atTime h) <| .atTime h

theorem KeepsForm.countClearAction (h : KeepsForm s u) : KeepsForm s (Machine.countClearAction u) := by
  unfold Machine.countClearAction
  exact .setF <| .setF <| .foldl (fun _ _ hv => .setF hv) <| .foldl (fun _ _ hv => .setF hv) h

/-! ### Offer -/

theorem KeepsForm.sendShort {dest type n pos layer fill : Nat} (h : KeepsForm s u) :
    KeepsForm s (Machine.sendShort u dest type n pos layer fill) := by
  unfold Machine.sendShort
  exact .transmit h

theorem KeepsForm.showRecords (h : KeepsForm s u) : KeepsForm s (Machine.showRecords u) := by
  unfold Machine.showRecords
  exact .setF h

theorem KeepsForm.sendOffer {n kind dest : Nat} (h : KeepsForm s u) : KeepsForm s (Machine.sendOffer u n kind dest) := by
  unfold Machine.sendOffer
  exact .showRecords <| .transmit <| .setSigState <| .modA <| .modE <| .fields h

theorem KeepsForm.leaveQueued {n : Nat} (h : KeepsForm s u) : KeepsForm s (Machine.leaveQueued u n) := by
  refine .ite h ?_
  split
  · exact .ite (.sendOffer h) <| .enterState h
  · exact .enterState h

theorem Runs.execPrefillOffer {t endpoint jb queueUs rate : Nat} (h :
    KeepsForm s u) : Runs s (Machine.execPrefillOffer t endpoint jb queueUs rate u) := by
  unfold Machine.execPrefillOffer
  exact .ite (.next <| .incF <| .atTime h) <| .next <| .fields <| .atTime h

theorem Runs.execPrefillOfferSend {t jb : Nat} {dests : List Nat} (h :
    KeepsForm s u) : Runs s (Machine.execPrefillOfferSend t jb dests u) := by
  unfold Machine.execPrefillOfferSend
  exact .ite (.next <| .atTime h) <| .next <| .foldl (fun _ _ hv => .transmit hv) <| .draw <| .draw <| .atTime h

/-! ### QueueRows -/

theorem KeepsForm.ringDoorbell {q cls index jb : Nat} {post : QueuePair → QueuePair}
    {f : State → State} (hf : ∀ v,
    KeepsForm s v → KeepsForm s (f v)) (h : KeepsForm s u) : KeepsForm s (Machine.ringDoorbell u q cls index jb post f) := by
  refine .ite (.freezeBy h) ?_
  split
  · exact hf _ <| .modQp h
  · exact .pumpCompletions <| .qpError <| .modQp h
  · exact h

theorem KeepsForm.hostFill {host : List (Nat × List Byte)} (h : KeepsForm s u) : KeepsForm s (Machine.hostFill u host) := by
  unfold Machine.hostFill
  exact .foldl (fun _ _ hv => .ite (.writeBytes hv) hv) h

theorem Runs.execSendDoorbell {t q cls index jb value : Nat} {host : List (Nat × List Byte)} (h :
    KeepsForm s u) : Runs s (Machine.execSendDoorbell t q cls index jb value host u) := by
  unfold Machine.execSendDoorbell
  exact .next <| .ringDoorbell (fun _ hv => .ite (.modQp hv) <| .runSend hv) <| .hostFill <| .atTime h

theorem Runs.execReceiveDoorbell {t q cls index jb value : Nat} {host : List (Nat × List Byte)} (h :
    KeepsForm s u) : Runs s (Machine.execReceiveDoorbell t q cls index jb value host u) := by
  unfold Machine.execReceiveDoorbell
  exact .next <| .ringDoorbell (fun _ hv => .pumpNotices hv) <| .hostFill <| .atTime h

theorem Runs.execCompletionDoorbell {t q cls index jb value : Nat} (h :
    KeepsForm s u) : Runs s (Machine.execCompletionDoorbell t q cls index jb value u) := by
  unfold Machine.execCompletionDoorbell
  exact .next <| .ringDoorbell (fun _ hv => .pumpCompletions hv) <| .atTime h

theorem KeepsForm.takePacket {h' : BitVec 256} {type : Nat} {f : State → State} (hf : ∀ v, KeepsForm s v → KeepsForm s (f v))
    (h : KeepsForm s u) : KeepsForm s (Machine.takePacket u h' type f) := by
  unfold Machine.takePacket
  exact .ite (hf _ h) <| .refuseUnknown h

theorem Runs.execWrite {t : Nat} {header qheader : BitVec 256} {payload : List Byte} {imm : Bool} (h :
    KeepsForm s u) : Runs s (Machine.execWrite t header qheader payload imm u) := by
  unfold Machine.execWrite
  exact .next <| .takePacket (fun _ hv => .recvWrite hv) <| .atTime h

theorem Runs.execSend {t : Nat} {header qheader : BitVec 256} {payload : List Byte} {imm : Bool} (h :
    KeepsForm s u) : Runs s (Machine.execSend t header qheader payload imm u) := by
  unfold Machine.execSend
  exact .next <| .takePacket (fun _ hv => .recvSend hv) <| .atTime h

theorem KeepsForm.packetError {h' qh : BitVec 256} {payload : List Byte} {bad : Option Nat} (h : KeepsForm s u) :
    KeepsForm s (Machine.packetError u h' qh payload bad) := by
  unfold Machine.packetError
  split
  · exact .serviceError h
  · exact h

theorem Runs.execReadReq {t : Nat} {header qheader : BitVec 256} {bad : Option Nat} (h :
    KeepsForm s u) : Runs s (Machine.execReadReq t header qheader bad u) := by
  unfold Machine.execReadReq
  exact .next <| .takePacket (fun _ hv => .recvReadReq <| .packetError hv) <| .atTime h

theorem Runs.execReadResp {t : Nat} {header qheader : BitVec 256} {payload : List Byte} (h :
    KeepsForm s u) : Runs s (Machine.execReadResp t header qheader payload u) := by
  unfold Machine.execReadResp
  exact .next <| .takePacket (fun _ hv => .recvReadResp hv) <| .atTime h

theorem Runs.execAtomicReq {t : Nat} {header qheader : BitVec 256} {args : AtomicIn} (h :
    KeepsForm s u) : Runs s (Machine.execAtomicReq t header qheader args u) := by
  unfold Machine.execAtomicReq
  exact .next <| .takePacket (fun _ hv => .recvAtomicReq <| .packetError hv) <| .atTime h

theorem Runs.execQueueAtomicResp {t : Nat} {header qheader : BitVec 256} {payload : List Byte} (h :
    KeepsForm s u) : Runs s (Machine.execQueueAtomicResp t header qheader payload u) := by
  unfold Machine.execQueueAtomicResp
  exact .next <| .takePacket (fun _ hv => .recvAtomicResp hv) <| .atTime h

theorem Runs.execAck {t : Nat} {header qheader : BitVec 256} {payload : List Byte} (h :
    KeepsForm s u) : Runs s (Machine.execAck t header qheader payload u) := by
  unfold Machine.execAck
  exact .next <| .takePacket (fun _ hv => .recvAck hv) <| .atTime h

theorem Runs.execNak {t : Nat} {header qheader : BitVec 256} {payload : List Byte} (h :
    KeepsForm s u) : Runs s (Machine.execNak t header qheader payload u) := by
  unfold Machine.execNak
  exact .next <| .takePacket (fun _ hv => .recvNak hv) <| .atTime h

theorem Runs.execAckTimer {t q : Nat} (h : KeepsForm s u) : Runs s (Machine.execAckTimer t q u) := by
  refine .next ?_
  split
  · exact .ite (.sendAckNak <| .atTime h) <| .atTime h
  · exact .atTime h

theorem Runs.execRepeatTimeout {t q psn : Nat} (h : KeepsForm s u) : Runs s (Machine.execRepeatTimeout t q psn u) := by
  refine .next ?_
  split
  · exact .ite (.repeatPacket <| .atTime h) <| .atTime h
  · exact .atTime h

theorem Runs.execRnrRetry {t q msn : Nat} (h : KeepsForm s u) : Runs s (Machine.execRnrRetry t q msn u) := by
  unfold Machine.execRnrRetry
  exact .next <| .rnrRepeat <| .atTime h

theorem Runs.execRevokeTimeout {t region : Nat} (h : KeepsForm s u) : Runs s (Machine.execRevokeTimeout t region u) := by
  unfold Machine.execRevokeTimeout
  exact .next <| .ite (.finishRevoke <| .atTime h) <| .atTime h

/-! ### Admission -/

theorem KeepsForm.decideRequest {q : AdmitRequest} (h : KeepsForm s u) : KeepsForm s (Machine.decideRequest u q) := by
  unfold Machine.decideRequest
  split
  · exact .refuseRequest h
  · exact .sendAdmitted h
  · split
    · exact h
    · exact .emit <| .setSigState <| .modA <| .modE <| .draw h

theorem KeepsForm.pumpAdmission {n k : Nat} (h : KeepsForm s u) : KeepsForm s (Machine.pumpAdmission n u k) := by
  induction n generalizing u k with
  | zero =>
    exact h
  | succ n ih =>
    unfold Machine.pumpAdmission
    refine .ite h ?_
    split
    · exact h
    · exact ih <| .decideRequest <| .fields h

theorem KeepsForm.admitNext {j : Nat} (h : KeepsForm s u) : KeepsForm s (Machine.admitNext u j) := by
  unfold Machine.admitNext
  exact .pumpAdmission h

theorem KeepsForm.admitRequest {src : Nat} {via : Option Nat} {delay : Nat} {w : BitVec 512} (h : KeepsForm s u) :
    KeepsForm s (Machine.admitRequest u src via delay w) := by
  unfold Machine.admitRequest
  exact .admitNext <| .fields h

theorem Runs.execAdmissionRequest {t src : Nat} {request : BitVec 512} (h :
    KeepsForm s u) : Runs s (Machine.execAdmissionRequest t src request u) := by
  unfold Machine.execAdmissionRequest
  exact .next <| .ite (.incF <| .atTime h) <| .admitRequest <| .atTime h

theorem KeepsForm.refuseEntry {n code : Nat} (h : KeepsForm s u) : KeepsForm s (Machine.refuseEntry u n code) := by
  unfold Machine.refuseEntry
  exact .setSigState <| .releaseLeaves <| .incF <| .notify h

theorem KeepsForm.matchSig {n : Nat} {toks : List Nat} (h : KeepsForm s u) : KeepsForm s (Machine.matchSig u n toks) := by
  unfold Machine.matchSig
  exact .promoteTaken <| .modA <| .modE <| .foldl (fun _ _ hv => .takeNode hv) <| .addF h

theorem KeepsForm.admitRead {n : Nat} {ok : Bool} {words : List Nat} (h : KeepsForm s u) :
    KeepsForm s (Machine.admitRead u n ok words) := by
  refine .ite (.refuseEntry h) ?_
  dsimp only
  split
  · exact .refuseEntry <| .addF <| .matchSig <| .incF <| .placeLog h
  next heq =>
    have hw := KeepsForm.reserve (.addF <| .matchSig <| .incF <| .placeLog h) heq
    exact .ite (.refuseEntry <| .noteEstimate hw) <| .ite (.drain <| .incF <| .sendAdmitted <| .setSigState <| .noteEstimate hw) <|
        .leaveQueued <| .incF <| .sendAdmitted <| .setSigState <| .noteEstimate hw

theorem Runs.execPromptReadComplete {t sig : Nat} {ok : Bool} {words : List Nat} (h :
    KeepsForm s u) : Runs s (Machine.execPromptReadComplete t sig ok words u) := by
  unfold Machine.execPromptReadComplete
  exact .ite (.next <| .atTime h) <| .next <| .admitNext <| .admitRead <| .atTime h

theorem KeepsForm.hostMessage {q delay : Nat} {bytes : List Byte} (h : KeepsForm s u) :
    KeepsForm s (Machine.hostMessage u q delay bytes) := by
  unfold Machine.hostMessage
  exact .ite (.admitRequest h) <| .ite (.homeMessage h) <| .badHome h

theorem KeepsForm.hostComplete {q status : Nat} {d : BitVec 512} (h : KeepsForm s u) : KeepsForm s (Machine.hostComplete u q status d) := by
  unfold Machine.hostComplete
  exact .ite (.postCompletion h) h

theorem KeepsForm.serveHost {q : Nat} (h : KeepsForm s u) : KeepsForm s (Machine.serveHost u q) := by
  refine .ite h ?_
  dsimp only
  split
  · exact .qpError <| .hostComplete <| .ite (.freezeMaster <| .setQp h) <| .setQp h
  · exact .hostComplete <| .hostMessage <| .setQp h

theorem Runs.execHostQueueSend {t q : Nat} {host : List (Nat × List Byte)} (h :
    KeepsForm s u) : Runs s (Machine.execHostQueueSend t q host u) := by
  unfold Machine.execHostQueueSend
  exact .next <| .serveHost <| .hostFill <| .atTime h

/-! ### Handoff -/

theorem KeepsForm.recvShort {h' : BitVec 1024} {type : Nat} {f : State → State} (hf : ∀ v, KeepsForm s v → KeepsForm s (f v))
    (h : KeepsForm s u) : KeepsForm s (Machine.recvShort u h' type f) := by
  unfold Machine.recvShort
  exact .ite h <| .ite (.incF h) <| .ite (.incF h) <| hf _ h

theorem KeepsForm.dropRecord {n : Nat} (h : KeepsForm s u) : KeepsForm s (Machine.dropRecord u n) := by
  unfold Machine.dropRecord
  exact .showRecords <| .fields h

theorem KeepsForm.modRecord {n : Nat} {f : ReleaseRecord → ReleaseRecord} (h : KeepsForm s u) : KeepsForm s (Machine.modRecord u n f) :=
  .fields h

theorem KeepsForm.modIncoming {n : Nat} {f : HandoffIn → HandoffIn} (h : KeepsForm s u) : KeepsForm s (Machine.modIncoming u n f) :=
  .fields h

theorem KeepsForm.dropIncoming {n : Nat} (h : KeepsForm s u) : KeepsForm s (Machine.dropIncoming u n) := by
  unfold Machine.dropIncoming
  split
  · exact h
  · exact .fields <| .foldl (fun _ _ hv1 => .decRef hv1) h

theorem KeepsForm.toBaseList {n : Nat} (h : KeepsForm s u) : KeepsForm s (Machine.toBaseList u n) := by
  unfold Machine.toBaseList
  exact .modA <| .foldl (fun _ _ hv => .ite hv <| .clearEntry hv) h

theorem KeepsForm.backAway {n : Nat} {claimant : Option Nat} (h : KeepsForm s u) : KeepsForm s (Machine.backAway u n claimant) := by
  cases claimant with
  | none =>
    unfold Machine.backAway
    exact .setSigState <| .modA <| .toBaseList <| .dropIncoming h
  | some e =>
    unfold Machine.backAway
    exact .setSigState <| .modA <| .modE <| .toBaseList <| .dropIncoming h

theorem KeepsForm.dropCopy {n : Nat} (h : KeepsForm s u) : KeepsForm s (Machine.dropCopy u n) := by
  unfold Machine.dropCopy
  exact .freeEntry <| .dropRecord <| .dropIncoming h

theorem KeepsForm.supersede {n claimant : Nat} (h : KeepsForm s u) : KeepsForm s (Machine.supersede u n claimant) := by
  unfold Machine.supersede
  exact .ite h <| .modA <| .incF h

theorem KeepsForm.claimed {n claimant : Nat} (h : KeepsForm s u) : KeepsForm s (Machine.claimed u n claimant) := by
  dsimp only [Machine.claimed]
  split
  · exact .dropCopy <| .incF h
  · exact .ite (.backAway <| .incF h) <| .dropCopy <| .incF h
  · exact .supersede h
  · exact .supersede h
  · exact .badTrigger h

theorem KeepsForm.supersededTransition {n : Nat} (h : KeepsForm s u) : KeepsForm s (Machine.supersededTransition u n) := by
  dsimp only [Machine.supersededTransition]
  split
  · exact h
  · exact .ite h <| .ite (.backAway <| .incF h) <| .ite (.dropCopy <| .incF h) <| .ite (.backAway <| .incF h) <| .dropCopy <| .incF h

theorem KeepsForm.rebuild {n : Nat} (h : KeepsForm s u) : KeepsForm s (Machine.rebuild u n) := by
  unfold Machine.rebuild
  exact .enterState <| .modA <| .incF <| .modE h

theorem KeepsForm.takeOffered {j n : Nat} {cols allowed : List Nat} {p : State × Nat} (h : KeepsForm s u)
    (hp : Machine.takeOffered u j n cols allowed = some p) : KeepsForm s p.1 := by
  unfold Machine.takeOffered at hp
  split at hp
  next heq =>
    cases hp
    exact .takeGroup h heq
  · split at hp
    · cases hp
    · exact .takeGroup (.evictNode h) hp

theorem KeepsForm.takeStream {j n anchor : Nat} {allowed ps : List Nat} {p : State × List Nat} (h : KeepsForm s u)
    (hp : Machine.takeStream j n anchor allowed ps u = some p) : KeepsForm s p.1 := by
  induction ps generalizing u p with
  | nil =>
    cases hp
    exact h
  | cons a r ih =>
    unfold Machine.takeStream at hp
    split at hp
    · cases hp
    next heq =>
      have hw := KeepsForm.takeOffered h heq
      split at hp
      · cases hp
      next heq1 =>
        have hrest := ih hw heq1
        cases hp
        exact hrest

theorem KeepsForm.mergeOffer {n : Nat} {o : BitVec 1024} (h : KeepsForm s u) : KeepsForm s (Machine.mergeOffer u n o) := by
  unfold Machine.mergeOffer
  exact .ite (.setOverdue <| .modE h) <| .modE h

theorem KeepsForm.rewriteLog {n : Nat} {toks : List Nat} {gen : Nat} (h : KeepsForm s u) :
    KeepsForm s (Machine.rewriteLog u n toks gen) := by
  unfold Machine.rewriteLog
  exact .appendLog <| .modA <| .modE h

theorem KeepsForm.sendConfirm {n : Nat} (h : KeepsForm s u) : KeepsForm s (Machine.sendConfirm u n) := by
  unfold Machine.sendConfirm
  split
  · exact h
  · exact .ite h <| .enterState <| .modA <| .modIncoming <| .incF <| .sendShort h

theorem KeepsForm.acceptOffer {n kv deadline : Nat} {o : BitVec 1024} {words : List Nat} {fresh : Bool} (h : KeepsForm s u)
    (hv : Machine.acceptOffer u n kv deadline o words fresh = some v) : KeepsForm s v := by
  unfold Machine.acceptOffer at hv
  extract_lets j len kind kvLen toks from0 ps anchor at hv
  split at hv
  · cases hv
  next heq =>
    have hw := KeepsForm.takeStream h heq
    exact .iteSome
      (.sendConfirm <| .fields <| .mergeOffer <| .ite (.placeLog <| .setSigState <| .modA <| .modE hw) <|
        .rewriteLog <| .setSigState <| .modA <| .modE hw)
      (.sendShort <| .fields <| .mergeOffer <| .ite (.placeLog <| .setSigState <| .modA <| .modE hw) <|
        .rewriteLog <| .setSigState <| .modA <| .modE hw) hv

theorem KeepsForm.dropOffer {code : Nat} (h : KeepsForm s u) : KeepsForm s (Machine.dropOffer u code) := by
  unfold Machine.dropOffer
  exact .incF h

theorem KeepsForm.onOffer {o : BitVec 1024} {words : List Nat} {readable : Bool} (h : KeepsForm s u) :
    KeepsForm s (Machine.onOffer u o words readable) := by
  have haccepted {w n kv deadline fresh} (hw : KeepsForm s w) :
      KeepsForm s ((Machine.acceptOffer w n kv deadline o words fresh).getD (Machine.dropOffer u 7)) := by
    cases hv : Machine.acceptOffer w n kv deadline o words fresh with
    | some v => exact .acceptOffer hw hv
    | none => exact .dropOffer h
  unfold Machine.onOffer
  refine .ite ?_ (.ite (.dropOffer h) <| .ite (.dropOffer h) <| .ite (.dropOffer h) <| .ite (.dropOffer h) <| .ite (.dropOffer h) <|
    .ite (.dropOffer h) <| .ite (.dropOffer h) <| .ite (.dropOffer h) ?_)
  · split
    · exact .dropOffer <| .sendShort h
    · exact h
  · split
    · exact haccepted h
    · split
      · exact .dropOffer h
      · dsimp only
        split
        · exact .dropOffer h
        next heq => exact haccepted <| .promoteTaken <| .foldl (fun _ _ hv => .takeNode hv) <| .addF <|
            .reserve (.modA <| .modE <| .modE <| .draw h) heq

theorem Runs.execOffer {t : Nat} {header : BitVec 1024} {words : List Nat} {readable : Bool} (h :
    KeepsForm s u) : Runs s (Machine.execOffer t header words readable u) := by
  unfold Machine.execOffer
  exact .ite (.next <| .atTime h) <| .ite (.next <| .incF <| .atTime h) <| .ite (.next <| .dropOffer <| .atTime h) <| .next <| .onOffer <|
      .atTime h

theorem KeepsForm.sendLeaf {objs : List (Nat × Nat × List Byte)} {n p l : Nat} (h : KeepsForm s u) :
    KeepsForm s (Machine.sendLeaf objs u n p l).1 := by
  unfold Machine.sendLeaf
  dsimp only
  split
  · split
    next heq1 => exact .fst (.readLeafFrom h) heq1
    next heq1 =>
      have hw1 := KeepsForm.fst (.readLeafFrom h) heq1
      split
      next heq2 => exact .fst (.caseObject hw1) heq2
      next heq2 => exact .incF <| .transmit <| .fst (.caseObject hw1) heq2
  · exact h

theorem KeepsForm.streamLeaves {objs : List (Nat × Nat × List Byte)} {n from0 : Nat} (h : KeepsForm s u) :
    KeepsForm s (Machine.streamLeaves objs u n from0) := by
  unfold Machine.streamLeaves
  split
  · exact h
  · exact .foldl (fun _ _ hv1 => .ite (.modRecord <| .foldlFst (fun _ _ hv2 => .sendLeaf hv2) hv1) <|
        .foldlFst (fun _ _ hv2 => .sendLeaf hv2) hv1) h

theorem Runs.execAccept {t : Nat} {call : LeafCall} (h : KeepsForm s u) : Runs s (Machine.execAccept t call u) := by
  refine .next ?_
  refine .recvShort (fun _ hv => ?_) (.atTime h)
  split
  · exact hv
  · exact .streamLeaves <| .modRecord hv

theorem Runs.execResend {t : Nat} {call : LeafCall} (h : KeepsForm s u) : Runs s (Machine.execResend t call u) := by
  refine .next ?_
  refine .recvShort (fun _ hv => ?_) (.atTime h)
  split
  · exact hv
  · exact .sendLeaf hv

theorem KeepsForm.leafFailed {n p l : Nat} {r : HandoffIn} (h : KeepsForm s u) : KeepsForm s (Machine.leafFailed u n p l r) := by
  unfold Machine.leafFailed
  exact .ite (.incF <| .sendShort <| .modIncoming h) <| .logErr <| .modIncoming h

theorem KeepsForm.placeStreamLeaf {n p l fill : Nat} {raw : List Byte} {r : HandoffIn} (h : KeepsForm s u) :
    KeepsForm s (Machine.placeStreamLeaf u n p l fill raw r) := by
  unfold Machine.placeStreamLeaf
  exact .ite (.sendConfirm <| .ite (.modIncoming <| .incF <| .storeLeaf h) <| .modGroup <| .setList <| .clearEntry <| .modIncoming <|
      .incF <| .storeLeaf h) <| .ite (.modIncoming <| .incF <| .storeLeaf h) <| .modGroup <| .setList <| .clearEntry <| .modIncoming <|
      .incF <| .storeLeaf h

theorem Runs.execLeaf {t : Nat} {header : BitVec 1024} {object : List Byte} (h :
    KeepsForm s u) : Runs s (Machine.execLeaf t header object u) := by
  refine .next ?_
  refine .recvShort (fun _ hv => ?_) (.atTime h)
  split
  · exact hv
  · split
    · exact hv
    · refine .ite hv ?_
      dsimp only
      split
      next heq3 => exact .leafFailed <| .fst (.openObject hv) heq3
      next heq3 =>
        have hw3 := KeepsForm.fst (.openObject hv) heq3
        exact .ite (.leafFailed hw3) <| .placeStreamLeaf hw3

theorem Runs.execConfirm {t : Nat} {header : BitVec 1024} (h : KeepsForm s u) : Runs s (Machine.execConfirm t header u) := by
  refine .next ?_
  refine .recvShort (fun _ hv => ?_) (.atTime h)
  split
  · exact hv
  · split
    · exact .sendShort hv
    · exact .ite (.setSigState <| .modA <| .incF <| .dropRecord hv) <| .freeEntry <| .ite (.modJob <| .incF <| .dropRecord hv) <| .incF <|
          .dropRecord hv

theorem KeepsForm.confirmDone {n : Nat} (h : KeepsForm s u) : KeepsForm s (Machine.confirmDone u n) := by
  unfold Machine.confirmDone
  exact .modA <| .dropIncoming h

theorem Runs.execConfirmDelivered {t sig : Nat} (h : KeepsForm s u) : Runs s (Machine.execConfirmDelivered t sig u) := by
  unfold Machine.execConfirmDelivered
  exact .next <| .ite (.confirmDone <| .atTime h) <| .atTime h

theorem Runs.execConfirmUndeliverable {t sig : Nat} (h : KeepsForm s u) : Runs s (Machine.execConfirmUndeliverable t sig u) := by
  refine .ite (.next <| .atTime h) ?_
  split
  · exact .next <| .atTime h
  · exact .next <| .modA <| .sendShort <| .atTime h

theorem KeepsForm.leaseExpired {sig : Nat} {r : ReleaseRecord} (h : KeepsForm s u) : KeepsForm s (Machine.leaseExpired u sig r) := by
  unfold Machine.leaseExpired
  exact .ite h <| .leaveQueued <| .enterState <| .sendShort <| .modA <| .modE <| .incF <| .dropRecord h

theorem Runs.execLeaseExpiry {t sig : Nat} (h : KeepsForm s u) : Runs s (Machine.execLeaseExpiry t sig u) := by
  dsimp only [Machine.execLeaseExpiry]
  split
  · exact .next <| .atTime h
  · exact .next <| .ite (.atTime h) <| .leaseExpired <| .atTime h

theorem Runs.execClaim {t : Nat} {header : BitVec 1024} (h : KeepsForm s u) : Runs s (Machine.execClaim t header u) := by
  refine .next ?_
  refine .recvShort (fun _ hv => ?_) (.atTime h)
  split
  · exact hv
  · exact .ite (.claimed hv) hv

theorem Runs.execHandoffProbeTimer {t sig : Nat} (h : KeepsForm s u) : Runs s (Machine.execHandoffProbeTimer t sig u) := by
  refine .ite (.ite (.next <| .modA <| .sendShort <| .atTime h) <| .next <| .atTime h) ?_
  split
  · exact .next <| .atTime h
  · exact .ite (.next <| .modIncoming <| .sendShort <| .atTime h) <| .ite (.next <| .modA <| .sendShort <| .atTime h) <| .next <| .atTime h

theorem Runs.execHandoffProbe {t : Nat} {header : BitVec 1024} (h : KeepsForm s u) : Runs s (Machine.execHandoffProbe t header u) := by
  unfold Machine.execHandoffProbe
  exact .next <| .recvShort (fun _ hv => .transmit hv) <| .atTime h

theorem Runs.execProbeReply {t : Nat} {header : BitVec 1024} (h : KeepsForm s u) : Runs s (Machine.execProbeReply t header u) := by
  refine .next ?_
  refine .recvShort (fun _ hv => ?_) (.atTime h)
  split
  · exact hv
  · exact .ite (.ite (.rebuild hv) hv) <| .ite (.ite (.claimed hv) hv) <| .ite (.ite (.confirmDone hv) <| .claimed hv) hv

theorem KeepsForm.rebalanceAction {v' : Nat} (h : KeepsForm s u) : KeepsForm s (Machine.rebalanceAction v' u) := by
  unfold Machine.rebalanceAction
  exact .modA h

theorem KeepsForm.holderGone {n : Nat} (h : KeepsForm s u) : KeepsForm s (Machine.holderGone u n) := by
  unfold Machine.holderGone
  exact .dropCopy <| .incF h

theorem KeepsForm.sigDead {e n : Nat} (h : KeepsForm s u) : KeepsForm s (Machine.sigDead e u n) := by
  unfold Machine.sigDead
  exact .ite (.ite (.rebuild <| .claimed h) <| .claimed h) <| .ite (.ite (.rebuild h) h) <| .ite (.ite (.holderGone h) <| .modA <|
      .confirmDone h) <| .ite (.holderGone h) h

theorem KeepsForm.handoffsDead {e : Nat} (h : KeepsForm s u) : KeepsForm s (Machine.handoffsDead u e) := by
  unfold Machine.handoffsDead
  exact .foldl (fun _ _ hv => .sigDead hv) h

/-! ### Bookmark -/

theorem KeepsForm.bookAt {j seq records target : Nat} {body : List Byte} {seen : Option Nat} (h : KeepsForm s u) :
    KeepsForm s (Machine.bookAt u j seq records target body seen).1 := by
  dsimp only [Machine.bookAt]
  split
  · exact h
  · split
    next heq1 => exact .fst (.bookStore h) heq1
    next heq1 => exact .bookPump <| .bookStatus <| .modWrite <| .fst (.bookStore h) heq1

theorem KeepsForm.sendBook {j seq records : Nat} {body : List Byte} {b : BoundaryIn} (h : KeepsForm s u) :
    KeepsForm s (Machine.sendBook u j seq records body b) := by
  dsimp only [Machine.sendBook]
  split
  next heq => exact .fst (.bookAt h) heq
  next heq =>
    have hw := KeepsForm.fst (.bookAt h) heq
    split
    next heq1 => exact .fst (.bookAt hw) heq1
    next heq1 => exact .bookStatus <| .fst (.bookAt hw) heq1

theorem KeepsForm.logLarge {j : Nat} (h : KeepsForm s u) : KeepsForm s (Machine.logLarge u j) := by
  unfold Machine.logLarge
  exact .draw <| .logErr h

theorem KeepsForm.takeBookmark {j : Nat} {b : BoundaryIn} (h : KeepsForm s u) : KeepsForm s (Machine.takeBookmark u j b) := by
  refine .ite h ?_
  dsimp only
  split
  next heq => exact .bookStatus <| .fst (.caseObject <| .modJob h) heq
  next heq =>
    have hw := KeepsForm.fst (.caseObject <| .modJob h) heq
    exact .ite (.bookStatus <| .logLarge hw) <| .sendBook hw

theorem KeepsForm.bookmarkNowAction {j : Nat} (h : KeepsForm s u) : KeepsForm s (Machine.bookmarkNowAction j u) := by
  unfold Machine.bookmarkNowAction
  exact .modJob h

theorem Runs.execBookmarkCommit {t slot gen : Nat} (h : KeepsForm s u) : Runs s (Machine.execBookmarkCommit t slot gen u) := by
  refine .next ?_
  refine .foldl (fun _ _ hv => ?_) (.bookmarkCommit h)
  split
  · exact .ite (.bookStatus <| .modWrite hv) hv
  · exact hv

theorem KeepsForm.notPlaced {j : Nat} (h : KeepsForm s u) : KeepsForm s (Machine.notPlaced u j) := by
  unfold Machine.notPlaced
  exact .incF h

theorem KeepsForm.placeRecord {j snapNs : Nat} {keep adopted : Bool} {r : SigEntry × List Nat} (h : KeepsForm s u) :
    KeepsForm s (Machine.placeRecord j snapNs keep adopted u r) := by
  refine .ite (.notPlaced h) ?_
  split
  · exact .notPlaced h
  · dsimp only
    split
    · exact .notPlaced <| .fields h
    next heq1 =>
      have hw1 := KeepsForm.reserve (.matchSig <| .placeLog <| .setSigState <| .modA <| .modE <| .draw h) heq1
      exact .ite (.incF <| .sendAdmitted <| .noteEstimate hw1) <| .sendAdmitted <| .noteEstimate hw1

theorem KeepsForm.placeBody {j writer : Nat} {raw : List Byte} (h : KeepsForm s u) : KeepsForm s (Machine.placeBody u j writer raw) := by
  unfold Machine.placeBody
  exact .ite (.foldl (fun _ _ hv => .notPlaced hv) h) <| .foldl (fun _ _ hv => .placeRecord hv) h

theorem Runs.execBookmarkReadComplete {t jb writer : Nat} {seen : Option (Nat × List Byte)} (h :
    KeepsForm s u) : Runs s (Machine.execBookmarkReadComplete t jb writer seen u) := by
  refine .ite (.next <| .atTime h) ?_
  refine .ite (.next <| .fields <| .atTime h) ?_
  split
  · exact .next <| .fields <| .atTime h
  · split
    next heq1 => exact .next <| .fst (.openObject <| .fields <| .atTime h) heq1
    next heq1 => exact .next <| .placeBody <| .fst (.openObject <| .fields <| .atTime h) heq1

/-! ### Link -/

theorem KeepsForm.takeLinkAck {l ack : Nat} (h : KeepsForm s u) : KeepsForm s (Machine.takeLinkAck u l ack) := by
  unfold Machine.takeLinkAck
  exact .modLink h

theorem KeepsForm.countReplays {l n : Nat} (h : KeepsForm s u) : KeepsForm s (Machine.countReplays u l n) := by
  unfold Machine.countReplays
  exact .modLink <| .addF h

theorem KeepsForm.replayFrom {l from0 : Nat} (h : KeepsForm s u) : KeepsForm s (Machine.replayFrom u l from0) := by
  unfold Machine.replayFrom
  exact .countReplays <| .ite (.foldl (fun _ _ hv => .putOnWire hv) <| .takeLinkAck h) <| .sendIdle <|
      .foldl (fun _ _ hv => .putOnWire hv) <| .takeLinkAck h

theorem KeepsForm.enterRetrain {l : Nat} (h : KeepsForm s u) : KeepsForm s (Machine.enterRetrain u l) := by
  unfold Machine.enterRetrain
  exact .ite (.sendParam <| .incF <| .modLink h) h

theorem KeepsForm.sendCredit {l : Nat} (h : KeepsForm s u) : KeepsForm s (Machine.sendCredit u l) := by
  unfold Machine.sendCredit
  exact .modLink <| .sendWord h

theorem KeepsForm.freeBuffer {l plane : Nat} {payload : List Byte} (h : KeepsForm s u) :
    KeepsForm s (Machine.freeBuffer u l plane payload) := by
  unfold Machine.freeBuffer
  exact .ite (.sendCredit <| .modLink h) <| .modLink h

theorem KeepsForm.passOn {l : Nat} {h' : BitVec 256} {payload : List Byte} (h : KeepsForm s u) :
    KeepsForm s (Machine.passOn u l h' payload) := by
  unfold Machine.passOn
  exact .ite (.incF h) <| .ite (.emit h) <| .ite (.ite (.refuseTx h) h) <| .routeOut h

theorem KeepsForm.stompCopy {h' : BitVec 256} {payload : List Byte} (h : KeepsForm s u) : KeepsForm s (Machine.stompCopy u h' payload) := by
  refine .ite h ?_
  split
  · exact .ite (.sendIdle <| .sendItem h) h
  · exact h

theorem KeepsForm.heardGood {l : Nat} (h : KeepsForm s u) : KeepsForm s (Machine.heardGood u l) := by
  unfold Machine.heardGood
  exact .modLink h

theorem Runs.execLinkTransactionReceive {t link : Nat} {header : BitVec 256} {payload : List Byte} {check : BitVec 32}
    {corrected uncorrectable : Nat} (h : KeepsForm s u) : Runs s
    (Machine.execLinkTransactionReceive t link header payload check corrected uncorrectable u) := by
  unfold Machine.execLinkTransactionReceive
  exact .ite (.next <| .atTime h) <| .ite (.next <| .ite (.ite (.heardGood <| .fields <| .ite (.addF <| .ite (.addF <| .atTime h) <|
      .atTime h) <| .ite (.addF <| .atTime h) <| .atTime h) <| .fields <| .ite (.addF <| .ite (.addF <| .atTime h) <| .atTime h) <|
      .ite (.addF <| .atTime h) <| .atTime h) <| .sendLinkNak <| .ite (.heardGood <| .fields <| .ite (.addF <| .ite (.addF <| .atTime h) <|
      .atTime h) <| .ite (.addF <| .atTime h) <| .atTime h) <| .fields <| .ite (.addF <| .ite (.addF <| .atTime h) <| .atTime h) <|
      .ite (.addF <| .atTime h) <| .atTime h) <| .ite (.next <| .runLinks <| .passOn <| .freeBuffer <| .modLink <| .heardGood <|
      .takeLinkAck <| .fields <| .ite (.addF <| .ite (.addF <| .atTime h) <| .atTime h) <| .ite (.addF <| .atTime h) <| .atTime h) <|
      .ite (.next <| .stompCopy <| .freeBuffer <| .incF <| .modLink <| .fields <| .ite (.addF <| .ite (.addF <| .atTime h) <| .atTime h) <|
      .ite (.addF <| .atTime h) <| .atTime h) <| .next <| .correctable <| .stompCopy <| .sendLinkNak <| .incF <| .fields <| .ite (.addF <|
      .ite (.addF <| .atTime h) <| .atTime h) <| .ite (.addF <| .atTime h) <| .atTime h

theorem KeepsForm.recvWord {l : Nat} {w : BitVec 256} {kind : Nat} {ok : LinkMode → Bool}
    {f : State → State} (hf : ∀ v,
    KeepsForm s v → KeepsForm s (f v)) (h : KeepsForm s u) : KeepsForm s (Machine.recvWord u l w kind ok f) := by
  unfold Machine.recvWord
  exact .ite h <| .ite (.incF h) <| .ite (.runLink <| hf _ <| .ite (.heardGood <| .takeLinkAck h) h) <| hf _ <| .ite (.heardGood <|
      .takeLinkAck h) h

theorem Runs.execIdle {t link : Nat} {word : BitVec 256} (h : KeepsForm s u) : Runs s (Machine.execIdle t link word u) :=
  .next <| .recvWord (fun _ hv => hv) <| .atTime h

theorem Runs.execIdleTimer {t link : Nat} (h : KeepsForm s u) : Runs s (Machine.execIdleTimer t link u) := by
  refine .next ?_
  split
  · exact .ite (.sendIdle <| .atTime h) <| .atTime h
  · exact .atTime h

theorem Runs.execLinkNak {t link : Nat} {word : BitVec 256} (h : KeepsForm s u) : Runs s (Machine.execLinkNak t link word u) := by
  unfold Machine.execLinkNak
  exact .next <| .recvWord (fun _ hv => .ite (.enterRetrain <| .setLink hv) <| .replayFrom <| .setLink hv) <| .atTime h

theorem Runs.execCredit {t link : Nat} {word : BitVec 256} (h : KeepsForm s u) : Runs s (Machine.execCredit t link word u) := by
  unfold Machine.execCredit
  exact .next <| .recvWord (fun _ hv => .modLink hv) <| .atTime h

theorem Runs.execCreditTimer {t link : Nat} (h : KeepsForm s u) : Runs s (Machine.execCreditTimer t link u) := by
  refine .next ?_
  split
  · exact .ite (.sendCredit <| .atTime h) <| .atTime h
  · exact .atTime h

theorem Runs.execLinkProbe {t link : Nat} {word : BitVec 256} (h : KeepsForm s u) : Runs s (Machine.execLinkProbe t link word u) := by
  unfold Machine.execLinkProbe
  exact .next <| .recvWord (fun _ hv => .sendWord hv) <| .atTime h

theorem KeepsForm.newDelay {l v' : Nat} (h : KeepsForm s u) : KeepsForm s (Machine.newDelay u l v') := by
  unfold Machine.newDelay
  exact .ite (.modLink <| .fields <| .setF h) <| .setF h

theorem Runs.execEcho {t link : Nat} {word : BitVec 256} (h : KeepsForm s u) : Runs s (Machine.execEcho t link word u) := by
  unfold Machine.execEcho
  exact .next <| .recvWord (fun _ hv => .newDelay <| .modLink hv) <| .atTime h

theorem Runs.execLinkProbeTimer {t link : Nat} (h : KeepsForm s u) : Runs s (Machine.execLinkProbeTimer t link u) := by
  unfold Machine.execLinkProbeTimer
  exact .next <| .ite (.sendWord <| .setLink <| .atTime h) <| .atTime h

theorem Runs.execParam {t link : Nat} {word : BitVec 256} (h : KeepsForm s u) : Runs s (Machine.execParam t link word u) := by
  unfold Machine.execParam
  exact .next <| .recvWord (fun _ hv => .ite (.failTraining hv) <| .ite (.setLink hv) <| .ite (.replayFrom <| .setLink hv) <|
      .enterDown hv) <| .atTime h

theorem Runs.execLightDetected {t link : Nat} (h : KeepsForm s u) : Runs s (Machine.execLightDetected t link u) := by
  unfold Machine.execLightDetected
  exact .next <| .tryTrain <| .modLink <| .atTime h

theorem Runs.execTrainingComplete {t link : Nat} (h : KeepsForm s u) : Runs s (Machine.execTrainingComplete t link u) := by
  unfold Machine.execTrainingComplete
  exact .next <| .ite (.setLink <| .atTime h) <| .atTime h

theorem Runs.execTestingComplete {t link : Nat} (h : KeepsForm s u) : Runs s (Machine.execTestingComplete t link u) := by
  unfold Machine.execTestingComplete
  exact .next <| .ite (.setLink <| .atTime h) <| .atTime h

theorem Runs.execMeasuringComplete {t link : Nat} (h : KeepsForm s u) : Runs s (Machine.execMeasuringComplete t link u) := by
  unfold Machine.execMeasuringComplete
  exact .next <| .ite (.initStage <| .noteChange <| .setLink <| .atTime h) <| .atTime h

theorem Runs.execTrainingTimeout {t link cause : Nat} (h : KeepsForm s u) : Runs s (Machine.execTrainingTimeout t link cause u) := by
  unfold Machine.execTrainingTimeout
  exact .next <| .ite (.failTraining <| .atTime h) <| .atTime h

theorem Runs.execLightLost {t link : Nat} (h : KeepsForm s u) : Runs s (Machine.execLightLost t link u) := by
  unfold Machine.execLightLost
  exact .next <| .ite (.enterDown <| .modLink <| .atTime h) <| .modLink <| .atTime h

theorem Runs.execLossOfLock {t link : Nat} (h : KeepsForm s u) : Runs s (Machine.execLossOfLock t link u) := by
  unfold Machine.execLossOfLock
  exact .next <| .enterRetrain <| .atTime h

theorem Runs.execRetrainTimeout {t link : Nat} (h : KeepsForm s u) : Runs s (Machine.execRetrainTimeout t link u) := by
  unfold Machine.execRetrainTimeout
  exact .next <| .ite (.enterDown <| .atTime h) <| .atTime h

theorem Runs.execLinkSilenceTimeout {t link : Nat} (h : KeepsForm s u) : Runs s (Machine.execLinkSilenceTimeout t link u) := by
  unfold Machine.execLinkSilenceTimeout
  exact .next <| .ite (.enterDown <| .atTime h) <| .atTime h

theorem Runs.execReplayLimit {t link : Nat} (h : KeepsForm s u) : Runs s (Machine.execReplayLimit t link u) := by
  unfold Machine.execReplayLimit
  exact .ite (.next <| .ite (.enterDown <| .setLink <| .atTime h) <| .fence <| .setLink <| .atTime h) <| .next <| .atTime h

theorem Runs.execHoldoffExpiry {t link : Nat} (h : KeepsForm s u) : Runs s (Machine.execHoldoffExpiry t link u) := by
  unfold Machine.execHoldoffExpiry
  exact .next <| .ite (.tryTrain <| .setLink <| .atTime h) <| .atTime h

theorem Runs.execFenceHoldExpiry {t link : Nat} (h : KeepsForm s u) : Runs s (Machine.execFenceHoldExpiry t link u) := by
  unfold Machine.execFenceHoldExpiry
  exact .next <| .ite (.ite (.disableLink <| .enterDown <| .atTime h) <| .tryTrain <| .enterDown <| .atTime h) <| .atTime h

theorem KeepsForm.setLaser {e : Nat} {x : LaserSource} (h : KeepsForm s u) : KeepsForm s (Machine.setLaser u e x) := by
  unfold Machine.setLaser
  exact .setF <| .fields h

theorem KeepsForm.laserDown {l : Nat} (h : KeepsForm s u) : KeepsForm s (Machine.laserDown u l) := by
  unfold Machine.laserDown
  exact .ite h <| .trainFail <| .ite h <| .enterDown h

theorem Runs.execLaserSourceFault {t engine : Nat} {removed : Bool} (h :
    KeepsForm s u) : Runs s (Machine.execLaserSourceFault t engine removed u) := by
  unfold Machine.execLaserSourceFault
  exact .next <| .logErr <| .foldl (fun _ _ hv => .laserDown hv) <| .setLaser <| .atTime h

theorem Runs.execLaserSourceReady {t engine tempC : Nat} (h : KeepsForm s u) : Runs s (Machine.execLaserSourceReady t engine tempC u) := by
  unfold Machine.execLaserSourceReady
  exact .next <| .initStage <| .foldl (fun _ _ hv => .tryTrain hv) <| .setLaser <| .atTime h

theorem KeepsForm.setBypass {n : Nat} {b : Bypass} (h : KeepsForm s u) : KeepsForm s (Machine.setBypass u n b) := by
  unfold Machine.setBypass
  exact .setF <| .fields h

theorem KeepsForm.bypassOpenAction {n : Nat} (h : KeepsForm s u) : KeepsForm s (Machine.bypassOpenAction n u) := by
  unfold Machine.bypassOpenAction
  exact .ite (.emit <| .setBypass h) h

theorem KeepsForm.bypassCloseAction {n : Nat} (h : KeepsForm s u) : KeepsForm s (Machine.bypassCloseAction n u) := by
  dsimp only [Machine.bypassCloseAction]
  split
  · exact .setBypass h
  · exact .ite h <| .emit <| .setBypass h
  · exact h

theorem KeepsForm.closeBypasses (h : KeepsForm s u) : KeepsForm s (Machine.closeBypasses u) := by
  unfold Machine.closeBypasses
  exact .foldl (fun _ _ hv => .ite hv <| .ite hv <| .emit <| .setBypass hv) h

theorem KeepsForm.darkRing {n : Nat} (h : KeepsForm s u) : KeepsForm s (Machine.darkRing u n) := by
  unfold Machine.darkRing
  exact .foldl (fun _ _ hv => .ite (.modLink hv) <| .enterDown <| .modLink hv) h

theorem Runs.execBypassMoveComplete {t ring : Nat} (h : KeepsForm s u) : Runs s (Machine.execBypassMoveComplete t ring u) := by
  refine .next ?_
  split
  · exact .atTime h
  · exact .setBypass <| .atTime h
  · exact .darkRing <| .setBypass <| .atTime h
  · exact .emit <| .setBypass <| .atTime h

theorem KeepsForm.startBypasses (h : KeepsForm s u) : KeepsForm s (Machine.startBypasses u) := by
  unfold Machine.startBypasses
  exact .ite h <| .initStage <| .foldl (fun _ _ hv => .ite hv <| .ite (.bypassOpenAction <| .setBypass hv) <| .setBypass hv) h

theorem Runs.execUnitProofComplete {t unit : Nat} {ok : Bool} {checker : Nat} (h :
    KeepsForm s u) : Runs s (Machine.execUnitProofComplete t unit ok checker u) := by
  unfold Machine.execUnitProofComplete
  exact .next <| .startBypasses <| .proveUnit <| .atTime h

/-! ### Swap -/

theorem KeepsForm.swapLeaves {j g base : Nat} {l : List Nat} (h : KeepsForm s u) : KeepsForm s (Machine.swapLeaves u j g base l) := by
  induction l generalizing u base with
  | nil => exact h
  | cons w r ih =>
    unfold Machine.swapLeaves
    refine ih ?_
    split
    next heq => exact .writeBytes <| .emit <| .fst (.caseObject h) heq
    next heq => exact .fst (.caseObject h) heq

theorem KeepsForm.swapGroups {n region : Nat} {l : List ((Nat × Nat) × Nat)} (h : KeepsForm s u) :
    KeepsForm s (Machine.swapGroups u n region l) := by
  induction l generalizing u with
  | nil =>
    exact h
  | cons e r ih =>
    obtain ⟨⟨p, g⟩, off⟩ := e
    unfold Machine.swapGroups
    exact ih <| .modJob <| .swapLeaves <| .modGroup h

theorem KeepsForm.freeSwapped {n : Nat} (h : KeepsForm s u) : KeepsForm s (Machine.freeSwapped u n) := by
  refine .foldl (fun _ _ hv => ?_) h
  split
  · exact .clearEntry <| .modGroup hv
  · exact hv

theorem KeepsForm.swapWritten {n : Nat} (h : KeepsForm s u) : KeepsForm s (Machine.swapWritten u n) := by
  dsimp only [Machine.swapWritten]
  split
  · exact .drain <| .modA <| .freeSwapped h
  · exact .enterState <| .freeSwapped h

theorem Runs.execSwapOutBegin {t sig : Nat} (h : KeepsForm s u) : Runs s (Machine.execSwapOutBegin t sig u) := by
  refine .ite (.next <| .atTime h) ?_
  refine .ite (.next <| .swapWritten <| .atTime h) ?_
  split
  · exact .next <| .atTime h
  · split
    · exact .next <| .atTime h
    · exact .next <| .swapGroups <| .draw <| .atTime h

theorem Runs.execSwapOutConfirmed {t sig : Nat} (h : KeepsForm s u) : Runs s (Machine.execSwapOutConfirmed t sig u) := by
  unfold Machine.execSwapOutConfirmed
  exact .next <| .ite (.atTime h) <| .swapWritten <| .atTime h

theorem KeepsForm.takeFor {j n anchor : Nat} {ps : List Nat} {p : State × List Nat} (h : KeepsForm s u)
    (hp : Machine.takeFor u j n anchor ps = some p) : KeepsForm s p.1 := by
  induction ps generalizing u p with
  | nil =>
    cases hp
    exact h
  | cons a r ih =>
    unfold Machine.takeFor at hp
    split at hp
    · cases hp
    next heq =>
      have hw := KeepsForm.takeGroup h heq
      split at hp
      · cases hp
      next heq1 =>
        have hrest := ih (.modGroup hw) heq1
        cases hp
        exact hrest

theorem KeepsForm.readSwapped {n p : Nat} (h : KeepsForm s u) : KeepsForm s (Machine.readSwapped u n p) := by
  dsimp only [Machine.readSwapped]
  split
  · exact .emit h
  · exact h

theorem KeepsForm.startSwapIn {j : Nat} (h : KeepsForm s u) : KeepsForm s (Machine.startSwapIn u j) := by
  dsimp only [Machine.startSwapIn]
  split
  · exact .noteSlacks h
  · refine .ite (.noteSlacks h) ?_
    split
    · exact .noteSlacks h
    next heq1 =>
      have hw1 := KeepsForm.takeFor (.noteSlacks h) heq1
      split
      · exact .readSwapped <| .modA <| .setSigState hw1
      · exact .enterState <| .modA <| .setSigState hw1

theorem KeepsForm.openAll {j half : Nat} {l : List (List Byte)} (h : KeepsForm s u) : KeepsForm s (Machine.openAll u j half l).1 := by
  induction l generalizing u with
  | nil =>
    exact h
  | cons bytes rest ih =>
    unfold Machine.openAll
    split
    next heq => exact .fst (.openObject h) heq
    next heq =>
      have hw := KeepsForm.fst (.openObject h) heq
      refine .iteFst hw ?_
      split
      next heq1 => exact .fst (ih hw) heq1
      next heq1 => exact .fst (ih hw) heq1

theorem KeepsForm.placeSwapped {n p g : Nat} {raws : List (List Byte)} (h : KeepsForm s u) :
    KeepsForm s (Machine.placeSwapped u n p g raws) := by
  unfold Machine.placeSwapped
  exact .setList <| .modGroup <| .foldl (fun _ _ hv => .storeLeaf hv) h

theorem KeepsForm.swapNext {n : Nat} (h : KeepsForm s u) : KeepsForm s (Machine.swapNext u n) := by
  unfold Machine.swapNext
  split
  · exact .readSwapped h
  · dsimp only
    split
    · exact .drain <| .modA <| .dropSwapped h
    · exact .enterState <| .dropSwapped h

theorem Runs.execSwapInGroupRead {t sig : Nat} {objects : List (List Byte)} (h :
    KeepsForm s u) : Runs s (Machine.execSwapInGroupRead t sig objects u) := by
  unfold Machine.execSwapInGroupRead
  dsimp only
  split
  · refine .ite (.next <| .atTime h) ?_
    split
    · exact .next <| .swapNext <| .modA <| .placeSwapped <| .openAll <| .atTime h
    · exact .ite (.next <| .readSwapped <| .incF <| .modA <| .openAll <| .atTime h) <|
        .next <| .tearDownJob <| .voidStep <| .logErr <| .incF <| .openAll <| .atTime h
  · exact .next <| .atTime h

theorem Runs.execSwapRegionReleased {t jb : Nat} (h : KeepsForm s u) : Runs s (Machine.execSwapRegionReleased t jb u) := by
  unfold Machine.execSwapRegionReleased
  exact .next <| .ite (.atTime h) <| .emit <| .modJob <| .atTime h

/-! ### Compose -/

theorem KeepsForm.modTransit {j n w : Nat} {f : Transit → Transit} (h : KeepsForm s u) : KeepsForm s (Machine.modTransit u j n w f) :=
  .fields h

theorem KeepsForm.resolveAll {n startNs : Nat} {named l : List Nat} (h : KeepsForm s u) :
    KeepsForm s (Machine.resolveAll n startNs named u l).1 := by
  induction l generalizing u with
  | nil =>
    exact h
  | cons p r ih =>
    unfold Machine.resolveAll
    refine .iteFst (ih h) ?_
    split
    next heq => exact ih <| .fst (.resolve h) heq
    next heq => exact .fst (.resolve h) heq

theorem KeepsForm.takeTransit {n w startNs : Nat} {named l : List Nat} (h : KeepsForm s u) :
    KeepsForm s (Machine.takeTransit n w startNs named u l).1 := by
  induction l generalizing u with
  | nil =>
    exact h
  | cons p r ih =>
    unfold Machine.takeTransit
    split
    next heq => exact .fst (.grow h) heq
    next heq => exact ih <| .settleOwed <| .modTransit <| .fst (.grow h) heq

theorem KeepsForm.freeTransit {x : Transit} (h : KeepsForm s u) : KeepsForm s (Machine.freeTransit u x) := by
  unfold Machine.freeTransit
  exact .foldl (fun _ _ hv => .decRef hv) <| .fields h

theorem KeepsForm.endTransit {j w n : Nat} (h : KeepsForm s u) : KeepsForm s (Machine.endTransit u j w n) := by
  unfold Machine.endTransit
  split
  · exact .freeTransit h
  · exact h

theorem KeepsForm.distancePass {n base cnt w startNs : Nat} {named : List Nat} (h : KeepsForm s u) :
    KeepsForm s (Machine.distancePass u n base cnt w startNs named).1 := by
  dsimp only [Machine.distancePass]
  split
  · exact h
  · exact .takeTransit <| .fields <| .endTransit h

theorem KeepsForm.promoteStep {j g : Nat} {named : List Nat} (h : KeepsForm s u) : KeepsForm s (Machine.promoteStep u j g named).1 := by
  unfold Machine.promoteStep
  exact .promoteWith h

theorem KeepsForm.promoteSig {n last : Nat} {named l : List Nat} (h : KeepsForm s u) :
    KeepsForm s (Machine.promoteSig n last named u l).1 := by
  induction l generalizing u with
  | nil =>
    exact h
  | cons p r ih =>
    unfold Machine.promoteSig
    split
    · exact ih h
    · refine .iteFst (ih h) ?_
      split
      next heq1 => exact ih <| .fst (.promoteStep h) heq1
      next heq1 => exact .incF <| .countStall <| .fst (.promoteStep h) heq1

theorem KeepsForm.readyGroups {n base cnt w startNs : Nat} {named : List Nat} (h : KeepsForm s u) :
    KeepsForm s (Machine.readyGroups u n base cnt w startNs named).1 := by
  unfold Machine.readyGroups
  split
  next heq => exact .fst (.distancePass h) heq
  next heq =>
    have hw := KeepsForm.fst (.distancePass h) heq
    split
    next heq1 => exact .fst (.resolveAll hw) heq1
    next heq1 => exact .promoteSig <| .fst (.resolveAll hw) heq1

theorem KeepsForm.readySig {n base cnt w startNs : Nat} {named : List Nat} (h : KeepsForm s u) :
    KeepsForm s (Machine.readySig u n base cnt w startNs named).1 := by
  unfold Machine.readySig
  split
  next heq => exact .fst (.readyGroups h) heq
  next heq => exact .endTransit <| .fst (.readyGroups h) heq

theorem KeepsForm.stallFor {n folio : Nat} (h : KeepsForm s u) : KeepsForm s (Machine.stallFor u n folio) := by
  unfold Machine.stallFor
  exact .incF <| .modE h

theorem KeepsForm.batchReady {w startNs : Nat} {named l : List Nat} (h : KeepsForm s u) :
    KeepsForm s (Machine.batchReady w startNs named u l).1 := by
  induction l generalizing u with
  | nil =>
    exact h
  | cons p r ih =>
    unfold Machine.batchReady
    exact .iteFst (ih h) <| ih <| .readySig h

theorem KeepsForm.batchPairs {l : List (Nat × Nat)} {l' : List Nat} (h : KeepsForm s u) : KeepsForm s (Machine.batchPairs u l l').1 := by
  induction l' generalizing u l with
  | nil =>
    exact h
  | cons n r ih =>
    unfold Machine.batchPairs
    split
    · exact ih h
    · exact ih <| .stallFor h

theorem KeepsForm.batchFit {cap n : Nat} {l : List Nat} (h : KeepsForm s u) : KeepsForm s (Machine.batchFit cap n u l).1 := by
  induction n generalizing u l with
  | zero =>
    exact h
  | succ n ih =>
    unfold Machine.batchFit
    refine .iteFst h ?_
    split
    · exact h
    · exact ih <| .stallFor h

theorem KeepsForm.addChunks {cap chunk : Nat} {whole : Bool} {w startNs : Nat} {named : List Nat} {l : List (Nat × Nat)} {n : Nat}
    {l' : List Nat} (h : KeepsForm s u) : KeepsForm s (Machine.addChunks cap chunk whole w startNs named u l n l').1 := by
  induction l' generalizing u l n with
  | nil =>
    exact h
  | cons n r ih =>
    unfold Machine.addChunks
    refine .iteFst (ih h) ?_
    split
    · exact ih <| .stallFor h
    · dsimp only
      split
      next heq1 => exact ih <| .fst (.readySig h) heq1
      next heq1 => exact ih <| .fst (.readySig h) heq1

theorem KeepsForm.trimColumns {j nq area n : Nat} {y : Composition} (h : KeepsForm s u) :
    KeepsForm s (Machine.trimColumns j nq area n u y).1 := by
  induction n generalizing u y with
  | zero =>
    exact h
  | succ n ih =>
    unfold Machine.trimColumns
    refine .iteFst h ?_
    split
    · exact ih <| .stallFor h
    · exact ih <| .stallFor h
    · exact h

theorem KeepsForm.noteEstimates {ns : List Nat} (h : KeepsForm s u) : KeepsForm s (Machine.noteEstimates u ns) := by
  unfold Machine.noteEstimates
  exact .foldl (fun _ _ hv => .noteEstimate hv) h

theorem KeepsForm.compose {j : Nat} {prompt withChunks : Bool} {window startNs : Nat} (h : KeepsForm s u) :
    KeepsForm s (Machine.compose u j prompt withChunks window startNs).1 := by
  unfold Machine.compose
  extract_lets i nq cap dec s1 order named tried
  have h1 : KeepsForm s s1 := .noteEstimates h
  clear_value s1
  split
  next v b heq =>
    have h2 := KeepsForm.fst (.batchReady h1) heq
    have h3 {cap n l m} : KeepsForm s (Machine.batchFit cap n (Machine.batchPairs v l m).1 (Machine.batchPairs v l m).2.2).1 :=
        .batchFit <| .batchPairs h2
    dsimp only
    split
    · exact .foldl (fun _ _ hv => .endTransit hv) <| .trimColumns <| .iteFst (.addChunks h3) h3
    · exact .foldl (fun _ _ hv => .endTransit hv) <| .trimColumns <| .iteFst (.addChunks h3) h3

/-! ### Lists -/

theorem KeepsForm.stageMap {j : Nat} {c : Composition} (h : KeepsForm s u) : KeepsForm s (Machine.stageMap u j c) := by
  unfold Machine.stageMap
  split
  · exact h
  · exact .writeBytes h

theorem KeepsForm.stageInputs {j : Nat} {c : Composition} (h : KeepsForm s u) : KeepsForm s (Machine.stageInputs u j c) := by
  unfold Machine.stageInputs
  split
  · exact h
  · exact .writeBytes h

theorem KeepsForm.stageBundle {j w l area nq : Nat} {members : List (Nat × Nat × Nat)} {b : Nat} (h : KeepsForm s u) :
    KeepsForm s (Machine.stageBundle j w l area nq members u b) := by
  unfold Machine.stageBundle
  exact .writeBytes <| .foldl (fun _ _ hv => .writeBytes hv) h

theorem KeepsForm.stageLists {j : Nat} {c : Composition} (h : KeepsForm s u) : KeepsForm s (Machine.stageLists u j c) := by
  unfold Machine.stageLists
  exact .foldl (fun _ _ hv => .foldl (fun _ _ hv1 => .stageBundle hv1) hv) h

theorem KeepsForm.stagePlan {j : Nat} {c : Composition} (h : KeepsForm s u) : KeepsForm s (Machine.stagePlan u j c).1 := by
  unfold Machine.stagePlan
  exact .stageLists <| .stageMap h

theorem KeepsForm.writeSteer {j : Nat} {c : Composition} (h : KeepsForm s u) : KeepsForm s (Machine.writeSteer u j c) := by
  unfold Machine.writeSteer
  exact .modJob h

/-! ### Windows -/

theorem KeepsForm.modPart {j : Nat} {prompt : Bool} {f : PartState → PartState} (h : KeepsForm s u) :
    KeepsForm s (Machine.modPart u j prompt f) := by
  unfold Machine.modPart
  exact .modJob h

theorem KeepsForm.raiseFill {n lo hi : Nat} (h : KeepsForm s u) : KeepsForm s (Machine.raiseFill u n lo hi) := by
  refine .foldl (fun _ _ hv => ?_) h
  split
  · exact hv
  · exact .modGroup hv

theorem KeepsForm.readBatch {m : BatchMember} (h : KeepsForm s u) : KeepsForm s (Machine.readBatch u m) := by
  unfold Machine.readBatch
  exact .ite h <| .modA <| .rollback <| .raiseFill h

theorem KeepsForm.readChunk {k : Chunk} (h : KeepsForm s u) : KeepsForm s (Machine.readChunk u k) := by
  unfold Machine.readChunk
  exact .ite h <| .modA <| .raiseFill h

theorem KeepsForm.decodeTransition {n : Nat} (h : KeepsForm s u) : KeepsForm s (Machine.decodeTransition u n) := by
  unfold Machine.decodeTransition
  split
  · exact h
  · exact .ite (.drain h) h

theorem KeepsForm.finishTrigger {n : Nat} (h : KeepsForm s u) : KeepsForm s (Machine.finishTrigger u n) := by
  unfold Machine.finishTrigger
  exact .ite h <| .badTrigger h

theorem KeepsForm.prefillTransition {n : Nat} (h : KeepsForm s u) : KeepsForm s (Machine.prefillTransition u n) := by
  unfold Machine.prefillTransition
  exact .ite h <| .ite (.ite (.sendOffer <| .modA <| .ite h <| .modA <| .insertSig h) <| .ite h <| .modA <| .insertSig h) <|
      .ite (.drain <| .ite h <| .modA <| .insertSig h) <| .decodeTransition <| .enterState <| .modA <| .ite h <| .modA <| .insertSig h

theorem KeepsForm.readPart {j : Nat} {prompt : Bool} (h : KeepsForm s u) : KeepsForm s (Machine.readPart u j prompt) := by
  unfold Machine.readPart
  split
  · exact h
  · refine .modPart ?_
    refine .foldl (fun _ _ hv1 => .finishTrigger hv1) ?_
    refine .foldl (fun _ _ hv1 => ?_) (.foldl (fun _ _ hv1 => .readChunk hv1) <| .foldl (fun _ _ hv1 => .readBatch hv1) h)
    refine .foldl (fun _ _ hv2 => ?_) hv1
    split
    · exact .modGroup hv2
    · exact hv2

theorem KeepsForm.dropTransit {j : Nat} (h : KeepsForm s u) : KeepsForm s (Machine.dropTransit u j) := by
  unfold Machine.dropTransit
  exact .foldl (fun _ _ hv => .freeTransit hv) h

theorem KeepsForm.readCommits {j : Nat} (h : KeepsForm s u) : KeepsForm s (Machine.readCommits u j) := by
  unfold Machine.readCommits
  exact .foldl (fun _ _ hv => .supersededTransition hv) <| .releaseWaiting <| .dropTransit <|
      .foldl (fun _ _ hv => .prefillTransition hv) <| .foldl (fun _ _ hv => .decodeTransition hv) <| .readPart <| .readPart h

theorem KeepsForm.moveNow {j : Nat} (h : KeepsForm s u) : KeepsForm s (Machine.moveNow u j) := by
  refine .foldl (fun _ _ hv => ?_) h
  split
  · exact hv
  · refine .ite hv (.sendOffer ?_)
    dsimp only
    split
    · refine .foldl (fun _ _ hv3 => .readBatch hv3) ?_
      split
      · exact .foldl (fun _ _ hv4 => .readBatch hv4) hv
      · exact hv
    · split
      · exact .foldl (fun _ _ hv4 => .readBatch hv4) hv
      · exact hv

theorem KeepsForm.sweepHalf {half lost : Nat} (h : KeepsForm s u) : KeepsForm s (Machine.sweepHalf u half lost) := by
  unfold Machine.sweepHalf
  exact .ite (.modNode <| .ite (.clearSlot <| .foldl (fun _ _ hv => .evictNode hv) h) <| .modNode <| .clearSlot <|
      .foldl (fun _ _ hv => .evictNode hv) h) <| .foldl (fun _ _ hv => .evictNode hv) h

theorem KeepsForm.strikeJob {j : Nat} (h : KeepsForm s u) : KeepsForm s (Machine.strikeJob u j) := by
  unfold Machine.strikeJob
  exact .tearDownJob <| .voidStep h

theorem KeepsForm.strike {w : Struck} (h : KeepsForm s u) : KeepsForm s (Machine.strike u w) := by
  dsimp only [Machine.strike]
  split
  · exact .foldl (fun _ _ hv1 => .strikeJob hv1) <| .uncorrectableAt <| .draw <| .draw <| .draw h
  · exact .sweepHalf <| .uncorrectableAt <| .draw <| .draw <| .draw h
  · exact .fields <| .uncorrectableAt <| .draw <| .draw <| .draw h
  · split
    · exact .leaseExpired <| .uncorrectableAt <| .draw <| .draw <| .draw h
    · exact .uncorrectableAt <| .draw <| .draw <| .draw h

theorem KeepsForm.failCanary {j k u' : Nat} (h : KeepsForm s u) : KeepsForm s (Machine.failCanary j k u u') := by
  unfold Machine.failCanary
  exact .fence <| .uncorrectable <| .incF h

theorem KeepsForm.runCanaries {j k : Nat} {fails : List Nat} (h : KeepsForm s u) : KeepsForm s (Machine.runCanaries u j k fails).1 := by
  unfold Machine.runCanaries
  refine .iteFst ?_ ?_
  · dsimp only
    exact .modJob <| .foldl (fun _ _ hv => .modSeq hv) h
  · dsimp only
    exact .tearDownJob <| .voidStep <| .foldl (fun _ _ hv => .failCanary hv) <| .modJob <| .foldl (fun _ _ hv => .modSeq hv) h

theorem KeepsForm.evictVersions {j slot : Nat} (h : KeepsForm s u) : KeepsForm s (Machine.evictVersions j u slot) := by
  unfold Machine.evictVersions
  exact .ite h <| .foldl (fun _ _ hv => .ite hv <| .setF hv) h

theorem KeepsForm.refreshMember {startNs : Nat} {m : BatchMember} (h : KeepsForm s u) :
    KeepsForm s (Machine.refreshMember startNs u m).1 := by
  unfold Machine.refreshMember
  exact .iteFst h <| .iteFst (.modA <| .addF <| .iteFst h <| .resolveAll h) <| .iteFst h <| .resolveAll h

theorem KeepsForm.refreshBatch {startNs : Nat} {l : List BatchMember} (h : KeepsForm s u) :
    KeepsForm s (Machine.refreshBatch startNs u l).1 := by
  induction l generalizing u with
  | nil =>
    exact h
  | cons m r ih =>
    unfold Machine.refreshBatch
    exact ih <| .refreshMember h

theorem KeepsForm.stagePart {j : Nat} {prompt : Bool} {startNs us : Nat} (h : KeepsForm s u) :
    KeepsForm s (Machine.stagePart u j prompt startNs us) := by
  unfold Machine.stagePart
  split
  · exact h
  · exact .modPart <| .writeSteer <| .stageInputs <| .iteFst (.refreshBatch h) <| .stagePlan <| .refreshBatch h

theorem KeepsForm.voidFrozen {j : Nat} (h : KeepsForm s u) : KeepsForm s (Machine.voidFrozen u j) := by
  unfold Machine.voidFrozen
  exact .modJob h

theorem KeepsForm.noteTrigger {j : Nat} (h : KeepsForm s u) : KeepsForm s (Machine.noteTrigger u j) := by
  unfold Machine.noteTrigger
  exact .ite (.modJob h) h

theorem KeepsForm.sizeSplit {jb : Nat} (h : KeepsForm s u) : KeepsForm s (Machine.sizeSplit jb u) := by
  unfold Machine.sizeSplit
  exact .modJob <| .noteTrigger h

theorem Runs.execSplitSizing {t jb : Nat} (h : KeepsForm s u) : Runs s (Machine.execSplitSizing t jb u) := by
  unfold Machine.execSplitSizing
  exact .ite (.next <| .atTime h) <| .next <| .sizeSplit <| .atTime h

theorem KeepsForm.runBoundary {j : Nat} {b : BoundaryIn} (h : KeepsForm s u) : KeepsForm s (Machine.runBoundary u j b) := by
  have hstruck {v : State} (hv : KeepsForm s v) : KeepsForm s (match b.struck with
      | some w => Machine.strike v w
      | none => v) := by
    split
    · exact .strike hv
    · exact hv
  unfold Machine.runBoundary
  refine .ite (hstruck <| .modJob <| .endBars h) ?_
  split
  next heq => exact .fst (.runCanaries <| hstruck <| .modJob <| .endBars h) heq
  next heq =>
    have hw := KeepsForm.fst (.runCanaries <| hstruck <| .modJob <| .endBars h) heq
    exact .modJob <| .stagePart <| .stagePart <| .voidFrozen <| .takeBookmark <| .foldl (fun _ _ hv => .evictVersions hv) <|
      .startSwapIn <| .foldl (fun _ _ hv => .sendTokens hv) <| .noteTrigger <| .moveNow <| .readCommits hw

theorem Runs.execBoundaryPhase {t jb : Nat} {b : BoundaryIn} (h : KeepsForm s u) : Runs s (Machine.execBoundaryPhase t jb b u) := by
  unfold Machine.execBoundaryPhase
  exact .ite (.next <| .atTime h) <| .ite (.next <| .runBoundary <| .atTime h) <| .next <| .incF <| .modJob <| .atTime h

theorem KeepsForm.freezeTables {j : Nat} {w : Nat × List Byte} (h : KeepsForm s u) : KeepsForm s (Machine.freezeTables j u w) := by
  unfold Machine.freezeTables
  exact .ite (.writeBytes h) h

theorem Runs.execFreezeRoutineReturn {t jb routine : Nat} {writes : RoutineWrites} (h :
    KeepsForm s u) : Runs s (Machine.execFreezeRoutineReturn t jb routine writes u) := by
  refine .ite (.next <| .atTime h) ?_
  split
  · exact .next <| .ite (.runBoundary <| .foldl (fun _ _ hv1 => .freezeTables hv1) <| .modJob <| .atTime h) <|
        .foldl (fun _ _ hv1 => .freezeTables hv1) <| .modJob <| .atTime h
  · exact .next <| .foldl (fun _ _ hv1 => .freezeTables hv1) <| .modJob <| .atTime h

theorem KeepsForm.stageFrozen {j : Nat} {prompt : Bool} (h : KeepsForm s u) : KeepsForm s (Machine.stageFrozen u j prompt) := by
  dsimp only [Machine.stageFrozen]
  split
  · exact .ite h <| .modPart <| .stagePlan h
  · exact h

theorem KeepsForm.freezeWindow {jb : Nat} (h : KeepsForm s u) : KeepsForm s (Machine.freezeWindow jb u) := by
  unfold Machine.freezeWindow
  extract_lets k start s1 split gen
  have h1 : KeepsForm s s1 := .modJob h
  clear_value s1
  dsimp only
  exact .stageFrozen <| .stageFrozen <| .modJob <| .iteFst (.iteFst (.compose h1) h1) <| .compose <| .iteFst (.compose h1) h1

theorem Runs.execComposeFreeze {t jb : Nat} (h : KeepsForm s u) : Runs s (Machine.execComposeFreeze t jb u) := by
  unfold Machine.execComposeFreeze
  exact .ite (.next <| .atTime h) <| .next <| .freezeWindow <| .atTime h

theorem KeepsForm.setUp {run : Bool} {i : Nat} (h : KeepsForm s u) : KeepsForm s (Machine.setUp run u i) := by
  unfold Machine.setUp
  exact .modSeq h

theorem KeepsForm.resumeSeq {i : Nat} (h : KeepsForm s u) : KeepsForm s (Machine.resumeSeq u i) := by
  unfold Machine.resumeSeq
  exact .modSeq h

theorem KeepsForm.startPart {j : Nat} {prompt : Bool} (h : KeepsForm s u) : KeepsForm s (Machine.startPart u j prompt) := by
  unfold Machine.startPart
  split
  · exact .modPart <| .foldl (fun _ _ hv1 => .resumeSeq hv1) h
  · exact .modPart <| .foldl (fun _ _ hv1 => .setUp hv1) h
  · exact h

theorem KeepsForm.stopSeq {i : Nat} (h : KeepsForm s u) : KeepsForm s (Machine.stopSeq u i) := by
  unfold Machine.stopSeq
  exact .ite (.ite (.incF <| .modSeq h) <| .modSeq h) h

theorem KeepsForm.waitedThrough {i : Nat} (h : KeepsForm s u) : KeepsForm s (Machine.waitedThrough u i) := by
  unfold Machine.waitedThrough
  exact .ite (.modSeq h) h

theorem Runs.execWaitLimitTrap {t id : Nat} (h : KeepsForm s u) : Runs s (Machine.execWaitLimitTrap t id u) := by
  unfold Machine.execWaitLimitTrap
  exact .next <| .ite (.trapSeq <| .atTime h) <| .atTime h

theorem KeepsForm.endWindow {jb : Nat} {busy : List Nat} (h : KeepsForm s u) : KeepsForm s (Machine.endWindow jb busy u) := by
  unfold Machine.endWindow
  exact .foldl (fun _ _ hv => .waitedThrough hv) <| .modJob <| .foldl (fun _ _ hv => .stopSeq hv) h

theorem KeepsForm.stopAfter {i : Nat} (h : KeepsForm s u) : KeepsForm s (Machine.stopAfter u i) := by
  unfold Machine.stopAfter
  split
  · exact .ite (.stopSeq h) h
  · exact h

theorem Runs.execWindowEnd {t jb : Nat} {busy : List Nat} (h : KeepsForm s u) : Runs s (Machine.execWindowEnd t jb busy u) := by
  unfold Machine.execWindowEnd
  exact .ite (.next <| .atTime h) <| .ite (.next <| .endBars <| .atTime h) <| .next <| .endWindow <| .atTime h

theorem KeepsForm.settleOverrun {j : Nat} (h : KeepsForm s u) : KeepsForm s (Machine.settleOverrun u j) := by
  unfold Machine.settleOverrun
  exact .ite h <| .ite (.maxF <| .ite (.incF h) h) <| .addF <| .modJob <| .maxF <| .ite (.incF h) h

theorem KeepsForm.carryPart {j : Nat} {prompt : Bool} (h : KeepsForm s u) : KeepsForm s (Machine.carryPart u j prompt) := by
  unfold Machine.carryPart
  split
  · exact h
  · exact .ite h <| .incF <| .modJob <| .modPart <| .foldl (fun _ _ hv1 => .stopSeq hv1) h

theorem Runs.execStepCarried {t jb : Nat} (h : KeepsForm s u) : Runs s (Machine.execStepCarried t jb u) := by
  unfold Machine.execStepCarried
  exact .ite (.next <| .atTime h) <| .next <| .settleOverrun <| .foldl (fun _ _ hv => .stopSeq hv) <| .carryPart <| .carryPart <| .atTime h

theorem KeepsForm.logSelector {j n : Nat} (h : KeepsForm s u) : KeepsForm s (Machine.logSelector u j n) := by
  unfold Machine.logSelector
  exact .logErr h

theorem KeepsForm.logMissing {j n k : Nat} (h : KeepsForm s u) : KeepsForm s (Machine.logMissing u j n k) := by
  induction k generalizing u with
  | zero =>
    exact h
  | succ k ih =>
    unfold Machine.logMissing
    exact .logSelector <| ih h

theorem KeepsForm.commitTokens {j n : Nat} {toks : List Nat} {error : Bool} (h : KeepsForm s u) :
    KeepsForm s (Machine.commitTokens u j n toks error) := by
  unfold Machine.commitTokens
  exact .modA <| .modE <| .appendLog h

theorem KeepsForm.commitMember {j : Nat} {r : StepRun} {m : BatchMember} (h : KeepsForm s u) :
    KeepsForm s (Machine.commitMember j r u m) := by
  unfold Machine.commitMember
  exact .ite h <| .commitTokens <| .addF <| .logMissing h

theorem KeepsForm.commitChunk {j : Nat} {r : StepRun} {k : Chunk} (h : KeepsForm s u) : KeepsForm s (Machine.commitChunk j r u k) := by
  refine .ite h ?_
  refine .ite ?_ (.modE h)
  split
  · exact .commitTokens h
  · exact .commitTokens h
  · exact .commitTokens <| .logSelector h

theorem KeepsForm.idleColumns {j : Nat} {prompt : Bool} (h : KeepsForm s u) : KeepsForm s (Machine.idleColumns u j prompt) := by
  unfold Machine.idleColumns
  exact .foldl (fun _ _ hv => .modSeq hv) h

theorem KeepsForm.commitPart {j : Nat} {prompt : Bool} {r : StepRun} (h : KeepsForm s u) :
    KeepsForm s (Machine.commitPart u j prompt r) := by
  unfold Machine.commitPart
  exact .moveNow <| .settleOverrun <| .modJob <| .idleColumns <| .modPart <| .dropOwnPasses <| .settleLate <|
      .foldl (fun _ _ hv => .modSeq hv) <| .addF <| .addF <| .incF <| .foldl (fun _ _ hv => .commitChunk hv) <|
      .foldl (fun _ _ hv => .commitMember hv) h

theorem Runs.execStepCommit {t jb : Nat} {prompt : Bool} (h : KeepsForm s u) : Runs s (Machine.execStepCommit t jb prompt u) := by
  dsimp only [Machine.execStepCommit]
  split
  · exact .next <| .atTime h
  · exact .ite (.next <| .atTime h) <| .ite (.next <| .voidStep <| .atTime h) <| .next <| .commitPart <| .atTime h

/-! ### Stitch -/

theorem KeepsForm.advance {id : Nat} (h : KeepsForm s u) : KeepsForm s (Machine.advance u id) := by
  unfold Machine.advance
  exact .modSeq h

theorem KeepsForm.runStitch {t id op : Nat} {f : State → BitVec 128 → State} (hf : ∀ v x1, KeepsForm s v → KeepsForm s (f v x1))
    (h : KeepsForm s u) : KeepsForm s (Machine.runStitch t id op f u) := by
  unfold Machine.runStitch
  exact .ite (.atTime h) <| .ite (.advance <| .atTime h) <| hf _ _ <| .atTime h

theorem KeepsForm.raiseEvent {id e n : Nat} (h : KeepsForm s u) : KeepsForm s (Machine.raiseEvent u id e n) := by
  unfold Machine.raiseEvent
  exact .modSeq h

theorem Runs.execNop {t id : Nat} (h : KeepsForm s u) : Runs s (Machine.execNop t id u) := by
  unfold Machine.execNop
  exact .next <| .runStitch (fun _ _ hv => .advance hv) h

theorem KeepsForm.loopBegin {id : Nat} {w : BitVec 128} (h : KeepsForm s u) : KeepsForm s (Machine.loopBegin u id w) := by
  unfold Machine.loopBegin
  exact .ite (.setSeq h) <| .ite (.trapSeq h) <| .setSeq h

theorem Runs.execLpBegin {t id : Nat} (h : KeepsForm s u) : Runs s (Machine.execLpBegin t id u) := by
  unfold Machine.execLpBegin
  exact .next <| .runStitch (fun _ _ hv => .loopBegin hv) h

theorem Runs.execLoopEnd {t id : Nat} (h : KeepsForm s u) : Runs s (Machine.execLoopEnd t id u) := by
  unfold Machine.execLoopEnd
  exact .next <| .ite (.modSeq <| .atTime h) <| .atTime h

theorem KeepsForm.jumpSteer {id : Nat} {w : BitVec 128} (h : KeepsForm s u) : KeepsForm s (Machine.jumpSteer u id w) := by
  unfold Machine.jumpSteer
  exact .ite (.trapSeq h) <| .modSeq h

theorem Runs.execJmpSt {t id : Nat} (h : KeepsForm s u) : Runs s (Machine.execJmpSt t id u) := by
  unfold Machine.execJmpSt
  exact .next <| .runStitch (fun _ _ hv => .jumpSteer hv) h

theorem KeepsForm.setAreg {id n : Nat} {f : AddrReg → AddrReg} (h : KeepsForm s u) : KeepsForm s (Machine.setAreg u id n f) := by
  unfold Machine.setAreg
  exact .modSeq h

theorem Runs.execArBase {t id : Nat} (h : KeepsForm s u) : Runs s (Machine.execArBase t id u) := by
  unfold Machine.execArBase
  exact .next <| .runStitch (fun _ _ hv => .setAreg hv) h

theorem Runs.execArStride {t id : Nat} (h : KeepsForm s u) : Runs s (Machine.execArStride t id u) := by
  unfold Machine.execArStride
  exact .next <| .runStitch (fun _ _ hv => .setAreg hv) h

theorem KeepsForm.haltColumn {c : Nat} (h : KeepsForm s u) : KeepsForm s (Machine.haltColumn u c) := by
  dsimp only [Machine.haltColumn]
  split
  · exact .raiseEvent <| .modGutter h
  · exact .modGutter h

theorem Runs.execHalt {t id : Nat} (h : KeepsForm s u) : Runs s (Machine.execHalt t id u) := by
  unfold Machine.execHalt
  exact .next <| .runStitch (fun _ _ hv => .haltColumn hv) h

theorem KeepsForm.startColumn {entry : Nat} {note : Option (Nat × Nat)} {prompt : Bool} {c : Nat} (h : KeepsForm s u) :
    KeepsForm s (Machine.startColumn entry note prompt u c) := by
  unfold Machine.startColumn
  exact .modGutter h

theorem KeepsForm.gutterRun {q : Nat} {w : BitVec 128} (h : KeepsForm s u) : KeepsForm s (Machine.gutterRun u q w) := by
  unfold Machine.gutterRun
  split
  · exact h
  · exact .advance <| .foldl (fun _ _ hv1 => .startColumn hv1) h

theorem Runs.execGuRun {t id : Nat} (h : KeepsForm s u) : Runs s (Machine.execGuRun t id u) := by
  unfold Machine.execGuRun
  exact .next <| .runStitch (fun _ _ hv => .gutterRun hv) h

theorem KeepsForm.barArrive {id : Nat} {w : BitVec 128} (h : KeepsForm s u) : KeepsForm s (Machine.barArrive u id w) := by
  unfold Machine.barArrive
  split
  · exact h
  · exact .modSeq <| .modJob h

theorem Runs.execBar {t id : Nat} (h : KeepsForm s u) : Runs s (Machine.execBar t id u) := by
  unfold Machine.execBar
  exact .next <| .runStitch (fun _ _ hv => .barArrive hv) h

theorem KeepsForm.endWait {id : Nat} (h : KeepsForm s u) : KeepsForm s (Machine.endWait u id) := by
  unfold Machine.endWait
  exact .modSeq h

theorem Runs.execBarRelease {t jb bar : Nat} (h : KeepsForm s u) : Runs s (Machine.execBarRelease t jb bar u) := by
  unfold Machine.execBarRelease
  exact .next <| .ite (.foldl (fun _ _ hv => .endWait hv) <| .modJob <| .atTime h) <| .atTime h

theorem KeepsForm.sigPost {id : Nat} {w : BitVec 128} (h : KeepsForm s u) : KeepsForm s (Machine.sigPost u id w) := by
  unfold Machine.sigPost
  split
  · exact h
  · refine .advance ?_
    split
    · exact .raiseEvent h
    · exact h

theorem Runs.execSigPost {t id : Nat} (h : KeepsForm s u) : Runs s (Machine.execSigPost t id u) := by
  unfold Machine.execSigPost
  exact .next <| .runStitch (fun _ _ hv => .sigPost hv) h

theorem KeepsForm.sigWait {id : Nat} {w : BitVec 128} (h : KeepsForm s u) : KeepsForm s (Machine.sigWait u id w) := by
  unfold Machine.sigWait
  exact .modSeq h

theorem Runs.execSigWait {t id : Nat} (h : KeepsForm s u) : Runs s (Machine.execSigWait t id u) := by
  unfold Machine.execSigWait
  exact .next <| .runStitch (fun _ _ hv => .sigWait hv) h

theorem Runs.execSigWaitRelease {t id : Nat} (h : KeepsForm s u) : Runs s (Machine.execSigWaitRelease t id u) := by
  dsimp only [Machine.execSigWaitRelease]
  split
  · exact .next <| .ite (.setSeq <| .atTime h) <| .atTime h
  · exact .next <| .atTime h

theorem Runs.execCtlCall {t id : Nat} (h : KeepsForm s u) : Runs s (Machine.execCtlCall t id u) := by
  unfold Machine.execCtlCall
  exact .next <| .runStitch (fun _ _ hv => .modSeq hv) h

theorem KeepsForm.dmaRefused {q j : Nat} {a : Int} (h : KeepsForm s u) : KeepsForm s (Machine.dmaRefused u q j a) := by
  unfold Machine.dmaRefused
  exact .ite (.localRefuse h) <| .trapSeq h

theorem KeepsForm.devWrite {a : Nat} {bs : List Byte} (h : KeepsForm s u) : KeepsForm s (Machine.devWrite u a bs) := by
  unfold Machine.devWrite
  exact .ite (.bookPumps <| .targetWrite h) <| .writeBytes h

theorem KeepsForm.runMove {m : Move} (h : KeepsForm s u) : KeepsForm s (Machine.runMove u m) := by
  unfold Machine.runMove
  exact .clearPoison <| .devWrite <| .settleOwn <| .settleOwn h

theorem KeepsForm.outPieces {q j : Nat} {load : Bool} {quireA dev n : Nat} (h : KeepsForm s u) :
    KeepsForm s (Machine.outPieces u q j load quireA dev n) := by
  refine .foldl (fun _ _ hv => ?_) h
  dsimp only
  split
  next heq1 => exact .fst (.issue hv) heq1
  next heq1 => exact .failAtOnce <| .fst (.issue hv) heq1

theorem KeepsForm.correctAll {l : List Nat} (h : KeepsForm s u) : KeepsForm s (Machine.correctAll u l) := by
  unfold Machine.correctAll
  exact .foldl (fun _ _ hv => .correctableAt hv) h

theorem KeepsForm.haltTransfer {q j : Nat} {ms : List Move} {beat addr : Nat} (h : KeepsForm s u) :
    KeepsForm s (Machine.haltTransfer u q j ms beat addr) := by
  unfold Machine.haltTransfer
  exact .unitEvent <| .channelHalt <| .foldl (fun _ _ hv => .runMove hv) h

theorem KeepsForm.readTable {q j : Nat} {x : Transfer} {r : List Transfer} (h : KeepsForm s u) :
    KeepsForm s (Machine.readTable u q j x r) := by
  unfold Machine.readTable
  split
  · exact h
  · dsimp only
    split
    · exact .trapSeq <| .modSeq h
    · exact .modSeq h

theorem KeepsForm.beginMoves {q j : Nat} (h : KeepsForm s u) : KeepsForm s (Machine.beginMoves u q j) := by
  unfold Machine.beginMoves
  split
  · exact h
  · dsimp only
    split
    · exact .haltTransfer <| .modSeq <| .correctAll h
    · split
      · exact .failMaster <| .foldl (fun _ _ hv3 => .runMove hv3) <| .modSeq <| .correctAll h
      · exact .foldl (fun _ _ hv3 => .outPieces hv3) <| .correctAll h

theorem KeepsForm.beginTransfers {q j n : Nat} (h : KeepsForm s u) : KeepsForm s (Machine.beginTransfers q j n u) := by
  induction n generalizing u with
  | zero =>
    exact h
  | succ n ih =>
    unfold Machine.beginTransfers
    split
    · exact h
    · exact .ite (ih <| .readTable h) <| .beginMoves <| .readTable h

theorem KeepsForm.beginTransfer {q j : Nat} (h : KeepsForm s u) : KeepsForm s (Machine.beginTransfer u q j) := by
  unfold Machine.beginTransfer
  exact .beginTransfers h

theorem KeepsForm.issueTransfer {q j : Nat} {x : Transfer} (h : KeepsForm s u) : KeepsForm s (Machine.issueTransfer u q j x) := by
  unfold Machine.issueTransfer
  exact .ite (.beginTransfer <| .modSeq <| .advance h) <| .modSeq <| .advance h

theorem KeepsForm.launchTransfer {q j event n : Nat} {load : Bool} {rows : List (Nat × Nat)} {f : DmaFault} (h :
    KeepsForm s u) : KeepsForm s (Machine.launchTransfer u q j event n load rows f) := by
  unfold Machine.launchTransfer
  exact .issueTransfer h

theorem KeepsForm.dma {q : Nat} {load : Bool} {w : BitVec 128} {f : DmaFault} (h : KeepsForm s u) :
    KeepsForm s (Machine.dma u q load w f) := by
  dsimp only [Machine.dma]
  split
  · exact h
  · refine .ite h ?_
    split
    · exact .ite (.dmaRefused h) <| .trapSeq h
    · exact .launchTransfer h

theorem Runs.execDmaLd {t id : Nat} {f : DmaFault} (h : KeepsForm s u) : Runs s (Machine.execDmaLd t id f u) := by
  unfold Machine.execDmaLd
  exact .next <| .runStitch (fun _ _ hv => .dma hv) h

theorem Runs.execDmaSt {t id : Nat} {f : DmaFault} (h : KeepsForm s u) : Runs s (Machine.execDmaSt t id f u) := by
  unfold Machine.execDmaSt
  exact .next <| .runStitch (fun _ _ hv => .dma hv) h

theorem KeepsForm.gather {q : Nat} {w : BitVec 128} {f : DmaFault} (h : KeepsForm s u) : KeepsForm s (Machine.gather u q w f) := by
  dsimp only [Machine.gather]
  split
  · exact h
  · exact .ite h <| .ite (.trapSeq h) <| .issueTransfer h

theorem Runs.execGathLd {t id : Nat} {f : DmaFault} (h : KeepsForm s u) : Runs s (Machine.execGathLd t id f u) := by
  unfold Machine.execGathLd
  exact .next <| .runStitch (fun _ _ hv => .gather hv) h

theorem Runs.execTransferComplete {t id : Nat} (h : KeepsForm s u) : Runs s (Machine.execTransferComplete t id u) := by
  refine .ite (.next <| .atTime h) ?_
  split
  · exact .next <| .atTime h
  · refine .next ?_
    split
    · exact .beginTransfer <| .raiseEvent <| .modSeq <| .foldl (fun _ _ hv2 => .runMove hv2) <| .atTime h
    · exact .raiseEvent <| .modSeq <| .foldl (fun _ _ hv2 => .runMove hv2) <| .atTime h

theorem KeepsForm.refetch {id : Nat} (h : KeepsForm s u) : KeepsForm s (Machine.refetch u id) := by
  dsimp only [Machine.refetch]
  split
  · exact .modSeq h
  · exact h

theorem Runs.execStitchRefetchDone {t id : Nat} {ok : Bool} (h : KeepsForm s u) : Runs s (Machine.execStitchRefetchDone t id ok u) := by
  unfold Machine.execStitchRefetchDone
  exact .ite (.next <| .atTime h) <| .ite (.next <| .correctableAt <| .refetch <| .ite (.incF <| .atTime h) <| .atTime h) <| .next <|
      .trapMemory <| .ite (.incF <| .atTime h) <| .atTime h

/-! ### Cells -/

theorem KeepsForm.countNan {q f : Nat} {rows : List (List Num)} (h : KeepsForm s u) : KeepsForm s (Machine.countNan u q f rows) := by
  unfold Machine.countNan
  exact .addF h

theorem KeepsForm.storeRows {q f a : Nat} {rows : List (List Num)} (h : KeepsForm s u) : KeepsForm s (Machine.storeRows u q f a rows) := by
  unfold Machine.storeRows
  exact .writeBytes <| .countNan h

theorem KeepsForm.badRead {id a : Nat} (h : KeepsForm s u) : KeepsForm s (Machine.badRead u id a) := by
  unfold Machine.badRead
  exact .trapMemory h

theorem KeepsForm.storeInts {q : Nat} {t : Tile} {acc : Bool} {c : Nat} (h : KeepsForm s u) :
    KeepsForm s (Machine.storeInts u q t acc c) := by
  unfold Machine.storeInts
  exact .ite (.fields <| .writeBytes h) <| .writeBytes h

theorem KeepsForm.mismatch {q j cause row col : Nat} (h : KeepsForm s u) : KeepsForm s (Machine.mismatch u q j cause row col) := by
  unfold Machine.mismatch
  exact .uncorrectable <| .incF <| .modSeq h

theorem KeepsForm.tilePass {q j : Nat} {w : BitVec 128} {f : MmaFault} {st : State × Nat} {k : Nat} (h : KeepsForm s st.1) :
    KeepsForm s (Machine.tilePass q j w f st k).1 := by
  unfold Machine.tilePass
  extract_lets v c t acc
  split
  extract_lets special v1 v2 v3
  have hv : KeepsForm s v3 := .incF <| .ite (.storeInts <| .addF h) <| .storeRows <| .addF h
  clear_value v3
  split
  · exact .mismatch hv
  · exact hv

theorem KeepsForm.afterMismatch {q j n : Nat} (h : KeepsForm s u) : KeepsForm s (Machine.afterMismatch u q j n) := by
  unfold Machine.afterMismatch
  exact .foldl (fun _ _ hv => .unitEvent hv) h

theorem KeepsForm.mma {q : Nat} {w : BitVec 128} {f : MmaFault} (h : KeepsForm s u) : KeepsForm s (Machine.mma u q w f) := by
  unfold Machine.mma
  split
  · exact h
  · refine .ite h ?_
    refine .ite (.trapSeq h) ?_
    split
    · exact .badRead h
    · exact .afterMismatch <| .advance <| .foldlFst (fun _ _ hv2 => .tilePass hv2) <| .addF h

theorem KeepsForm.lateMismatch {q : Nat} {f : MmaFault} (h : KeepsForm s u) : KeepsForm s (Machine.lateMismatch u q f) := by
  unfold Machine.lateMismatch
  split
  · exact h
  · refine .ite h (.afterMismatch <| .foldlFst (fun _ _ hv => ?_) h)
    split
    · exact .mismatch hv
    · exact hv

theorem KeepsForm.lateStage {q op : Nat} {differs : Option (Nat × Nat)} (h : KeepsForm s u) :
    KeepsForm s (Machine.lateStage u q op differs) := by
  unfold Machine.lateStage
  split
  · exact .ite (.afterMismatch <| .mismatch h) h
  · exact h

theorem Runs.execMmaBlk {t id : Nat} {f : MmaFault} (h : KeepsForm s u) : Runs s (Machine.execMmaBlk t id f u) := by
  unfold Machine.execMmaBlk
  exact .next <| .ite (.runStitch (fun _ _ hv => .mma hv) h) <| .ite (.lateMismatch <| .atTime h) <| .atTime h

theorem KeepsForm.stageDiffers {q j : Nat} {differs : Option (Nat × Nat)} (h : KeepsForm s u) :
    KeepsForm s (Machine.stageDiffers u q j differs) := by
  unfold Machine.stageDiffers
  split
  · exact .afterMismatch <| .advance <| .mismatch h
  · exact .advance h

theorem KeepsForm.combAdd {q : Nat} {w : BitVec 128} {bad : Option Nat} {differs : Option (Nat × Nat)} (h : KeepsForm s u) :
    KeepsForm s (Machine.combAdd u q w bad differs) := by
  unfold Machine.combAdd
  split
  · exact h
  · refine .ite (.trapSeq h) ?_
    split
    · exact .badRead h
    · exact .stageDiffers <| .writeBytes h

theorem Runs.execCombAdd {t id : Nat} {bad : Option Nat} {differs : Option (Nat × Nat)} (h :
    KeepsForm s u) : Runs s (Machine.execCombAdd t id bad differs u) := by
  unfold Machine.execCombAdd
  exact .next <| .ite (.runStitch (fun _ _ hv => .combAdd hv) h) <| .ite (.lateStage <| .atTime h) <| .atTime h

theorem KeepsForm.convert {q : Nat} {w : BitVec 128} {bad : Option Nat} {differs : Option (Nat × Nat)} (h : KeepsForm s u) :
    KeepsForm s (Machine.convert u q w bad differs) := by
  unfold Machine.convert
  split
  · exact h
  · refine .ite (.trapSeq h) ?_
    split
    · exact .badRead h
    · exact .stageDiffers <| .storeRows h

theorem Runs.execCvt {t id : Nat} {f : CvtFault} (h : KeepsForm s u) : Runs s (Machine.execCvt t id f u) := by
  unfold Machine.execCvt
  exact .next <| .ite (.runStitch (fun _ _ hv => .convert hv) h) <| .ite (.lateStage <| .atTime h) <| .atTime h

theorem KeepsForm.putRow {i : JobImage} {d : LeafDesc} {h' k t : Nat} {row : List Num} (h : KeepsForm s u) :
    KeepsForm s (Machine.putRow u i d h' k t row) := by
  unfold Machine.putRow
  exact .foldl (fun _ _ hv => .writeBytes <| .writeBytes hv) h

theorem KeepsForm.putPosition {q j : Nat} {w : BitVec 128} {src m p : Nat} (h : KeepsForm s u) :
    KeepsForm s (Machine.putPosition q j w src m u p) := by
  unfold Machine.putPosition
  exact .ite h <| .ite (.putRow <| .countNan h) h

theorem KeepsForm.kvPut {q : Nat} {w : BitVec 128} {bad : Option Nat} (h : KeepsForm s u) : KeepsForm s (Machine.kvPut u q w bad) := by
  unfold Machine.kvPut
  split
  · exact h
  · refine .ite (.trapSeq h) ?_
    split
    · exact .badRead h
    · exact .ite (.trapSeq h) <| .advance <| .foldl (fun _ _ hv2 => .putPosition hv2) h

theorem Runs.execKvPut {t id : Nat} {bad : Option Nat} (h : KeepsForm s u) : Runs s (Machine.execKvPut t id bad u) := by
  unfold Machine.execKvPut
  exact .next <| .runStitch (fun _ _ hv => .stopAfter <| .kvPut hv) h

theorem KeepsForm.feedRun {j : Nat} {r : StepRun} {n i base : Nat} {z : List Word32} (h : KeepsForm s u) :
    KeepsForm s (Machine.feedRun u j r n i base z).1 := by
  refine .iteFst (.iteFst h <| .logSelector h) ?_
  refine .iteFst ?_ h
  split
  · exact h
  · exact .logSelector h

theorem KeepsForm.feedRow {q j : Nat} {prompt : Bool} {w : BitVec 128} {src m p : Nat} (h : KeepsForm s u) :
    KeepsForm s (Machine.feedRow q j prompt w src m u p) := by
  refine .ite h ?_
  dsimp only
  split
  · exact h
  · exact .modPart <| .feedRun h

theorem KeepsForm.selFeed {q : Nat} {w : BitVec 128} {bad : Option Nat} (h : KeepsForm s u) : KeepsForm s (Machine.selFeed u q w bad) := by
  unfold Machine.selFeed
  split
  · exact h
  · refine .ite (.trapSeq h) ?_
    split
    · exact .badRead h
    · exact .advance <| .foldl (fun _ _ hv2 => .feedRow hv2) h

theorem Runs.execSelFeed {t id : Nat} {bad : Option Nat} (h : KeepsForm s u) : Runs s (Machine.execSelFeed t id bad u) := by
  unfold Machine.execSelFeed
  exact .next <| .runStitch (fun _ _ hv => .stopAfter <| .selFeed hv) h

/-! ### Gutter -/

theorem KeepsForm.runGutter {t id op : Nat}
    {f : State → Nat → Nat → BitVec 128 → State} (hf : ∀ v x1 x2 x3,
    KeepsForm s v → KeepsForm s (f v x1 x2 x3)) (h : KeepsForm s u) : KeepsForm s (Machine.runGutter t id op f u) := by
  refine .runStitch (fun _ _ hv => ?_) h
  refine .ite hv ?_
  split
  · exact hv
  · exact hf _ _ _ _ hv

theorem KeepsForm.badColumn {c : Nat} {f : GutterFault} (h : KeepsForm s u) : KeepsForm s (Machine.badColumn u c f) := by
  unfold Machine.badColumn
  split
  · exact .trapMemory h
  · exact .trapSeq h

theorem KeepsForm.correctColumn {c : Nat} {l : List Nat} (h : KeepsForm s u) : KeepsForm s (Machine.correctColumn u c l) := by
  unfold Machine.correctColumn
  exact .foldl (fun _ _ hv => .correctableAt hv) h

theorem KeepsForm.putScratch {c a : Nat} {ws : List Word32} (h : KeepsForm s u) : KeepsForm s (Machine.putScratch u c a ws) := by
  unfold Machine.putScratch
  exact .modGutter h

theorem KeepsForm.gvLoad {c j : Nat} {w : BitVec 128} {bad : Option GutterFault} {corrected : List Nat} (h : KeepsForm s u) :
    KeepsForm s (Machine.gvLoad u c j w bad corrected) := by
  refine .ite h ?_
  refine .ite (.trapSeq h) ?_
  split
  · exact .badColumn h
  · exact .advance <| .putScratch <| .correctColumn h

theorem Runs.execGvLd {t id : Nat} {bad : Option GutterFault} {corrected : List Nat} (h :
    KeepsForm s u) : Runs s (Machine.execGvLd t id bad corrected u) := by
  unfold Machine.execGvLd
  exact .next <| .runGutter (fun _ _ _ _ hv => .gvLoad hv) h

theorem KeepsForm.gvStore {c j : Nat} {w : BitVec 128} {bad : Option GutterFault} (h : KeepsForm s u) :
    KeepsForm s (Machine.gvStore u c j w bad) := by
  refine .ite h ?_
  refine .ite (.trapSeq h) ?_
  split
  · exact .badColumn h
  · exact .advance <| .writeBytes <| .writeBytes h

theorem Runs.execGvSt {t : Nat} {stitch : GutterStep} (h : KeepsForm s u) : Runs s (Machine.execGvSt t stitch u) := by
  unfold Machine.execGvSt
  exact .next <| .runGutter (fun _ _ _ _ hv => .gvStore hv) h

theorem KeepsForm.gvGroupLoad {c : Nat} {w : BitVec 128} {bad : Option GutterFault} {corrected : List Nat} (h : KeepsForm s u) :
    KeepsForm s (Machine.gvGroupLoad u c w bad corrected) := by
  refine .ite h ?_
  refine .ite (.trapSeq h) ?_
  split
  · exact .advance <| .putScratch <| .correctColumn h
  · exact .badColumn h

theorem Runs.execGvGld {t id : Nat} {bad : Option GutterFault} {corrected : List Nat} (h :
    KeepsForm s u) : Runs s (Machine.execGvGld t id bad corrected u) := by
  unfold Machine.execGvGld
  exact .next <| .runGutter (fun _ _ _ _ hv => .gvGroupLoad hv) h

theorem KeepsForm.noteWork {c : Nat} (h : KeepsForm s u) : KeepsForm s (Machine.noteWork u c) := by
  unfold Machine.noteWork
  exact .modGutter h

theorem Runs.execSpotCheck {t column : Nat} {differs : Bool} (h : KeepsForm s u) : Runs s (Machine.execSpotCheck t column differs u) := by
  refine .ite (.next <| .atTime h) ?_
  dsimp only
  split
  · exact .next <| .unitEvent <| .uncorrectable <| .incF <| .modSeq <| .incF <| .modGutter <| .atTime h
  · exact .next <| .incF <| .modGutter <| .atTime h

theorem KeepsForm.gvApply {c : Nat} {w : BitVec 128} {bad : Option GutterFault} (h : KeepsForm s u) :
    KeepsForm s (Machine.gvApply u c w bad) := by
  refine .ite h ?_
  split
  · exact .badColumn h
  · exact .advance <| .noteWork <| .putScratch h

theorem Runs.execGvOp {t : Nat} {stitch : GutterStep} (h : KeepsForm s u) : Runs s (Machine.execGvOp t stitch u) := by
  unfold Machine.execGvOp
  exact .next <| .runGutter (fun _ _ _ _ hv => .gvApply hv) h

theorem KeepsForm.gvReduce {c : Nat} {w : BitVec 128} {bad : Option GutterFault} (h : KeepsForm s u) :
    KeepsForm s (Machine.gvReduce u c w bad) := by
  refine .ite h ?_
  split
  · exact .badColumn h
  · exact .advance <| .noteWork <| .putScratch h

theorem Runs.execGvRed {t : Nat} {stitch : GutterStep} (h : KeepsForm s u) : Runs s (Machine.execGvRed t stitch u) := by
  unfold Machine.execGvRed
  exact .next <| .runGutter (fun _ _ _ _ hv => .gvReduce hv) h

theorem KeepsForm.attendEntry {c j e : Nat} {rope : Bool} (h : KeepsForm s u) : KeepsForm s (Machine.attendEntry u c j e rope) := by
  unfold Machine.attendEntry
  exact .ite (.writeBytes <| .noteWork <| .modGutter h) <| .noteWork <| .modGutter h

theorem KeepsForm.noteLate {c j t : Nat} (h : KeepsForm s u) : KeepsForm s (Machine.noteLate u c j t) := by
  unfold Machine.noteLate
  exact .modPart <| .modGutter h

theorem KeepsForm.endLate {c j : Nat} (h : KeepsForm s u) : KeepsForm s (Machine.endLate u c j) := by
  unfold Machine.endLate
  exact .ite (.modPart <| .modGutter h) h

theorem KeepsForm.attendFrom {c j : Nat} {rope : Bool} {l : List Nat} (h : KeepsForm s u) :
    KeepsForm s (Machine.attendFrom c j rope l u) := by
  induction l generalizing u with
  | nil =>
    unfold Machine.attendFrom
    exact .advance <| .modGutter h
  | cons p r ih =>
    unfold Machine.attendFrom
    exact .ite (.trapSeq h) <| .ite (.noteLate h) <| .ite (.modGutter h) <| .ite (.trapSeq h) <| ih <| .attendEntry <| .endLate h

theorem KeepsForm.attRun {c j : Nat} {w : BitVec 128} {bad : Option GutterFault} {corrected : List Nat} (h : KeepsForm s u) :
    KeepsForm s (Machine.attRun u c j w bad corrected) := by
  unfold Machine.attRun
  refine .ite (.trapSeq h) ?_
  split
  · exact .trapSeq h
  · cases bad with
    | some a => exact .badColumn h
    | none => exact .attendFrom <| .correctColumn h

theorem Runs.execAttRun {t id : Nat} {bad : Option GutterFault} {corrected : List Nat} (h :
    KeepsForm s u) : Runs s (Machine.execAttRun t id bad corrected u) := by
  unfold Machine.execAttRun
  exact .next <| .runGutter (fun _ _ _ _ hv => .attRun hv) h

theorem KeepsForm.combineEntry {c j fo e : Nat} (h : KeepsForm s u) : KeepsForm s (Machine.combineEntry u c j fo e) := by
  unfold Machine.combineEntry
  exact .foldl (fun _ _ hv => .noteWork <| .writeBytes <| .ite (.incF hv) hv) h

theorem KeepsForm.combineFrom {c j fo : Nat} {l : List Nat} (h : KeepsForm s u) : KeepsForm s (Machine.combineFrom c j fo l u) := by
  induction l generalizing u with
  | nil =>
    unfold Machine.combineFrom
    exact .advance h
  | cons p r ih =>
    unfold Machine.combineFrom
    exact .ite (.trapSeq h) <| .ite (.badColumn h) <| ih <| .combineEntry h

theorem KeepsForm.attComb {c j : Nat} {w : BitVec 128} {bad : Option GutterFault} {corrected : List Nat} (h : KeepsForm s u) :
    KeepsForm s (Machine.attComb u c j w bad corrected) := by
  refine .ite h ?_
  refine .ite (.trapSeq h) ?_
  split
  · exact .trapSeq h
  · split
    · exact .badColumn h
    · exact .combineFrom <| .correctColumn h

theorem Runs.execAttComb {t id : Nat} {bad : Option GutterFault} {corrected : List Nat} (h :
    KeepsForm s u) : Runs s (Machine.execAttComb t id bad corrected u) := by
  unfold Machine.execAttComb
  exact .next <| .runGutter (fun _ _ _ _ hv => .attComb hv) h

theorem Runs.execOrdinaryAccess {t column id beats : Nat} {slot : Bool} (h :
    KeepsForm s u) : Runs s (Machine.execOrdinaryAccess t column id beats slot u) := by
  unfold Machine.execOrdinaryAccess
  exact .ite (.next <| .emit <| .incF <| .modGutter <| .atTime h) <| .next <| .emit <| .atTime h

theorem KeepsForm.serveHeld {c n : Nat} {l : List HeldAccess} (h : KeepsForm s u) : KeepsForm s (Machine.serveHeld c n l u).1 := by
  induction l generalizing n u with
  | nil =>
    exact h
  | cons x_3 r ih =>
    unfold Machine.serveHeld
    exact .iteFst h <| ih <| .maxF <| .emit h

theorem Runs.execSpanEnd {t column : Nat} (h : KeepsForm s u) : Runs s (Machine.execSpanEnd t column u) := by
  unfold Machine.execSpanEnd
  exact .next <| .modGutter <| .serveHeld <| .atTime h

theorem Runs.execRefreshDue {t column : Nat} (h : KeepsForm s u) : Runs s (Machine.execRefreshDue t column u) := by
  unfold Machine.execRefreshDue
  exact .ite (.next <| .incF <| .modGutter <| .atTime h) <| .next <| .atTime h

theorem Runs.execRefreshComplete {t column : Nat} (h : KeepsForm s u) : Runs s (Machine.execRefreshComplete t column u) := by
  unfold Machine.execRefreshComplete
  exact .next <| .modGutter <| .atTime h

theorem KeepsForm.broadcastRefused {cls index jb : Nat} (h : KeepsForm s u) : KeepsForm s (Machine.broadcastRefused u cls index jb) := by
  unfold Machine.broadcastRefused
  exact .ite (.trapSeq h) <| .ite (.freezeMaster h) <| .failMaster h

theorem Runs.execBroadcastWrite {t cls index jb addr : Nat} {data : List Byte} (h :
    KeepsForm s u) : Runs s (Machine.execBroadcastWrite t cls index jb addr data u) := by
  unfold Machine.execBroadcastWrite
  exact .ite (.next <| .atTime h) <| .ite (.next <| .foldl (fun _ _ hv => .writeBytes hv) <| .atTime h) <| .next <| .broadcastRefused <|
      .atTime h

/-! ### SpanBase -/

theorem KeepsForm.spanPartial {i : JobImage} {qp0 upto : Nat} {loc : Nat → Nat × Nat × Nat} {ps : List Nat}
    {queries : List (List Word32)} (h : KeepsForm s u) : KeepsForm s (Machine.spanPartial u i qp0 upto loc ps queries).1 := by
  unfold Machine.spanPartial
  exact .foldl (fun _ _ hv => .writeBytes hv) h

theorem KeepsForm.finishRows {j : Nat} {rows : List SpanRow} (h : KeepsForm s u) : KeepsForm s (Machine.finishRows u j rows).1 := by
  unfold Machine.finishRows
  exact .addF h

theorem KeepsForm.keepRows {j slot : Nat} {rows : List SpanRow} (h : KeepsForm s u) : KeepsForm s (Machine.keepRows u j slot rows) := by
  unfold Machine.keepRows
  split
  · exact h
  · exact .ite (.writeBytes h) h

theorem KeepsForm.sendHop {j dest : Nat} {h' : BitVec 1024} {payload : List Byte} (h : KeepsForm s u) :
    KeepsForm s (Machine.sendHop u j dest h' payload) := by
  unfold Machine.sendHop
  split
  · exact .transmit h
  · exact h

theorem KeepsForm.sendSpan {dest jb type : Nat} {h' : BitVec 512} {payload : List Byte} (h : KeepsForm s u) :
    KeepsForm s (Machine.sendSpan u dest jb type h' payload) := by
  refine .ite (.ite (.sendHop h) <| .transmit h) ?_
  split
  next heq => exact .fst (.caseObject h) heq
  next heq =>
    have hw := KeepsForm.fst (.caseObject h) heq
    exact .ite (.sendHop hw) <| .transmit hw

theorem KeepsForm.modShard {j owner sig epoch : Nat} {f : Shard → Shard} (h : KeepsForm s u) :
    KeepsForm s (Machine.modShard u j owner sig epoch f) :=
  .fields h

theorem KeepsForm.openShard {j owner sig epoch anchor : Nat} (h : KeepsForm s u) :
    KeepsForm s (Machine.openShard u j owner sig epoch anchor) := by
  unfold Machine.openShard
  exact .ite h <| .fields h

theorem KeepsForm.rollbackShard {x : Shard} {kv : Nat} (h : KeepsForm s u) : KeepsForm s (Machine.rollbackShard u x kv) := by
  unfold Machine.rollbackShard
  exact .modShard <| .foldl (fun _ _ hv => .ite (.ite (.decRef <| .modGroup <| .addF hv) <| .modGroup <| .addF hv) hv) h

theorem KeepsForm.shardGroup {x : Shard} {p : Nat} (h : KeepsForm s u) : KeepsForm s (Machine.shardGroup u x p).1 := by
  unfold Machine.shardGroup
  split
  · exact h
  · split
    next heq1 => exact .modShard <| .fst (.growFree h) heq1
    next heq1 => exact .demotionPass <| .fst (.growFree h) heq1

theorem KeepsForm.putKvRow {i : JobImage} {d : LeafDesc} {t : Nat} {bs : List Byte} (h : KeepsForm s u) :
    KeepsForm s (Machine.putKvRow u i d t bs) := by
  unfold Machine.putKvRow
  exact .foldl (fun _ _ hv => .writeBytes <| .writeBytes hv) h

theorem KeepsForm.putNewRows {j layer : Nat} {x : Shard} {n : Nat} {l : List (List Byte)} (h : KeepsForm s u) :
    KeepsForm s (Machine.putNewRows j layer x n l u).1 := by
  induction l generalizing n u with
  | nil =>
    exact h
  | cons r rs ih =>
    unfold Machine.putNewRows
    refine .iteFst (ih h) ?_
    dsimp only
    split
    next heq => exact .fst (.shardGroup h) heq
    next heq =>
      have hw := KeepsForm.fst (.shardGroup h) heq
      exact ih <| .modShard <| .modGroup <| .ite (.putKvRow hw) hw

theorem KeepsForm.pumpShard {x : Shard} (h : KeepsForm s u) : KeepsForm s (Machine.pumpShard u x) := by
  unfold Machine.pumpShard
  refine .modShard <| .foldlFst (fun _ _ hv => ?_) h
  split
  next heq1 => exact .fst (.putNewRows hv) heq1
  next heq1 => exact .fst (.putNewRows hv) heq1

theorem KeepsForm.takeRows {x : Shard} {layer pos : Nat} {rows : List (List Byte)} (h : KeepsForm s u) :
    KeepsForm s (Machine.takeRows u x layer pos rows) := by
  unfold Machine.takeRows
  exact .ite h <| .pumpShard h

theorem KeepsForm.putPass {p : SpanPass} (h : KeepsForm s u) : KeepsForm s (Machine.putPass u p) :=
  .fields h

theorem KeepsForm.dropPass {p : SpanPass} (h : KeepsForm s u) : KeepsForm s (Machine.dropPass u p) :=
  .fields h

theorem KeepsForm.sendAttend {p : SpanPass} {host hi lo : Nat} (h : KeepsForm s u) : KeepsForm s (Machine.sendAttend u p host hi lo) := by
  unfold Machine.sendAttend
  exact .sendSpan h

theorem KeepsForm.askHosts {n : Nat} {y : SpanPass} (h : KeepsForm s u) : KeepsForm s (Machine.askHosts n u y).1 := by
  induction n generalizing u y with
  | zero =>
    exact h
  | succ n ih =>
    unfold Machine.askHosts
    split
    · exact h
    · exact ih <| .sendAttend h

theorem KeepsForm.passLate {p : SpanPass} {since tier : Nat} (h : KeepsForm s u) : KeepsForm s (Machine.passLate u p since tier) := by
  unfold Machine.passLate
  exact .modPart h

theorem KeepsForm.passOnTime {p : SpanPass} (h : KeepsForm s u) : KeepsForm s (Machine.passOnTime u p) := by
  unfold Machine.passOnTime
  exact .modPart h

theorem KeepsForm.spanReady {p : SpanPass} {span : Nat} {rows : List SpanRow} (h : KeepsForm s u) :
    KeepsForm s (Machine.spanReady u p span rows).1 := by
  unfold Machine.spanReady
  exact .keepRows h

theorem KeepsForm.attendSpan {st : State × SpanPass} {span : Nat} (h : KeepsForm s st.1) : KeepsForm s (Machine.attendSpan st span).1 := by
  obtain ⟨v, p⟩ := st
  unfold Machine.attendSpan
  dsimp only
  cases foldEntry v p span with
  | some e => exact .iteFst (.spanReady h) h
  | none =>
    cases passGroups' v p span with
    | none => exact h
    | some gs => exact .iteFst (.spanReady <| .spanPartial h) <| .foldl (fun _ _ hv => .promote hv) <| .passLate h

theorem KeepsForm.soloDone {p : SpanPass} (h : KeepsForm s u) : KeepsForm s (Machine.soloDone u p) := by
  dsimp only [Machine.soloDone]
  split
  · exact .modTransit h
  · exact .ite (.freeTransit <| .ite (.foldl (fun _ _ hv1 => .setLeaf hv1) <| .modTransit h) <| .modTransit h) <|
        .ite (.foldl (fun _ _ hv1 => .setLeaf hv1) <| .modTransit h) <| .modTransit h

theorem KeepsForm.passOn' {p : SpanPass} (h : KeepsForm s u) : KeepsForm s (Machine.passOn' u p) := by
  refine .ite (.putPass h) ?_
  dsimp only
  split
  · exact .putPass h
  · exact .ite (.ite (.putPass <| .ite (.soloDone <| .finishRows <| .keepRows h) <| .finishRows <| .keepRows h) <| .dropPass <|
        .sendSpan <| .finishRows <| .keepRows h) <| .ite (.putPass <| .sendSpan <| .keepRows h) <| .dropPass <| .sendSpan <| .keepRows h

theorem KeepsForm.sendBlock {p : SpanPass} {lo : Nat} (h : KeepsForm s u) : KeepsForm s (Machine.sendBlock u p lo) := by
  dsimp only [Machine.sendBlock]
  split
  · exact .putPass h
  · exact .ite (.putPass <| .foldl (fun _ _ hv1 => .promote hv1) h) <| .dropPass <| .sendSpan h

theorem KeepsForm.runPass {p : SpanPass} (h : KeepsForm s u) : KeepsForm s (Machine.runPass u p) := by
  unfold Machine.runPass
  split
  · exact .ite (.putPass h) <| .sendBlock h
  · exact .ite (.putPass h) <| .passOn' <| .foldlFst (fun _ _ hv1 => .attendSpan hv1) <| .askHosts h

theorem KeepsForm.pumpPass {p : SpanPass} (h : KeepsForm s u) : KeepsForm s (Machine.pumpPass u p) := by
  dsimp only [Machine.pumpPass]
  split
  · exact .ite (.passOnTime <| .runPass h) <| .runPass h
  · exact .passOnTime <| .runPass h

theorem KeepsForm.pumpPasses (h : KeepsForm s u) : KeepsForm s (Machine.pumpPasses u) := by
  unfold Machine.pumpPasses
  exact .foldl (fun _ _ hv => .pumpPass hv) <| .foldl (fun _ _ hv => .pumpShard hv) h

/-! ### Span -/

theorem KeepsForm.openFor {jb : Nat} {obj : List Byte} (h : KeepsForm s u) : KeepsForm s (Machine.openFor u jb obj).1 := by
  dsimp only [Machine.openFor]
  split
  next heq => exact .fst (.openWith h) heq
  next heq => exact .fst (.openWith h) heq

theorem KeepsForm.openSpan {jb n : Nat} {obj : List Byte} (h : KeepsForm s u) : KeepsForm s (Machine.openSpan u jb n obj).1 := by
  refine .iteFst h ?_
  split
  next heq => exact .fst (.openFor h) heq
  next heq => exact .fst (.openFor h) heq

theorem KeepsForm.relay {member : Nat} {h' : BitVec 512} {payload : List Byte} (h : KeepsForm s u) :
    KeepsForm s (Machine.relay u member h' payload) := by
  unfold Machine.relay
  exact .sendHop h

theorem KeepsForm.countHolders {p : SpanPass} {n : Nat} (h : KeepsForm s u) : KeepsForm s (Machine.countHolders u p n) := by
  unfold Machine.countHolders
  exact .ite (.foldl (fun _ _ hv => .countStall hv) h) h

theorem KeepsForm.staleReply {jb : Nat} (h : KeepsForm s u) : KeepsForm s (Machine.staleReply u jb) := by
  unfold Machine.staleReply
  exact .incF h

theorem KeepsForm.dropOlder {p : SpanPass} (h : KeepsForm s u) : KeepsForm s (Machine.dropOlder u p) :=
  .fields h

theorem KeepsForm.sendPlan {n : Nat} {l : List Nat} (h : KeepsForm s u) : KeepsForm s (Machine.sendPlan u n l) := by
  unfold Machine.sendPlan
  exact .ite (.transmit h) h

theorem KeepsForm.setPlanState {n : Nat} {p : RingPlan} (h : KeepsForm s u) : KeepsForm s (Machine.setPlanState u n p) :=
  .fields h

theorem KeepsForm.startPlan {n : Nat} (h : KeepsForm s u) : KeepsForm s (Machine.startPlan u n) := by
  unfold Machine.startPlan
  exact .sendPlan <| .setPlanState h

theorem KeepsForm.completePlan {n : Nat} {l : List Nat} (h : KeepsForm s u) : KeepsForm s (Machine.completePlan u n l) := by
  unfold Machine.completePlan
  exact .incF <| .foldl (fun _ _ hv => .setF hv) <| .setF <| .setF <| .setF <| .setPlanState h

theorem KeepsForm.takeQuery {p : SpanPass} {bs : List Byte} {q k : Nat} (h : KeepsForm s u) :
    KeepsForm s (Machine.takeQuery p bs q k u) := by
  dsimp only [Machine.takeQuery]
  split
  · exact .openShard <| .dropOlder h
  · exact .runPass <| .takeRows <| .rollbackShard <| .openShard <| .dropOlder h

theorem Runs.execQuery {t : Nat} {m : SpanIn} {payload : List Byte} (h : KeepsForm s u) : Runs s (Machine.execQuery t m payload u) := by
  refine .ite (.next <| .incF <| .atTime h) ?_
  refine .ite (.next <| .relay <| .atTime h) ?_
  refine .ite (.next <| .atTime h) ?_
  split
  next heq => exact .next <| .fst (.openSpan <| .atTime h) heq
  next heq => exact .next <| .takeQuery <| .fst (.openSpan <| .atTime h) heq

theorem Runs.execAcc {t : Nat} {m : SpanIn} {payload : List Byte} (h : KeepsForm s u) : Runs s (Machine.execAcc t m payload u) := by
  refine .ite (.next <| .incF <| .atTime h) ?_
  refine .ite (.next <| .relay <| .atTime h) ?_
  refine .ite (.next <| .atTime h) ?_
  split
  · refine .ite (.next <| .staleReply <| .atTime h) ?_
    split
    next heq1 => exact .next <| .fst (.openSpan <| .atTime h) heq1
    next heq1 =>
      have hw1 := KeepsForm.fst (.openSpan <| .atTime h) heq1
      exact .next <| .ite (.runPass <| .keepRows hw1) <| .putPass <| .keepRows hw1
  · split
    next heq1 => exact .next <| .fst (.openSpan <| .atTime h) heq1
    next heq1 => exact .next <| .runPass <| .keepRows <| .countHolders <| .fst (.openSpan <| .atTime h) heq1

theorem Runs.execOutput {t : Nat} {m : SpanIn} {payload : List Byte} (h : KeepsForm s u) : Runs s (Machine.execOutput t m payload u) := by
  refine .ite (.next <| .incF <| .atTime h) ?_
  refine .ite (.next <| .relay <| .atTime h) ?_
  refine .ite (.next <| .atTime h) ?_
  split
  · exact .next <| .staleReply <| .atTime h
  · refine .ite (.next <| .staleReply <| .atTime h) ?_
    split
    next heq1 => exact .next <| .fst (.openSpan <| .atTime h) heq1
    next heq1 => exact .next <| .putPass <| .countHolders <| .fst (.openSpan <| .atTime h) heq1

theorem Runs.execBlockReq {t : Nat} {m : SpanIn} (h : KeepsForm s u) : Runs s (Machine.execBlockReq t m u) := by
  unfold Machine.execBlockReq
  exact .ite (.next <| .incF <| .atTime h) <| .ite (.next <| .relay <| .atTime h) <| .ite (.next <| .atTime h) <| .next <| .runPass <|
      .openShard <| .dropOlder <| .atTime h

theorem KeepsForm.fillLeaves {j layer : Nat} {l : List (Nat × Option Nat)} {bs : List Byte} (h : KeepsForm s u) :
    KeepsForm s (Machine.fillLeaves j layer l bs u) := by
  induction l generalizing bs u with
  | nil => exact h
  | cons e r ih =>
    obtain ⟨n, g⟩ := e
    cases g with
    | none => exact ih h
    | some g =>
      unfold Machine.fillLeaves
      exact ih <| .storeLeaf h

theorem KeepsForm.blockTaken {q : SpanPass} {positions : List Nat} {member : Nat} (h : KeepsForm s u) :
    KeepsForm s (Machine.blockTaken q positions member u) := by
  unfold Machine.blockTaken
  exact .runPass <| .modTransit h

theorem Runs.execBlock {t : Nat} {m : SpanIn} {payload : List Byte} (h : KeepsForm s u) : Runs s (Machine.execBlock t m payload u) := by
  refine .ite (.next <| .incF <| .atTime h) ?_
  refine .ite (.next <| .relay <| .atTime h) ?_
  refine .ite (.next <| .atTime h) ?_
  dsimp only
  split
  · exact .next <| .staleReply <| .atTime h
  · refine .ite (.next <| .atTime h) ?_
    split
    next heq1 => exact .next <| .fst (.openSpan <| .atTime h) heq1
    next heq1 => exact .next <| .blockTaken <| .fillLeaves <| .countHolders <| .fst (.openSpan <| .atTime h) heq1

theorem Runs.execKvPutMessage {t : Nat} {m : SpanIn} {payload : List Byte} (h :
    KeepsForm s u) : Runs s (Machine.execKvPutMessage t m payload u) := by
  refine .ite (.next <| .incF <| .atTime h) ?_
  refine .ite (.next <| .relay <| .atTime h) ?_
  refine .ite (.next <| .atTime h) ?_
  split
  next heq => exact .next <| .fst (.openSpan <| .atTime h) heq
  next heq =>
    have hw := KeepsForm.fst (.openSpan <| .atTime h) heq
    dsimp only
    split
    · exact .next <| .openShard hw
    · exact .next <| .takeRows <| .rollbackShard <| .openShard hw

theorem KeepsForm.lentLeaf {j a : Nat} (h : KeepsForm s u) : KeepsForm s (Machine.lentLeaf u j a).1 := by
  refine .iteFst ?_ h
  split
  · exact h
  · split
    next heq1 => exact .fst (.openFor h) heq1
    next heq1 => exact .fst (.openFor h) heq1

/-- The search for a free place is held opaque: its value plays no part, and unfolding it would cost the kernel too much. -/
theorem KeepsForm.copyPlace {j c : Nat} {keep : List Nat} {n : Nat} (h : KeepsForm s u) :
    KeepsForm s (Machine.copyPlace j c keep n u).1 := by
  obtain ⟨place, hplace⟩ : ∃ p, p = placeIn := ⟨_, Eq.refl _⟩
  delta Machine.copyPlace Machine.copyPlace._f
  rw [← hplace]
  induction n generalizing u with
  | zero => exact h
  | succ n ih =>
    dsimp only [Nat.brecOn, Nat.brecOn.go]
    cases place u c _ _ _ with
    | some a => exact .draw h
    | none =>
      dsimp only
      split
      · exact h
      · exact ih (.fields h)

theorem KeepsForm.copyLeaf {j c a : Nat} {keep : List Nat} {bs : List Byte} (h : KeepsForm s u) :
    KeepsForm s (Machine.copyLeaf u j c a keep bs).1 := by
  obtain ⟨place, hplace⟩ : ∃ p, p = Machine.copyPlace j c keep (u.span.copied.length + 1) u := ⟨_, Eq.refl _⟩
  have hw : KeepsForm s place.1 := hplace ▸ .copyPlace h
  unfold Machine.copyLeaf
  rw [← hplace]
  obtain ⟨v, p⟩ := place
  split
  · exact .writeBytes <| .fields h
  · cases p with
    | none => exact hw
    | some p => exact .writeBytes <| .fields hw

theorem KeepsForm.copyLeaves {j anchor layer : Nat} {keep : List Nat} {l : List (Nat × Nat)} (h : KeepsForm s u) :
    KeepsForm s (Machine.copyLeaves j anchor layer keep l u).1 := by
  induction l generalizing u with
  | nil =>
    exact h
  | cons e r ih =>
    obtain ⟨p, a⟩ := e
    unfold Machine.copyLeaves
    split
    next heq => exact .fst (.lentLeaf h) heq
    next heq =>
      have hw := KeepsForm.fst (.lentLeaf h) heq
      dsimp only
      split
      next heq1 => exact .fst (.copyLeaf hw) heq1
      next heq1 =>
        have hw1 := KeepsForm.fst (.copyLeaf hw) heq1
        split
        next heq2 => exact .fst (ih hw1) heq2
        next heq2 => exact .fst (ih hw1) heq2

theorem KeepsForm.serveAttend {a : AttendWork} (h : KeepsForm s u) : KeepsForm s (Machine.serveAttend u a) := by
  unfold Machine.serveAttend
  extract_lets h' j i p lo spans ps q descs queries
  split
  next heq => exact .attendRefuse <| .fst (.copyLeaves h) heq
  next heq =>
    extract_lets loc
    have hl := KeepsForm.fst (.copyLeaves h) heq
    clear_value loc queries spans
    refine .incF <| .sendSpan <| .foldlFst (fun _ _ hv => ?_) hl
    dsimp only
    exact .spanPartial hv

theorem KeepsForm.serveQueue {j : Nat} (h : KeepsForm s u) : KeepsForm s (Machine.serveQueue u j) := by
  unfold Machine.serveQueue
  exact .foldl (fun _ _ hv => .serveAttend hv) <| .fields h

theorem Runs.execAttend {t : Nat} {header : BitVec 512} {payload : List Byte} {ready : Bool} (h : KeepsForm s u) :
    Runs s (Machine.execAttend t header payload ready u) := by
  unfold Machine.execAttend
  refine .ite (.next <| .incF <| .atTime h) ?_
  extract_lets j
  split
  next heq =>
    have hw := KeepsForm.fst (.openSpan <| .atTime h) heq
    split
    · exact .next <| .attendRefuse hw
    · exact .next <| .ite (.serveQueue <| .fields hw) <| .fields hw

theorem Runs.execPartials {t : Nat} {header : BitVec 512} {payload : List Byte} (h :
    KeepsForm s u) : Runs s (Machine.execPartials t header payload u) := by
  refine .ite (.next <| .incF <| .atTime h) ?_
  refine .ite (.next <| .atTime h) ?_
  split
  · exact .next <| .staleReply <| .atTime h
  · refine .ite (.next <| .atTime h) ?_
    split
    next heq1 => exact .next <| .fst (.openSpan <| .atTime h) heq1
    next heq1 =>
      have hw1 := KeepsForm.fst (.openSpan <| .atTime h) heq1
      exact .next <| .runPass <| .addF <| .foldl (fun _ _ hv2 => .keepRows hv2) <| .ite (.passOnTime hw1) hw1

theorem Runs.execSpanRefuse {t : Nat} {header : BitVec 512} (h : KeepsForm s u) : Runs s (Machine.execSpanRefuse t header u) := by
  refine .ite (.next <| .incF <| .atTime h) ?_
  refine .ite (.next <| .atTime h) ?_
  split
  · exact .next <| .atTime h
  · exact .ite (.next <| .putPass <| .passLate <| .incF <| .atTime h) <| .next <| .runPass <| .passLate <| .incF <| .atTime h

theorem KeepsForm.lateAsk {p : SpanPass} {st : State × List HostAsk} {a : HostAsk} (h : KeepsForm s st.1) :
    KeepsForm s (Machine.lateAsk p st a).1 := by
  unfold Machine.lateAsk
  exact .iteFst (.passLate <| .incF h) h

theorem Runs.execRemoteTimeout {t jb : Nat} (h : KeepsForm s u) : Runs s (Machine.execRemoteTimeout t jb u) := by
  unfold Machine.execRemoteTimeout
  exact .next <| .foldl (fun _ _ hv => .putPass <| .foldlFst (fun _ _ hv1 => .lateAsk hv1) hv) <| .atTime h

theorem KeepsForm.spansDead {e : Nat} (h : KeepsForm s u) : KeepsForm s (Machine.spansDead u e) := by
  unfold Machine.spansDead
  exact .foldl (fun _ _ hv => .runPass <| .foldl (fun _ _ hv1 => .passLate hv1) hv) h

theorem KeepsForm.retryAsk {p : SpanPass} {st : State × List HostAsk} {a : HostAsk} (h : KeepsForm s st.1) :
    KeepsForm s (Machine.retryAsk p st a).1 := by
  unfold Machine.retryAsk
  exact .iteFst (.sendAttend h) h

theorem KeepsForm.retryAsks {j : Nat} (h : KeepsForm s u) : KeepsForm s (Machine.retryAsks u j) := by
  unfold Machine.retryAsks
  exact .foldl (fun _ _ hv => .putPass <| .foldlFst (fun _ _ hv1 => .retryAsk hv1) hv) h

theorem KeepsForm.startPhase {jb : Nat} (h : KeepsForm s u) : KeepsForm s (Machine.startPhase jb u) := by
  unfold Machine.startPhase
  exact .serveQueue <| .retryAsks <| .modJob <| .startPart <| .startPart <| .ite (.ite (.foldl (fun _ _ hv => .resumeSeq hv) h) <|
      .foldl (fun _ _ hv => .setUp hv) h) <| .modJob <| .ite (.foldl (fun _ _ hv => .resumeSeq hv) h) <| .foldl (fun _ _ hv => .setUp hv) h

theorem Runs.execStepPhaseStart {t jb : Nat} (h : KeepsForm s u) : Runs s (Machine.execStepPhaseStart t jb u) := by
  unfold Machine.execStepPhaseStart
  exact .ite (.next <| .atTime h) <| .next <| .startPhase <| .atTime h

theorem KeepsForm.beginQuery {j : Nat} {p : SpanPass} {nkv : Nat} {qs kv : List Byte} (h : KeepsForm s u) :
    KeepsForm s (Machine.beginQuery u j p nkv qs kv) := by
  unfold Machine.beginQuery
  exact .runPass <| .foldl (fun _ _ hv => .sendSpan hv) h

theorem KeepsForm.beginBlock {j : Nat} {p : SpanPass} {nkv : Nat} {qs kv : List Byte} (h : KeepsForm s u) :
    KeepsForm s (Machine.beginBlock u j p nkv qs kv) := by
  unfold Machine.beginBlock
  exact .putPass <| .foldl (fun _ _ hv => .sendSpan hv) <| .foldl (fun _ _ hv => .sendSpan hv) h

theorem KeepsForm.beginPass {j : Nat} {p : SpanPass} {nkv : Nat} {qs kv : List Byte} (h : KeepsForm s u) :
    KeepsForm s (Machine.beginPass u j p nkv qs kv) := by
  unfold Machine.beginPass
  exact .ite (.beginBlock <| .ite (.incF h) h) <| .beginQuery <| .ite (.incF h) h

theorem KeepsForm.runSpanOp {j : Nat} {op : SpanOp} (h : KeepsForm s u) : KeepsForm s (Machine.runSpanOp j u op) := by
  dsimp only [Machine.runSpanOp]
  split
  · exact .ite h <| .beginPass h
  · refine .ite h ?_
    split
    · exact .runPass h
    · exact .runPass h
  · split
    · split
      · exact .dropPass <| .ite (.devWrite h) h
      · exact h
    · exact h

theorem KeepsForm.callReturned {id j : Nat} {c : CtlCall} {writes : List (Nat × List Byte)} {ops : List SpanOp} (h :
    KeepsForm s u) : KeepsForm s (Machine.callReturned id j c writes ops u) := by
  unfold Machine.callReturned
  exact .raiseEvent <| .maxF <| .incF <| .foldl (fun _ _ hv => .runSpanOp hv) <| .foldl (fun _ _ hv => .ite (.devWrite hv) hv) h

theorem Runs.execCtlCallReturn {t id k : Nat} {ok : Bool} {core copy : Nat} {writes : List (Nat × List Byte)} {ops : List SpanOp}
    (h : KeepsForm s u) : Runs s (Machine.execCtlCallReturn t id k ok core copy writes ops u) := by
  dsimp only [Machine.execCtlCallReturn]
  split
  · exact .ite (.next <| .packageFailed <| .modSeq <| .atTime h) <| .ite (.next <| .trapSeq <| .ite (.logErr <| .modSeq <| .atTime h) <|
        .modSeq <| .atTime h) <| .next <| .callReturned <| .ite (.logErr <| .modSeq <| .atTime h) <| .modSeq <| .atTime h
  · exact .next <| .atTime h

/-! ### Lend -/

theorem KeepsForm.showLent (h : KeepsForm s u) : KeepsForm s (Machine.showLent u) := by
  unfold Machine.showLent
  exact .setF <| .setF h

theorem KeepsForm.grantLoan {borrower kind want : Nat} (h : KeepsForm s u) : KeepsForm s (Machine.grantLoan u borrower kind want) := by
  obtain ⟨pick, hpick⟩ : ∃ f, f = pickFree := ⟨_, Eq.refl _⟩
  obtain ⟨write, hwrite⟩ : ∃ f, f = Machine.writeXlate := ⟨_, Eq.refl _⟩
  have hwritten {v e} (hv : KeepsForm s v) : KeepsForm s (write v e).1 := hwrite ▸ .writeXlate hv
  unfold Machine.grantLoan
  rw [← hpick, ← hwrite]
  dsimp only
  split
  · split
    · exact .sendLoan h
    next heq =>
      have hw := KeepsForm.fst (hwritten <| .draw h) heq
      exact .sendLoan <| .ite (.fields <| .showLent <| .fields hw) <| .showLent <| .fields hw
  · exact .sendLoan h

theorem KeepsForm.reclaimLoan {r : LentRange} (h : KeepsForm s u) : KeepsForm s (Machine.reclaimLoan u r) := by
  unfold Machine.reclaimLoan
  exact .showLent <| .ite (.fields <| .flashDiscard <| .fields h) <| .fields h

theorem KeepsForm.recallLoan {r : LentRange} (h : KeepsForm s u) : KeepsForm s (Machine.recallLoan u r) := by
  unfold Machine.recallLoan
  exact .sendLoan <| .fields h

theorem KeepsForm.loanRecallAction {v' : Nat} (h : KeepsForm s u) : KeepsForm s (Machine.loanRecallAction v' u) := by
  unfold Machine.loanRecallAction
  split
  · exact .recallLoan h
  · exact h

theorem KeepsForm.recallUntil {kind n : Nat} (h : KeepsForm s u) : KeepsForm s (Machine.recallUntil kind n u) := by
  induction n generalizing u with
  | zero =>
    exact h
  | succ n ih =>
    unfold Machine.recallUntil
    refine .ite h ?_
    split
    · exact h
    · exact ih <| .recallLoan h

theorem KeepsForm.fitLent {kind : Nat} (h : KeepsForm s u) : KeepsForm s (Machine.fitLent kind u) := by
  unfold Machine.fitLent
  exact .recallUntil h

theorem Runs.execAdvertTimer {t : Nat} (h : KeepsForm s u) : Runs s (Machine.execAdvertTimer t u) := by
  unfold Machine.execAdvertTimer
  exact .ite (.next <| .atTime h) <| .next <| .foldl (fun _ _ hv => .foldl (fun _ _ hv1 => .sendLoan hv1) hv) <| .atTime h

theorem Runs.execRequest {t : Nat} {header : BitVec 512} (h : KeepsForm s u) : Runs s (Machine.execRequest t header u) := by
  unfold Machine.execRequest
  exact .ite (.next <| .incF <| .atTime h) <| .ite (.next <| .atTime h) <| .ite (.next <| .fields <| .atTime h) <| .ite (.next <|
      .sendLoan <| .fields <| .atTime h) <| .next <| .grantLoan <| .fields <| .atTime h

theorem Runs.execRelease {t : Nat} {header : BitVec 512} (h : KeepsForm s u) : Runs s (Machine.execRelease t header u) := by
  refine .ite (.next <| .incF <| .atTime h) ?_
  refine .ite (.next <| .atTime h) ?_
  split
  · exact .next <| .reclaimLoan <| .atTime h
  · exact .next <| .atTime h

theorem Runs.execLenderListPoll {t : Nat} (h : KeepsForm s u) : Runs s (Machine.execLenderListPoll t u) := by
  unfold Machine.execLenderListPoll
  exact .next <| .foldl (fun _ _ hv => .sendLoan hv) <| .atTime h

theorem Runs.execAdvert {t : Nat} {header : BitVec 512} (h : KeepsForm s u) : Runs s (Machine.execAdvert t header u) := by
  unfold Machine.execAdvert
  exact .ite (.next <| .incF <| .atTime h) <| .ite (.next <| .atTime h) <| .next <| .fields <| .atTime h

theorem KeepsForm.loanWindows {e : LoanEntry} {n k : Nat} (h : KeepsForm s u) : KeepsForm s (Machine.loanWindows e n k u) := by
  induction n generalizing k u with
  | zero =>
    exact h
  | succ n ih =>
    unfold Machine.loanWindows
    refine .ite h ?_
    split
    · exact h
    · exact ih <| .fields h

theorem KeepsForm.endLoanWindows {e : LoanEntry} (h : KeepsForm s u) : KeepsForm s (Machine.endLoanWindows e u) :=
  .fields h

theorem Runs.execGrant {t : Nat} {header : BitVec 512} (h : KeepsForm s u) : Runs s (Machine.execGrant t header u) := by
  unfold Machine.execGrant
  refine .ite (.next <| .incF <| .atTime h) (.ite (.next <| .atTime h) ?_)
  split
  · exact .next <| .atTime h
  · dsimp only
    split
    · exact .next <| .fields <| .atTime h
    · exact .ite (.next <| .fields <| .atTime h) <| .next <| .loanWindows <| .fields <| .atTime h

theorem KeepsForm.moveOut {x : Nat × Nat} (h : KeepsForm s u) : KeepsForm s (Machine.moveOut u x) := by
  refine .ite h ?_
  split
  next heq => exact .demoteTo <| .fst (.placeGroup h) heq
  next heq => exact .fst (.placeGroup h) heq
  next heq =>
    have hw := KeepsForm.fst (.placeGroup h) heq
    exact .ite (.promote <| .askForLoan hw) <| .evictGroup <| .askForLoan hw

theorem KeepsForm.releaseLoan {k : Nat} (h : KeepsForm s u) : KeepsForm s (Machine.releaseLoan u k) := by
  unfold Machine.releaseLoan
  split
  · exact .ite (.sendLoan <| .endLoanWindows <| .fields h) h
  · exact h

theorem KeepsForm.emptyLoans (h : KeepsForm s u) : KeepsForm s (Machine.emptyLoans u) := by
  unfold Machine.emptyLoans
  exact .foldl (fun _ _ hv => .releaseLoan <| .foldl (fun _ _ hv1 => .moveOut hv1) hv) h

theorem KeepsForm.cancelInto (h : KeepsForm s u) : KeepsForm s (Machine.cancelInto u) := by
  unfold Machine.cancelInto
  exact .foldl (fun _ _ hv => .endMoving <| .dropMove hv) h

theorem Runs.execRecall {t : Nat} {header : BitVec 512} (h : KeepsForm s u) : Runs s (Machine.execRecall t header u) := by
  unfold Machine.execRecall
  exact .ite (.next <| .incF <| .atTime h) <| .ite (.next <| .atTime h) <| .next <| .emptyLoans <| .cancelInto <| .fields <| .atTime h

theorem KeepsForm.fitShare {c : Nat} {t : Tier} {limit n : Nat} (h : KeepsForm s u) : KeepsForm s (Machine.fitShare c t limit n u) := by
  induction n generalizing u with
  | zero =>
    exact h
  | succ n ih =>
    unfold Machine.fitShare
    refine .ite ?_ h
    split
    · split
      next heq1 => exact ih <| .demoteTo <| .fst (.placeGroup h) heq1
      next heq1 =>
        have hw1 := KeepsForm.fst (.placeGroup h) heq1
        exact ih <| .ite (.evictGroup <| .ite (.askForLoan hw1) hw1) <| .ite (.askForLoan hw1) hw1
    · split
      · exact ih <| .promote h
      · exact h

theorem KeepsForm.fitShares {c : Nat} {t : Tier} {limitGib : Nat} (h : KeepsForm s u) : KeepsForm s (Machine.fitShares c t limitGib u) := by
  unfold Machine.fitShares
  exact .fitShare h

theorem Runs.execDemotionPass {t : Nat} (h : KeepsForm s u) : Runs s (Machine.execDemotionPass t u) := by
  unfold Machine.execDemotionPass
  exact .next <| .emptyLoans <| .demotionPass <| .atTime h

theorem KeepsForm.engineFault {jb a : Nat} (h : KeepsForm s u) : KeepsForm s (Machine.engineFault u jb a) := by
  unfold Machine.engineFault
  exact .ite h <| .ite (.channelHalt <| .countUncorrectable h) <| .channelHalt h

theorem KeepsForm.moveConfirmed {m : TierMove} (h : KeepsForm s u) : KeepsForm s (Machine.moveConfirmed u m) := by
  refine .ite (.abandonMove h) ?_
  refine .ite h ?_
  dsimp only
  split
  · exact .ite (.promote <| .finishMove h) <| .finishMove h
  · exact .finishMove h

theorem KeepsForm.moveDone {m : TierMove} {objects : List (List Byte)} (h : KeepsForm s u) :
    KeepsForm s (Machine.moveDone u m objects) := by
  refine .ite (.moveConfirmed h) ?_
  split
  next heq =>
    have hw := KeepsForm.fst (.sendMove h) heq
    split
    · exact .moveConfirmed hw
    · exact hw
  next heq => exact .moveLost <| .fst (.sendMove h) heq
  next heq => exact .abandonMove <| .fst (.sendMove h) heq

theorem KeepsForm.endWrites {jb group : Nat} (h : KeepsForm s u) : KeepsForm s (Machine.endWrites u jb group) := by
  unfold Machine.endWrites
  exact .startMoves <| .foldl (fun _ _ hv => .flashDiscard hv) <| .fields h

theorem Runs.execTierMoveComplete {t jb group outcome : Nat} {read : MoveRead} (h :
    KeepsForm s u) : Runs s (Machine.execTierMoveComplete t jb group outcome read u) := by
  refine .ite (.next <| .bookPumps <| .emptyLoans <| .pumpPasses <| .endWrites <| .atTime h) ?_
  split
  · refine .ite (.next <| .atTime h) ?_
    refine .next ?_
    refine .bookPumps ?_
    refine .emptyLoans ?_
    refine .pumpPasses ?_
    split
    · exact .moveDone <| .foldl (fun _ _ hv2 => .engineRepeat hv2) <| .atTime h
    · exact .ite (.moveLost <| .foldl (fun _ _ hv2 => .engineFault hv2) <| .foldl (fun _ _ hv2 => .engineRepeat hv2) <| .atTime h) <|
          .foldl (fun _ _ hv2 => .engineFault hv2) <| .foldl (fun _ _ hv2 => .engineRepeat hv2) <| .atTime h
    · exact .abandonMove <| .foldl (fun _ _ hv2 => .engineRepeat hv2) <| .atTime h
  · exact .next <| .atTime h

theorem KeepsForm.tiersDead {e : Nat} (h : KeepsForm s u) : KeepsForm s (Machine.tiersDead u e) := by
  refine .foldl (fun _ _ hv => .reclaimLoan hv) ?_
  refine .foldl (fun _ _ hv => ?_) (.foldl (fun _ _ hv => .abandonMove hv) <| .fields h)
  refine .foldl (fun _ _ hv1 => ?_) hv
  refine .ite ?_ ?_
  · refine .loseGroup ?_
    split
    · exact .abandonMove hv1
    · exact hv1
  · split
    · exact .abandonMove hv1
    · exact hv1

theorem Runs.execLpddr6RefreshRateRead {t channel rate : Nat} (h :
    KeepsForm s u) : Runs s (Machine.execLpddr6RefreshRateRead t channel rate u) := by
  dsimp only [Machine.execLpddr6RefreshRateRead]
  split
  · exact .next <| .fields <| .atTime h
  · exact .next <| .atTime h

theorem Runs.execLpddr6EccCountRead {t channel count : Nat} (h :
    KeepsForm s u) : Runs s (Machine.execLpddr6EccCountRead t channel count u) := by
  dsimp only [Machine.execLpddr6EccCountRead]
  split
  · exact .next <| .foldl (fun _ _ hv1 => .correctable <| .incF hv1) <| .fields <| .atTime h
  · exact .next <| .atTime h

theorem Runs.execLpddr6Retrain {t channel : Nat} (h : KeepsForm s u) : Runs s (Machine.execLpddr6Retrain t channel u) := by
  dsimp only [Machine.execLpddr6Retrain]
  split
  · exact .ite (.next <| .atTime h) <| .next <| .fields <| .atTime h
  · exact .next <| .atTime h

/-! ### Start -/

theorem KeepsForm.yieldJobs {l : List Nat} (h : KeepsForm s u) : KeepsForm s (Machine.yieldJobs l u) := by
  unfold Machine.yieldJobs
  exact .foldl (fun _ _ hv => .tearDown <| .incF hv) h

theorem KeepsForm.shaperAction {q : Nat} (h : KeepsForm s u) : KeepsForm s (Machine.shaperAction q u) := by
  unfold Machine.shaperAction
  exact .runLinks <| .fields h

theorem KeepsForm.startFails {jb code : Nat} (h : KeepsForm s u) : KeepsForm s (Machine.startFails u jb code) := by
  unfold Machine.startFails
  exact .ite (.setJobMode <| .modJob <| .setF <| .fields h) <| .setF <| .setJobMode <| .modJob <| .setF <| .fields h

theorem KeepsForm.loadStatus {jb code detail : Nat} (h : KeepsForm s u) : KeepsForm s (Machine.loadStatus u jb code detail) := by
  unfold Machine.loadStatus
  exact .setF <| .setF h

theorem KeepsForm.placeJob {jb : Nat} {i : JobImage} {nq : Nat} (h : KeepsForm s u) : KeepsForm s (Machine.placeJob u jb i nq) := by
  unfold Machine.placeJob
  exact .modJob <| .draw <| .foldl (fun _ _ hv => .writeBytes hv) <| .modJob h

theorem KeepsForm.loadTables {jb : Nat} {i : JobImage} {quires cols : List Nat} (h : KeepsForm s u) :
    KeepsForm s (Machine.loadTables u jb i quires cols) := by
  unfold Machine.loadTables
  split
  · exact h
  · exact .foldl (fun _ _ hv1 => .modGutter hv1) <| .foldl (fun _ _ hv1 => .setSeq hv1) h

theorem KeepsForm.loadMemory {jb : Nat} {i : JobImage} {cols : List Nat} (h : KeepsForm s u) :
    KeepsForm s (Machine.loadMemory u jb i cols) := by
  dsimp only [Machine.loadMemory]
  split
  · exact .ite (.foldl (fun _ _ hv1 => .ite hv1 <| .fields hv1) <| .foldl (fun _ _ hv1 => .writeXlate hv1) <|
        .foldl (fun _ _ hv1 => .foldl (fun _ _ hv2 => .writeBytes hv2) hv1) <| .foldl (fun _ _ hv1 => .writeBytes hv1) h) <|
        .shaperAction <| .devSetF <| .foldl (fun _ _ hv1 => .ite hv1 <| .fields hv1) <| .foldl (fun _ _ hv1 => .writeXlate hv1) <|
        .foldl (fun _ _ hv1 => .foldl (fun _ _ hv2 => .writeBytes hv2) hv1) <| .foldl (fun _ _ hv1 => .writeBytes hv1) h
  · exact .foldl (fun _ _ hv1 => .ite hv1 <| .fields hv1) <| .foldl (fun _ _ hv1 => .writeXlate hv1) <|
        .foldl (fun _ _ hv1 => .foldl (fun _ _ hv2 => .writeBytes hv2) hv1) <| .foldl (fun _ _ hv1 => .writeBytes hv1) h

theorem KeepsForm.startFolios {jb : Nat} {i : JobImage} {be joint : Bool} {nq : Nat} (h : KeepsForm s u) :
    KeepsForm s (Machine.startFolios u jb i be joint nq) := by
  unfold Machine.startFolios
  exact .setF <| .setF <| .devSetF <| .devSetF <| .setF <| .ite (.devSetF <| .setF <| .setF <| .setF <| .setF <| .setF <| .setF h) <|
      .setF <| .setF <| .setF <| .setF <| .setF <| .setF h

theorem KeepsForm.imageQueues {i : JobImage} (h : KeepsForm s u) : KeepsForm s (Machine.imageQueues i u) := by
  unfold Machine.imageQueues
  exact .foldl (fun _ _ hv => .ite hv <| .createQp hv) <| .foldl (fun _ _ hv => .registerRegion hv) h

theorem KeepsForm.runJob {jb : Nat} {i : JobImage} {quires cols : List Nat} {key : Option (BitVec 256)} (h : KeepsForm s u) :
    KeepsForm s (Machine.runJob u jb i quires cols key) := by
  refine .setF ?_
  refine .setJobMode ?_
  refine .fields ?_
  refine .ite ?_ ?_
  · refine .fields ?_
    refine .imageQueues ?_
    refine .drawSpaceKey ?_
    refine .loadStatus ?_
    split
    · refine .installKey ?_
      split
      · exact .setF <| .fields <| .modJob <| .startFolios <| .loadMemory <| .loadTables <| .placeJob <| .setJob h
      · exact .modJob <| .startFolios <| .loadMemory <| .loadTables <| .placeJob <| .setJob h
    · split
      · exact .setF <| .fields <| .modJob <| .startFolios <| .loadMemory <| .loadTables <| .placeJob <| .setJob h
      · exact .modJob <| .startFolios <| .loadMemory <| .loadTables <| .placeJob <| .setJob h
  · refine .imageQueues ?_
    refine .drawSpaceKey ?_
    refine .loadStatus ?_
    split
    · refine .installKey ?_
      split
      · exact .setF <| .fields <| .modJob <| .startFolios <| .loadMemory <| .loadTables <| .placeJob <| .setJob h
      · exact .modJob <| .startFolios <| .loadMemory <| .loadTables <| .placeJob <| .setJob h
    · split
      · exact .setF <| .fields <| .modJob <| .startFolios <| .loadMemory <| .loadTables <| .placeJob <| .setJob h
      · exact .modJob <| .startFolios <| .loadMemory <| .loadTables <| .placeJob <| .setJob h

theorem KeepsForm.startFrom4 {jb : Nat} {i : JobImage} {others : Bool} (h : KeepsForm s u) :
    KeepsForm s (Machine.startFrom4 u jb i others) := by
  unfold Machine.startFrom4
  split
  · exact .startFails h
  · split
    · exact .startFails h
    · split
      · exact .startFails <| .loadStatus h
      · refine .ite (.startFails <| .loadStatus h) ?_
        refine .ite (.runJob h) ?_
        split
        · exact .startFails <| .loadStatus h
        · exact .runJob h

theorem KeepsForm.startJob {jb : Nat} {i : JobImage} {others : Bool} (h : KeepsForm s u) :
    KeepsForm s (Machine.startJob u jb i others) := by
  refine .ite (.startFails <| .loadStatus h) ?_
  refine .ite (.startFails <| .loadStatus h) ?_
  refine .ite (.startFrom4 h) ?_
  split
  · exact .startFails h
  · exact .startFrom4 <| .yieldJobs h

theorem Runs.execJobStartComplete {t jb : Nat} {image : JobImage} {others : Bool} (h :
    KeepsForm s u) : Runs s (Machine.execJobStartComplete t jb image others u) := by
  unfold Machine.execJobStartComplete
  exact .ite (.next <| .atTime h) <| .next <| .startJob <| .atTime h

theorem KeepsForm.startRefusedNote {jb : Nat} (h : KeepsForm s u) : KeepsForm s (Machine.startRefusedNote u jb) := by
  unfold Machine.startRefusedNote
  exact .ite (.setF h) h

theorem KeepsForm.startAction {be : Bool} {jb : Nat} (h : KeepsForm s u) : KeepsForm s (Machine.startAction be jb u) := by
  unfold Machine.startAction
  exact .acceptStart <| .setF <| .modJob h

theorem KeepsForm.endAction {jb : Nat} (h : KeepsForm s u) : KeepsForm s (Machine.endAction jb u) := by
  unfold Machine.endAction
  exact .ite (.refuseWaiting <| .foldl (fun _ _ hv => .refuseEntry hv) <| .setJobMode h) <| .ite h <| .endKey <| .modJob <|
      .discardBookmarks h

theorem KeepsForm.sweepDone {jb : Nat} (h : KeepsForm s u) : KeepsForm s (Machine.sweepDone u jb) := by
  unfold Machine.sweepDone
  exact .fields <| .clearXlates <| .sweepNodes h

theorem Runs.execJobEndComplete {t jb : Nat} (h : KeepsForm s u) : Runs s (Machine.execJobEndComplete t jb u) := by
  unfold Machine.execJobEndComplete
  exact .ite (.next <| .atTime h) <| .next <| .sweepDone <| .finishEnd <| .atTime h

theorem Runs.execCatchwordSweepDone {t jb : Nat} (h : KeepsForm s u) : Runs s (Machine.execCatchwordSweepDone t jb u) := by
  unfold Machine.execCatchwordSweepDone
  exact .ite (.next <| .sweepDone <| .atTime h) <| .next <| .atTime h

theorem Runs.execKeyZeroed {t jb : Nat} (h : KeepsForm s u) : Runs s (Machine.execKeyZeroed t jb u) := by
  unfold Machine.execKeyZeroed
  exact .ite (.next <| .atTime h) <| .next <| .endKey <| .atTime h

theorem Runs.execYieldedJobRestart {t jb : Nat} (h : KeepsForm s u) : Runs s (Machine.execYieldedJobRestart t jb u) := by
  dsimp only [Machine.execYieldedJobRestart]
  split
  · exact .ite (.next <| .atTime h) <| .next <| .restartJob <| .atTime h
  · exact .next <| .atTime h

theorem KeepsForm.tipinAction {ss : Nat} (h : KeepsForm s u) : KeepsForm s (Machine.tipinAction ss u) := by
  unfold Machine.tipinAction
  exact .setF h

theorem Runs.execTipinLoadDone {t ss : Nat} {image : ImageInfo} (h : KeepsForm s u) : Runs s (Machine.execTipinLoadDone t ss image u) := by
  unfold Machine.execTipinLoadDone
  exact .ite (.next <| .atTime h) <| .ite (.next <| .setF <| .atTime h) <| .ite (.next <| .setF <| .atTime h) <| .ite (.next <| .setF <|
      .atTime h) <| .ite (.next <| .setF <| .atTime h) <| .next <| .setF <| .setF <| .atTime h

/-! ### Power -/

theorem KeepsForm.modHalf {h' : Nat} {f : HalfPower → HalfPower} (h : KeepsForm s u) : KeepsForm s (Machine.modHalf u h' f) :=
  .fields h

theorem KeepsForm.setK {h' k : Nat} (h : KeepsForm s u) : KeepsForm s (Machine.setK u h' k) := by
  unfold Machine.setK
  exact .ite h <| .ite (.initStage <| .incF <| .setF h) <| .incF <| .setF h

theorem KeepsForm.showCauses {power : Bool} (h : KeepsForm s u) : KeepsForm s (Machine.showCauses power u) := by
  unfold Machine.showCauses
  exact .setF h

theorem KeepsForm.lowerK {h' : Nat} (h : KeepsForm s u) : KeepsForm s (Machine.lowerK u h') := by
  unfold Machine.lowerK
  exact .ite (.setK <| .modHalf h) h

theorem KeepsForm.failStage {h' : Nat} (h : KeepsForm s u) : KeepsForm s (Machine.failStage u h') := by
  unfold Machine.failStage
  exact .ite h <| .ite (.packageFailed <| .draw <| .logErr <| .modHalf h) <| .initStage <| .modHalf h

theorem KeepsForm.vrhotOn {h' : Nat} (h : KeepsForm s u) : KeepsForm s (Machine.vrhotOn u h') := by
  unfold Machine.vrhotOn
  exact .setK <| .modHalf h

theorem KeepsForm.request {h' mv : Nat} (h : KeepsForm s u) : KeepsForm s (Machine.request u h' mv) := by
  unfold Machine.request
  exact .ite h <| .emit <| .modHalf h

theorem KeepsForm.voltageLoop {h' : Nat} {r : StageReading} (h : KeepsForm s u) : KeepsForm s (Machine.voltageLoop u h' r) := by
  unfold Machine.voltageLoop
  refine .modHalf ?_
  split
  · exact h
  · exact .request h
  · exact .ite (.request h) <| .setK <| .modHalf h

theorem KeepsForm.readStage {h' : Nat} {r : StageReading} (h : KeepsForm s u) : KeepsForm s (Machine.readStage u h' r) := by
  unfold Machine.readStage
  exact .ite (.ite (.failStage <| .modHalf h) <| .modHalf h) <| .voltageLoop <| .ite (.vrhotOn <| .ite (.failStage <| .modHalf <|
      .setF h) <| .modHalf <| .setF h) <| .ite (.failStage <| .modHalf <| .setF h) <| .modHalf <| .setF h

theorem Runs.execTelemetryRead {t : Nat} {west east : StageReading} (h :
    KeepsForm s u) : Runs s (Machine.execTelemetryRead t west east u) := by
  unfold Machine.execTelemetryRead
  exact .ite (.next <| .atTime h) <| .next <| .showCauses <| .readStage <| .readStage <| .atTime h

theorem KeepsForm.startRise {h' : Nat} (h : KeepsForm s u) : KeepsForm s (Machine.startRise u h') := by
  unfold Machine.startRise
  exact .ite (.ite (.modHalf <| .setK <| .modHalf h) <| .setK <| .modHalf h) h

theorem Runs.execPowerLimitCheck {t : Nat} (h : KeepsForm s u) : Runs s (Machine.execPowerLimitCheck t u) := by
  unfold Machine.execPowerLimitCheck
  exact .ite (.next <| .atTime h) <| .ite (.next <| .showCauses <| .fields <| .lowerK <| .setF <| .atTime h) <| .next <| .showCauses <|
      .ite (.draw <| .setK <| .startRise <| .startRise <| .fields <| .setF <| .atTime h) <| .startRise <| .startRise <| .fields <| .setF <|
      .atTime h

theorem Runs.execVrhotAssert {t : Nat} {east : Bool} (h : KeepsForm s u) : Runs s (Machine.execVrhotAssert t east u) := by
  unfold Machine.execVrhotAssert
  exact .ite (.next <| .atTime h) <| .next <| .showCauses <| .vrhotOn <| .atTime h

theorem Runs.execVrhotEnd {t : Nat} {east : Bool} (h : KeepsForm s u) : Runs s (Machine.execVrhotEnd t east u) := by
  unfold Machine.execVrhotEnd
  exact .next <| .showCauses <| .modHalf <| .atTime h

theorem KeepsForm.stopPackage (h : KeepsForm s u) : KeepsForm s (Machine.stopPackage u) := by
  unfold Machine.stopPackage
  exact .closeBypasses <| .goDark <| .stopSequencers h

theorem KeepsForm.startFlush (h : KeepsForm s u) : KeepsForm s (Machine.startFlush u) :=
  .fields h

theorem KeepsForm.enterReset {kind : Nat} (h : KeepsForm s u) : KeepsForm s (Machine.enterReset kind u) := by
  unfold Machine.enterReset
  split
  · exact .emit <| .fields <| .startFlush <| .stopPackage h
  · exact .fields h
  · exact .fields h
  · exact h

theorem KeepsForm.powerFail (h : KeepsForm s u) : KeepsForm s (Machine.powerFail u) := by
  unfold Machine.powerFail
  split
  · exact h
  · exact h
  · exact h
  · exact .fields <| .startFlush <| .stopPackage h

theorem KeepsForm.finishFlush {r : FlushRun} (h : KeepsForm s u) : KeepsForm s (Machine.finishFlush r u) := by
  unfold Machine.finishFlush
  exact .ite h <| .fields h

/-- A reset keeps the queue, and of memory the bytes of the host (log 13). -/
theorem KeepsForm.resetPackage {kind : Nat} (h : KeepsForm s u) : KeepsForm s (Machine.resetPackage kind u) := by
  unfold Machine.resetPackage
  exact .closeBypasses <| .foldl (fun _ _ hv => .setBypass hv) <| .setF <| h.trans ⟨Eq.refl _, memFilter_wf _ _⟩

theorem KeepsForm.tornSlot (h : KeepsForm s u) : KeepsForm s (Machine.tornSlot u) := by
  unfold Machine.tornSlot
  split
  · exact h
  · exact .draw <| .fields h

theorem KeepsForm.takeSample {west east control dram : List Nat} (h : KeepsForm s u) :
    KeepsForm s (Machine.takeSample west east control dram u) := by
  unfold Machine.takeSample
  exact .ite (.powerFail <| .emit <| .fields <| .showCauses <| .ite (.setF <| .setF <| .setF h) <| .ite (.draw <| .lowerK <| .fields <|
      .setF <| .setF <| .setF h) <| .ite (.fields <| .setF <| .setF <| .setF h) <| .setF <| .setF <| .setF h) <| .showCauses <|
      .ite (.setF <| .setF <| .setF h) <| .ite (.draw <| .lowerK <| .fields <| .setF <| .setF <| .setF h) <| .ite (.fields <| .setF <|
      .setF <| .setF h) <| .setF <| .setF <| .setF h

theorem Runs.execThermalSample {t : Nat} {west east control dram : List Nat} (h :
    KeepsForm s u) : Runs s (Machine.execThermalSample t west east control dram u) := by
  unfold Machine.execThermalSample
  exact .ite (.next <| .atTime h) <| .next <| .takeSample <| .atTime h

theorem Runs.execLocalTimeCorrection {t : Nat} {left : List Int} (h :
    KeepsForm s u) : Runs s (Machine.execLocalTimeCorrection t left u) := by
  unfold Machine.execLocalTimeCorrection
  exact .ite (.next <| .atTime h) <| .next <| .fields <| .atTime h

theorem Runs.execPowerOn (h : KeepsForm s u) : Runs s (Machine.execPowerOn u) := by
  unfold Machine.execPowerOn
  exact .ite (.next h) <| .next <| .emit <| .resetPackage <| .fields h

theorem Runs.execPowerLoss {journalled : List Nat} (h : KeepsForm s u) : Runs s (Machine.execPowerLoss journalled u) := by
  unfold Machine.execPowerLoss
  exact .next <| .fields <| .goDark <| .stopSequencers <| .tornSlot <| .fields h

theorem Runs.execPinReset {t heldNs : Nat} (h : KeepsForm s u) : Runs s (Machine.execPinReset t heldNs u) := by
  unfold Machine.execPinReset
  exact .ite (.next <| .atTime h) <| .next <| .enterReset <| .fields <| .atTime h

theorem Runs.execWatchdogExpiry {t : Nat} (h : KeepsForm s u) : Runs s (Machine.execWatchdogExpiry t u) := by
  unfold Machine.execWatchdogExpiry
  exact .ite (.next <| .atTime h) <| .next <| .enterReset <| .atTime h

theorem Runs.execPowerFail {t : Nat} (h : KeepsForm s u) : Runs s (Machine.execPowerFail t u) := by
  unfold Machine.execPowerFail
  exact .next <| .powerFail <| .fields <| .atTime h

theorem KeepsForm.leavePath (h : KeepsForm s u) : KeepsForm s (Machine.leavePath u) := by
  unfold Machine.leavePath
  exact .ite (.emit <| .fields h) h

theorem Runs.execPowerFailPathComplete {t : Nat} {flush : FlushRun} (h :
    KeepsForm s u) : Runs s (Machine.execPowerFailPathComplete t flush u) := by
  unfold Machine.execPowerFailPathComplete
  exact .ite (.next <| .atTime h) <| .next <| .leavePath <| .emit <| .fields <| .resetPackage <| .tornSlot <| .finishFlush <| .atTime h

theorem Runs.execPfailRelease {t : Nat} (h : KeepsForm s u) : Runs s (Machine.execPfailRelease t u) := by
  unfold Machine.execPfailRelease
  exact .next <| .leavePath <| .fields <| .atTime h

/-! ### Rules -/

theorem KeepsForm.setIf {iface idx sub v' : Nat} (h : KeepsForm s u) : KeepsForm s (Machine.setIf u iface idx sub v') :=
  .fields h

/-! ### Boot -/

theorem KeepsForm.setWords {idx n v' : Nat} (h : KeepsForm s u) : KeepsForm s (Machine.setWords u idx n v') := by
  unfold Machine.setWords
  exact .foldl (fun _ _ hv => .setF hv) h

theorem KeepsForm.readPuf {ok : Bool} (h : KeepsForm s u) : KeepsForm s (Machine.readPuf ok u) := by
  unfold Machine.readPuf
  exact .ite (.setWords <| .setWords <| .setF <| .setF <| .fields <| .ite h <| .draw <| .fields h) <| .setF <| .ite h <| .draw <| .fields h

theorem KeepsForm.leaveReset {pufOk : Bool} {failed : List Nat} (h : KeepsForm s u) : KeepsForm s (Machine.leaveReset pufOk failed u) := by
  unfold Machine.leaveReset
  exact .foldl (fun _ _ hv => .fence hv) <| .initStage <| .initStage <| .setF <| .draw <| .setF <| .readPuf <| .fields h

theorem Runs.execInitEngineStart {flush : FlushRun} {pufOk : Bool} {failed : List Nat} (h :
    KeepsForm s u) : Runs s (Machine.execInitEngineStart flush pufOk failed u) := by
  refine .ite (.next h) ?_
  split
  · exact .next <| .leaveReset <| .setF h
  · exact .next <| .leaveReset <| .resetPackage <| .tornSlot <| .finishFlush h
  · exact .next h

theorem KeepsForm.loadReserved (h : KeepsForm s u) : KeepsForm s (Machine.loadReserved u) := by
  unfold Machine.loadReserved
  exact .foldl (fun _ _ hv => .writeBytes hv) h

theorem Runs.execMemoryFillComplete {t : Nat} (h : KeepsForm s u) : Runs s (Machine.execMemoryFillComplete t u) := by
  unfold Machine.execMemoryFillComplete
  exact .ite (.next <| .atTime h) <| .next <| .initStage <| .loadReserved <| h.trans ⟨Eq.refl _, memFilter_wf _ _⟩

theorem KeepsForm.loadImg {l : List (Nat × Nat × Nat)} (h : KeepsForm s u) : KeepsForm s (Machine.loadImg l u) :=
  .fields h

theorem KeepsForm.applyOverride {e : Nat × Nat × Nat} (h : KeepsForm s u) : KeepsForm s (Machine.applyOverride u e) := by
  unfold Machine.applyOverride
  exact .ite (.fields h) <| .incF h

theorem KeepsForm.startLinks (h : KeepsForm s u) : KeepsForm s (Machine.startLinks u) := by
  unfold Machine.startLinks
  exact .fields <| .foldl (fun _ _ hv => .ite hv <| .setLink hv) h

theorem KeepsForm.useConfig {k : Nat} {b : BootImage} (h : KeepsForm s u) : KeepsForm s (Machine.useConfig k b u) := by
  unfold Machine.useConfig
  exact .startLinks <| .setWords <| .setWords <| .setF <| .foldl (fun _ _ hv => .applyOverride hv) <| .loadImg <| .fields h

theorem KeepsForm.verifyImages {found : List (Nat × BootImage)} (h : KeepsForm s u) : KeepsForm s (Machine.verifyImages found u) := by
  unfold Machine.verifyImages
  split
  · split
    · dsimp only
      split
      · exact .fields <| .setF h
      · dsimp only
        split
        · exact .initStage <| .setF <| .useConfig <| .setWords <| .setF <| .fields <| .setF h
        · exact .initStage <| .setF <| .setF <| .setWords <| .setF <| .fields <| .setF h

theorem Runs.execImagesVerified {t : Nat} {found : List (Nat × BootImage)} (h :
    KeepsForm s u) : Runs s (Machine.execImagesVerified t found u) := by
  unfold Machine.execImagesVerified
  exact .ite (.next <| .atTime h) <| .next <| .verifyImages <| .atTime h

theorem Runs.execStackTrainingComplete {t : Nat} {large : Bool} (h :
    KeepsForm s u) : Runs s (Machine.execStackTrainingComplete t large u) := by
  unfold Machine.execStackTrainingComplete
  exact .ite (.next <| .atTime h) <| .next <| .initStage <| .fields <| .setF <| .setF <| .setF <| .atTime h

theorem KeepsForm.useLpddr {l : LpddrFound} (h : KeepsForm s u) : KeepsForm s (Machine.useLpddr l u) := by
  unfold Machine.useLpddr
  exact .fields <| .setF <| .setF <| .setF h

theorem KeepsForm.useFlash {f : FlashFound} (h : KeepsForm s u) : KeepsForm s (Machine.useFlash f u) := by
  unfold Machine.useFlash
  exact .setF <| .setF <| .setF <| .setF <| .setF <| .setF <| .setF <| .fields h

theorem KeepsForm.trainLpddr {l : LpddrFound} {f : FlashFound} (h : KeepsForm s u) : KeepsForm s (Machine.trainLpddr l f u) := by
  unfold Machine.trainLpddr
  exact .startBypasses <| .initStage <| .fields <| .setF <| .setF <| .ite (.useFlash <| .ite (.setF <| .useLpddr h) <| .useLpddr h) <|
      .ite (.setF <| .useLpddr h) <| .useLpddr h

theorem Runs.execLpddr6TrainingComplete {t : Nat} {l : LpddrFound} {f : FlashFound} (h :
    KeepsForm s u) : Runs s (Machine.execLpddr6TrainingComplete t l f u) := by
  unfold Machine.execLpddr6TrainingComplete
  exact .ite (.next <| .atTime h) <| .next <| .trainLpddr <| .atTime h

theorem KeepsForm.hostFails {status : Nat} (h : KeepsForm s u) : KeepsForm s (Machine.hostFails status u) := by
  unfold Machine.hostFails
  exact .emit h

theorem KeepsForm.assertPerst (h : KeepsForm s u) : KeepsForm s (Machine.assertPerst u) := by
  unfold Machine.assertPerst
  exact .fields <| .foldl (fun _ _ hv => .tearDown hv) <| .fields <| .foldl (fun _ _ hv => .hostFails hv) h

theorem Runs.execPerstAssert {t : Nat} (h : KeepsForm s u) : Runs s (Machine.execPerstAssert t u) := by
  unfold Machine.execPerstAssert
  exact .next <| .assertPerst <| .atTime h

theorem KeepsForm.portRestart {j : Nat} (h : KeepsForm s u) : KeepsForm s (Machine.portRestart u j) := by
  unfold Machine.portRestart
  exact .ite h <| .ite (.modJob h) <| .restartJob h

theorem Runs.execPcieL0Reached {t rate width : Nat} {flit : Bool} {unmasked : List Nat} (h :
    KeepsForm s u) : Runs s (Machine.execPcieL0Reached t rate width flit unmasked u) := by
  unfold Machine.execPcieL0Reached
  exact .ite (.next <| .atTime h) <| .next <| .foldl (fun _ _ hv => .portRestart hv) <| .setF <| .fields <| .atTime h

theorem Runs.execHostReadTimeout {t : Nat} {who : HostReader} (h : KeepsForm s u) : Runs s (Machine.execHostReadTimeout t who u) := by
  dsimp only [Machine.execHostReadTimeout]
  split
  · split
    · exact .next <| .failMaster <| .hostFails <| .modSeq <| .atTime h
    · exact .next <| .atTime h
  · exact .ite (.next <| .atTime h) <| .next <| .tearDownJob <| .voidStep <| .logErr <| .incF <| .hostFails <| .atTime h
  · exact .next <| .hostFails <| .atTime h

theorem KeepsForm.updateAction {kind : Nat} (h : KeepsForm s u) : KeepsForm s (Machine.updateAction kind u) := by
  unfold Machine.updateAction
  exact .setF <| .fields h

theorem Runs.execUpdateComplete {t : Nat} {image : BootImage} {readBack : Bool} (h : KeepsForm s u) :
    Runs s (Machine.execUpdateComplete t image readBack u) := by
  unfold Machine.execUpdateComplete
  dsimp only
  split
  · exact .next <| .atTime h
  · exact .ite (.next <| .setF <| .fields <| .atTime h) <| .next <| .setF <| .fields <| .atTime h

theorem KeepsForm.quoteAction (h : KeepsForm s u) : KeepsForm s (Machine.quoteAction u) := by
  unfold Machine.quoteAction
  exact .ite (.setF h) <| .setF <| .fields <| .setWords h

theorem KeepsForm.writeFabric {addr : Nat} {jb : Option Nat} {bs : List Byte} (h : KeepsForm s u) :
    KeepsForm s (Machine.writeFabric u addr jb bs).1 := by
  refine .iteFst (.iteFst (.writeBytes h) h) ?_
  refine .foldlFst (fun _ _ hv => ?_) h
  split
  next heq1 => exact .fst (.issue hv) heq1
  next heq1 => exact .fst (.issue hv) heq1

theorem Runs.execQuoteSigned {t : Nat} {refused : Bool} (h : KeepsForm s u) : Runs s (Machine.execQuoteSigned t refused u) := by
  dsimp only [Machine.execQuoteSigned]
  split
  · exact .next <| .setF <| .writeFabric <| .fields <| .atTime h
  · exact .next <| .atTime h

theorem Runs.execTapExtest {t : Nat} (h : KeepsForm s u) : Runs s (Machine.execTapExtest t u) := by
  unfold Machine.execTapExtest
  exact .ite (.next <| .atTime h) <| .next <| .fields <| .stopPackage <| .atTime h

theorem Runs.execTapInstructionExit {t : Nat} (h : KeepsForm s u) : Runs s (Machine.execTapInstructionExit t u) := by
  unfold Machine.execTapInstructionExit
  exact .ite (.next <| .enterReset <| .fields <| .atTime h) <| .next <| .atTime h

theorem Runs.execIjtagAccess {t instrument : Nat} (h : KeepsForm s u) : Runs s (Machine.execIjtagAccess t instrument u) := by
  unfold Machine.execIjtagAccess
  exact .next <| .emit <| .atTime h

/-! ### Kettle -/

theorem KeepsForm.kettleWord {t l : Nat} {w : BitVec 256} {note : Nat}
    {f : State → State} (hf : ∀ v,
    KeepsForm s v → KeepsForm s (f v)) (h : KeepsForm s u) : KeepsForm s (Machine.kettleWord t l w note f u) := by
  unfold Machine.kettleWord
  exact .recvWord (fun _ hv => .ite (.incF hv) <| .ite hv <| hf _ hv) <| .atTime h

theorem KeepsForm.floodedNote {t l : Nat} {w : BitVec 256} {note : Nat}
    {act : State → State} (hact : ∀ v,
    KeepsForm s v → KeepsForm s (act v)) (h : KeepsForm s u) : KeepsForm s (Machine.floodedNote t l w note act u) := by
  unfold Machine.floodedNote
  exact .kettleWord (fun _ hv => .ite hv <| .ite hv <| .ite (.foldl (fun _ _ hv1 => .sendWord hv1) <| hact _ <| .fields hv) <| hact _ <|
      .fields hv) h

theorem KeepsForm.linksDead {e : Nat} (h : KeepsForm s u) : KeepsForm s (Machine.linksDead u e) := by
  unfold Machine.linksDead
  exact .fields <| .foldl (fun _ _ hv => .ite (.fenceLink hv) <| .ite hv <| .enterDown hv) h

theorem KeepsForm.teardownJoint {e : Nat} (h : KeepsForm s u) : KeepsForm s (Machine.teardownJoint u e) := by
  unfold Machine.teardownJoint
  exact .foldl (fun _ _ hv => .tearDownJob hv) h

theorem KeepsForm.dropSuspicion {e : Nat} (h : KeepsForm s u) : KeepsForm s (Machine.dropSuspicion u e) :=
  .fields h

theorem KeepsForm.enterDead {e inc : Nat} (h : KeepsForm s u) : KeepsForm s (Machine.enterDead u e inc) := by
  unfold Machine.enterDead
  exact .incF <| .fields h

theorem KeepsForm.applyDead {e inc : Nat} (h : KeepsForm s u) : KeepsForm s (Machine.applyDead u e inc) := by
  unfold Machine.applyDead
  exact .noteChange <| .fields <| .teardownJoint <| .linksDead <| .spansDead <| .tiersDead <| .handoffsDead <| .fabricDead <| .enterDead <|
      .dropSuspicion h

theorem KeepsForm.noVerdict {e : Nat} (h : KeepsForm s u) : KeepsForm s (Machine.noVerdict u e) := by
  unfold Machine.noVerdict
  exact .incF <| .draw <| .logErr <| .foldl (fun _ _ hv => .fence hv) <| .dropSuspicion h

theorem KeepsForm.evaluate {e : Nat} (h : KeepsForm s u) : KeepsForm s (Machine.evaluate u e) := by
  unfold Machine.evaluate
  split
  · exact h
  · exact .ite (.applyDead <| .incF <| .floodNote h) h

theorem KeepsForm.fenceForeign {e : Nat} (h : KeepsForm s u) : KeepsForm s (Machine.fenceForeign u e) := by
  unfold Machine.fenceForeign
  exact .foldl (fun _ _ hv => .fenceLink hv) h

theorem KeepsForm.suspect {e : Nat} (h : KeepsForm s u) : KeepsForm s (Machine.suspect u e) := by
  unfold Machine.suspect
  exact .ite (.fenceForeign <| .fields <| .incF h) <| .evaluate <| .fields <| .floodNote <| .incF h

theorem Runs.execSuspectTimeout {t subject : Nat} (h : KeepsForm s u) : Runs s (Machine.execSuspectTimeout t subject u) := by
  unfold Machine.execSuspectTimeout
  exact .ite (.next <| .atTime h) <| .next <| .suspect <| .atTime h

theorem Runs.execVerdictTimeout {t subject : Nat} (h : KeepsForm s u) : Runs s (Machine.execVerdictTimeout t subject u) := by
  unfold Machine.execVerdictTimeout
  exact .ite (.next <| .noVerdict <| .atTime h) <| .next <| .atTime h

theorem Runs.execPulseTimer {t : Nat} (h : KeepsForm s u) : Runs s (Machine.execPulseTimer t u) := by
  unfold Machine.execPulseTimer
  exact .ite (.next <| .atTime h) <| .next <| .foldl (fun _ _ hv => .sendWord hv) <| .atTime h

theorem KeepsForm.takePulse {l e inc : Nat} (h : KeepsForm s u) : KeepsForm s (Machine.takePulse l e inc u) := by
  unfold Machine.takePulse
  exact .ite (.fenceLink <| .ite (.fields <| .fields h) <| .fields h) <| .ite (.fields <| .fields h) <| .fields h

theorem Runs.execPulse {t link : Nat} {word : BitVec 256} (h : KeepsForm s u) : Runs s (Machine.execPulse t link word u) := by
  unfold Machine.execPulse
  exact .next <| .kettleWord (fun _ hv => .takePulse hv) h

theorem KeepsForm.answerSeen {e inc : Nat} (h : KeepsForm s u) : KeepsForm s (Machine.answerSeen u e inc) := by
  unfold Machine.answerSeen
  split
  · exact h
  · exact .ite (.floodNote <| .fields h) h

theorem KeepsForm.hearSuspect {o e inc : Nat} (h : KeepsForm s u) : KeepsForm s (Machine.hearSuspect o e inc u) := by
  unfold Machine.hearSuspect
  exact .ite (.evaluate <| .fields <| .answerSeen h) <| .fields <| .answerSeen h

theorem Runs.execSuspect {t link : Nat} {word : BitVec 256} (h : KeepsForm s u) : Runs s (Machine.execSuspect t link word u) := by
  unfold Machine.execSuspect
  exact .next <| .floodedNote (fun _ hv => .hearSuspect hv) h

theorem Runs.execSeen {t link : Nat} {word : BitVec 256} (h : KeepsForm s u) : Runs s (Machine.execSeen t link word u) := by
  unfold Machine.execSeen
  exact .next <| .floodedNote (fun _ hv => .ite (.noVerdict hv) hv) h

theorem KeepsForm.dieBy (h : KeepsForm s u) : KeepsForm s (Machine.dieBy u) := by
  unfold Machine.dieBy
  exact .enterReset h

theorem KeepsForm.hearDead {e inc : Nat} (h : KeepsForm s u) : KeepsForm s (Machine.hearDead e inc u) := by
  unfold Machine.hearDead
  exact .ite (.ite (.dieBy h) h) <| .ite h <| .applyDead h

theorem Runs.execDead {t link : Nat} {word : BitVec 256} (h : KeepsForm s u) : Runs s (Machine.execDead t link word u) := by
  unfold Machine.execDead
  exact .next <| .floodedNote (fun _ hv => .hearDead hv) h

theorem Runs.execIsolationTimeout {t : Nat} (h : KeepsForm s u) : Runs s (Machine.execIsolationTimeout t u) := by
  unfold Machine.execIsolationTimeout
  exact .ite (.next <| .dieBy <| .atTime h) <| .next <| .atTime h

theorem Runs.execTeardown {t link : Nat} {word : BitVec 256} (h : KeepsForm s u) : Runs s (Machine.execTeardown t link word u) := by
  unfold Machine.execTeardown
  exact .next <| .floodedNote (fun _ hv => .ite (.tearDown hv) hv) h

/-! ### Epoch -/

theorem KeepsForm.holdChanged {old new : Tbl Route} (h : KeepsForm s u) : KeepsForm s (Machine.holdChanged u old new) := by
  unfold Machine.holdChanged
  exact .foldl (fun _ _ hv => .ite (.incF <| .fields hv) hv) h

theorem KeepsForm.activate (h : KeepsForm s u) : KeepsForm s (Machine.activate u) := by
  unfold Machine.activate
  exact .foldl (fun _ _ hv => .modLink hv) <| .foldl (fun _ _ hv => .modLink hv) h

theorem KeepsForm.rerouteEgress (h : KeepsForm s u) : KeepsForm s (Machine.rerouteEgress u) := by
  unfold Machine.rerouteEgress
  exact .foldl (fun _ _ hv => .foldl (fun _ _ hv1 => .routeOut hv1) <| .modLink hv) h

theorem KeepsForm.checkBinding {differing : List Nat} (h : KeepsForm s u) : KeepsForm s (Machine.checkBinding u differing) := by
  unfold Machine.checkBinding
  exact .ite h <| .fields <| .foldl (fun _ _ hv => .logErr hv) h

theorem KeepsForm.rejoinJobs {ready : List Nat} (h : KeepsForm s u) : KeepsForm s (Machine.rejoinJobs u ready) := by
  unfold Machine.rejoinJobs
  exact .foldl (fun _ _ hv => .restartJob hv) h

theorem KeepsForm.rejoinRing {n : Nat} {ready : List Nat} (h : KeepsForm s u) : KeepsForm s (Machine.rejoinRing u n ready) := by
  unfold Machine.rejoinRing
  exact .foldl (fun _ _ hv => .restartJob hv) h

theorem KeepsForm.beginAdoptions (h : KeepsForm s u) : KeepsForm s (Machine.beginAdoptions u) :=
  .fields h

theorem KeepsForm.noteEpoch {v' : EpochView} (h : KeepsForm s u) : KeepsForm s (Machine.noteEpoch u v') :=
  .fields h

theorem KeepsForm.openEpoch {v' : EpochView} (h : KeepsForm s u) : KeepsForm s (Machine.openEpoch u v') := by
  unfold Machine.openEpoch
  exact .beginAdoptions <| .foldl (fun _ _ hv => .startPlan hv) <| .rejoinJobs <| .runLinks <| .noteEpoch <| .rerouteEgress <| .activate <|
      .checkBinding <| .fields <| .holdChanged <| .incF <| .fields h

theorem KeepsForm.foreignEpoch {v' : EpochView} (h : KeepsForm s u) : KeepsForm s (Machine.foreignEpoch u v') := by
  unfold Machine.foreignEpoch
  exact .runLinks <| .rerouteEgress <| .fields <| .holdChanged h

theorem KeepsForm.freshRoutes {v' : EpochView} (h : KeepsForm s u) : KeepsForm s (Machine.freshRoutes u v') :=
  .fields h

theorem Runs.execRouteEpoch {t : Nat} {view : EpochView} (h : KeepsForm s u) : Runs s (Machine.execRouteEpoch t view u) := by
  refine .ite (.next <| .atTime h) ?_
  split
  · exact .next <| .ite (.openEpoch <| .atTime h) <| .freshRoutes <| .atTime h
  · exact .next <| .ite (.foreignEpoch <| .atTime h) <| .freshRoutes <| .atTime h

theorem Runs.execRingPlan {t : Nat} {header : BitVec 512} {plan : PlanIn} (h :
    KeepsForm s u) : Runs s (Machine.execRingPlan t header plan u) := by
  unfold Machine.execRingPlan
  exact .ite (.next <| .incF <| .atTime h) <| .ite (.next <| .atTime h) <| .ite (.ite (.next <| .ite (.rejoinRing <| .sendPlan <|
      .completePlan <| .atTime h) <| .atTime h) <| .next <| .rejoinRing <| .sendPlan <| .completePlan <| .atTime h) <| .ite (.next <|
      .atTime h) <| .next <| .sendPlan <| .atTime h

/-! ### Dict -/

theorem KeepsForm.hwmClearAction (h : KeepsForm s u) : KeepsForm s (Machine.hwmClearAction u) := by
  unfold Machine.hwmClearAction
  exact .fields <| .foldl (fun _ _ hv => .setF <| .setF <| .setF <| .setF hv) h

theorem KeepsForm.qpCommand {iface v' : Nat} (h : KeepsForm s u) : KeepsForm s (Machine.qpCommand iface v' u) := by
  unfold Machine.qpCommand
  exact .ite (.createQp h) <| .ite (.resetQp h) <| .destroyQp h

theorem KeepsForm.regionCommand {iface v' : Nat} (h : KeepsForm s u) : KeepsForm s (Machine.regionCommand iface v' u) := by
  unfold Machine.regionCommand
  exact .ite (.registerRegion h) <| .revokeRegion h

theorem KeepsForm.cvuCommand {u' v' : Nat} (h : KeepsForm s u) : KeepsForm s (Machine.cvuCommand u' v' u) := by
  unfold Machine.cvuCommand
  exact .ite (.cvuStartAction h) <| .ite (.cvuRunAction h) <| .cvuStopAction h

theorem KeepsForm.jobCommand {jb v' : Nat} (h : KeepsForm s u) : KeepsForm s (Machine.jobCommand jb v' u) := by
  unfold Machine.jobCommand
  exact .ite (.endAction h) <| .startAction h

theorem KeepsForm.injectCommand {v' : Nat} (h : KeepsForm s u) : KeepsForm s (Machine.injectCommand v' u) := by
  unfold Machine.injectCommand
  exact .ite (.injectCorrectableAction h) <| .ite (.injectUncorrectableAction h) <| .injectPathAction h

theorem KeepsForm.startLow {iface idx sub v' : Nat} (h : KeepsForm s u) : KeepsForm s (Machine.startLow u iface idx sub v') := by
  unfold Machine.startLow
  exact .ite (.countClearAction h) <| .ite (.moveNow <| .rebalanceAction h) <| .ite (.loanRecallAction h) <| .ite (.tipinAction <|
      .setF h) <| .ite (.quarantineClearAction h) <| .ite (.qpCommand h) <| .ite (.regionCommand h) <| .ite (.ite (.bypassOpenAction h) <|
      .bypassCloseAction h) h

theorem KeepsForm.startHigh {idx sub v' : Nat} (h : KeepsForm s u) : KeepsForm s (Machine.startHigh u idx sub v') := by
  unfold Machine.startHigh
  exact .ite (.cvuFeedAction h) <| .ite (.cvuFeedByteAction h) <| .ite (.cvuCommand h) <| .ite (.hwmClearAction h) <|
      .ite (.jobCommand h) <| .ite (.addrlogClearAction h) <| .ite (.releaseAction h) <| .ite (.reinstateAction h) <|
      .ite (.injectCommand h) <| .ite (.bookmarkNowAction h) <| .ite (.discardAction h) <| .ite (.bookmarkDiscardAction h) <|
      .ite (.enterReset h) <| .ite (.quoteAction h) <| .ite (.updateAction h) h

theorem KeepsForm.linkControlled {l old v' : Nat} (h : KeepsForm s u) : KeepsForm s (Machine.linkControlled l old v' u) := by
  unfold Machine.linkControlled
  exact .ite (.disableLink h) <| .ite (.enableLink h) h

theorem KeepsForm.refillPolicer {p : Nat} (h : KeepsForm s u) : KeepsForm s (Machine.refillPolicer p u) :=
  .fields h

theorem KeepsForm.afterStore {idx sub old v' : Nat} (h : KeepsForm s u) : KeepsForm s (Machine.afterStore u idx sub old v') := by
  unfold Machine.afterStore
  exact .ite (.fitLent h) <| .ite (.fitLent h) <| .ite (.fitShares h) <| .ite (.fitShares h) <| .ite (.bookPumps <| .flashStateUpdate <|
      .showDirty <| .flashPump h) <| .ite (.linkControlled h) <| .ite (.shaperAction h) <| .ite (.shaperAction h) <|
      .ite (.refillPolicer h) h

theorem KeepsForm.noteStaged {iface idx sub : Nat} (h : KeepsForm s u) : KeepsForm s (Machine.noteStaged u iface idx sub) := by
  unfold Machine.noteStaged
  exact .ite h <| .fields h

theorem KeepsForm.storeFolio {r : FolioRow} {iface idx sub v' : Nat} (h : KeepsForm s u) :
    KeepsForm s (Machine.storeFolio u r iface idx sub v') := by
  unfold Machine.storeFolio
  exact .ite (.fields h) <| .ite (.tailAction h) <| .ite (.ite (.fields <| .noteStaged <| .setIf h) <| .noteStaged <| .setIf h) <|
      .afterStore <| .setF h

theorem KeepsForm.applyWrite {iface idx sub v' hw : Nat} (h : KeepsForm s u) : KeepsForm s (Machine.applyWrite u iface idx sub v' hw) := by
  unfold Machine.applyWrite
  split
  · exact h
  · split
    · exact .ite (.startLow h) <| .startHigh h
    · exact .storeFolio h
    · exact .setF h
    · exact .setF h
    · exact h

theorem KeepsForm.refusalNote {idx sub v' result : Nat} (h : KeepsForm s u) : KeepsForm s (Machine.refusalNote u idx sub v' result) := by
  refine .ite h ?_
  refine .ite (.startRefusedNote h) ?_
  refine .ite ?_ (.ite (.cvuRefused h) h)
  split
  · exact .setF h
  · exact h

theorem KeepsForm.recordWrite {idx sub : Nat} {req : FolioReq} {result : Nat} (h : KeepsForm s u) :
    KeepsForm s (Machine.recordWrite u idx sub req result) := by
  unfold Machine.recordWrite
  exact .ite (.incF <| .setF <| .journal h) <| .incF <| .incF <| .setF <| .journal h

theorem KeepsForm.folioWrite {idx sub : Nat} {req : FolioReq} (h : KeepsForm s u) : KeepsForm s (Machine.folioWrite idx sub req u) := by
  unfold Machine.folioWrite
  exact .ite h <| .ite (.applyWrite <| .emit <| .recordWrite h) <| .refusalNote <| .emit <| .recordWrite h

theorem Runs.execFolioWrite {t idx sub : Nat} {req : FolioReq} (h : KeepsForm s u) : Runs s (Machine.execFolioWrite t idx sub req u) := by
  unfold Machine.execFolioWrite
  exact .next <| .folioWrite <| .atTime h

theorem Runs.execCountClear {t : Nat} {req : FolioReq} (h : KeepsForm s u) : Runs s (Machine.execCountClear t req u) := by
  unfold Machine.execCountClear
  exact .next <| .folioWrite <| .atTime h

theorem Runs.execSnapIndex {t : Nat} {req : FolioReq} (h : KeepsForm s u) : Runs s (Machine.execSnapIndex t req u) := by
  unfold Machine.execSnapIndex
  exact .next <| .folioWrite <| .atTime h

theorem Runs.execTipinLoad {t slot : Nat} {req : FolioReq} (h : KeepsForm s u) : Runs s (Machine.execTipinLoad t slot req u) := by
  unfold Machine.execTipinLoad
  exact .next <| .folioWrite <| .atTime h

theorem Runs.execRebalance {t : Nat} {req : FolioReq} (h : KeepsForm s u) : Runs s (Machine.execRebalance t req u) := by
  unfold Machine.execRebalance
  exact .next <| .folioWrite <| .atTime h

theorem Runs.execLoanRecall {t : Nat} {req : FolioReq} (h : KeepsForm s u) : Runs s (Machine.execLoanRecall t req u) := by
  unfold Machine.execLoanRecall
  exact .next <| .folioWrite <| .atTime h

theorem Runs.execDiscardRange {t : Nat} {req : FolioReq} (h : KeepsForm s u) : Runs s (Machine.execDiscardRange t req u) := by
  unfold Machine.execDiscardRange
  exact .next <| .folioWrite <| .atTime h

theorem Runs.execBookmarkDiscard {t : Nat} {req : FolioReq} (h : KeepsForm s u) : Runs s (Machine.execBookmarkDiscard t req u) := by
  unfold Machine.execBookmarkDiscard
  exact .next <| .folioWrite <| .atTime h

theorem Runs.execQuarantineClear {t : Nat} {req : FolioReq} (h : KeepsForm s u) : Runs s (Machine.execQuarantineClear t req u) := by
  unfold Machine.execQuarantineClear
  exact .next <| .folioWrite <| .atTime h

theorem Runs.execQpCreate {t : Nat} {req : FolioReq} (h : KeepsForm s u) : Runs s (Machine.execQpCreate t req u) := by
  unfold Machine.execQpCreate
  exact .next <| .folioWrite <| .atTime h

theorem Runs.execQpReset {t : Nat} {req : FolioReq} (h : KeepsForm s u) : Runs s (Machine.execQpReset t req u) := by
  unfold Machine.execQpReset
  exact .next <| .folioWrite <| .atTime h

theorem Runs.execQpDestroy {t : Nat} {req : FolioReq} (h : KeepsForm s u) : Runs s (Machine.execQpDestroy t req u) := by
  unfold Machine.execQpDestroy
  exact .next <| .folioWrite <| .atTime h

theorem Runs.execRegionRegister {t : Nat} {req : FolioReq} (h : KeepsForm s u) : Runs s (Machine.execRegionRegister t req u) := by
  unfold Machine.execRegionRegister
  exact .next <| .folioWrite <| .atTime h

theorem Runs.execRegionRevoke {t : Nat} {req : FolioReq} (h : KeepsForm s u) : Runs s (Machine.execRegionRevoke t req u) := by
  unfold Machine.execRegionRevoke
  exact .next <| .folioWrite <| .atTime h

theorem Runs.execLinkDisable {t link : Nat} {req : FolioReq} (h : KeepsForm s u) : Runs s (Machine.execLinkDisable t link req u) := by
  unfold Machine.execLinkDisable
  exact .next <| .folioWrite <| .atTime h

theorem Runs.execLinkEnable {t link : Nat} {req : FolioReq} (h : KeepsForm s u) : Runs s (Machine.execLinkEnable t link req u) := by
  unfold Machine.execLinkEnable
  exact .next <| .folioWrite <| .atTime h

theorem Runs.execBypassOpen {t ring : Nat} {req : FolioReq} (h : KeepsForm s u) : Runs s (Machine.execBypassOpen t ring req u) := by
  unfold Machine.execBypassOpen
  exact .next <| .folioWrite <| .atTime h

theorem Runs.execBypassClose {t ring : Nat} {req : FolioReq} (h : KeepsForm s u) : Runs s (Machine.execBypassClose t ring req u) := by
  unfold Machine.execBypassClose
  exact .next <| .folioWrite <| .atTime h

theorem Runs.execCvuFeed {t unit : Nat} {req : FolioReq} (h : KeepsForm s u) : Runs s (Machine.execCvuFeed t unit req u) := by
  unfold Machine.execCvuFeed
  exact .next <| .folioWrite <| .atTime h

theorem Runs.execCvuFeedByte {t unit : Nat} {req : FolioReq} (h : KeepsForm s u) : Runs s (Machine.execCvuFeedByte t unit req u) := by
  unfold Machine.execCvuFeedByte
  exact .next <| .folioWrite <| .atTime h

theorem Runs.execCvuStart {t unit : Nat} {req : FolioReq} (h : KeepsForm s u) : Runs s (Machine.execCvuStart t unit req u) := by
  unfold Machine.execCvuStart
  exact .next <| .folioWrite <| .atTime h

theorem Runs.execCvuRunDma {t unit : Nat} {req : FolioReq} (h : KeepsForm s u) : Runs s (Machine.execCvuRunDma t unit req u) := by
  unfold Machine.execCvuRunDma
  exact .next <| .folioWrite <| .atTime h

theorem Runs.execCvuStopDma {t unit : Nat} {req : FolioReq} (h : KeepsForm s u) : Runs s (Machine.execCvuStopDma t unit req u) := by
  unfold Machine.execCvuStopDma
  exact .next <| .folioWrite <| .atTime h

theorem Runs.execJobStartLatencyCritical {t jb : Nat} {req : FolioReq} (h :
    KeepsForm s u) : Runs s (Machine.execJobStartLatencyCritical t jb req u) := by
  unfold Machine.execJobStartLatencyCritical
  exact .next <| .folioWrite <| .atTime h

theorem Runs.execJobStartBestEffort {t jb : Nat} {req : FolioReq} (h :
    KeepsForm s u) : Runs s (Machine.execJobStartBestEffort t jb req u) := by
  unfold Machine.execJobStartBestEffort
  exact .next <| .folioWrite <| .atTime h

theorem Runs.execJobEnd {t jb : Nat} {req : FolioReq} (h : KeepsForm s u) : Runs s (Machine.execJobEnd t jb req u) := by
  unfold Machine.execJobEnd
  exact .next <| .folioWrite <| .atTime h

theorem Runs.execShaperWrite {t queue : Nat} {req : FolioReq} (h : KeepsForm s u) : Runs s (Machine.execShaperWrite t queue req u) := by
  unfold Machine.execShaperWrite
  exact .next <| .ite (.folioWrite <| .atTime h) <| .folioWrite <| .atTime h

theorem Runs.execPolicerWrite {t word policer : Nat} {req : FolioReq} (h :
    KeepsForm s u) : Runs s (Machine.execPolicerWrite t word policer req u) := by
  unfold Machine.execPolicerWrite
  exact .next <| .folioWrite <| .atTime h

theorem Runs.execHwmClear {t : Nat} {req : FolioReq} (h : KeepsForm s u) : Runs s (Machine.execHwmClear t req u) := by
  unfold Machine.execHwmClear
  exact .next <| .folioWrite <| .atTime h

theorem Runs.execErrlogTailWrite {t : Nat} {req : FolioReq} (h : KeepsForm s u) : Runs s (Machine.execErrlogTailWrite t req u) := by
  unfold Machine.execErrlogTailWrite
  exact .next <| .folioWrite <| .atTime h

theorem Runs.execAddrlogClear {t : Nat} {req : FolioReq} (h : KeepsForm s u) : Runs s (Machine.execAddrlogClear t req u) := by
  unfold Machine.execAddrlogClear
  exact .next <| .folioWrite <| .atTime h

theorem Runs.execFreezeRelease {t : Nat} {req : FolioReq} (h : KeepsForm s u) : Runs s (Machine.execFreezeRelease t req u) := by
  unfold Machine.execFreezeRelease
  exact .next <| .folioWrite <| .atTime h

theorem Runs.execReinstate {t : Nat} {req : FolioReq} (h : KeepsForm s u) : Runs s (Machine.execReinstate t req u) := by
  unfold Machine.execReinstate
  exact .next <| .folioWrite <| .atTime h

theorem Runs.execInjectCorrectable {t unit : Nat} {req : FolioReq} (h :
    KeepsForm s u) : Runs s (Machine.execInjectCorrectable t unit req u) := by
  unfold Machine.execInjectCorrectable
  exact .next <| .folioWrite <| .atTime h

theorem Runs.execInjectUncorrectable {t unit : Nat} {req : FolioReq} (h :
    KeepsForm s u) : Runs s (Machine.execInjectUncorrectable t unit req u) := by
  unfold Machine.execInjectUncorrectable
  exact .next <| .folioWrite <| .atTime h

theorem Runs.execInjectPath {t unit : Nat} {req : FolioReq} (h : KeepsForm s u) : Runs s (Machine.execInjectPath t unit req u) := by
  unfold Machine.execInjectPath
  exact .next <| .folioWrite <| .atTime h

theorem Runs.execBookmarkNow {t jb : Nat} {req : FolioReq} (h : KeepsForm s u) : Runs s (Machine.execBookmarkNow t jb req u) := by
  unfold Machine.execBookmarkNow
  exact .next <| .folioWrite <| .atTime h

theorem Runs.execResetCommand {t : Nat} {req : FolioReq} (h : KeepsForm s u) : Runs s (Machine.execResetCommand t req u) := by
  unfold Machine.execResetCommand
  exact .next <| .folioWrite <| .atTime h

theorem Runs.execUpdateFirmware {t : Nat} {req : FolioReq} (h : KeepsForm s u) : Runs s (Machine.execUpdateFirmware t req u) := by
  unfold Machine.execUpdateFirmware
  exact .next <| .folioWrite <| .atTime h

theorem Runs.execUpdateConfiguration {t : Nat} {req : FolioReq} (h : KeepsForm s u) : Runs s (Machine.execUpdateConfiguration t req u) := by
  unfold Machine.execUpdateConfiguration
  exact .next <| .folioWrite <| .atTime h

theorem Runs.execQuoteCommand {t : Nat} {req : FolioReq} (h : KeepsForm s u) : Runs s (Machine.execQuoteCommand t req u) := by
  unfold Machine.execQuoteCommand
  exact .next <| .folioWrite <| .atTime h

theorem KeepsForm.windowAccess {h' : BitVec 256} {payload : List Byte} (h : KeepsForm s u) :
    KeepsForm s (Machine.windowAccess u h' payload) := by
  unfold Machine.windowAccess
  exact .ite (.ite (.refuseTx h) <| .respond h) <| .ite (.respond <| .folioWrite h) <| .refuseTx <| .folioWrite h

theorem KeepsForm.memoryRequest {type : Nat} {h' : BitVec 256} {payload : List Byte} {read : TargetRead}
    {back : List (Nat × List Byte)} (h : KeepsForm s u) : KeepsForm s (Machine.memoryRequest type u h' payload read back) := by
  unfold Machine.memoryRequest
  exact .ite (.refuseUnknown h) <| .ite (.incF h) <| .ite (.ite (.windowAccess h) h) <| .serveRequest h

theorem Runs.execLoad {t : Nat} {header : BitVec 256} {read : TargetRead} {back : List (Nat × List Byte)} (h :
    KeepsForm s u) : Runs s (Machine.execLoad t header read back u) := by
  unfold Machine.execLoad
  exact .next <| .memoryRequest <| .atTime h

theorem Runs.execStore {t : Nat} {header : BitVec 256} {payload : List Byte} {back : List (Nat × List Byte)} (h :
    KeepsForm s u) : Runs s (Machine.execStore t header payload back u) := by
  unfold Machine.execStore
  exact .next <| .memoryRequest <| .atTime h

theorem Runs.execAtomic {t : Nat} {header : BitVec 256} {payload : List Byte} {read : TargetRead} {back : List (Nat × List Byte)}
    (h : KeepsForm s u) : Runs s (Machine.execAtomic t header payload read back u) := by
  unfold Machine.execAtomic
  exact .next <| .memoryRequest <| .atTime h

theorem Runs.execEgressDeparture {t : Nat} (h : KeepsForm s u) : Runs s (Machine.execEgressDeparture t u) := by
  unfold Machine.execEgressDeparture
  exact .next <| .runLinks <| .atTime h

theorem KeepsForm.discardFrame (h : KeepsForm s u) : KeepsForm s (Machine.discardFrame u) := by
  unfold Machine.discardFrame
  exact .incF h

theorem KeepsForm.sendPdu {dest header : Nat} {values : List Nat} (h : KeepsForm s u) :
    KeepsForm s (Machine.sendPdu u dest header values) := by
  unfold Machine.sendPdu
  exact .emit h

theorem KeepsForm.writeRun {origin idx : Nat} {l : List (Nat × Nat)} {n : Nat} (h : KeepsForm s u) :
    KeepsForm s (Machine.writeRun origin idx l u n).1 := by
  induction l generalizing u n with
  | nil =>
    exact h
  | cons e r ih =>
    obtain ⟨k, v⟩ := e
    unfold Machine.writeRun
    exact .iteFst (ih <| .folioWrite h) <| .folioWrite h

theorem KeepsForm.plithenServe {mac q : Nat} {payload : List Byte} (h : KeepsForm s u) :
    KeepsForm s (Machine.plithenServe u mac q payload).1 := by
  unfold Machine.plithenServe
  exact .iteFst h <| .iteFst (.writeRun h) h

theorem KeepsForm.keepResponse {mac q header : Nat} {values : List Nat} (h : KeepsForm s u) :
    KeepsForm s (Machine.keepResponse u mac q header values) :=
  .fields h

theorem KeepsForm.plithenAnswer {mac : Nat} {payload : List Byte} (h : KeepsForm s u) :
    KeepsForm s (Machine.plithenAnswer u mac payload) := by
  dsimp only [Machine.plithenAnswer]
  split
  · exact .sendPdu <| .fields h
  · exact .sendPdu <| .keepResponse <| .iteFst (.draw h) <| .iteFst h <| .plithenServe h

theorem Runs.execPlithenRead {t dest source : Nat} {payload : List Byte} (h :
    KeepsForm s u) : Runs s (Machine.execPlithenRead t dest source payload u) := by
  unfold Machine.execPlithenRead
  exact .next <| .ite (.atTime h) <| .ite (.plithenAnswer <| .atTime h) <| .discardFrame <| .atTime h

theorem Runs.execPlithenWrite {t dest source : Nat} {payload : List Byte} (h :
    KeepsForm s u) : Runs s (Machine.execPlithenWrite t dest source payload u) := by
  unfold Machine.execPlithenWrite
  exact .next <| .ite (.atTime h) <| .ite (.plithenAnswer <| .atTime h) <| .discardFrame <| .atTime h

theorem Runs.execPlithenDescribe {t dest source : Nat} {payload : List Byte} (h :
    KeepsForm s u) : Runs s (Machine.execPlithenDescribe t dest source payload u) := by
  unfold Machine.execPlithenDescribe
  exact .next <| .ite (.atTime h) <| .ite (.plithenAnswer <| .atTime h) <| .discardFrame <| .atTime h

theorem Runs.execFrameDiscard {t dest ethertype : Nat} {payload : List Byte} (h :
    KeepsForm s u) : Runs s (Machine.execFrameDiscard t dest ethertype payload u) := by
  unfold Machine.execFrameDiscard
  exact .next <| .ite (.atTime h) <| .ite (.discardFrame <| .atTime h) <| .atTime h

theorem Runs.execAnnounceTimer {t : Nat} (h : KeepsForm s u) : Runs s (Machine.execAnnounceTimer t u) := by
  unfold Machine.execAnnounceTimer
  exact .ite (.next <| .atTime h) <| .next <| .sendPdu <| .draw <| .atTime h

/-! ### The dispatch of commands -/

theorem runs_exec (c : Instr) (s : State) : Runs s (exec c s) :=
  match c with
  | .admissionRequest .. => .execAdmissionRequest .rfl
  | .promptReadComplete .. => .execPromptReadComplete .rfl
  | .homeAck .. => .execHomeAck .rfl
  | .endAck .. => .execEndAck .rfl
  | .cancel .. => .execCancel .rfl
  | .unsizedMessage .. => .execUnsizedMessage .rfl
  | .lifetimeExpiry .. => .execLifetimeExpiry .rfl
  | .budgetExpiry .. => .execBudgetExpiry .rfl
  | .prefillOffer .. => .execPrefillOffer .rfl
  | .prefillOfferSend .. => .execPrefillOfferSend .rfl
  | .countClear .. => .execCountClear .rfl
  | .snapIndex .. => .execSnapIndex .rfl
  | .boundaryPhase .. => .execBoundaryPhase .rfl
  | .composeFreeze .. => .execComposeFreeze .rfl
  | .stepPhaseStart .. => .execStepPhaseStart .rfl
  | .freezeRoutineReturn .. => .execFreezeRoutineReturn .rfl
  | .windowEnd .. => .execWindowEnd .rfl
  | .stepCarried .. => .execStepCarried .rfl
  | .splitSizing .. => .execSplitSizing .rfl
  | .stepCommit .. => .execStepCommit .rfl
  | .tipinLoad .. => .execTipinLoad .rfl
  | .tipinLoadDone .. => .execTipinLoadDone .rfl
  | .nop .. => .execNop .rfl
  | .lpBegin .. => .execLpBegin .rfl
  | .loopEnd .. => .execLoopEnd .rfl
  | .jmpSt .. => .execJmpSt .rfl
  | .arBase .. => .execArBase .rfl
  | .arStride .. => .execArStride .rfl
  | .halt .. => .execHalt .rfl
  | .bar .. => .execBar .rfl
  | .barRelease .. => .execBarRelease .rfl
  | .sigPost .. => .execSigPost .rfl
  | .sigWait .. => .execSigWait .rfl
  | .sigWaitRelease .. => .execSigWaitRelease .rfl
  | .waitLimitTrap .. => .execWaitLimitTrap .rfl
  | .ctlCall .. => .execCtlCall .rfl
  | .ctlCallReturn .. => .execCtlCallReturn .rfl
  | .guRun .. => .execGuRun .rfl
  | .mmaBlk .. => .execMmaBlk .rfl
  | .combAdd .. => .execCombAdd .rfl
  | .cvt .. => .execCvt .rfl
  | .dmaLd .. => .execDmaLd .rfl
  | .dmaSt .. => .execDmaSt .rfl
  | .gathLd .. => .execGathLd .rfl
  | .transferComplete .. => .execTransferComplete .rfl
  | .kvPut .. => .execKvPut .rfl
  | .selFeed .. => .execSelFeed .rfl
  | .stitchRefetchDone .. => .execStitchRefetchDone .rfl
  | .gvLd .. => .execGvLd .rfl
  | .gvSt .. => .execGvSt .rfl
  | .gvGld .. => .execGvGld .rfl
  | .gvOp .. => .execGvOp .rfl
  | .gvRed .. => .execGvRed .rfl
  | .attRun .. => .execAttRun .rfl
  | .attComb .. => .execAttComb .rfl
  | .spotCheck .. => .execSpotCheck .rfl
  | .ordinaryAccess .. => .execOrdinaryAccess .rfl
  | .spanEnd .. => .execSpanEnd .rfl
  | .refreshDue .. => .execRefreshDue .rfl
  | .refreshComplete .. => .execRefreshComplete .rfl
  | .broadcastWrite .. => .execBroadcastWrite .rfl
  | .routeEpoch .. => .execRouteEpoch .rfl
  | .ringPlan .. => .execRingPlan .rfl
  | .query .. => .execQuery .rfl
  | .acc .. => .execAcc .rfl
  | .output .. => .execOutput .rfl
  | .blockReq .. => .execBlockReq .rfl
  | .block .. => .execBlock .rfl
  | .kvPutMessage .. => .execKvPutMessage .rfl
  | .attend .. => .execAttend .rfl
  | .partials .. => .execPartials .rfl
  | .spanRefuse .. => .execSpanRefuse .rfl
  | .remoteTimeout .. => .execRemoteTimeout .rfl
  | .offer .. => .execOffer .rfl
  | .accept .. => .execAccept .rfl
  | .leaf .. => .execLeaf .rfl
  | .resend .. => .execResend .rfl
  | .confirm .. => .execConfirm .rfl
  | .confirmDelivered .. => .execConfirmDelivered .rfl
  | .confirmUndeliverable .. => .execConfirmUndeliverable .rfl
  | .leaseExpiry .. => .execLeaseExpiry .rfl
  | .claim .. => .execClaim .rfl
  | .handoffProbeTimer .. => .execHandoffProbeTimer .rfl
  | .handoffProbe .. => .execHandoffProbe .rfl
  | .probeReply .. => .execProbeReply .rfl
  | .rebalance .. => .execRebalance .rfl
  | .demotionPass .. => .execDemotionPass .rfl
  | .tierMoveComplete .. => .execTierMoveComplete .rfl
  | .advertTimer .. => .execAdvertTimer .rfl
  | .lenderListPoll .. => .execLenderListPoll .rfl
  | .advert .. => .execAdvert .rfl
  | .request .. => .execRequest .rfl
  | .grant .. => .execGrant .rfl
  | .recall .. => .execRecall .rfl
  | .release .. => .execRelease .rfl
  | .loanRecall .. => .execLoanRecall .rfl
  | .lpddr6RefreshRateRead .. => .execLpddr6RefreshRateRead .rfl
  | .lpddr6EccCountRead .. => .execLpddr6EccCountRead .rfl
  | .lpddr6Retrain .. => .execLpddr6Retrain .rfl
  | .flashWrite .. => .execFlashWrite .rfl
  | .flashRead .. => .execFlashRead .rfl
  | .flashProgramComplete .. => .execFlashProgramComplete .rfl
  | .flashReclaim .. => .execFlashReclaim .rfl
  | .flashEraseComplete .. => .execFlashEraseComplete .rfl
  | .flashTempSample .. => .execFlashTempSample .rfl
  | .flashRebuildComplete .. => .execFlashRebuildComplete .rfl
  | .discardRange .. => .execDiscardRange .rfl
  | .bookmarkDiscard .. => .execBookmarkDiscard .rfl
  | .bookmarkCommit .. => .execBookmarkCommit .rfl
  | .outboundAccess .. => .execOutboundAccess .rfl
  | .load .. => .execLoad .rfl
  | .store .. => .execStore .rfl
  | .atomic .. => .execAtomic .rfl
  | .loadResp .. => .execLoadResp .rfl
  | .storeAck .. => .execStoreAck .rfl
  | .atomicResp .. => .execAtomicResp .rfl
  | .refuse .. => .execRefuse .rfl
  | .thaw .. => .execThaw .rfl
  | .bindingCoherence .. => .execBindingCoherence .rfl
  | .transactionTimeout .. => .execTransactionTimeout .rfl
  | .quarantineClear .. => .execQuarantineClear .rfl
  | .sendDoorbell .. => .execSendDoorbell .rfl
  | .receiveDoorbell .. => .execReceiveDoorbell .rfl
  | .completionDoorbell .. => .execCompletionDoorbell .rfl
  | .hostQueueSend .. => .execHostQueueSend .rfl
  | .write .. => .execWrite .rfl
  | .send .. => .execSend .rfl
  | .readReq .. => .execReadReq .rfl
  | .readResp .. => .execReadResp .rfl
  | .atomicReq .. => .execAtomicReq .rfl
  | .queueAtomicResp .. => .execQueueAtomicResp .rfl
  | .ack .. => .execAck .rfl
  | .nak .. => .execNak .rfl
  | .ackTimer .. => .execAckTimer .rfl
  | .repeatTimeout .. => .execRepeatTimeout .rfl
  | .rnrRetry .. => .execRnrRetry .rfl
  | .qpCreate .. => .execQpCreate .rfl
  | .qpReset .. => .execQpReset .rfl
  | .qpDestroy .. => .execQpDestroy .rfl
  | .regionRegister .. => .execRegionRegister .rfl
  | .regionRevoke .. => .execRegionRevoke .rfl
  | .revokeTimeout .. => .execRevokeTimeout .rfl
  | .linkTransactionReceive .. => .execLinkTransactionReceive .rfl
  | .idle .. => .execIdle .rfl
  | .idleTimer .. => .execIdleTimer .rfl
  | .linkNak .. => .execLinkNak .rfl
  | .credit .. => .execCredit .rfl
  | .creditTimer .. => .execCreditTimer .rfl
  | .linkProbe .. => .execLinkProbe .rfl
  | .echo .. => .execEcho .rfl
  | .linkProbeTimer .. => .execLinkProbeTimer .rfl
  | .param .. => .execParam .rfl
  | .linkDisable .. => .execLinkDisable .rfl
  | .linkEnable .. => .execLinkEnable .rfl
  | .lightDetected .. => .execLightDetected .rfl
  | .trainingComplete .. => .execTrainingComplete .rfl
  | .testingComplete .. => .execTestingComplete .rfl
  | .measuringComplete .. => .execMeasuringComplete .rfl
  | .trainingTimeout .. => .execTrainingTimeout .rfl
  | .lightLost .. => .execLightLost .rfl
  | .lossOfLock .. => .execLossOfLock .rfl
  | .retrainTimeout .. => .execRetrainTimeout .rfl
  | .linkSilenceTimeout .. => .execLinkSilenceTimeout .rfl
  | .replayLimit .. => .execReplayLimit .rfl
  | .holdoffExpiry .. => .execHoldoffExpiry .rfl
  | .fenceHoldExpiry .. => .execFenceHoldExpiry .rfl
  | .laserSourceFault .. => .execLaserSourceFault .rfl
  | .laserSourceReady .. => .execLaserSourceReady .rfl
  | .bypassOpen .. => .execBypassOpen .rfl
  | .bypassClose .. => .execBypassClose .rfl
  | .bypassMoveComplete .. => .execBypassMoveComplete .rfl
  | .caseObject .. => .execCaseObject .rfl
  | .openObject .. => .execOpenObject .rfl
  | .keyZeroed .. => .execKeyZeroed .rfl
  | .cvuFeed .. => .execCvuFeed .rfl
  | .cvuFeedByte .. => .execCvuFeedByte .rfl
  | .cvuStart .. => .execCvuStart .rfl
  | .cvuRunDma .. => .execCvuRunDma .rfl
  | .cvuStopDma .. => .execCvuStopDma .rfl
  | .cvuDmaComplete .. => .execCvuDmaComplete .rfl
  | .jobStartLatencyCritical .. => .execJobStartLatencyCritical .rfl
  | .jobStartBestEffort .. => .execJobStartBestEffort .rfl
  | .jobStartComplete .. => .execJobStartComplete .rfl
  | .jobEnd .. => .execJobEnd .rfl
  | .jobEndComplete .. => .execJobEndComplete .rfl
  | .catchwordSweepDone .. => .execCatchwordSweepDone .rfl
  | .yieldedJobRestart .. => .execYieldedJobRestart .rfl
  | .shaperWrite .. => .execShaperWrite .rfl
  | .policerWrite .. => .execPolicerWrite .rfl
  | .egressDeparture .. => .execEgressDeparture .rfl
  | .hwmClear .. => .execHwmClear .rfl
  | .handlingEnd .. => .execHandlingEnd .rfl
  | .handlingLimitExpiry .. => .execHandlingLimitExpiry .rfl
  | .ceHourRollover .. => .execCeHourRollover .rfl
  | .nocHopRetrainDone .. => .execNocHopRetrainDone .rfl
  | .errlogTailWrite .. => .execErrlogTailWrite .rfl
  | .addrlogClear .. => .execAddrlogClear .rfl
  | .freezeRelease .. => .execFreezeRelease .rfl
  | .thawWaitEnd .. => .execThawWaitEnd .rfl
  | .reinstate .. => .execReinstate .rfl
  | .reinstateSelfTestDone .. => .execReinstateSelfTestDone .rfl
  | .injectCorrectable .. => .execInjectCorrectable .rfl
  | .injectUncorrectable .. => .execInjectUncorrectable .rfl
  | .injectPath .. => .execInjectPath .rfl
  | .unitProofComplete .. => .execUnitProofComplete .rfl
  | .pulseTimer .. => .execPulseTimer .rfl
  | .pulse .. => .execPulse .rfl
  | .suspectTimeout .. => .execSuspectTimeout .rfl
  | .suspect .. => .execSuspect .rfl
  | .seen .. => .execSeen .rfl
  | .dead .. => .execDead .rfl
  | .verdictTimeout .. => .execVerdictTimeout .rfl
  | .isolationTimeout .. => .execIsolationTimeout .rfl
  | .teardown .. => .execTeardown .rfl
  | .bookmarkNow .. => .execBookmarkNow .rfl
  | .bookmarkReadComplete .. => .execBookmarkReadComplete .rfl
  | .keepaliveTimer .. => .execKeepaliveTimer .rfl
  | .folioWrite .. => .execFolioWrite .rfl
  | .plithenRead .. => .execPlithenRead .rfl
  | .plithenWrite .. => .execPlithenWrite .rfl
  | .plithenDescribe .. => .execPlithenDescribe .rfl
  | .frameDiscard .. => .execFrameDiscard .rfl
  | .announceTimer .. => .execAnnounceTimer .rfl
  | .telemetryRead .. => .execTelemetryRead .rfl
  | .powerLimitCheck .. => .execPowerLimitCheck .rfl
  | .thermalSample .. => .execThermalSample .rfl
  | .vrhotAssert .. => .execVrhotAssert .rfl
  | .vrhotEnd .. => .execVrhotEnd .rfl
  | .localTimeCorrection .. => .execLocalTimeCorrection .rfl
  | .ucieModuleFail .. => .execUcieModuleFail .rfl
  | .powerOn .. => .execPowerOn .rfl
  | .powerLoss .. => .execPowerLoss .rfl
  | .pinReset .. => .execPinReset .rfl
  | .resetCommand .. => .execResetCommand .rfl
  | .watchdogExpiry .. => .execWatchdogExpiry .rfl
  | .powerFail .. => .execPowerFail .rfl
  | .powerFailPathComplete .. => .execPowerFailPathComplete .rfl
  | .initEngineStart .. => .execInitEngineStart .rfl
  | .memoryFillComplete .. => .execMemoryFillComplete .rfl
  | .imagesVerified .. => .execImagesVerified .rfl
  | .stackTrainingComplete .. => .execStackTrainingComplete .rfl
  | .lpddr6TrainingComplete .. => .execLpddr6TrainingComplete .rfl
  | .perstAssert .. => .execPerstAssert .rfl
  | .pcieL0Reached .. => .execPcieL0Reached .rfl
  | .hostReadTimeout .. => .execHostReadTimeout .rfl
  | .updateFirmware .. => .execUpdateFirmware .rfl
  | .updateConfiguration .. => .execUpdateConfiguration .rfl
  | .updateComplete .. => .execUpdateComplete .rfl
  | .quoteCommand .. => .execQuoteCommand .rfl
  | .quoteSigned .. => .execQuoteSigned .rfl
  | .tapExtest .. => .execTapExtest .rfl
  | .tapInstructionExit .. => .execTapInstructionExit .rfl
  | .ijtagAccess .. => .execIjtagAccess .rfl
  | .swapOutBegin .. => .execSwapOutBegin .rfl
  | .swapOutConfirmed .. => .execSwapOutConfirmed .rfl
  | .swapInGroupRead .. => .execSwapInGroupRead .rfl
  | .swapRegionReleased .. => .execSwapRegionReleased .rfl
  | .pfailRelease .. => .execPfailRelease .rfl
  | .startupCheckersProved .. => .execStartupCheckersProved .rfl

/-! ### A step, and a run -/

theorem KeepsForm.tickIdle (s : State) : KeepsForm s (tickIdle s) := .ite (.fields .rfl) .rfl

theorem memOk_of_step {s u : State} (hs : s.MemOk) (h : step s = .next u) : u.MemOk := by
  unfold step at h
  split at h
  next c r heq =>
    obtain ⟨v, hv, hkeeps⟩ := runs_exec c { s with pending := r }
    obtain rfl : v = u := Outcome.next.inj (hv.symm.trans h)
    exact hkeeps.memory hs
  · obtain rfl := Outcome.next.inj h
    exact (KeepsForm.tickIdle s).memory hs

theorem step_gives (s : State) : ∃ u, step s = .next u := by
  unfold step
  split
  next c r heq =>
    obtain ⟨u, hu, -⟩ := runs_exec c { s with pending := r }
    exact ⟨u, hu⟩
  · exact ⟨_, rfl⟩

/-- Settles O3: no arm of the dispatch ends but in a next state. -/
theorem everyCommandCompletes : Obligations.EveryCommandCompletes := by
  unfold Obligations.EveryCommandCompletes
  intro c s
  obtain ⟨u, hu, -⟩ := runs_exec c s
  exact ⟨u, hu, trivial⟩

/-- Settles O4, by induction on the number of steps, for every state: a step answers a next state, from which the rest of the run goes
on. -/
theorem noRunStops : Obligations.NoRunStops := by
  unfold Obligations.NoRunStops
  intro n
  induction n with
  | zero => exact fun _ => trivial
  | succ n ih =>
    intro s
    obtain ⟨u, hu⟩ := step_gives s
    unfold safeFor
    rw [hu]
    exact ih u

/-- Settles O5: the only writes of memory are of a byte, of the host's cells at a reset and of a filled span's list, and each keeps the
form. -/
theorem memoryFormKept : Obligations.MemoryFormKept := by
  unfold Obligations.MemoryFormKept
  exact fun _ _ hs h => memOk_of_step hs h

/-- Settles O7: no operation of the model writes the queue. -/
theorem commandsLeaveQueue : Obligations.CommandsLeaveQueue := by
  unfold Obligations.CommandsLeaveQueue
  intro c s u h
  obtain ⟨v, hv, hkeeps⟩ := runs_exec c s
  obtain rfl : v = u := Outcome.next.inj (hv.symm.trans h)
  exact hkeeps.waiting

/-- Settles O1. -/
theorem stepRunsFrontCommand : Obligations.StepRunsFrontCommand := by
  unfold Obligations.StepRunsFrontCommand
  intro c r s h
  unfold step
  rw [h]

theorem keepsBut_now {s : State} {t : Nat} : KeepsBut [.now] s { s with now := t } := by
  intro p hp
  cases p <;> simp [Part.Same] at hp ⊢

/-- Settles O2. -/
theorem emptyQueueIdles : Obligations.EmptyQueueIdles := by
  unfold Obligations.EmptyQueueIdles
  intro s h
  refine ⟨tickIdle s, ?_, ?_⟩
  · unfold step
    rw [h]
  · unfold tickIdle
    split
    · exact ⟨rfl, keepsBut_now⟩
    · exact ⟨rfl, .same⟩

/-! ### The state that reset leaves -/

theorem tableByte_reset (k : Nat) : tableByte State.reset k = none := by
  unfold tableByte
  split
  · rfl
  · dsimp only
    split <;> rfl

/-- Settles O6: reset lists no byte and no job's tables, and an unlisted byte reads zero. -/
theorem resetMemoryForm : Obligations.ResetMemoryForm := by
  unfold Obligations.ResetMemoryForm
  refine ⟨rfl, rfl, fun a => ?_⟩
  unfold readByte
  split
  · rw [tableByte_reset]
    rfl
  · rfl

theorem getF_reset (idx sub : Nat) : getF State.reset idx sub = folioReset idx sub := rfl

theorem seqOf_reset_idle (i : Nat) : (seqOf State.reset i).running = false := by
  unfold seqOf
  split <;> rfl

/-- Settles O8: reset lists no folio, signature, job, sequencer, link and bypass, so each reads as its reset value. -/
theorem resetState : Obligations.ResetState := by
  unfold Obligations.ResetState
  exact ⟨getF_reset, rfl, rfl, rfl, fun _ => rfl, fun _ => rfl, seqOf_reset_idle, fun _ => rfl, rfl, fun _ => rfl, rfl, rfl, by decide,
      by decide,
    by decide, rfl⟩

end

end Sys2Proof.Machine
end

section
/-! PROOFS. The keepalive notice, and the statements of chapter 14: links, optics and bypass. -/

namespace Sys2Proof.Machine

open Host

/-! ### Chapter 2: the keepalive notice -/

section
variable {t sig : Nat} {s : State}

/-- A notice of the entry is due: the package holds it, its stream was not taken over, and the interval is over (R401). -/
abbrev NoticeDue (s : State) (sig : Nat) : Prop :=
  (sigA s sig).holder = true ∧ (sigA s sig).superseded = none ∧ (sigA s sig).noticeNs + getF s 0x6400 0x05 * 1000000 ≤ s.now

theorem exec_keepaliveTimer_notDue (h : ¬ NoticeDue (atTime t s) sig) : exec (.keepaliveTimer t sig) s = .next (atTime t s) :=
  congrArg Outcome.next (if_neg h)

theorem exec_keepaliveTimer_due (h : NoticeDue (atTime t s) sig) : let b := atTime t s
    exec (.keepaliveTimer t sig) s = .next (if (sigE b sig).state = .ended then sendEnd b sig
      else if (sigE b sig).state = .free ∨ (sigE b sig).state = .admitting ∨ (sigE b sig).state = .handoffIn then b
      else notify b sig 3 0 0 (sigE b sig).delivered.toNat (budgetField (remaining b sig)) []) :=
  congrArg Outcome.next (if_pos h)

theorem exec_keepaliveTimer_silent (h : (sigE (atTime t s) sig).state = .free ∨ (sigE (atTime t s) sig).state = .admitting ∨
    (sigE (atTime t s) sig).state = .handoffIn) : exec (.keepaliveTimer t sig) s = .next (atTime t s) := by
  by_cases hdue : NoticeDue (atTime t s) sig
  · have hended : (sigE (atTime t s) sig).state ≠ .ended := by
      intro hended
      rw [hended] at h
      simp at h
    rw [exec_keepaliveTimer_due hdue, if_neg hended, if_pos h]
  · exact exec_keepaliveTimer_notDue hdue

/-- Settles O13: the timer asks whether a notice is due, then for the state of the entry. -/
theorem keepaliveNotice : Obligations.KeepaliveNotice := by
  unfold Obligations.KeepaliveNotice
  intro t sig s
  refine ⟨?tokens, ?ended, ?silent⟩
  case tokens =>
    intro hdue hended hfree hadmitting hhandoff
    rw [exec_keepaliveTimer_due hdue, if_neg hended, if_neg (not_or.mpr ⟨hfree, not_or.mpr ⟨hadmitting, hhandoff⟩⟩)]
  case ended =>
    intro hdue hended
    rw [exec_keepaliveTimer_due hdue, if_pos hended]
    rfl
  case silent =>
    rintro (hdue | hstate)
    · exact exec_keepaliveTimer_notDue hdue
    · exact exec_keepaliveTimer_silent hstate

end

/-! ### Chapter 14: what a link receives -/

section
variable {t l kind : Nat} {s : State} {h w : BitVec 256} {payload : List Byte} {check : BitVec 32} {ok : LinkMode → Bool}

/-- A control word that the link takes frees the replay buffer, does what its kind says, and the link goes on (R313, R314). -/
theorem recvWord_good {f : State → State} (hgood : GoodWord s l w kind ok) : recvWord s l w kind ok f = goOn (f (wordTaken s l w)) l := by
  obtain ⟨hok, hword, hkind, hcheck⟩ := hgood
  rw [recvWord, if_neg (by simp [hok, hword, hkind]), if_neg (not_not.mpr hcheck)]
  rfl

theorem wordTaken_notLive (hlive : linkLive (linkOf s l).mode = false) : wordTaken s l w = s := by
  simp [wordTaken, hlive]

theorem goOn_notLive (hlive : linkLive (linkOf s l).mode = false) : goOn s l = s := by
  simp [goOn, hlive]

/-- The link has taken back what it was told to corrupt next, and nothing else has happened to it. -/
abbrev readIn (s : State) (l : Nat) : State := { s with err := { s.err with corruptNext := s.err.corruptNext.erase l } }

/-- The link, after a transaction in sequence. -/
abbrev inSequence (now : Nat) (x : Link) : Link :=
  { x with rxSeq := (x.rxSeq + 1) % 65536, nakOut := false, ackSinceNs := if x.ackSinceNs.isSome then x.ackSinceNs else some now }

/-- What a live link without error correction does with a transaction. -/
theorem exec_linkTransactionReceive_live (hlive : linkLive (linkOf (atTime t s) l).mode = true) (hrs : (linkOf (atTime t s) l).rsOn = false) :
    let b := atTime t s
    let clean := b.err.corruptNext.contains l = false
    exec (.linkTransactionReceive t l h payload check 0 0) s =
      if fld h 63 48 ≠ (linkOf b l).rxSeq then
        let heard := if clean ∧ check = linkCheck h payload then heardGood (readIn b l) l else readIn b l
        .next (if (linkOf b l).nakOut then heard else sendLinkNak heard l)
      else if clean ∧ check = linkCheck h payload then
        .next (runLinks (passOn (freeBuffer (modLink (heardGood (takeLinkAck (readIn b l) l (fld h 47 32)) l) l (inSequence b.now)) l (hVn h)
          payload) l h payload))
      else if clean ∧ check = ~~~(linkCheck h payload) then
        .next (stompCopy (freeBuffer (incF (modLink (readIn b l) l (inSequence b.now)) 0x4807 l) l (hVn h) payload) h payload)
      else .next (correctable (stompCopy (sendLinkNak (incF (readIn b l) 0x4805 l) l) h payload) (unitLink l)) := by
  intro b clean
  have hexec : exec (.linkTransactionReceive t l h payload check 0 0) s = execLinkTransactionReceive t l h payload check 0 0 s := rfl
  rw [hexec, execLinkTransactionReceive]
  simp only [hlive, hrs, Bool.true_eq_false, if_false, Bool.false_eq_true, Bool.false_and, Bool.false_or]
  rfl

theorem not_linkCheck_ne : ~~~(linkCheck h payload) ≠ linkCheck h payload := by
  intro heq
  have hbit := congrArg (fun c => c.getLsbD 0) heq
  simp at hbit

section
variable (hlive : linkLive (linkOf (atTime t s) l).mode = true) (hrs : (linkOf (atTime t s) l).rsOn = false)
include hlive hrs

theorem exec_linkTransactionReceive_good (hclean : (atTime t s).err.corruptNext.contains l = false)
    (hseq : fld h 63 48 = (linkOf (atTime t s) l).rxSeq) : let b := atTime t s
    exec (.linkTransactionReceive t l h payload (linkCheck h payload) 0 0) s =
      .next (runLinks (passOn (freeBuffer (modLink (heardGood (takeLinkAck (readIn b l) l (fld h 47 32)) l) l (inSequence b.now)) l (hVn h)
        payload) l h payload)) := by
  rw [exec_linkTransactionReceive_live hlive hrs, if_neg (not_not.mpr hseq), if_pos ⟨hclean, rfl⟩]

theorem exec_linkTransactionReceive_stomped (hclean : (atTime t s).err.corruptNext.contains l = false)
    (hseq : fld h 63 48 = (linkOf (atTime t s) l).rxSeq) : let b := atTime t s
    exec (.linkTransactionReceive t l h payload (~~~(linkCheck h payload)) 0 0) s =
      .next (stompCopy (freeBuffer (incF (modLink (readIn b l) l (inSequence b.now)) 0x4807 l) l (hVn h) payload) h payload) := by
  rw [exec_linkTransactionReceive_live hlive hrs, if_neg (not_not.mpr hseq), if_neg fun hsame => not_linkCheck_ne hsame.2,
    if_pos ⟨hclean, rfl⟩]

theorem exec_linkTransactionReceive_damaged (hseq : fld h 63 48 = (linkOf (atTime t s) l).rxSeq)
    (hgood : check ≠ linkCheck h payload) (hstomp : check ≠ ~~~(linkCheck h payload)) : let b := atTime t s
    exec (.linkTransactionReceive t l h payload check 0 0) s =
      .next (correctable (stompCopy (sendLinkNak (incF (readIn b l) 0x4805 l) l) h payload) (unitLink l)) := by
  rw [exec_linkTransactionReceive_live hlive hrs, if_neg (not_not.mpr hseq), if_neg fun hsame => hgood hsame.2,
    if_neg fun hsame => hstomp hsame.2]

theorem exec_linkTransactionReceive_outOfSequence (hseq : fld h 63 48 ≠ (linkOf (atTime t s) l).rxSeq) : let b := atTime t s
    let heard := if b.err.corruptNext.contains l = false ∧ check = linkCheck h payload then heardGood (readIn b l) l else readIn b l
    exec (.linkTransactionReceive t l h payload check 0 0) s = .next (if (linkOf b l).nakOut then heard else sendLinkNak heard l) := by
  rw [exec_linkTransactionReceive_live hlive hrs, if_pos hseq]

end

/-! ### Chapter 14: control words and the timers of a link -/

theorem exec_idle_good (hgood : GoodWord (atTime t s) l w 0 linkLive) : exec (.idle t l w) s = .next (goOn (wordTaken (atTime t s) l w) l) :=
  congrArg Outcome.next (recvWord_good hgood)

theorem exec_linkNak_good (hgood : GoodWord (atTime t s) l w 1 linkLive) :
    let u := wordTaken (atTime t s) l w
    let x := linkOf u l
    let run := if x.nakSeq = fld w 239 224 ∧ 0 < x.nakRun then x.nakRun + 1 else 1
    let v := setLink u l { x with nakSeq := fld w 239 224, nakRun := run }
    exec (.linkNak t l w) s = .next (goOn (if 8 ≤ run then enterRetrain v l else replayFrom v l (fld w 239 224)) l) :=
  congrArg Outcome.next (recvWord_good hgood)

theorem exec_idleTimer_due {t0 : Nat} (hsince : (linkOf (atTime t s) l).ackSinceNs = some t0) (hdue : t0 + 100 ≤ (atTime t s).now)
    (hlive : linkLive (linkOf (atTime t s) l).mode = true) : exec (.idleTimer t l) s = .next (sendIdle (atTime t s) l) := by
  have hexec : exec (.idleTimer t l) s = execIdleTimer t l s := rfl
  rw [hexec, execIdleTimer]
  simp only [hsince]
  rw [if_pos ⟨hdue, hlive⟩]

theorem exec_creditTimer_due {t0 : Nat} (hfreed : (linkOf (atTime t s) l).freedNs = some t0) (hdue : t0 + 1000 ≤ (atTime t s).now)
    (hlive : linkLive (linkOf (atTime t s) l).mode = true) : exec (.creditTimer t l) s = .next (sendCredit (atTime t s) l) := by
  have hexec : exec (.creditTimer t l) s = execCreditTimer t l s := rfl
  rw [hexec, execCreditTimer]
  simp only [hfreed]
  rw [if_pos ⟨hdue, hlive⟩]

theorem exec_linkProbeTimer_due (hdue : (linkOf (atTime t s) l).mode = .measuring ∨
    (linkLive (linkOf (atTime t s) l).mode = true ∧ (linkOf (atTime t s) l).probeNs + 1000000 ≤ (atTime t s).now)) : let b := atTime t s
    exec (.linkProbeTimer t l) s = .next (sendWord (setLink b l { linkOf b l with probeNs := b.now }) l 2 (place b.now 239 192)) := by
  refine congrArg Outcome.next (if_pos ?_)
  rcases hdue with hmeasuring | ⟨hlive, htime⟩
  · rw [decide_eq_true hmeasuring, Bool.true_or]
  · rw [hlive, decide_eq_true htime, Bool.and_self, Bool.or_true]

/-- In TRAINING the partner's parameters are taken; only a link below 8 turns a logically fenced partner away. -/
theorem exec_param_training (hgood : GoodWord (atTime t s) l w 6 (fun m => decide (m = .training) || decide (m = .retrain)))
    (htraining : (linkOf (atTime t s) l).mode = .training) (hspoke : 8 ≤ l) : let b := atTime t s
    exec (.param t l w) s = .next (setLink b l
      { linkOf b l with peerEndpoint := fld w 239 224, peerLink := fld w 223 216, rsOn := nbit w.toNat 215 || (linkOf b l).rsAsked,
                        paramSeen := true }) := by
  have hnotLive : linkLive (linkOf (atTime t s) l).mode = false := by
    rw [htraining]
    rfl
  refine congrArg Outcome.next ((recvWord_good hgood).trans ?_)
  rw [wordTaken_notLive hnotLive]
  dsimp only
  rw [if_neg fun hring => absurd hring.2.1 (by omega), if_pos htraining, goOn_notLive]
  rw [linkOf_setLink_same, htraining]
  rfl

/-- Settles O41: a control word goes through `recvWord_good`, a transaction through its sequence number and check value. -/
theorem linkTrafficComplete : Obligations.LinkTrafficComplete := by
  unfold Obligations.LinkTrafficComplete
  refine ⟨?transaction, ?outOfSequence, ?idle, ?idleTimer, ?nak, ?credit, ?creditTimer, ?probe, ?echo, ?probeTimer, ?param, ?departure⟩
  case transaction =>
    intro t l h payload s b u taken hlive hrs hclean hseq
    exact ⟨exec_linkTransactionReceive_good hlive hrs hclean hseq, exec_linkTransactionReceive_stomped hlive hrs hclean hseq,
      fun _ => exec_linkTransactionReceive_damaged hlive hrs hseq⟩
  case outOfSequence => exact fun _ _ _ _ _ _ hlive hrs hseq => exec_linkTransactionReceive_outOfSequence hlive hrs hseq
  case idle => exact fun _ _ _ _ hgood => exec_idle_good hgood
  case idleTimer => exact fun _ _ _ _ hsince hdue hlive => exec_idleTimer_due hsince hdue hlive
  case nak =>
    intro t l w s b u x run v hgood
    refine ⟨fun hfew => (exec_linkNak_good hgood).trans ?_, fun hmany => (exec_linkNak_good hgood).trans ?_⟩
    · exact congrArg (fun v => Outcome.next (goOn v l)) (if_neg (Nat.not_le.mpr hfew))
    · exact congrArg (fun v => Outcome.next (goOn v l)) (if_pos hmany)
  case credit => exact fun _ _ _ _ hgood => congrArg Outcome.next (recvWord_good hgood)
  case creditTimer => exact fun _ _ _ _ hfreed hdue hlive => exec_creditTimer_due hfreed hdue hlive
  case probe => exact fun _ _ _ _ hgood => congrArg Outcome.next (recvWord_good hgood)
  case echo => exact fun _ _ _ _ hgood => congrArg Outcome.next (recvWord_good hgood)
  case probeTimer => exact fun _ _ _ hdue => exec_linkProbeTimer_due hdue
  case param => exact fun _ _ _ _ hgood htraining hspoke => exec_param_training hgood htraining hspoke
  case departure => exact fun _ _ => rfl

end

/-! ### Chapter 14: the state changes of a link -/

section
variable {t l cause : Nat} {s : State}

theorem linkLive_iff {m : LinkMode} : linkLive m = true ↔ m = .up ∨ m = .active := by
  cases m <;> decide

theorem inTraining_iff {m : LinkMode} : inTraining m = true ↔ m = .training ∨ m = .testing ∨ m = .measuring := by
  cases m <;> decide

/-- A DOWN link may train: light falls on it, no hold-off runs, its laser source is ready and its fibre open (Table 14-6). -/
abbrev MayTrain (s : State) (l : Nat) : Prop :=
  (linkOf s l).mode = .down ∧ (linkOf s l).light = true ∧ (linkOf s l).holdoffNs ≤ s.now ∧ laserReady s l = true ∧ fibreOpen s l = true ∧
    s.link.dark = false

theorem tryTrain_may (h : MayTrain s l) :
    tryTrain s l = sendParam (setLink s l { linkOf s l with mode := .training, sinceNs := s.now, paramSeen := false }) l :=
  if_pos h

theorem tryTrain_mayNot (h : ¬ MayTrain s l) : tryTrain s l = s := if_neg h

/-- Settles O42: each event is one test of the link's state. -/
theorem linkEventsComplete : Obligations.LinkEventsComplete := by
  unfold Obligations.LinkEventsComplete
  refine ⟨?lightDetected, ?trainingComplete, ?testingComplete, ?measuringComplete, ?trainingTimeout, ?lightLost, ?lossOfLock,
    ?retrainTimeout, ?fenceHoldExpiry⟩
  case lightDetected =>
    intro t l s b x may
    have hlight : x.light = true := congrArg Link.light (linkOf_modLink_same (atTime t s) l _)
    refine ⟨fun ⟨hdown, hheld, hlaser, hfibre, hdark⟩ => ?_, fun hmay => ?_⟩
    · exact congrArg Outcome.next (tryTrain_may ⟨hdown, hlight, hheld, hlaser, hfibre, hdark⟩)
    · exact congrArg Outcome.next (tryTrain_mayNot fun ⟨hdown, _, hheld, hlaser, hfibre, hdark⟩ =>
        hmay ⟨hdown, hheld, hlaser, hfibre, hdark⟩)
  case trainingComplete => exact fun _ _ _ => ⟨fun hmay => congrArg Outcome.next (if_pos hmay), fun hmay => congrArg Outcome.next (if_neg hmay)⟩
  case testingComplete => exact fun _ _ _ => ⟨fun hmay => congrArg Outcome.next (if_pos hmay), fun hmay => congrArg Outcome.next (if_neg hmay)⟩
  case measuringComplete => exact fun _ _ _ => ⟨fun hmay => congrArg Outcome.next (if_pos hmay), fun hmay => congrArg Outcome.next (if_neg hmay)⟩
  case trainingTimeout =>
    exact fun _ _ _ _ => ⟨fun hmay => congrArg Outcome.next (if_pos (inTraining_iff.mpr hmay)),
      fun hmay => congrArg Outcome.next (if_neg fun hin => hmay (inTraining_iff.mp hin))⟩
  case lightLost =>
    intro t l s b live silent d
    have hdark : linkLive (linkOf d l).mode = linkLive (linkOf b l).mode := by
      simp [d]
    refine ⟨fun hlive => ?_, fun hlive => ?_, fun hboth => ?_, fun hboth => ?_⟩
    · exact congrArg Outcome.next (if_pos (hdark.trans (linkLive_iff.mpr hlive)))
    · exact congrArg Outcome.next (if_neg fun h => hlive (linkLive_iff.mp (hdark.symm.trans h)))
    · exact congrArg Outcome.next (if_pos ⟨linkLive_iff.mpr hboth.1, hboth.2⟩)
    · exact congrArg Outcome.next (if_neg fun h => hboth ⟨linkLive_iff.mp h.1, h.2⟩)
  case lossOfLock => exact fun _ _ _ => ⟨fun hmode => congrArg Outcome.next (if_pos hmode), fun hmode => congrArg Outcome.next (if_neg hmode)⟩
  case retrainTimeout => exact fun _ _ _ => ⟨fun hmay => congrArg Outcome.next (if_pos hmay), fun hmay => congrArg Outcome.next (if_neg hmay)⟩
  case fenceHoldExpiry =>
    intro t l s b may
    refine ⟨fun hmay hbit => ?_, fun hmay hbit => ?_, fun hmay => congrArg Outcome.next (if_neg hmay)⟩
    · exact congrArg Outcome.next ((if_pos hmay).trans (if_neg (ne_true_of_eq_false hbit)))
    · exact congrArg Outcome.next ((if_pos hmay).trans (if_pos hbit))

/-! ### Chapter 14: replay limit and hold-off -/

theorem exec_replayLimit_over (h : linkLive (linkOf (atTime t s) l).mode = true ∧
    getF (atTime t s) 0x4800 0x03 < resentSince (linkOf (atTime t s) l) (atTime t s).now) : let b := atTime t s
    let x := linkOf b l
    let times := x.limitNs.filter (fun a => decide (b.now - a ≤ 3600000000000)) ++ [b.now]
    let u := setLink b l { x with limitNs := times, holdoffNs := b.now + getF b 0x4800 0x04 * 1000000 * 2 ^ (times.length - 1) }
    exec (.replayLimit t l) s = .next (if times.length < 4 then enterDown u l else fence u (unitLink l) 4) :=
  if_pos h

/-- Settles O43: `MayTrain` of the link whose hold-off is cleared is what the statement asks of it. -/
theorem replayLimitHoldsOff : Obligations.ReplayLimitHoldsOff := by
  unfold Obligations.ReplayLimitHoldsOff
  refine ⟨?limit, ?expiry⟩
  case limit =>
    intro t l s b x times u hlive hover
    refine ⟨fun hfew => ?_, fun hmany => ?_⟩
    · exact (exec_replayLimit_over ⟨hlive, hover⟩).trans (congrArg Outcome.next (if_pos hfew))
    · exact (exec_replayLimit_over ⟨hlive, hover⟩).trans (congrArg Outcome.next (if_neg (Nat.not_lt.mpr hmany)))
  case expiry =>
    intro t l s b x open0 may
    have hlink : linkOf open0 l = { x with holdoffNs := 0 } := linkOf_setLink_same b l _
    have hmay : MayTrain open0 l ↔ may := by
      rw [MayTrain, hlink]
      exact ⟨fun ⟨hdown, hlight, _, hrest⟩ => ⟨hdown, hlight, hrest⟩,
        fun ⟨hdown, hlight, hrest⟩ => ⟨hdown, hlight, Nat.zero_le _, hrest⟩⟩
    refine ⟨fun hpast hnot => ?_, fun hpast hwill => ?_, fun hheld => congrArg Outcome.next (if_neg (Nat.not_le.mpr hheld))⟩
    · exact congrArg Outcome.next ((if_pos hpast).trans (tryTrain_mayNot fun h => hnot (hmay.mp h)))
    · refine congrArg Outcome.next ((if_pos hpast).trans ((tryTrain_may (hmay.mpr hwill)).trans ?_))
      rw [hlink]
      rfl

/-! ### Chapter 14: laser sources and bypass switches -/

theorem exec_bypassMoveComplete (t n : Nat) (s : State) : let b := atTime t s
    let x := bypassOf b n
    exec (.bypassMoveComplete t n) s = .next (match x.move with
      | .still => b
      | .opening => setBypass b n { x with closed := false, move := .still }
      | .closing => darkRing (setBypass b n { x with closed := true, move := .still }) n
      | .openingThenClose => emit (setBypass b n { x with closed := false, move := .closing, sinceNs := b.now }) (.bypassPulse n true)) := rfl

@[simp] theorem bypassOf_setBypass_same (s : State) (n : Nat) (x : Bypass) : bypassOf (setBypass s n x) n = x :=
  tget_tset_same Bypass.zero s.link.bypass n x

/-- A store of one folio leaves every other folio as it is; `s` is any state with the same dictionary as the one stored in. -/
theorem foliosBut_setF {b : State} (hb : b.dict = s.dict) {i k v : Nat} (hk : k < 256) : FoliosBut [(i, k)] s (setF b i k v) := by
  refine ⟨by rw [← hb]; rfl, fun idx sub hsub hne => ?_⟩
  have hother : ¬(idx = i ∧ sub = k) := by simpa using hne
  calc getF (setF b i k v) idx sub = getF b idx sub := getF_setF_other b v (folioKey_ne hk hsub hother)
    _ = getF s idx sub := by unfold getF; rw [hb]

theorem keepsBut_setBypass {n : Nat} {x : Bypass} : KeepsBut [.link, .dict] s (setBypass s n x) := .after keepsBut_setF keepsBut_link

/-- Settles O44: the four cases of a bypass are those of its move. -/
theorem lasersAndBypasses : Obligations.LasersAndBypasses := by
  unfold Obligations.LasersAndBypasses
  refine ⟨fun _ _ _ _ => rfl, fun _ _ _ _ => rfl, ?opened, ?closed, ?closeAgain, ?still⟩
  case opened =>
    intro t n s hn hmove
    refine ⟨setBypass (atTime t s) n { bypassOf s n with closed := false, move := .still }, ?_, bypassOf_setBypass_same _ _ _,
      foliosBut_setF rfl (by omega), .after keepsBut_setBypass <| keepsBut_atTime t s⟩
    rw [exec_bypassMoveComplete, (show (bypassOf (atTime t s) n).move = .opening from hmove)]
    rfl
  case closed =>
    intro t n s b hmove
    rw [exec_bypassMoveComplete, hmove]
  case closeAgain =>
    intro t n s hmove
    refine ⟨emit (setBypass (atTime t s) n { bypassOf s n with closed := false, move := .closing, sinceNs := max s.now t }) (.bypassPulse n true),
      ?_, bypassOf_setBypass_same _ _ _, rfl⟩
    rw [exec_bypassMoveComplete, (show (bypassOf (atTime t s) n).move = .openingThenClose from hmove)]
    rfl
  case still =>
    intro t n s hmove
    rw [exec_bypassMoveComplete, (show (bypassOf (atTime t s) n).move = .still from hmove)]
end

end Sys2Proof.Machine
end

section
/-! PROOFS. The statements of chapter 19 on folio writes, and R352: a write of a shaper. -/

namespace Sys2Proof.Machine

open Host

/-! ### Chapter 19: what a folio write does -/

section
variable {s : State} {idx sub : Nat} {req : FolioReq} {p : FolioRow → Bool}

theorem folioWrite_answered (hanswered : answersTo s req.iface = true) : let x := decideWrite s idx sub req
    let u := writeReported s idx sub req x
    folioWrite idx sub req s = if x = 0 then applyWrite u req.iface idx sub req.value req.hwSets else refusalNote u idx sub req.value x :=
  if_neg (ne_false_of_eq_true hanswered)

theorem folioWrite_accepted (h : Accepted s idx sub req) :
    folioWrite idx sub req s = applyWrite (writeReported s idx sub req 0) req.iface idx sub req.value req.hwSets := by
  obtain ⟨hanswered, hresult⟩ := h
  rw [folioWrite_answered hanswered, if_pos hresult, hresult]

/-- A property of every row of an index holds of the row that a subindex has there. -/
theorem folioRow_all (h : (folioGroup (idx / 1024)).all (fun r => !(decide (r.idxLo ≤ idx) && decide (idx ≤ r.idxHi)) || p r) = true) :
    (folioRow idx sub).all p = true := by
  rw [Option.all_eq_true]
  intro r hr
  have hin := List.find?_some hr
  have hp := List.all_eq_true.mp h r (List.mem_of_find?_eq_some hr)
  simp only [Bool.and_eq_true] at hin
  simpa [hin.1.1.1, hin.1.1.2] using hp

/-- A folio that an accepted write names has a row. -/
theorem accepted_row (h : Accepted s idx sub req) : ∃ r, folioRow idx sub = some r := by
  cases hrow : folioRow idx sub with
  | some r => exact ⟨r, rfl⟩
  | none =>
    exfalso
    have hresult := h.2
    unfold decideWrite writeResult at hresult
    rw [hrow] at hresult
    split at hresult <;> simp at hresult

/-- An accepted write of a write-only folio starts what the folio commands. -/
theorem folioWrite_command (hwo : (folioRow idx sub).all (fun r => decide (r.access = .wo)) = true) (h : Accepted s idx sub req) :
    folioWrite idx sub req s = if idx < 0x5000 then startLow (writeReported s idx sub req 0) req.iface idx sub req.value
      else startHigh (writeReported s idx sub req 0) idx sub req.value := by
  obtain ⟨r, hr⟩ := accepted_row h
  have haccess : r.access = .wo := by simpa [hr] using hwo
  rw [folioWrite_accepted h, applyWrite, hr]
  dsimp only
  rw [haccess]

/-- An accepted write of a folio that is read and written stores the value. -/
theorem folioWrite_stored {r : FolioRow} (hrow : folioRow idx sub = some r) (hrw : r.access = .rw) (h : Accepted s idx sub req) :
    folioWrite idx sub req s = storeFolio (writeReported s idx sub req 0) r req.iface idx sub req.value := by
  rw [folioWrite_accepted h, applyWrite, hrow]
  dsimp only
  rw [hrw]

theorem folioWrite_command_low (hidx : idx < 0x5000) (hwo : (folioRow idx sub).all (fun r => decide (r.access = .wo)) = true)
    (h : Accepted s idx sub req) : folioWrite idx sub req s = startLow (writeReported s idx sub req 0) req.iface idx sub req.value :=
  (folioWrite_command hwo h).trans (if_pos hidx)

theorem folioWrite_command_high (hidx : ¬ idx < 0x5000) (hwo : (folioRow idx sub).all (fun r => decide (r.access = .wo)) = true)
    (h : Accepted s idx sub req) : folioWrite idx sub req s = startHigh (writeReported s idx sub req 0) idx sub req.value :=
  (folioWrite_command hwo h).trans (if_neg hidx)

/-! ### Chapter 19: what the record of a write holds -/

theorem getIf_setF {iface i k idx sub v : Nat} : getIf (setF s i k v) iface idx sub = getIf s iface idx sub := rfl

theorem getIf_incF {iface i k idx sub : Nat} : getIf (incF s i k) iface idx sub = getIf s iface idx sub := rfl

theorem getF_journal_other {e : JournalEntry} {i k : Nat} (hi : i ≠ 0x1010) (hk : k < 256) : getF (journal s e) i k = getF s i k := by
  have hkey {j : Nat} (hj : j < 256) : folioKey i k ≠ folioKey 0x1010 j := folioKey_ne hj hk fun h => hi h.1
  unfold journal
  dsimp only
  split
  · exact (getF_incF_other _ (hkey (by decide))).trans (getF_incF_other s (hkey (by decide)))
  · exact getF_incF_other s (hkey (by decide))

theorem getIf_journal {e : JournalEntry} {iface i k : Nat} : getIf (journal s e) iface i k = getIf s iface i k := by
  unfold journal
  dsimp only
  split <;> rfl

theorem journal_getLast {e : JournalEntry} :
    (journal s e).dict.journal.getLast? = some { e with seq := getF s 0x1010 0x02, timeNs := s.now } := by
  unfold journal
  dsimp only
  split
  next h =>
    have hdrop : ((s.dict.journal ++ [{ e with seq := getF s 0x1010 0x02, timeNs := s.now }]).drop 1).getLast? =
        (s.dict.journal ++ [{ e with seq := getF s 0x1010 0x02, timeNs := s.now }]).getLast? := by
      rw [List.getLast?_drop, if_neg (by omega)]
    exact hdrop.trans List.getLast?_concat
  · exact List.getLast?_concat

theorem recordWrite_journal {x : Nat} : (recordWrite s idx sub req x).dict.journal = (journal s
    { timeNs := s.now, prior := priorOf s req.iface idx sub, value := req.value % 2 ^ 64, seq := 0, index := idx, sub := sub,
      origin := req.origin, source := req.iface, result := x, sameCycle := req.sameCycle }).dict.journal := by
  unfold recordWrite
  dsimp only
  split <;> rfl

theorem getIf_recordWrite {x iface i k : Nat} : getIf (recordWrite s idx sub req x) iface i k = getIf s iface i k := by
  unfold recordWrite
  dsimp only
  split
  · exact getIf_journal
  · exact getIf_journal

section
variable {i k x : Nat} (hiface : req.iface < 256) (hk : k < 256)
include hiface hk

/-- The record changes the folios of the journal and those of the interface. -/
theorem getF_recordWrite_other (hjournal : i ≠ 0x1010) (hlast : ¬(i = 0x1018 ∧ k = req.iface)) (hwrites : ¬(i = 0x1019 ∧ k = req.iface))
    (hfailed : ¬(i = 0x101A ∧ k = req.iface)) : getF (recordWrite s idx sub req x) i k = getF s i k := by
  have hnoted {v : Nat} {e : JournalEntry} : getF (incF (setF (journal s e) 0x1018 req.iface v) 0x1019 req.iface) i k = getF s i k := by
    rw [getF_incF_other _ (folioKey_ne hiface hk hwrites), getF_setF_other _ _ (folioKey_ne hiface hk hlast), getF_journal_other hjournal hk]
  unfold recordWrite
  dsimp only
  split
  · exact hnoted
  · exact (getF_incF_other _ (folioKey_ne hiface hk hfailed)).trans hnoted

theorem getF_writeReported_other (hjournal : i ≠ 0x1010) (hlast : i ≠ 0x1018) (hwrites : i ≠ 0x1019) (hfailed : i ≠ 0x101A) :
    getF (writeReported s idx sub req x) i k = getF s i k :=
  getF_recordWrite_other hiface hk hjournal (fun h => hlast h.1) (fun h => hwrites h.1) (fun h => hfailed h.1)

end

section
variable {x : Nat} (hiface : req.iface < 256)
include hiface

theorem getF_writeReported_lastResult :
    getF (writeReported s idx sub req x) 0x1018 req.iface = place x 31 24 + place idx 23 8 + place sub 7 0 := by
  have hkey {i : Nat} (hi : 0x1018 ≠ i) : folioKey 0x1018 req.iface ≠ folioKey i req.iface := folioKey_ne hiface hiface fun h => hi h.1
  unfold writeReported recordWrite
  dsimp only
  rw [getF_emit]
  split
  · rw [getF_incF_other _ (hkey (by decide)), getF_setF_same]
  · rw [getF_incF_other _ (hkey (by decide)), getF_incF_other _ (hkey (by decide)), getF_setF_same]

theorem getF_writeReported_writes :
    getF (writeReported s idx sub req x) 0x1019 req.iface = (getF s 0x1019 req.iface + 1) % 2 ^ folioWidth 0x1019 req.iface := by
  have hkey {i : Nat} (hi : 0x1019 ≠ i) : folioKey 0x1019 req.iface ≠ folioKey i req.iface := folioKey_ne hiface hiface fun h => hi h.1
  have hcounted {v : Nat} {e : JournalEntry} : getF (incF (setF (journal s e) 0x1018 req.iface v) 0x1019 req.iface) 0x1019 req.iface =
      (getF s 0x1019 req.iface + 1) % 2 ^ folioWidth 0x1019 req.iface := by
    rw [getF_incF_same, getF_setF_other _ _ (hkey (by decide)), getF_journal_other (by decide) hiface]
  unfold writeReported recordWrite
  dsimp only
  rw [getF_emit]
  split
  · exact hcounted
  · exact (getF_incF_other _ (hkey (by decide))).trans hcounted

theorem getF_writeReported_failed : getF (writeReported s idx sub req x) 0x101A req.iface =
    if x = 0x00 ∨ x = 0x01 then getF s 0x101A req.iface else (getF s 0x101A req.iface + 1) % 2 ^ folioWidth 0x101A req.iface := by
  have hkey {i : Nat} (hi : 0x101A ≠ i) : folioKey 0x101A req.iface ≠ folioKey i req.iface := folioKey_ne hiface hiface fun h => hi h.1
  have hkept {v : Nat} {e : JournalEntry} : getF (incF (setF (journal s e) 0x1018 req.iface v) 0x1019 req.iface) 0x101A req.iface =
      getF s 0x101A req.iface := by
    rw [getF_incF_other _ (hkey (by decide)), getF_setF_other _ _ (hkey (by decide)), getF_journal_other (by decide) hiface]
  unfold writeReported recordWrite
  dsimp only
  rw [getF_emit]
  split
  · exact hkept
  · rw [getF_incF_same, hkept]

end

theorem decideWrite_le : decideWrite s idx sub req ≤ 0x15 := by
  unfold decideWrite writeResult
  split
  · decide
  · split
    · decide
    · dsimp only
      split_ifs <;> decide

theorem answersTo_lt {iface : Nat} (h : answersTo s iface = true) : iface < 4 := by
  simp only [answersTo, Bool.and_eq_true, decide_eq_true_eq] at h
  exact h.1.2

theorem place_of_lt {v hi lo : Nat} (h : v < 2 ^ (hi + 1 - lo)) : place v hi lo = v * 2 ^ lo := by
  rw [place, Nat.mod_eq_of_lt h, Nat.shiftLeft_eq]

theorem writeCounters_width : ∀ k < 4, folioWidth 0x1019 k = 32 ∧ folioWidth 0x101A k = 32 := by
  decide

/-- Settles O49: the journal, the latest result and the two counts are folios with keys of their own. -/
theorem writeResultsCounted : Obligations.WriteResultsCounted := by
  unfold Obligations.WriteResultsCounted
  intro t idx sub req s b x u hanswered hidx hsub
  have hfour : req.iface < 4 := answersTo_lt hanswered
  have hiface : req.iface < 256 := by omega
  obtain ⟨hwrites, hfailed⟩ := writeCounters_width req.iface hfour
  refine ⟨congrArg Outcome.next (folioWrite_answered hanswered), ?last, ?writes, ?failed, ?others⟩
  case last =>
    have hx : x < 2 ^ 8 := Nat.lt_of_le_of_lt decideWrite_le (by decide)
    rw [getF_writeReported_lastResult hiface, place_of_lt hx, place_of_lt hidx, place_of_lt hsub, pow_zero, Nat.mul_one]
  case writes => rw [getF_writeReported_writes hiface, hwrites]
  case failed => rw [getF_writeReported_failed hiface, hfailed]
  case others =>
    intro k hk hne
    have hother {i : Nat} (hi : i ≠ 0x1010) : getF u i k = getF b i k :=
      getF_recordWrite_other hiface (by omega) hi (fun h => hne h.2) (fun h => hne h.2) (fun h => hne h.2)
    exact ⟨hother (by decide), hother (by decide), hother (by decide)⟩

/-! ### Chapter 19: what a refused write leaves -/

/-- A folio that the table lets nobody write refuses with result 0x01 before any rule is asked. -/
theorem decideWrite_readOnly {r : FolioRow} (hrow : folioRow idx sub = some r) (hro : r.access = .ro ∨ r.access = .rov) (hidx : idx ≠ 0x504A) :
    decideWrite s idx sub req ≠ 0x13 ∧ decideWrite s idx sub req ≠ 0x12 := by
  unfold decideWrite writeResult
  rw [hrow]
  dsimp only
  rw [if_pos (c := _ ∧ _) ⟨hro, hidx⟩]
  split_ifs <;> decide

theorem refusalNote_unnoted {v x : Nat} (hx : x ≠ 0x13 ∧ x ≠ 0x12) : refusalNote s idx sub v x = s := if_pos hx

section
variable {i v x : Nat} (hi : i ≠ idx) (hsub : sub < 256)
include hi hsub

theorem getF_setF_otherIndex : getF (setF s i sub v) idx sub = getF s idx sub :=
  getF_setF_other s v (folioKey_ne hsub hsub fun h => hi h.1.symm)

end

/-- A refusal is shown in another folio than the one it refuses, if anywhere. -/
theorem getF_refusalNote {v x : Nat} (hsub : sub < 256) (hnot : ¬(idx = 0x6021 ∧ sub = 0x02)) :
    getF (refusalNote s idx sub v x) idx sub = getF s idx sub := by
  unfold refusalNote
  split
  · rfl
  split
  next h =>
    unfold startRefusedNote
    split
    · exact getF_setF_otherIndex (by omega) hsub
    · rfl
  split
  next h =>
    split
    · exact getF_setF_other s _ (folioKey_ne (by decide) hsub fun heq => hnot ⟨h, heq.2⟩)
    · rfl
  split
  next h =>
    unfold cvuRefused cvuRaise setBitF
    exact (getF_setF_otherIndex (s := { s with press := _ }) (by omega) hsub)
  · rfl

theorem getIf_refusalNote {v x k i j : Nat} : getIf (refusalNote s idx sub v x) k i j = getIf s k i j := by
  unfold refusalNote
  split
  · rfl
  split
  · unfold startRefusedNote
    split <;> rfl
  split
  · split <;> rfl
  split <;> rfl

/-- Settles O50: the record comes first, and a refusal is noted in other folios than the refused one. -/
theorem writesJournalled : Obligations.WritesJournalled := by
  unfold Obligations.WritesJournalled
  refine ⟨fun idx sub req x s => ?journalled, fun t idx sub req s => ?refused⟩
  case journalled =>
    refine ⟨_, (congrArg List.getLast? recordWrite_journal).trans journal_getLast, ?_⟩
    exact ⟨rfl, rfl, rfl, rfl, rfl, rfl, rfl, rfl⟩
  case refused =>
    intro b hresult hjournal hlast hwrites hfailed hsub
    refine ⟨folioWrite idx sub req b, rfl, ?_⟩
    by_cases hanswered : answersTo b req.iface = true
    · have hiface : req.iface < 256 := Nat.lt_trans (answersTo_lt hanswered) (by decide)
      rw [folioWrite_answered hanswered, if_neg hresult]
      refine ⟨?_, fun k => getIf_refusalNote.trans getIf_recordWrite⟩
      by_cases hreinstate : idx = 0x6021 ∧ sub = 0x02
      · obtain ⟨rfl, rfl⟩ := hreinstate
        rw [refusalNote_unnoted (decideWrite_readOnly
          (r := ⟨0x6021, 0x6021, 2, 2, 8, .rov, false, 0, none, false, false, 0xFF⟩) rfl (.inr rfl) (by decide))]
        exact getF_writeReported_other hiface hsub hjournal hlast hwrites hfailed
      · exact (getF_refusalNote hsub hreinstate).trans (getF_writeReported_other hiface hsub hjournal hlast hwrites hfailed)
    · have hkept : folioWrite idx sub req b = b := if_pos (Bool.not_eq_true _ ▸ hanswered)
      rw [hkept]
      exact ⟨rfl, fun _ => rfl⟩

/-! ### Chapter 19: the folios that command -/

theorem nfld_inject {unit k : Nat} (hk : k < 2 ^ 8) :
    nfld (place unit 31 16 + place k 15 8) 31 16 = unit % 65536 ∧ nfld (place unit 31 16 + place k 15 8) 15 8 = k := by
  rw [place_of_lt (v := k) hk]
  simp only [nfld, place, Nat.shiftLeft_eq, Nat.shiftRight_eq_div_pow]
  omega

theorem injectCommand_correctable {unit : Nat} :
    injectCommand (place unit 31 16 + place 1 15 8) s = injectCorrectableAction (unit % 65536) s := by
  obtain ⟨hunit, hkind⟩ := nfld_inject (unit := unit) (k := 1) (by decide)
  unfold injectCommand
  rw [hunit, hkind]
  rfl

theorem injectCommand_uncorrectable {unit : Nat} :
    injectCommand (place unit 31 16 + place 2 15 8) s = injectUncorrectableAction (unit % 65536) s := by
  obtain ⟨hunit, hkind⟩ := nfld_inject (unit := unit) (k := 2) (by decide)
  unfold injectCommand
  rw [hunit, hkind]
  rfl

theorem injectCommand_path {unit : Nat} : injectCommand (place unit 31 16 + place 3 15 8) s = injectPathAction (unit % 65536) s := by
  obtain ⟨hunit, hkind⟩ := nfld_inject (unit := unit) (k := 3) (by decide)
  unfold injectCommand
  rw [hunit, hkind]
  rfl

theorem folioWrite_inject {v : Nat} (h : Accepted s 0x6030 0x01 (req.withValue v)) :
    folioWrite 0x6030 0x01 (req.withValue v) s = injectCommand v (writeReported s 0x6030 0x01 (req.withValue v) 0) :=
  folioWrite_command_high (by decide) (by decide) h

theorem decideWrite_ne_zero_of_rule (h : ruleRefuses s req.iface idx sub req.value = true) : decideWrite s idx sub req ≠ 0 := by
  unfold decideWrite writeResult
  rw [h, if_pos rfl]
  split
  · decide
  · split
    · decide
    · dsimp only
      split_ifs <;> decide

/-- A slot number that the partition does not hold is refused (result 0x13). -/
theorem accepted_bookmarkDiscard (h : Accepted s 0x7030 0x05 req) : req.value < slotCount s := by
  by_contra hbeyond
  have hrule : ruleRefuses s req.iface 0x7030 0x05 req.value = true :=
    decide_eq_true (Nat.not_lt.mp hbeyond)
  exact decideWrite_ne_zero_of_rule hrule h.2

theorem slotCount_writeReported {x : Nat} (hiface : req.iface < 256) : slotCount (writeReported s idx sub req x) = slotCount s := by
  have hother {k : Nat} (hk : k < 256) : getF (writeReported s idx sub req x) 0x7030 k = getF s 0x7030 k :=
    getF_writeReported_other hiface hk (by decide) (by decide) (by decide) (by decide)
  unfold slotCount slotPages extentBase
  rw [hother (by decide), hother (by decide)]

theorem exec_bookmarkDiscard_accepted {t : Nat} (h : Accepted (atTime t s) 0x7030 0x05 req) :
    exec (.bookmarkDiscard t req) s =
      .next (discardGen req.value 1 (discardGen req.value 0 (writeReported (atTime t s) 0x7030 0x05 req 0))) := by
  have hiface : req.iface < 256 := Nat.lt_trans (answersTo_lt h.1) (by decide)
  refine congrArg Outcome.next ((folioWrite_command_high (by decide) (by decide) h).trans ?_)
  refine if_neg (Nat.not_le.mpr ?_)
  rw [slotCount_writeReported hiface]
  exact accepted_bookmarkDiscard h

theorem exec_snapIndex_accepted {t : Nat} (h : Accepted (atTime t s) 0x2040 0x00 req) :
    let u := setIf (writeReported (atTime t s) 0x2040 0x00 req 0) req.iface 0x2040 0x00 (req.value % 65536)
    exec (.snapIndex t req) s =
      .next { u with dict := { u.dict with snaps := tput u.dict.snaps req.iface (entryWord (sigE u (req.value % 65536))) } } := by
  rw [← Nat.and_two_pow_sub_one_eq_mod req.value 16]
  exact congrArg Outcome.next (folioWrite_stored (r := ⟨0x2040, 0x2040, 0x00, 0x00, 16, .rw, false, 0x0, none, true, true, 0xFFFF⟩) rfl rfl h)

theorem exec_errlogTailWrite_accepted {t : Nat} (h : Accepted (atTime t s) 0x6000 0x03 req) :
    exec (.errlogTailWrite t req) s = .next (tailAction (req.value % 65536) (writeReported (atTime t s) 0x6000 0x03 req 0)) := by
  rw [← Nat.and_two_pow_sub_one_eq_mod req.value 16]
  exact congrArg Outcome.next (folioWrite_stored (r := ⟨0x6000, 0x6000, 0x03, 0x03, 16, .rw, false, 0x0, none, false, true, 0xFFFF⟩) rfl rfl h)

theorem regionCommand_register {iface : Nat} : regionCommand iface 1 s =
    registerRegion s (getIf s iface 0x4102 0x00) (getIf s iface 0x4102 0x01) (getIf s iface 0x4102 0x02) := by
  unfold regionCommand
  dsimp only
  rw [if_pos rfl]

theorem folioWrite_regionCommand {v : Nat} (h : Accepted s 0x4102 0x03 (req.withValue v)) :
    folioWrite 0x4102 0x03 (req.withValue v) s = regionCommand req.iface v (writeReported s 0x4102 0x03 (req.withValue v) 0) :=
  folioWrite_command_low (by decide) (by decide) h

/-- Settles O46: a folio that commands has write-only rows, so an accepted write starts its action; the three that store a value, look at
a table's size or take a value apart have lemmas of their own. -/
theorem folioCommandsComplete : Obligations.FolioCommandsComplete := by
  unfold Obligations.FolioCommandsComplete
  refine ⟨?countClear, ?snapIndex, ?tipinLoad, ?rebalance, ?bookmarkNow, ?jobStartLatencyCritical, ?jobStartBestEffort, ?jobEnd,
    ?loanRecall, ?discardRange, ?bookmarkDiscard, ?quarantineClear, ?qpCreate, ?qpReset, ?qpDestroy, ?regionRegister, ?regionRevoke,
    ?bypassOpen, ?bypassClose, ?cvuFeed, ?cvuFeedByte, ?cvuStart, ?cvuRunDma, ?cvuStopDma, ?hwmClear, ?errlogTailWrite, ?addrlogClear,
    ?freezeRelease, ?reinstate, ?injectCorrectable, ?injectUncorrectable, ?injectPath, ?resetCommand, ?updateFirmware,
    ?updateConfiguration, ?quoteCommand⟩
  case snapIndex => exact fun _ _ _ h => exec_snapIndex_accepted h
  case errlogTailWrite => exact fun _ _ _ h => exec_errlogTailWrite_accepted h
  case bookmarkDiscard => exact fun _ _ _ h => exec_bookmarkDiscard_accepted h
  case injectCorrectable =>
    exact fun _ _ _ _ h => congrArg Outcome.next ((folioWrite_inject h).trans injectCommand_correctable)
  case injectUncorrectable =>
    exact fun _ _ _ _ h => congrArg Outcome.next ((folioWrite_inject h).trans injectCommand_uncorrectable)
  case injectPath =>
    exact fun _ _ _ _ h => congrArg Outcome.next ((folioWrite_inject h).trans injectCommand_path)
  case countClear => exact fun _ _ _ h => congrArg Outcome.next (folioWrite_command_low (by decide) (by decide) h)
  case rebalance => exact fun _ _ _ h => congrArg Outcome.next (folioWrite_command_low (by decide) (by decide) h)
  case loanRecall => exact fun _ _ _ h => congrArg Outcome.next (folioWrite_command_low (by decide) (by decide) h)
  case quarantineClear => exact fun _ _ _ h => congrArg Outcome.next (folioWrite_command_low (by decide) (by decide) h)
  case qpCreate => exact fun _ _ _ h => congrArg Outcome.next (folioWrite_command_low (by decide) (by decide) h)
  case qpReset => exact fun _ _ _ h => congrArg Outcome.next (folioWrite_command_low (by decide) (by decide) h)
  case qpDestroy => exact fun _ _ _ h => congrArg Outcome.next (folioWrite_command_low (by decide) (by decide) h)
  case regionRegister => exact fun _ _ _ h => congrArg Outcome.next ((folioWrite_regionCommand h).trans regionCommand_register)
  case regionRevoke => exact fun _ _ _ h => congrArg Outcome.next (folioWrite_command_low (by decide) (by decide) h)
  case tipinLoad => exact fun _ _ _ _ h => congrArg Outcome.next (folioWrite_command_low (by decide) (folioRow_all (by decide)) h)
  case bypassOpen => exact fun _ _ _ _ h => congrArg Outcome.next (folioWrite_command_low (by decide) (folioRow_all (by decide)) h)
  case bypassClose => exact fun _ _ _ _ h => congrArg Outcome.next (folioWrite_command_low (by decide) (folioRow_all (by decide)) h)
  case discardRange => exact fun _ _ _ h => congrArg Outcome.next (folioWrite_command_high (by decide) (by decide) h)
  case hwmClear => exact fun _ _ _ h => congrArg Outcome.next (folioWrite_command_high (by decide) (by decide) h)
  case addrlogClear => exact fun _ _ _ h => congrArg Outcome.next (folioWrite_command_high (by decide) (by decide) h)
  case freezeRelease => exact fun _ _ _ h => congrArg Outcome.next (folioWrite_command_high (by decide) (by decide) h)
  case reinstate => exact fun _ _ _ h => congrArg Outcome.next (folioWrite_command_high (by decide) (by decide) h)
  case resetCommand => exact fun _ _ _ h => congrArg Outcome.next (folioWrite_command_high (by decide) (by decide) h)
  case updateFirmware => exact fun _ _ _ h => congrArg Outcome.next (folioWrite_command_high (by decide) (by decide) h)
  case updateConfiguration => exact fun _ _ _ h => congrArg Outcome.next (folioWrite_command_high (by decide) (by decide) h)
  case quoteCommand => exact fun _ _ _ h => congrArg Outcome.next (folioWrite_command_high (by decide) (by decide) h)
  case bookmarkNow => exact fun _ _ _ _ h => congrArg Outcome.next (folioWrite_command_high (by decide) (folioRow_all (by decide)) h)
  case jobStartLatencyCritical =>
    exact fun _ _ _ _ h => congrArg Outcome.next (folioWrite_command_high (by decide) (folioRow_all (by decide)) h)
  case jobStartBestEffort =>
    exact fun _ _ _ _ h => congrArg Outcome.next (folioWrite_command_high (by decide) (folioRow_all (by decide)) h)
  case jobEnd => exact fun _ _ _ _ h => congrArg Outcome.next (folioWrite_command_high (by decide) (folioRow_all (by decide)) h)
  case cvuFeed => exact fun _ _ _ _ h => congrArg Outcome.next (folioWrite_command_high (by decide) (folioRow_all (by decide)) h)
  case cvuFeedByte => exact fun _ _ _ _ h => congrArg Outcome.next (folioWrite_command_high (by decide) (folioRow_all (by decide)) h)
  case cvuStart => exact fun _ _ _ _ h => congrArg Outcome.next (folioWrite_command_high (by decide) (folioRow_all (by decide)) h)
  case cvuRunDma => exact fun _ _ _ _ h => congrArg Outcome.next (folioWrite_command_high (by decide) (folioRow_all (by decide)) h)
  case cvuStopDma => exact fun _ _ _ _ h => congrArg Outcome.next (folioWrite_command_high (by decide) (folioRow_all (by decide)) h)

/-! ### Chapter 16: a write of a shaper -/

section
variable {q t : Nat}

/-- The folio of a shaper: 0x5420.jj of job queue jj, 0x5421.cc of class queue 64 + cc. -/
abbrev shaperIdx (q : Nat) : Nat := if q < 64 then 0x5420 else 0x5421

abbrev shaperSub (q : Nat) : Nat := if q < 64 then q else q - 64

theorem shaperWord_eq : shaperWord s q = getF s (shaperIdx q) (shaperSub q) := by
  unfold shaperWord shaperIdx shaperSub
  split <;> rfl

theorem shaperSub_lt (hq : q < 66) : shaperSub q < 256 := by
  unfold shaperSub
  split <;> omega

theorem shaperIdx_cases : shaperIdx q = 0x5420 ∨ shaperIdx q = 0x5421 := by
  unfold shaperIdx
  split
  · exact .inl rfl
  · exact .inr rfl

/-- No two shapers share a folio. -/
theorem shaperFolio_ne {k : Nat} (hne : k ≠ q) : ¬(shaperIdx k = shaperIdx q ∧ shaperSub k = shaperSub q) := by
  unfold shaperIdx shaperSub
  split <;> split <;> omega

theorem exec_shaperWrite : exec (.shaperWrite t q req) s = .next (folioWrite (shaperIdx q) (shaperSub q) req (atTime t s)) := by
  refine congrArg Outcome.next ?_
  unfold shaperIdx shaperSub
  split <;> rfl

/-- What the folio table says of a shaper (R352). -/
abbrev ShaperRow (r : FolioRow) : Prop :=
  r.access = .rw ∧ r.width = 64 ∧ r.range = none ∧ r.perInterface = false ∧ r.ruled = true ∧ r.mask = 0xC0FFFFFFFFFFFFFF

theorem shaperRow_all : ∀ q < 66, (folioRow (shaperIdx q) (shaperSub q)).any (fun r => decide (ShaperRow r)) = true := by
  decide

theorem shaperRow (hq : q < 66) : ∃ r, folioRow (shaperIdx q) (shaperSub q) = some r ∧ ShaperRow r := by
  have hrow := shaperRow_all q hq
  cases hr : folioRow (shaperIdx q) (shaperSub q) with
  | none => simp [hr] at hrow
  | some r =>
    rw [hr] at hrow
    exact ⟨r, rfl, of_decide_eq_true hrow⟩

theorem ruleRefuses_shaper {iface v : Nat} (hq : q < 66) (hbad : shaperBad v = true) :
    ruleRefuses s iface (shaperIdx q) (shaperSub q) v = true := by
  obtain ⟨r, hr, hrw, hwidth, hrange, hper, hruled, hmask⟩ := shaperRow hq
  unfold ruleRefuses
  rw [hr]
  dsimp only
  rw [hruled]
  rcases shaperIdx_cases (q := q) with h | h <;> rw [h] <;> exact hbad

/-- A burst below 8 KiB or a rate out of range is result 0x13. -/
theorem decideWrite_shaperBad (hq : q < 66) (hformed : req.malformed = false) (hwidth : req.width = 64) (hvalue : req.value < 2 ^ 64)
    (hfrozen : (frozenOf s 5 req.iface).isSome = false) (hbad : shaperBad req.value = true) :
    decideWrite s (shaperIdx q) (shaperSub q) req = 0x13 := by
  obtain ⟨r, hr, hrw, hw, hrange, hper, hruled, hmask⟩ := shaperRow hq
  unfold decideWrite writeResult
  rw [hr, hformed, hfrozen, ruleRefuses_shaper hq hbad]
  dsimp only
  rw [hrw, hw, hrange, hwidth]
  rw [if_neg Bool.false_ne_true, if_neg (not_or.mpr ⟨not_not.mpr rfl, Nat.not_le.mpr hvalue⟩)]
  rfl

theorem refusalNote_shaper {sub v x : Nat} : refusalNote s (shaperIdx q) sub v x = s := by
  unfold refusalNote
  split
  · rfl
  · rcases shaperIdx_cases (q := q) with h | h <;> rw [h] <;> rfl

/-- The state in which an accepted write of a shaper has the queues served. -/
def shaperWritten (s : State) (q : Nat) (req : FolioReq) : State :=
  let u := setF (writeReported s (shaperIdx q) (shaperSub q) req 0) (shaperIdx q) (shaperSub q) (req.value &&& 0xC0FFFFFFFFFFFFFF)
  let x : Bucket := { tokens := if nbit (shaperWord u q) 62 then shaperBurst (shaperWord u q) else 0, atNs := u.now }
  { u with traffic := { u.traffic with shapers := tput u.traffic.shapers q x } }

theorem folioWrite_shaper (hq : q < 66) (h : Accepted s (shaperIdx q) (shaperSub q) req) :
    folioWrite (shaperIdx q) (shaperSub q) req s = runLinks (shaperWritten s q req) := by
  obtain ⟨r, hr, hrw, hwidth, hrange, hper, hruled, hmask⟩ := shaperRow hq
  have hstore {u : State} {iface v : Nat} :
      storeFolio u r iface (shaperIdx q) (shaperSub q) v = shaperAction q (setF u (shaperIdx q) (shaperSub q) (v &&& 0xC0FFFFFFFFFFFFFF)) := by
    unfold storeFolio
    dsimp only
    rw [hper, hmask]
    unfold shaperIdx shaperSub
    split
    · rfl
    · have hclass : 64 + (q - 64) = q := by omega
      exact (congrArg (fun k => shaperAction k _) hclass)
  exact (folioWrite_stored hr hrw h).trans hstore

theorem nfld_and_mask {v m hi lo : Nat} (hm : nfld m hi lo = 2 ^ (hi + 1 - lo) - 1) : nfld (v &&& m) hi lo = nfld v hi lo := by
  unfold nfld at *
  rw [Nat.shiftRight_and_distrib, Nat.and_mod_two_pow, hm, Nat.and_two_pow_sub_one_eq_mod, Nat.mod_mod]

theorem nbit_and_mask {v m i : Nat} (hm : nbit m i = true) : nbit (v &&& m) i = nbit v i := by
  unfold nbit at *
  rw [Nat.testBit_and, hm, Bool.and_true]

theorem shaperWord_stored {u : State} {v : Nat} : shaperWord (setF u (shaperIdx q) (shaperSub q) v) q = v :=
  shaperWord_eq.trans (getF_setF_same _ _ _ _)

theorem keepsBut_writeReported {idx sub x : Nat} : KeepsBut [.dict, .out] s (writeReported s idx sub req x) := by
  have hnoted {i k v i' k' : Nat} {e : JournalEntry} : KeepsBut [.dict] s (incF (setF (journal s e) i k v) i' k') :=
    .mono (by decide) <| .after (keepsBut_incF _ _ _) <| .after keepsBut_setF keepsBut_journal
  exact .mono (by decide) <| .after (keepsBut_emit _ _) <| .ite hnoted <| .after (keepsBut_incF _ _ _) hnoted

theorem shaperWord_written_same : shaperWord (shaperWritten s q req) q = req.value &&& 0xC0FFFFFFFFFFFFFF :=
  shaperWord_stored

theorem shaperWord_written_other {k : Nat} (hiface : req.iface < 256) (hq : q < 66) (hk : k < 66) (hne : k ≠ q) :
    shaperWord (shaperWritten s q req) k = shaperWord s k := by
  rw [shaperWord_eq, shaperWord_eq]
  refine (getF_setF_other _ _ (folioKey_ne (shaperSub_lt hq) (shaperSub_lt hk) (shaperFolio_ne hne))).trans ?_
  rcases shaperIdx_cases (q := k) with h | h <;> rw [h] <;>
    exact getF_writeReported_other hiface (shaperSub_lt hk) (by decide) (by decide) (by decide) (by decide)

theorem keepsBut_shaperWritten : KeepsBut [.dict, .out, .traffic] s (shaperWritten s q req) :=
  .mono (by decide) <| .after keepsBut_traffic <| .after keepsBut_setF keepsBut_writeReported

/-- Settles O48: the queues are served from `shaperWritten`, whose word keeps every bit but the reserved ones. -/
theorem shaperWriteEffect : Obligations.ShaperWriteEffect := by
  unfold Obligations.ShaperWriteEffect
  refine ⟨?accepted, ?refused⟩
  case accepted =>
    intro t q req s b idx sub hq haccepted
    have hiface : req.iface < 256 := Nat.lt_trans (answersTo_lt haccepted.1) (by decide)
    refine ⟨shaperWritten b q req, exec_shaperWrite.trans (congrArg Outcome.next (folioWrite_shaper hq haccepted)), ?_, ?_, ?_, ?_, ?_,
      keepsBut_shaperWritten⟩
    · rw [shaperWord_written_same, nbit_and_mask (by decide)]
    · rw [shaperWord_written_same, nfld_and_mask (by decide)]
    · rw [shaperWord_written_same, nfld_and_mask (by decide)]
    · refine (tfind_tput_same _ _ _).trans ?_
      rw [shaperWord_stored]
      rw [nbit_and_mask (by decide), shaperBurst, nfld_and_mask (by decide), setF_now, keepsBut_writeReported .now (by decide)]
    · intro k hne hk
      exact ⟨shaperWord_written_other hiface hq hk hne,
        (tfind_tput_other _ _ hne).trans (congrArg (fun x => tfind x.shapers k) (keepsBut_writeReported .traffic (by decide)))⟩
  case refused =>
    intro t q req s b idx sub hq hanswered hformed hwidth hvalue hfrozen hbad
    have hresult : decideWrite b idx sub req = 0x13 :=
      decideWrite_shaperBad hq hformed hwidth hvalue hfrozen (by simpa [shaperBad, or_assoc] using hbad)
    refine exec_shaperWrite.trans (congrArg Outcome.next ((folioWrite_answered hanswered).trans ?_))
    rw [show decideWrite (atTime t s) (shaperIdx q) (shaperSub q) req = 0x13 from hresult]
    exact (if_neg (by decide)).trans refusalNote_shaper

end
end

end Sys2Proof.Machine
end

section
/-! PROOFS. The frames of the management port (chapter 19), and the life of a job (chapters 16 and 18). -/

namespace Sys2Proof.Machine

open Host

/-! ### Chapter 19: the management port -/

section
variable {t dest source ethertype : Nat} {payload : List Byte} {s : State}

/-- The header of an announcement as the model writes it, with `f` in the fields that R422 leaves free. -/
abbrev announceHeader (f : Nat) : Nat :=
  place 1 127 120 + place 0x90 119 112 + place (nfld f 15 0) 111 96 + place 3 95 88 + place (nfld f 55 16) 87 48

theorem nfld_lt {x hi lo : Nat} : nfld x hi lo < 2 ^ (hi + 1 - lo) := Nat.mod_lt _ (Nat.two_pow_pos _)

theorem announceHeader_fields (f : Nat) :
    nfld (announceHeader f) 127 120 = 1 ∧ nfld (announceHeader f) 119 112 = 0x90 ∧ nfld (announceHeader f) 95 88 = 3 := by
  have ha : nfld f 15 0 < 2 ^ 16 := nfld_lt
  have hb : nfld f 55 16 < 2 ^ 40 := nfld_lt
  rw [announceHeader, place_of_lt (v := 1) (by decide), place_of_lt (v := 0x90) (by decide), place_of_lt (v := 3) (by decide),
    place_of_lt ha, place_of_lt hb]
  generalize nfld f 15 0 = a at ha
  generalize nfld f 55 16 = b at hb
  simp only [nfld, Nat.shiftRight_eq_div_pow]
  omega

theorem exec_announceTimer_on (hanswering : answering (atTime t s) = true) (hon : getF (atTime t s) 0x1040 0x05 ≠ 0) : let b := atTime t s
    exec (.announceTimer t) s = .next (sendPdu (draw b) broadcastMac (announceHeader (freshOf b % 2 ^ 56))
      [getF b 0x4000 0x01, getF b 0x1000 0x01, getF b 0x1000 0x05]) :=
  if_neg (not_or.mpr ⟨ne_false_of_eq_true hanswering, hon⟩)

section
variable (hanswering : answering (atTime t s) = true)
include hanswering

theorem exec_plithenRead_here (hhere : frameHere (atTime t s) dest 0x88B5 = true) (hread : pduOp payload ≠ 2) (hread' : pduOp payload ≠ 3) :
    exec (.plithenRead t dest source payload) s = .next (plithenAnswer (atTime t s) source payload) :=
  congrArg Outcome.next ((if_neg (not_or.mpr ⟨ne_false_of_eq_true hanswering, not_or.mpr ⟨hread, hread'⟩⟩)).trans (if_pos hhere))

theorem exec_plithenWrite_here (hhere : frameHere (atTime t s) dest 0x88B5 = true) (hwrite : pduOp payload = 2) (hdest : dest ≠ broadcastMac) :
    exec (.plithenWrite t dest source payload) s = .next (plithenAnswer (atTime t s) source payload) :=
  congrArg Outcome.next ((if_neg (not_or.mpr ⟨ne_false_of_eq_true hanswering, not_not.mpr hwrite⟩)).trans (if_pos ⟨hhere, hdest⟩))

theorem exec_plithenDescribe_here (hhere : frameHere (atTime t s) dest 0x88B5 = true) (hdescribe : pduOp payload = 3) :
    exec (.plithenDescribe t dest source payload) s = .next (plithenAnswer (atTime t s) source payload) :=
  congrArg Outcome.next ((if_neg (not_or.mpr ⟨ne_false_of_eq_true hanswering, not_not.mpr hdescribe⟩)).trans (if_pos hhere))

theorem exec_frameDiscard_dropped (hdrop : frameHere (atTime t s) dest ethertype = false ∨ (dest = broadcastMac ∧ pduOp payload = 2)) :
    exec (.frameDiscard t dest ethertype payload) s = .next (incF (atTime t s) 0x1040 0x04) :=
  congrArg Outcome.next ((if_neg (ne_false_of_eq_true hanswering)).trans (if_pos hdrop))

end

/-- Settles O52: the header that the model writes has the OP and COUNT asked for. -/
theorem plithenCommandsComplete : Obligations.PlithenCommandsComplete := by
  unfold Obligations.PlithenCommandsComplete
  refine ⟨?requests, ?discard, ?announce, ?silent⟩
  case requests =>
    exact fun _ _ _ _ _ hanswering hhere => ⟨exec_plithenRead_here hanswering hhere, exec_plithenWrite_here hanswering hhere,
      exec_plithenDescribe_here hanswering hhere⟩
  case discard => exact fun _ _ _ _ _ hanswering hdrop => exec_frameDiscard_dropped hanswering hdrop
  case announce =>
    intro t s b hanswering hon
    obtain ⟨hop, hkind, hcount⟩ := announceHeader_fields (freshOf b % 2 ^ 56)
    exact ⟨_, hop, hkind, hcount, exec_announceTimer_on hanswering hon⟩
  case silent => exact fun _ _ hoff => if_pos (.inr hoff)

end

/-! ### What the end of a job leaves of the keys -/

/-- The parts that the work of the package changes without a key: all but the press block, power and boot. -/
abbrev unkeyedParts : List Part :=
  [.now, .out, .free, .mem, .dict, .sig, .cw, .jobs, .starts, .quires, .gutters, .handoff, .span, .tier, .flash, .fabric, .queue, .link,
    .traffic, .err, .kettle]

section
variable {s : State} {j : Nat}

theorem keepsPress_startRelease {m : FrozenMaster} : KeepsBut unkeyedParts s (startRelease s m) :=
  .mono (by decide) <| .ite .refl <| .ite keepsBut_released (.after keepsBut_fabric (.foldl fun _ _ => keepsBut_sendThaw))

theorem keepsPress_destroyQp {q : Nat} : KeepsBut unkeyedParts s (destroyQp s q) := by
  refine .mono (by decide) <| .after keepsBut_checkDrains <| .after (l := unkeyedParts) keepsBut_setQp ?_
  split
  · exact keepsPress_startRelease
  · exact .same

theorem keepsPress_endQueues : KeepsBut unkeyedParts s (endQueues s j) :=
  .mono (by decide) <| .after keepsBut_queue <| .after (.foldl fun _ _ => keepsBut_devSetF) <|
    .after (.foldl fun _ _ => .after keepsBut_setQp keepsPress_destroyQp) <| .foldl fun _ _ => keepsBut_revokeRegion

theorem keepsPress_releaseSets : KeepsBut unkeyedParts s (releaseSets s j) :=
  .mono (by decide) <| .after (.foldl fun _ _ => keepsBut_modGutter _ _ _) <| .after (.foldl fun _ _ => keepsBut_anySeq) <|
    .after (.foldl fun _ _ => keepsPress_startRelease) <| .foldl fun _ _ => keepsBut_endHandling

theorem keepsPress_releaseJob {open0 : List Nat} {keep : JobSt → JobSt} : KeepsBut unkeyedParts s (releaseJob s j open0 keep) :=
  .mono (by decide) <| .after keepsBut_setF <| .after keepsBut_setF <| .after (keepsBut_modJob _ _ _) <| .after keepsBut_dropTargets <|
    .after keepsBut_dropJobWork <| .after keepsPress_releaseSets <| .after keepsBut_endHandoffs <| .after keepsBut_endSpans <|
      .after keepsBut_startSweep <| .after keepsBut_tier <| .after (.foldl fun _ _ => keepsBut_stopWrites) <|
        .after keepsBut_discardJobFlash <| .after keepsPress_endQueues keepsBut_endXlates

theorem keepsPress_discardBookmarks : KeepsBut unkeyedParts s (discardBookmarks s j) :=
  .mono (by decide) <| .foldl fun _ _ => .ite .refl <| .ite keepsBut_bookmarkDiscardAction keepsBut_writeRemoteFolio

theorem keySlot_congr {u : State} (h : u.press = s.press) : keySlot u j = keySlot s j := congrArg (fun p : PressState => tget KeySlot.zero p.keys j) h

theorem startZeroing_unkeyed (hkey : (keySlot s j).key = none) : startZeroing s j = s := by
  unfold startZeroing
  dsimp only
  rw [hkey]
  rfl

theorem job_setJobMode_mode {m : JobMode} : (job (setJobMode s j m) j).mode = m :=
  congrArg JobSt.mode (job_modJob_same s j fun x => { x with mode := m })

theorem endKey_unkeyed_free (hkey : (keySlot s j).key = none) : (job (endKey s j) j).mode = .free := by
  unfold endKey
  dsimp only
  rw [startZeroing_unkeyed hkey, if_pos (by rw [hkey]; rfl)]
  exact job_setJobMode_mode

/-- A job without a key is free as soon as its end is done (R349). -/
theorem finishEnd_unkeyed_free (hkey : (keySlot s j).key = none) (hidle : (keySlot s j).zeroing = false) :
    (job (finishEnd s j) j).mode = .free := by
  unfold finishEnd
  rw [if_neg (ne_true_of_eq_false hidle)]
  refine endKey_unkeyed_free ((congrArg KeySlot.key (keySlot_congr ?_)).trans hkey)
  have hpress : KeepsBut unkeyedParts s
      (discardBookmarks (releaseJob (freeSigs s j) j (swapsOpen s j) fun x => { JobSt.zero with mode := x.mode }) j) :=
    .mono (by decide) <| .after keepsPress_discardBookmarks <| .after keepsPress_releaseJob keepsBut_freeSigs
  exact hpress .press (by decide)

theorem keepsBut_sweepDone : KeepsBut [.cw, .fabric] s (sweepDone s j) :=
  .mono (by decide) <| .after keepsBut_cw <| .after keepsBut_fabric <| .foldl (l := [.cw]) fun _ _ =>
    .mono (by decide) <| .after keepsBut_cw keepsBut_cw

theorem sweepDone_swept : (sweepDone s j).cw.sweeping.contains j = false := by
  simp [sweepDone]

theorem job_congr {u : State} (h : u.jobs = s.jobs) : job u j = job s j := congrArg (fun x => tget JobSt.zero x j) h

end

/-! ### Chapters 16 and 18: the life of a job -/

theorem foldl_eq_self {α β : Type} {f : α → β → α} {a : α} {l : List β} (h : ∀ x ∈ l, f a x = a) : l.foldl f a = a := by
  induction l with
  | nil => rfl
  | cons x l ih =>
    rw [List.foldl_cons, h x List.mem_cons_self]
    exact ih fun y hy => h y (List.mem_cons_of_mem x hy)

section
variable {t jb l note : Nat} {w : BitVec 256} {s : State}

theorem exec_jobStartComplete_due {image : JobImage} {others : Bool} (hfirst : (atTime t s).starts.head? = some jb)
    (hstarting : (job (atTime t s) jb).mode = .starting) (hswept : (atTime t s).cw.sweeping.contains jb = false) :
    exec (.jobStartComplete t jb image others) s = .next (startJob (atTime t s) jb image others) :=
  if_neg (not_or.mpr ⟨not_not.mpr hfirst, not_or.mpr ⟨not_not.mpr hstarting, ne_true_of_eq_false hswept⟩⟩)

theorem exec_jobEndComplete_due (hending : (job (atTime t s) jb).mode = .ending) (hsigs : jobSigs (atTime t s) jb = [])
    (hstep : stepInFlight (atTime t s) jb = false) :
    exec (.jobEndComplete t jb) s = .next (sweepDone (finishEnd (atTime t s) jb) jb) :=
  if_neg (not_or.mpr ⟨not_not.mpr hending, not_or.mpr ⟨not_not.mpr hsigs, ne_true_of_eq_false hstep⟩⟩)

/-- The first of the jobs that wait for room restarts once the pools hold its sets and no latency-critical start waits (R393). -/
theorem exec_yieldedJobRestart_due {n q c : Nat} (hwait : (job (atTime t s) jb).wait = .room n q c)
    (hfirst : ∀ x ∈ (atTime t s).jobs, ∀ m q' c', x.2.wait = .room m q' c' → n ≤ m) (hroom : setsSuffice (atTime t s) q c = (true, true))
    (hstarts : ∀ k ∈ (atTime t s).starts, (job (atTime t s) k).bestEffort = true) :
    exec (.yieldedJobRestart t jb) s = .next (restartJob (atTime t s) jb) := by
  have hexec : exec (.yieldedJobRestart t jb) s = execYieldedJobRestart t jb s := rfl
  rw [hexec, execYieldedJobRestart]
  dsimp only
  rw [hwait]
  dsimp only
  rw [hroom]
  refine if_neg ?_
  rintro (h | h | h | h)
  · obtain ⟨x, hx, hlate⟩ := List.all_eq_false.mp h
    apply hlate
    split
    next m q' c' hm => exact decide_eq_true (hfirst x hx m q' c' hm)
    · rfl
  · exact Bool.noConfusion h
  · exact Bool.noConfusion h
  · obtain ⟨k, hk, hurgent⟩ := List.any_eq_true.mp h
    rw [hstarts k hk] at hurgent
    exact Bool.noConfusion hurgent

theorem bookmarkCommit_alone {slot gen q : Nat} (hflash : 1 < flashState (atTime t s)) (hslot : slot < slotCount (atTime t s)) (hgen : gen < 2)
    (hseq : genSeq (atTime t s) slot gen = some q) (hother : genSeq (atTime t s) slot (1 - gen) = none) :
    bookmarkCommit t slot gen s = incF (discardGen slot (1 - gen) (atTime t s)) 0x7030 0x03 := by
  unfold bookmarkCommit
  dsimp only
  rw [if_neg (by omega), hseq]
  dsimp only
  rw [hother]

/-- No job of this package waits for the generation, so the commit tells none. -/
theorem exec_bookmarkCommit_alone {slot gen q : Nat} (hflash : 1 < flashState (atTime t s)) (hslot : slot < slotCount (atTime t s))
    (hgen : gen < 2) (hseq : genSeq (atTime t s) slot gen = some q) (hother : genSeq (atTime t s) slot (1 - gen) = none)
    (hnone : ∀ j ∈ jobNumbers (atTime t s), (job (atTime t s) j).bookmark.writing = none) :
    exec (.bookmarkCommit t slot gen) s = .next (incF (discardGen slot (1 - gen) (atTime t s)) 0x7030 0x03) := by
  have hexec : exec (.bookmarkCommit t slot gen) s = execBookmarkCommit t slot gen s := rfl
  have hkept : KeepsBut [.out, .mem, .dict, .tier, .flash, .err] (atTime t s) (incF (discardGen slot (1 - gen) (atTime t s)) 0x7030 0x03) :=
    .mono (by decide) <| .after (keepsBut_incF _ _ _) keepsBut_discardGen
  have hjobs : (incF (discardGen slot (1 - gen) (atTime t s)) 0x7030 0x03).jobs = (atTime t s).jobs := hkept .jobs (by decide)
  rw [hexec, execBookmarkCommit, bookmarkCommit_alone hflash hslot hgen hseq hother]
  refine congrArg Outcome.next (foldl_eq_self fun j hj => ?_)
  have hwriting : (job (incF (discardGen slot (1 - gen) (atTime t s)) 0x7030 0x03) j).bookmark.writing = none := by
    rw [job_congr hjobs]
    exact hnone j (by rwa [jobNumbers, hjobs] at hj)
  rw [hwriting]

theorem exec_bookmarkReadComplete_opened {writer : Nat} {seen : Option (Nat × List Byte)} {o raw : List Byte} {u : State} :
    let b := atTime t s
    let a : State := { b with kettle := { b.kettle with adopting := b.kettle.adopting.erase (writer, jb) } }
    b.kettle.adopting.contains (writer, jb) = true → (job a jb).mode = .running → bookFound a jb writer seen = some o →
      openObject a 0 o = (u, .ok raw) → exec (.bookmarkReadComplete t jb writer seen) s = .next (placeBody u jb writer raw) := by
  intro b a hadopting hrunning hfound hopened
  have hexec : exec (.bookmarkReadComplete t jb writer seen) s = execBookmarkReadComplete t jb writer seen s := rfl
  rw [hexec, execBookmarkReadComplete]
  refine (if_neg (ne_false_of_eq_true hadopting)).trans ((if_neg (not_not.mpr hrunning)).trans ?_)
  change (match bookFound a jb writer seen with
    | none => Outcome.next a
    | some o => match openObject a 0 o with
      | (s, .error _) => .next s
      | (s, .ok raw) => .next (placeBody s jb writer raw)) = _
  rw [hfound]
  dsimp only
  rw [hopened]

theorem tearDown_ended {how : Teardown} {flood : Bool} (h : (job s jb).mode = .free ∨ (job s jb).mode = .tornDown) :
    tearDown s jb how flood = s := by
  unfold tearDown
  dsimp only
  rcases h with h | h <;> rw [h]

/-- A kettle word that the link takes does what its note says. -/
theorem kettleWord_good {f : State → State} (hgood : GoodNote (atTime t s) l w note) :
    kettleWord t l w note f s = goOn (f (wordTaken (atTime t s) l w)) l := by
  obtain ⟨hword, hzero, hnote, hcode⟩ := hgood
  unfold kettleWord
  rw [recvWord_good hword, if_neg (not_or.mpr ⟨not_not.mpr hzero, by omega⟩), if_neg (not_not.mpr hnote)]

/-- A new note of the own volume is entered, acted on and passed on (R381). -/
theorem floodedNote_new {act : State → State} (hgood : GoodNote (atTime t s) l w note) (hnew : NewNote (wordTaken (atTime t s) l w) l w) :
    floodedNote t l w note act s = goOn (notePassed (act (noteEntered (wordTaken (atTime t s) l w) w)) l w) l := by
  obtain ⟨hvolume, hfresh⟩ := hnew
  unfold floodedNote
  rw [kettleWord_good hgood]
  dsimp only
  rw [if_neg (not_not.mpr hvolume), if_neg (ne_true_of_eq_false hfresh)]
  rfl

theorem exec_teardown_new (hgood : GoodNote (atTime t s) l w 4) (hnew : NewNote (wordTaken (atTime t s) l w) l w) :
    let u := noteEntered (wordTaken (atTime t s) l w) w
    let j := fld w 123 118
    exec (.teardown t l w) s = .next (goOn (notePassed (if runsImage u j (fld w 155 124) = true ∧ (job u j).joint = true
      then tearDown u j .restart false else u) l w) l) :=
  congrArg Outcome.next (floodedNote_new hgood hnew)

/-- Settles O53: each command is a test of the job, and a note goes through `floodedNote_new`. -/
theorem jobCommandsComplete : Obligations.JobCommandsComplete := by
  unfold Obligations.JobCommandsComplete
  refine ⟨?start, ?ends, ?sweep, ?restart, ?commit, ?read, ?tornDown, ?note⟩
  case start => exact fun _ _ _ _ _ hfirst hstarting hswept => exec_jobStartComplete_due hfirst hstarting hswept
  case ends =>
    intro t jb s b hending hsigs hstep
    refine ⟨exec_jobEndComplete_due hending hsigs hstep, fun hkey hidle => ?_⟩
    rw [job_congr (keepsBut_sweepDone .jobs (by decide))]
    exact finishEnd_unkeyed_free hkey hidle
  case sweep => exact fun _ _ _ hsweeping => ⟨if_pos hsweeping, sweepDone_swept⟩
  case restart => exact fun _ _ _ _ _ _ hwait hfirst hroom hstarts => exec_yieldedJobRestart_due hwait hfirst hroom hstarts
  case commit =>
    exact fun _ _ _ _ _ hflash hslot hgen hseq hother hnone => exec_bookmarkCommit_alone hflash hslot hgen hseq hother hnone
  case read =>
    exact fun _ _ _ _ _ _ _ _ hadopting hrunning hfound hopened => exec_bookmarkReadComplete_opened hadopting hrunning hfound hopened
  case tornDown => exact fun _ _ _ _ h => tearDown_ended h
  case note =>
    intro t l w s b u hgood hnew hnot
    rw [exec_teardown_new hgood hnew, if_neg fun h => Bool.noConfusion (hnot.symm.trans h.1)]

end

end Sys2Proof.Machine
end

section
/-! PROOFS. The statements of chapters 17 and 18: errors and the kettle. -/

namespace Sys2Proof.Machine

open Host

/-! ### Bits of a field that is set, and tables changed entry by entry -/

section

theorem nbit_setFld_bit {x b : Nat} : nbit (setFld x 1 b b) b = true := by
  have hwidth : b + 1 - b = 1 := by omega
  have hsplit : 2 ^ b * (x / 2 ^ b) + x % 2 ^ b = x := Nat.div_add_mod x (2 ^ b)
  have hlow : x % 2 ^ b < 2 ^ b := Nat.mod_lt x (Nat.two_pow_pos b)
  have hvalue : setFld x 1 b b = x % 2 ^ b + 2 ^ b * (x / 2 ^ b - x / 2 ^ b % 2 + 1) := by
    have hmul : 2 ^ b * (x / 2 ^ b - x / 2 ^ b % 2 + 1) = 2 ^ b * (x / 2 ^ b) - x / 2 ^ b % 2 * 2 ^ b + 2 ^ b := by
      rw [Nat.mul_add, Nat.mul_sub, Nat.mul_comm (2 ^ b) (x / 2 ^ b % 2), Nat.mul_one]
    have hle : x / 2 ^ b % 2 * 2 ^ b ≤ 2 ^ b * (x / 2 ^ b) := by
      rw [Nat.mul_comm]
      exact Nat.mul_le_mul_left _ (Nat.mod_le _ _)
    rw [hmul]
    simp only [setFld, place, nfld, hwidth, Nat.shiftLeft_eq, Nat.shiftRight_eq_div_pow, pow_one, Nat.mod_mod]
    omega
  rw [nbit, Nat.testBit_eq_decide_div_mod_eq, hvalue, Nat.add_mul_div_left _ _ (Nat.two_pow_pos b), Nat.div_eq_of_lt hlow]
  exact decide_eq_true (by omega)

theorem getF_setBitF_nbit {s : State} {i k b : Nat} : nbit (getF (setBitF s i k b true) i k) b = true := by
  rw [setBitF, getF_setF_same]
  exact nbit_setFld_bit

theorem tfind_map {α β : Type} (f : α → β) (t : Tbl α) (k : Nat) : tfind (t.map fun e => (e.1, f e.2)) k = (tfind t k).map f := by
  induction t with
  | nil => rfl
  | cons e t ih =>
    obtain ⟨i, v⟩ := e
    simp only [List.map_cons, tfind]
    split
    · rfl
    · exact ih

end

/-! ### Chapter 17: errors -/

section
variable {t unit half hop cls index checker module : Nat} {s : State}

@[simp] theorem unitOf_setF (s : State) (i k v u : Nat) : unitOf (setF s i k v) u = unitOf s u := rfl

@[simp] theorem unitOf_logErr (s : State) (cause unit plane detail addr u : Nat) (jb : Option Nat) :
    unitOf (logErr s cause unit plane jb detail addr) u = unitOf s u := by
  unfold logErr logEntry
  dsimp only
  split
  · split <;> rfl
  · rfl

/-- What the hour's end does to one unit (R370). -/
abbrev hourOver (x : UnitState) : UnitState := { x with hour := 0, alarmed := false }

theorem unitOf_hourOver {u : Nat} : unitOf { s with err := { s.err with units := s.err.units.map fun e => (e.1, hourOver e.2) } } u =
    hourOver (unitOf s u) := by
  unfold unitOf tget
  rw [tfind_map hourOver]
  cases tfind s.err.units u <;> rfl

/-- The parts of a hop's retraining that come before its count. -/
abbrev hopBack (s : State) (k : Nat) : State :=
  { s with err := { s.err with hopRetrains := tput s.err.hopRetrains k s.now, hopsWaiting := s.err.hopsWaiting.filter fun x => decide (x ≠ k) } }

theorem exec_nocHopRetrainDone (t half hop : Nat) (s : State) : let b := atTime t s
    let k := half * 65536 + hop
    let again := ((tfind b.err.hopRetrains k).elim false fun t0 => decide (b.now - t0 ≤ 1000000000)) = true
    exec (.nocHopRetrainDone t half hop) s = .next (if again then uncorrectable (hopBack b k) (unitHalf half) 0x21 0 none hop 0
      else correctable (hopBack b k) (unitHalf half)) := by
  have hexec : exec (.nocHopRetrainDone t half hop) s = execNocHopRetrainDone t half hop s := rfl
  rw [hexec, execNocHopRetrainDone]
  dsimp only
  cases tfind (atTime t s).err.hopRetrains (half * 65536 + hop) <;> rfl

theorem exec_thawWaitEnd_over {l : List Nat} {at0 : Nat} {m : FrozenMaster} (hfrozen : frozenOf (atTime t s) cls index = some m)
    (hreleasing : m.releasing = some (l, at0)) (hover : l = [] ∨ at0 + 1000000 ≤ (atTime t s).now) :
    exec (.thawWaitEnd t cls index) s = .next (released (atTime t s) m) := by
  have hexec : exec (.thawWaitEnd t cls index) s = execThawWaitEnd t cls index s := rfl
  rw [hexec, execThawWaitEnd]
  rw [hfrozen]
  dsimp only
  rw [hreleasing]
  exact congrArg Outcome.next (if_pos hover)

/-- The self-test of a unit is over, whatever it found. -/
abbrev selfTestOver (s : State) (unit : Nat) : State :=
  { s with err := { s.err with reinstating := s.err.reinstating.filter fun x => decide (x.unit ≠ unit) } }

theorem exec_reinstateSelfTestDone {ok : Bool} {r : Reinstating}
    (hfind : (atTime t s).err.reinstating.find? (fun x => decide (x.unit = unit)) = some r) : let a := selfTestOver (atTime t s) unit
    let back (x : UnitState) : UnitState :=
      { x with selfTest := false, fenced := false, reason := 0, slot := .idle, proved := true, backNs := some a.now }
    exec (.reinstateSelfTestDone t unit ok checker) s =
      if ok = true ∧ r.hurt = false then
        .next (setF (logErr (modUnit a unit back) 0x24 unit 1 none ((a.now - r.sinceNs) / 1000) 0) 0x6021 0x02 2)
      else
        .next (stayFenced (setF (logErr (modUnit a unit fun x => { x with selfTest := false }) 0x25 unit 1 none checker 0) 0x6021 0x02 3) unit) := by
  have hexec : exec (.reinstateSelfTestDone t unit ok checker) s = execReinstateSelfTestDone t unit ok checker s := rfl
  rw [hexec, execReinstateSelfTestDone]
  dsimp only
  rw [hfind]
  rfl

/-- A unit that is not fenced is proved. -/
abbrev markProved (s : State) (u : Nat) : State := if fencedU s u then s else modUnit s u fun x => { x with proved := true }

theorem fencedU_markProved {u k : Nat} : fencedU (markProved s u) k = fencedU s k := by
  unfold markProved
  split
  · rfl
  · unfold fencedU
    by_cases hk : k = u
    · rw [hk, unitOf_modUnit_same]
    · rw [unitOf_modUnit_other _ _ hk]

theorem proved_markProved {u k : Nat} (h : (unitOf s k).proved = true ∨ (k = u ∧ fencedU s k = false)) :
    (unitOf (markProved s u) k).proved = true := by
  unfold markProved
  split
  next hfenced =>
    rcases h with h | ⟨rfl, h⟩
    · exact h
    · exact Bool.noConfusion (h.symm.trans hfenced)
  · by_cases hk : k = u
    · rw [hk, unitOf_modUnit_same]
    · rw [unitOf_modUnit_other _ _ hk]
      exact h.resolve_right fun h => hk h.1

theorem fencedU_foldl_markProved {l : List Nat} {k : Nat} : fencedU (l.foldl markProved s) k = fencedU s k := by
  induction l generalizing s with
  | nil => rfl
  | cons u l ih => exact ih.trans fencedU_markProved

/-- The units of a list that are not fenced end up proved. -/
theorem proved_foldl_markProved {l : List Nat} {k : Nat} (h : (unitOf s k).proved = true ∨ (k ∈ l ∧ fencedU s k = false)) :
    (unitOf (l.foldl markProved s) k).proved = true := by
  induction l generalizing s with
  | nil => exact h.resolve_right fun h => List.not_mem_nil h.1
  | cons u l ih =>
    refine ih ?_
    rcases h with h | ⟨hmem, hfenced⟩
    · exact .inl (proved_markProved (.inl h))
    rcases List.mem_cons.mp hmem with rfl | hmem
    · exact .inl (proved_markProved (.inr ⟨rfl, hfenced⟩))
    · exact .inr ⟨hmem, fencedU_markProved.trans hfenced⟩

/-- The units that the checkers prove at start unless they are fenced (R14). -/
def checkedUnits : List Nat := (List.range 128).map unitPress ++ (List.range 10).map unitUcie ++ [unitHalf 0, unitHalf 1, unitControl]

theorem unitPress_mem_checkedUnits {n : Nat} (hn : n < 128) : unitPress n ∈ checkedUnits :=
  List.mem_append_left _ (List.mem_append_left _ (List.mem_map_of_mem (List.mem_range.mpr hn)))

/-- The checkers are done; `u` is the state in which each unit is fenced or proved. -/
def checkersOver (u : State) : State :=
  let v : State := { u with err := { u.err with checkersDone := true } }
  initStage 4 (setF v 0x6040 0x01 (setFld (getF v 0x6040 0x01) 1 31 31))

theorem exec_startupCheckersProved (t : Nat) (failed : List (Nat × Nat)) (s : State) : exec (.startupCheckersProved t failed) s =
    .next (checkersOver (checkedUnits.foldl markProved (failed.foldl (fun s f => proveUnit s f.1 false f.2) (atTime t s)))) := by
  have hexec : exec (.startupCheckersProved t failed) s = execStartupCheckersProved t failed s := rfl
  rw [hexec, execStartupCheckersProved]
  unfold checkersOver checkedUnits
  with_reducible rfl

theorem checkersOver_done : (checkersOver s).err.checkersDone = true := rfl

theorem getF_checkersOver : nbit (getF (checkersOver s) 0x6040 0x01) 31 = true := by
  rw [checkersOver, initStage, setBitF, getF_setF_other _ _ (folioKey_ne (by decide) (by decide) (by decide)), getF_setF_same]
  exact nbit_setFld_bit

theorem proved_checkersOver {l : List Nat} {k : Nat} (hmem : k ∈ l) (h : fencedU (checkersOver (l.foldl markProved s)) k = false) :
    (unitOf (checkersOver (l.foldl markProved s)) k).proved = true :=
  proved_foldl_markProved (.inr ⟨hmem, fencedU_foldl_markProved.symm.trans h⟩)

theorem fence_unheld {u reason : Nat} (h : fencedU s u = false) :
    fence s u reason = fenceEffect (logFence (modUnit s u fun x => { x with fenced := true, reason := reason }) u reason) u :=
  if_neg (by rw [heldFenced, h]; exact Bool.false_ne_true)

/-- Settles O54: what follows an event leaves the record of each unit as the event set it. -/
theorem errorCommandsComplete : Obligations.ErrorCommandsComplete := by
  unfold Obligations.ErrorCommandsComplete
  refine ⟨fun _ _ _ => rfl, ?limit, ?hour, ?hop, ?thaw, ?selfTest, fun _ _ _ _ _ => rfl, ?checkers, ?ucie⟩
  case limit => exact fun _ _ _ hslot hlimit => congrArg Outcome.next (if_pos ⟨hslot, hlimit⟩)
  case hour =>
    intro t s b
    refine ⟨_, rfl, fun k => ?_, keepsBut_err⟩
    rw [unitOf_hourOver]
    exact ⟨rfl, rfl, rfl⟩
  case hop =>
    intro t half hop t0 s b k u
    refine ⟨fun hknown hsoon => ?_, fun hknown hlate => ?_, fun hnew => ?_⟩
    · rw [exec_nocHopRetrainDone, hknown]
      exact congrArg Outcome.next (if_pos (decide_eq_true hsoon))
    · rw [exec_nocHopRetrainDone, hknown]
      exact congrArg Outcome.next (if_neg fun h => absurd (of_decide_eq_true h) (Nat.not_le.mpr hlate))
    · rw [exec_nocHopRetrainDone, hnew]
      exact congrArg Outcome.next (if_neg Bool.false_ne_true)
  case thaw => exact fun _ _ _ _ _ _ _ hfrozen hreleasing hover => exec_thawWaitEnd_over hfrozen hreleasing hover
  case selfTest =>
    intro t unit checker ok r s b a hfind
    refine ⟨fun hok hhurt => ⟨_, (exec_reinstateSelfTestDone hfind).trans (if_pos ⟨hok, hhurt⟩), getF_setF_same _ _ _ _, ?_, ?_⟩,
      fun hfailed => ?_⟩
    · rw [fencedU, unitOf_setF, unitOf_logErr, unitOf_modUnit_same]
    · rw [unitOf_setF, unitOf_logErr, unitOf_modUnit_same]
    · refine (exec_reinstateSelfTestDone hfind).trans (if_neg fun h => ?_)
      rcases hfailed with hfailed | hfailed
      · exact Bool.noConfusion (hfailed.symm.trans h.1)
      · exact Bool.noConfusion (h.2.symm.trans hfailed)
  case checkers =>
    intro t failed s
    exact ⟨_, exec_startupCheckersProved t failed s, checkersOver_done, getF_checkersOver, getF_setBitF_nbit, fun n hn =>
      proved_checkersOver (unitPress_mem_checkedUnits hn)⟩
  case ucie => exact fun _ _ _ _ hopen => congrArg Outcome.next (fence_unheld hopen)

end

/-! ### Chapter 18: the notes and timers of the kettle -/

section
variable {t l subject : Nat} {w : BitVec 256} {s : State}

/-- A neighbour across a link of the epoch is silent, and neither suspected nor declared dead before (R382). -/
theorem exec_suspectTimeout_silent (hspeaking : speaking (atTime t s) = true) (hlinked : ∃ l, (l, subject) ∈ (atTime t s).kettle.epochLinks)
    (hsilent : (neighbourOf (atTime t s) subject).pulseNs + getF (atTime t s) 0x6400 0x02 * 1000 ≤ (atTime t s).now)
    (hfirst : ∀ x ∈ (atTime t s).kettle.suspicions, x.subject ≠ subject)
    (halive : (subject, (neighbourOf (atTime t s) subject).incarnation) ∉ (atTime t s).kettle.dead)
    (hfresh : (neighbourOf (atTime t s) subject).suspectNs = none) : exec (.suspectTimeout t subject) s = .next (suspect (atTime t s) subject) := by
  obtain ⟨l, hl⟩ := hlinked
  refine if_neg ?_
  rintro (h | h | h | h)
  · exact Bool.noConfusion (hspeaking.symm.trans h)
  · exact absurd (decide_eq_true rfl) (List.any_eq_false.mp h _ hl)
  · exact of_decide_eq_false h hsilent
  · simp only [Bool.or_eq_true, List.any_eq_true, decide_eq_true_eq, List.contains_iff_mem, Option.isSome_iff_ne_none] at h
    rcases h with (⟨x, hx, heq⟩ | h) | h
    · exact hfirst x hx heq
    · exact halive h
    · exact h hfresh

theorem exec_verdictTimeout_due {x : Suspicion} (hmem : x ∈ (atTime t s).kettle.suspicions) (hsubject : x.subject = subject)
    (hdue : x.sinceNs + 1000000 ≤ (atTime t s).now) : exec (.verdictTimeout t subject) s = .next (noVerdict (atTime t s) subject) :=
  if_pos (List.any_eq_true.mpr ⟨x, hmem, by rw [decide_eq_true hsubject, decide_eq_true hdue]; rfl⟩)

/-- Settles O55: a note acts on the state in which it is entered, and is passed on from the one it leaves. -/
theorem kettleCommandsComplete : Obligations.KettleCommandsComplete := by
  unfold Obligations.KettleCommandsComplete
  refine ⟨?suspectTimeout, ?verdictTimeout, ?pulseTimer, ?pulse, ?notes, ?isolation⟩
  case suspectTimeout =>
    exact fun _ _ _ hspeaking hlinked hsilent hfirst halive hfresh => exec_suspectTimeout_silent hspeaking hlinked hsilent hfirst halive hfresh
  case verdictTimeout => exact fun _ _ _ _ hmem hsubject hdue => exec_verdictTimeout_due hmem hsubject hdue
  case pulseTimer => exact fun _ _ hspeaking => if_neg (ne_false_of_eq_true hspeaking)
  case pulse => exact fun _ _ _ _ hgood => congrArg Outcome.next (kettleWord_good hgood)
  case notes =>
    intro t l w s b u hnew
    refine ⟨fun hgood => congrArg Outcome.next (floodedNote_new hgood hnew), fun hgood hheld => ?_,
      fun hgood => congrArg Outcome.next (floodedNote_new hgood hnew), fun hgood hruns hjoint => ?_⟩
    · refine congrArg Outcome.next ((floodedNote_new hgood hnew).trans ?_)
      rw [if_pos hheld]
    · rw [exec_teardown_new hgood hnew, if_pos ⟨hruns, hjoint⟩]
  case isolation => exact fun _ _ hrunning hheard hsilent => if_pos ⟨hrunning, .inl hheard, hsilent⟩

end

end Sys2Proof.Machine
end

section
/-! PROOFS. The statements of chapters 20 and 21: power, reset, boot, the host port and test. -/

namespace Sys2Proof.Machine

open Host

/-! ### Chapter 20: power, clocks and reset -/

section
variable {t : Nat} {s : State}

theorem coreMw_setF_power {v h : Nat} (hh : h < 256) : coreMw (setF s 0x7801 0x03 v) h = coreMw s h := by
  unfold coreMw
  rw [getF_setF_other _ _ (folioKey_ne (by decide) hh fun heq => absurd heq.1 (by decide))]

/-- Above the limit the half that draws more is slowed (R431). -/
theorem exec_powerLimitCheck_over (hrunning : (atTime t s).power.phase = .running) : let b := atTime t s
    let p := coreMw b 0 + coreMw b 1 + getF b 0x7801 0x02 * 1000
    let v := lowerK (setF b 0x7801 0x03 (min 65535 (p / 1000))) (if coreMw b 0 < coreMw b 1 then 1 else 0)
    getF b 0x7801 0x01 * 1000 < p →
      exec (.powerLimitCheck t) s = .next (showCauses true { v with power := { v.power with lowSinceNs := none } }) := by
  intro b p v hover
  refine (if_neg (not_not.mpr hrunning)).trans ((if_pos hover).trans ?_)
  rw [coreMw_setF_power (by decide), coreMw_setF_power (by decide)]

theorem exec_thermalSample_running {west east control dram : List Nat} (hrunning : (atTime t s).power.phase = .running) :
    exec (.thermalSample t west east control dram) s = .next (takeSample west east control dram (atTime t s)) := by
  refine if_neg ?_
  rw [hrunning]
  decide

theorem tget_foldl_tset {α : Type} [DecidableEq α] {d : α} {f : Nat → α} {l : List Nat} {m : Tbl α} {k : Nat}
    (h : k ∈ l ∨ tget d m k = f k) : tget d (l.foldl (fun m k => tset d m k (f k)) m) k = f k := by
  induction l generalizing m with
  | nil => exact h.resolve_left List.not_mem_nil
  | cons i l ih =>
    refine ih ?_
    by_cases hk : k = i
    · rw [hk, tget_tset_same]
      exact .inr rfl
    · rw [tget_tset_other d m _ hk]
      exact h.imp_left fun hmem => (List.mem_cons.mp hmem).resolve_left hk

/-- The correction of a copy is held within 8 (R434). -/
abbrev copyCorrection (left : List Int) (k : Nat) : Int := max (-8) (min 8 (left.getD k 0))

theorem exec_localTimeCorrection_running {left : List Int} (hrunning : (atTime t s).power.phase = .running) : let b := atTime t s
    exec (.localTimeCorrection t left) s = .next { b with power := { b.power with
      copies := (List.range 66).foldl (fun m k => tset 0 m k (copyCorrection left k)) b.power.copies } } :=
  if_neg (not_not.mpr hrunning)

theorem keepsBut_tornSlot : KeepsBut [.free, .boot] s (tornSlot s) := by
  unfold tornSlot
  split
  · exact .same
  · exact .mono (by decide) <| .after keepsBut_draw keepsBut_boot

/-- The flash keeps nothing unwritten when power is lost. -/
def flashLost (journalled : List Nat) (s : State) : FlashState :=
  let f := s.flash.dirty.reverse.foldl (dropWrite journalled) s.flash
  { f with dirty := [], waiting := [], lastFlush := if decide (s.power.phase = .failed) = true ∨ f.channels = [] then f.lastFlush else none }

theorem exec_powerLoss (journalled : List Nat) (s : State) :
    let u := goDark (stopSequencers (tornSlot { s with flash := flashLost journalled s }))
    exec (.powerLoss journalled) s = .next { u with power := { u.power with phase := .off, pwrGood := false, pfailDone := false } } := rfl

theorem flash_powerLoss {f : FlashState} : (goDark (stopSequencers (tornSlot { s with flash := f }))).flash = f := by
  have hkept : KeepsBut [.free, .boot, .quires, .gutters, .out, .link] { s with flash := f }
      (goDark (stopSequencers (tornSlot { s with flash := f }))) :=
    .mono (by decide) <| .after keepsBut_goDark <| .after keepsBut_stopSequencers keepsBut_tornSlot
  exact hkept .flash (by decide)

/-- Settles O56: each event acts in the phase its rule names. -/
theorem powerCommandsComplete : Obligations.PowerCommandsComplete := by
  unfold Obligations.PowerCommandsComplete
  refine ⟨?telemetry, ?limit, ?thermal, ?vrhotOn, fun _ _ _ => rfl, ?correction, ?powerOn, ?powerLoss, ?pinReset, ?watchdog, fun _ _ => rfl,
    ?pathComplete, fun _ _ => rfl⟩
  case telemetry => exact fun _ _ _ _ hrunning => if_neg (not_not.mpr hrunning)
  case limit => exact fun _ _ hrunning hover => exec_powerLimitCheck_over hrunning hover
  case thermal => exact fun _ _ _ _ _ _ hrunning => exec_thermalSample_running hrunning
  case vrhotOn => exact fun _ _ _ hrunning => if_neg (not_not.mpr hrunning)
  case correction =>
    exact fun _ _ _ hrunning => ⟨_, exec_localTimeCorrection_running hrunning, keepsBut_power,
      fun k hk => tget_foldl_tset (.inl (List.mem_range.mpr hk))⟩
  case powerOn => exact fun _ hoff => if_neg (not_not.mpr hoff)
  case powerLoss =>
    exact fun journalled s => ⟨_, exec_powerLoss journalled s, rfl, rfl, rfl, congrArg FlashState.dirty flash_powerLoss,
      congrArg FlashState.waiting flash_powerLoss⟩
  case pinReset => exact fun _ _ _ hheld => if_neg (Nat.not_lt.mpr hheld)
  case watchdog => exact fun _ _ hreleased => if_neg (ne_false_of_eq_true hreleased)
  case pathComplete => exact fun _ _ _ hfailing hhome => if_neg (not_or.mpr ⟨not_not.mpr hfailing, ne_false_of_eq_true hhome⟩)

end

/-! ### Chapter 21: boot, the host port and test -/

section
variable {t : Nat} {s : State}

theorem exec_initEngineStart_held {flush : FlushRun} {pufOk : Bool} {failed : List Nat} (hgood : s.power.pwrGood = true)
    (hheld : s.power.phase = .held) : exec (.initEngineStart flush pufOk failed) s =
      .next (leaveReset pufOk failed (setF s 0x7810 0x01 s.power.kind)) := by
  refine (if_neg (ne_false_of_eq_true hgood)).trans ?_
  rw [hheld]

theorem exec_initEngineStart_entry {flush : FlushRun} {pufOk : Bool} {failed : List Nat} (hgood : s.power.pwrGood = true)
    (hentry : s.power.phase = .entry) : exec (.initEngineStart flush pufOk failed) s =
      .next (leaveReset pufOk failed (resetPackage s.power.kind (tornSlot (finishFlush flush s)))) := by
  refine (if_neg (ne_false_of_eq_true hgood)).trans ?_
  rw [hentry]

/-- Memory is filled, and nothing of signatures and catchwords is left (R439). -/
abbrev memoryFilled (s : State) : State :=
  { s with mem := notFilled s.mem, sig := { entries := [], aux := [], waiting := [], offers := [] },
           cw := { buckets := [], nodes := [], sweeping := [] }, power := { s.power with coresReleased := true } }

theorem exec_memoryFillComplete_due (hrunning : (atTime t s).power.phase = .running) (hcores : (atTime t s).power.coresReleased = false)
    (hfailed : nbit (getF (atTime t s) 0x7820 0x01) 31 = false) (hstarted : nbit (getF (atTime t s) 0x7820 0x01) 1 = true) :
    exec (.memoryFillComplete t) s = .next (initStage 2 (loadReserved (memoryFilled (atTime t s)))) :=
  if_neg (not_or.mpr ⟨not_not.mpr hrunning, not_or.mpr ⟨ne_true_of_eq_false hcores, not_or.mpr ⟨ne_true_of_eq_false hfailed,
    ne_false_of_eq_true hstarted⟩⟩⟩)

theorem keepsBut_memoryFilled : KeepsBut [.mem, .sig, .cw, .power] s (memoryFilled s) := by
  intro p hp
  cases p <;> simp [Part.Same] at hp ⊢

/-- What holds after the fill, of any state `u` that the reserved regions were loaded into. -/
theorem initStage_memoryFilled {u : State} (hloaded : KeepsBut [.mem] (memoryFilled s) u) :
    (initStage 2 u).power.coresReleased = true ∧ (initStage 2 u).sig.entries = [] ∧ (initStage 2 u).cw.buckets = [] ∧
      (initStage 2 u).cw.nodes = [] ∧ nbit (getF (initStage 2 u) 0x7820 0x01) 2 = true ∧
      KeepsBut [.dict, .mem, .sig, .cw, .power, .boot] s (initStage 2 u) := by
  have hkept : KeepsBut [.dict, .mem] (memoryFilled s) (initStage 2 u) := .mono (by decide) <| .after keepsBut_initStage hloaded
  rw [show (initStage 2 u).power = _ from hkept .power (by decide), show (initStage 2 u).sig = _ from hkept .sig (by decide),
    show (initStage 2 u).cw = _ from hkept .cw (by decide)]
  exact ⟨rfl, rfl, rfl, rfl, getF_setBitF_nbit, .mono (by decide) <| .after hkept keepsBut_memoryFilled⟩

/-- What the trained stacks show: sizes of the package and of each half (R454). -/
abbrev stackShown (s : State) (large : Bool) : State :=
  setF (setF (setF s 0x1000 0x01 (if large then 0x1C60 else 0x1C50)) 0x1000 0x04 (if large then 0x40 else 0x30)) 0x3400 0x02
    (if large then 0x40 else 0x30)

theorem exec_stackTrainingComplete_due {large : Bool} (hrunning : (atTime t s).power.phase = .running)
    (hcores : (atTime t s).power.coresReleased = true) : let u := stackShown (atTime t s) large
    exec (.stackTrainingComplete t large) s = .next (initStage 5 { u with power := { u.power with stackReady := true } }) :=
  if_neg (not_or.mpr ⟨not_not.mpr hrunning, ne_false_of_eq_true hcores⟩)

theorem getF_initStage_other {n i k : Nat} (hk : k < 256) (hi : ¬(i = 0x7820 ∧ k = 0x01)) : getF (initStage n s) i k = getF s i k :=
  getF_setF_other s _ (folioKey_ne (by decide) hk hi)

theorem exec_hostReadTimeout_quire {id j : Nat} {x : Transfer} (hjob : (quire (atTime t s) id).job = some j)
    (hfind : (quire (atTime t s) id).transfers.find? hostTransfer = some x) : exec (.hostReadTimeout t (.quire id)) s =
      .next (failMaster (hostFails 0xA (modSeq (atTime t s) id fun q => { q with transfers := q.transfers.erase x })) (masterOf 0 id) j 0xA
        none 0) := by
  have hexec : exec (.hostReadTimeout t (.quire id)) s = execHostReadTimeout t (.quire id) s := rfl
  rw [hexec, execHostReadTimeout]
  dsimp only
  rw [hjob, hfind]

/-- The image of an update as it reads back from its source. -/
abbrev imageRead (s : State) (image : BootImage) : BootImage :=
  { image with info := { image.info with readOk := image.info.readOk && ownReadable s (getF s 0x7C40 0x01) none } }

theorem exec_updateComplete_running {image : BootImage} {readBack : Bool} {r : UpdateRun} (hupdate : (atTime t s).boot.update = some r) :
    let b := atTime t s
    let i := imageRead b image
    let u : State := { b with boot := { b.boot with update := none } }
    let held := if readBack then i else { i with info := { i.info with bodyHash := i.info.bodyDigest + 1 } }
    exec (.updateComplete t image readBack) s = if bootCode r.kind i ≠ 0 then .next (setF u 0x7C40 0x03 (0x10 + bootCode r.kind i))
      else .next (setF { u with boot := { u.boot with slots := tput u.boot.slots r.slot held } } 0x7C40 0x03 (if readBack then 2 else 0x15)) := by
  have hexec : exec (.updateComplete t image readBack) s = execUpdateComplete t image readBack s := rfl
  rw [hexec, execUpdateComplete]
  dsimp only
  rw [hupdate]

/-- The quote under way is taken from its place. -/
abbrev quoteTaken (s : State) : State := { s with boot := { s.boot with quote := none } }

theorem exec_quoteSigned_written {addr : Nat} {refused ok : Bool} {body : List Byte} {k : BitVec 256} {u : State}
    (hquote : (atTime t s).boot.quote = some (body, addr)) (hseed : (atTime t s).boot.seed = some k)
    (hwritten : writeFabric (quoteTaken (atTime t s)) addr
      (if getF (atTime t s) 0x7C30 0x04 < 64 then some (getF (atTime t s) 0x7C30 0x04) else none)
      (body ++ (List.range 35664).map (Config.attestSign k body)) = (u, ok)) :
    exec (.quoteSigned t refused) s = .next (setF u 0x7C30 0x07 (if ok = true ∧ refused = false then 2 else 3)) := by
  have hexec : exec (.quoteSigned t refused) s = execQuoteSigned t refused s := rfl
  rw [hexec, execQuoteSigned]
  split
  next hquote' hseed' =>
    cases hquote.symm.trans hquote'
    cases hseed.symm.trans hseed'
    exact congrArg (fun p => Outcome.next (setF p.1 0x7C30 0x07 (if p.2 = true ∧ refused = false then 2 else 3))) hwritten
  next hnone => exact absurd hseed (hnone _ _ _ hquote)

/-- Settles O57: each event acts in its stage of the boot, and an update by the code of its image. -/
theorem bootCommandsComplete : Obligations.BootCommandsComplete := by
  unfold Obligations.BootCommandsComplete
  refine ⟨?initEngine, ?memoryFill, ?images, ?stackTraining, ?lpddr, fun _ _ => rfl, ?pcie, fun _ _ => rfl, ?quireTimeout, ?swapTimeout, ?update,
    ?quote, ?extest, ?tapExit, ?ijtag⟩
  case initEngine => exact fun _ _ _ _ hgood => ⟨exec_initEngineStart_held hgood, exec_initEngineStart_entry hgood⟩
  case memoryFill =>
    intro t s b hrunning hcores hfailed hstarted
    exact ⟨_, exec_memoryFillComplete_due hrunning hcores hfailed hstarted, initStage_memoryFilled keepsBut_loadReserved⟩
  case images =>
    exact fun _ _ _ hrunning hcores hdone =>
      if_neg (not_or.mpr ⟨not_not.mpr hrunning, not_or.mpr ⟨ne_false_of_eq_true hcores, ne_true_of_eq_false hdone⟩⟩)
  case stackTraining =>
    intro t large s b hrunning hcores
    refine ⟨_, exec_stackTrainingComplete_due hrunning hcores, rfl, ?_, ?_, ?_, getF_setBitF_nbit⟩
    · refine (getF_initStage_other (by decide) (by decide)).trans ?_
      exact (getF_setF_other _ _ (by decide)).trans ((getF_setF_other _ _ (by decide)).trans (getF_setF_same _ _ _ _))
    · refine (getF_initStage_other (by decide) (by decide)).trans ?_
      exact (getF_setF_other _ _ (by decide)).trans (getF_setF_same _ _ _ _)
    · exact (getF_initStage_other (by decide) (by decide)).trans (getF_setF_same _ _ _ _)
  case lpddr =>
    exact fun _ _ _ _ hrunning himages hready =>
      if_neg (not_or.mpr ⟨not_not.mpr hrunning, not_or.mpr ⟨ne_false_of_eq_true himages, ne_true_of_eq_false hready⟩⟩)
  case pcie => exact fun _ _ _ _ _ _ hrunning => if_neg (not_not.mpr hrunning)
  case quireTimeout => exact fun _ _ _ _ _ hjob hfind => exec_hostReadTimeout_quire hjob hfind
  case swapTimeout => exact fun _ _ _ hswapping => if_neg (not_not.mpr hswapping)
  case update =>
    intro t image readBack r s b i hupdate
    refine ⟨fun hbad => ⟨_, (exec_updateComplete_running hupdate).trans (if_pos hbad), getF_setF_same _ _ _ _, rfl, rfl⟩, fun hgood hback => ?_,
      fun hgood hback => ?_⟩
    · refine ⟨_, (exec_updateComplete_running hupdate).trans (if_neg (not_not.mpr hgood)), ?_, rfl, ?_, fun k hk => tfind_tput_other _ _ hk⟩
      · rw [getF_setF_same, if_pos hback]
      · refine (tfind_tput_same _ _ _).trans ?_
        rw [if_pos hback]
    · refine ⟨_, (exec_updateComplete_running hupdate).trans (if_neg (not_not.mpr hgood)), ?_, rfl, fun k hk => tfind_tput_other _ _ hk⟩
      rw [getF_setF_same, if_neg (ne_true_of_eq_false hback)]
  case quote => exact fun _ _ _ _ _ _ _ _ hquote hseed hwritten => exec_quoteSigned_written hquote hseed hwritten
  case extest => exact fun _ _ hrunning => if_neg (not_not.mpr hrunning)
  case tapExit => exact fun _ _ hloaded => if_pos hloaded
  case ijtag =>
    intro t instrument s b hon
    have hexec : exec (.ijtagAccess t instrument) s = execIjtagAccess t instrument s := rfl
    rw [hexec, execIjtagAccess, decide_eq_true hon, Bool.true_and]

end

end Sys2Proof.Machine
end

section
/-! PROOFS. The statements of chapter 15: press, casing and check values. -/

namespace Sys2Proof.Machine

open Host

/-! ### Chapter 15: press, casing and check values -/

section
variable {t j half n : Nat} {s : State} {object : List Byte} {key : BitVec 256}

/-- The key slot that an object is cased under: its salt is drawn again before the count of the pair runs out (R331). -/
abbrev casingState (s : State) (j n : Nat) : State := if tget 0 (keySlot s j).counts n + 1 = 2 ^ 40 then saltRedraw s j else s

/-- The count of pair `n` goes on. -/
abbrev pairCounted (s : State) (j n : Nat) : State :=
  let k := keySlot s j
  { s with press := { s.press with keys := tset KeySlot.zero s.press.keys j { k with counts := tput k.counts n (tget 0 k.counts n + 1) } } }

/-- The object as it is cased: header, sealed body, tag, check value and padding (Table 15-1). -/
def casedObject (s : State) (j stride n : Nat) (key : BitVec 256) (raw : List Byte) : List Byte :=
  let k := keySlot s j
  let coded := codeBody (strideBytes stride) raw
  let pressed := decide (coded.length < raw.length) && decide (getF s 0x5000 0x02 = 1)
  let body := if pressed then coded else raw
  let iv := place (ownEndpoint s) 95 80 + place k.salt 79 48 + place n 47 40 + place (tget 0 k.counts n) 39 0
  let h := casedHeader j stride pressed (keyId key) iv raw.length body.length
  let x := gcmSeal (keyBytes key) (toBytesLE 12 iv) h body
  h ++ x.1 ++ x.2 ++ toBytesLE 8 (crc64 (h ++ x.1 ++ x.2)) ++ List.replicate 8 0

theorem caseObject_keyed {stride : Nat} {raw : List Byte} (hkey : (keySlot s j).key = some key) (hzeroing : (keySlot s j).zeroing = false)
    (hraw : raw ≠ []) (hlength : raw.length ≤ 67108864) (hstride : stride < 3) (hpick : pickEngine s s.press.encBusy half = some n) :
    let b := casingState s j n
    let object := casedObject b j stride n key raw
    caseObject s j stride half raw =
      (addF (addF (incF (busyEngine (pairCounted b j n) true n j raw.length) 0x5003 j) 0x5004 j raw.length) 0x5005 j object.length,
        some object) := by
  unfold caseObject
  dsimp only
  rw [hkey, hpick]
  dsimp only
  rw [if_neg (by simp [hzeroing, hraw]; omega)]
  rfl

theorem exec_caseObject_keyed {stride : Nat} {raw : List Byte} (hkey : (keySlot (atTime t s) j).key = some key)
    (hzeroing : (keySlot (atTime t s) j).zeroing = false) (hraw : raw ≠ []) (hlength : raw.length ≤ 67108864) (hstride : stride < 3)
    (hpick : pickEngine (atTime t s) (atTime t s).press.encBusy half = some n) : let b := casingState (atTime t s) j n
    let object := casedObject b j stride n key raw
    exec (.caseObject t j stride half raw) s = .next (emit (addF (addF (incF (busyEngine (pairCounted b j n) true n j raw.length) 0x5003 j)
      0x5004 j raw.length) 0x5005 j object.length) (.cased j object)) := by
  have hexec : exec (.caseObject t j stride half raw) s = execCaseObject t j stride half raw s := rfl
  rw [hexec, execCaseObject]
  dsimp only
  rw [caseObject_keyed hkey hzeroing hraw hlength hstride hpick]

/-- The header of an object, as the number that its first 64 bytes spell. -/
abbrev objectHeader (object : List Byte) : Nat := ofBytesLE (object.take 64)

/-- An object passes the checks that Table 15-3 puts before its key: length, check value, and the fields of its header. -/
abbrev SoundObject (object : List Byte) : Prop :=
  let h := objectHeader object
  96 + nfld h 319 288 ≤ object.length ∧
  ofBytesLE ((object.drop (80 + nfld h 319 288)).take 8) = crc64 (object.take (80 + nfld h 319 288)) ∧
  ¬(nfld h 511 504 ≠ 1 ∨ nfld h 497 496 = 3 ∨ nfld h 494 480 ≠ 0 ∨ nfld h 287 0 ≠ 0 ∨ nfld h 351 320 = 0 ∨ 67108864 < nfld h 351 320
    ∨ nfld h 351 320 < nfld h 319 288 ∨ (nbit h 495 = false ∧ nfld h 319 288 ≠ nfld h 351 320))

/-- The bytes of a sound object as its key yields them. -/
abbrev sealedBytes (object : List Byte) (key : BitVec 256) : Option (List Byte) :=
  let h := objectHeader object
  gcmOpen (keyBytes key) (toBytesLE 12 (nfld h 447 352)) (object.take 64) ((object.drop 64).take (nfld h 319 288))
    ((object.drop (64 + nfld h 319 288)).take 16)

/-- What comes of a body that was pressed: its bytes, or the cause of a body that does not unpress. -/
abbrev unpressed (x : Option (List Byte)) : Except Nat (List Byte) := x.elim (.error 0x05) .ok

theorem openBytes_sealed {bytes : List Byte} (hsound : SoundObject object)
    (hzeroing : (keySlot s (nfld (objectHeader object) 503 498)).zeroing = false)
    (hkey : (keySlot s (nfld (objectHeader object) 503 498)).key = some key) (hid : keyId key = nfld (objectHeader object) 479 448)
    (hopen : sealedBytes object key = some bytes) :
    openBytes s object = if nbit (objectHeader object) 495 then
        unpressed (decodeBody (strideBytes (nfld (objectHeader object) 497 496)) (nfld (objectHeader object) 351 320 / 4096 + 2)
          (nfld (objectHeader object) 351 320) bytes)
      else .ok bytes := by
  obtain ⟨hlength, hcheck, hheader⟩ := hsound
  unfold sealedBytes at hopen
  dsimp only at hopen
  unfold openBytes
  dsimp only
  rw [if_neg (Nat.not_lt.mpr hlength), if_neg (not_not.mpr hcheck), if_neg hheader, hzeroing, hkey]
  rw [if_neg Bool.false_ne_true]
  dsimp only
  rw [if_neg (not_not.mpr hid), hopen]
  dsimp only
  congr 1
  cases decodeBody (strideBytes (nfld (objectHeader object) 497 496)) (nfld (objectHeader object) 351 320 / 4096 + 2)
    (nfld (objectHeader object) 351 320) bytes <;> rfl

theorem openObject_opened {raw : List Byte} (hpick : pickEngine s s.press.decBusy half = some n) (hok : openBytes s object = .ok raw) :
    openObject s half object = (busyEngine s false n (nfld (objectHeader object) 503 498) (nfld (objectHeader object) 351 320), .ok raw) := by
  unfold openObject openWith
  rw [hpick]
  dsimp only
  rw [hok]

theorem openObject_failed {c : Nat} (hpick : pickEngine s s.press.decBusy half = some n) (herror : openBytes s object = .error c) :
    openObject s half object =
      (incF (busyEngine s false n (nfld (objectHeader object) 503 498) (nfld (objectHeader object) 351 320)) 0x5008 c, .error c) := by
  unfold openObject openWith
  rw [hpick]
  dsimp only
  rw [herror]

theorem exec_openObject_opened {raw : List Byte} (hpick : pickEngine (atTime t s) (atTime t s).press.decBusy half = some n)
    (hok : openBytes (atTime t s) object = .ok raw) : exec (.openObject t half object) s =
      .next (emit (busyEngine (atTime t s) false n (nfld (objectHeader object) 503 498) (nfld (objectHeader object) 351 320))
        (.opened (nfld (objectHeader object) 503 498) raw)) := by
  have hexec : exec (.openObject t half object) s = execOpenObject t half object s := rfl
  rw [hexec, execOpenObject]
  rw [openObject_opened hpick hok]

/-- The causes of Table 15-3. -/
theorem openBytes_error {c : Nat} (h : openBytes s object = .error c) : c ≠ 0 ∧ c < 256 := by
  unfold openBytes at h
  dsimp only at h
  have hcause {k : Nat} (hk : k ≠ 0 ∧ k < 256) (heq : (.error k : Except Nat (List Byte)) = .error c) : c ≠ 0 ∧ c < 256 := by
    cases heq
    exact hk
  iterate 6
    split at h
    · exact hcause (by decide) h
  split at h
  · split at h
    · cases h
    · exact hcause (by decide) h
  · cases h

theorem exec_openObject_failed {c : Nat} (hpick : pickEngine (atTime t s) s.press.decBusy half = some n)
    (herror : openBytes (atTime t s) object = .error c) : exec (.openObject t half object) s =
      .next (emit (incF (busyEngine (atTime t s) false n (nfld (objectHeader object) 503 498) (nfld (objectHeader object) 351 320)) 0x5008 c)
        (.openFailed (nfld (objectHeader object) 503 498) c)) := by
  have hexec : exec (.openObject t half object) s = execOpenObject t half object s := rfl
  rw [hexec, execOpenObject]
  rw [openObject_failed hpick herror]
  exact congrArg Outcome.next (if_neg (openBytes_error herror).1)

theorem exec_cvuDmaComplete_running {k a status done : Nat} {data : List Byte} (hdma : tfind (atTime t s).press.cvuDma k = some (a, n)) :
    let b := atTime t s
    let m := if status = 0 then n else min done n
    let taken := if mapped b a n then readBytes b a m else data.take m
    let u := setBitF (cvuBytes { b with press := { b.press with cvuDma := tdel b.press.cvuDma k } } k taken) 0x504A k 0 false
    exec (.cvuDmaComplete t k status done data) s = .next (if status = 0 then u else cvuRaise u k 1) := by
  refine congrArg Outcome.next ?_
  unfold cvuDmaComplete
  dsimp only
  rw [hdma]

@[simp] theorem keySlot_zeroKey (s : State) (j : Nat) : keySlot (zeroKey s j) j = KeySlot.zero :=
  tget_tset_same KeySlot.zero s.press.keys j KeySlot.zero

theorem endKey_idle (hkey : (keySlot s j).key ≠ none) (hidle : (keySlot s j).busyNs ≤ s.now) :
    endKey s j = setF (setJobMode (zeroKey s j) j .free) 0x5414 j 0 := by
  have hzeroed : startZeroing s j = zeroKey s j := by
    unfold startZeroing
    dsimp only
    rw [if_neg (by simpa using hkey), if_pos hidle]
  unfold endKey
  dsimp only
  rw [hzeroed, keySlot_zeroKey]
  rfl

/-- Settles O45: an object is cased and opened by one engine, under the key of its job. -/
theorem pressCommandsComplete : Obligations.PressCommandsComplete := by
  unfold Obligations.PressCommandsComplete
  refine ⟨?cased, ?opened, ?failed, ?cvu, ?zeroed⟩
  case cased =>
    exact fun _ _ _ _ _ _ _ _ hkey hzeroing hraw hlength hstride hpick =>
      exec_caseObject_keyed hkey hzeroing hraw hlength hstride hpick
  case opened =>
    intro t half n object bytes key s b h body raw j hlength hcheck hmagic hstride hzero hpad hraw hmost hbody hplain hzeroing hkey hid hopen hpick
    have hsound : SoundObject object := by
      refine ⟨hlength, hcheck, ?_⟩
      simp only [not_or, not_not, not_lt, not_and]
      exact ⟨hmagic, hstride, hzero, hpad, hraw, hmost, hbody, fun hunpressed => hplain.resolve_left (ne_true_of_eq_false hunpressed)⟩
    have hbytes := openBytes_sealed hsound hzeroing hkey hid hopen
    refine ⟨fun hunpressed => exec_openObject_opened hpick (hbytes.trans (if_neg (ne_true_of_eq_false hunpressed))), fun l hpressed hdecoded =>
      exec_openObject_opened hpick (hbytes.trans ((if_pos hpressed).trans ?_))⟩
    exact congrArg unpressed hdecoded
  case failed =>
    intro t half c n object s herror hpick
    refine ⟨_, exec_openObject_failed hpick herror, rfl, getF_incF_same _ _ _, foliosBut_incF rfl (openBytes_error herror).2, ?_⟩
    exact .mono (by decide) <| .after (keepsBut_emit _ _) <| .after (keepsBut_incF _ _ _) <| .after keepsBut_busyEngine <| keepsBut_atTime t s
  case cvu => exact fun _ _ _ _ _ _ _ _ hdma => exec_cvuDmaComplete_running hdma
  case zeroed =>
    intro t j s b zeroed hzeroing hkey
    refine ⟨fun hidle => ?_, fun hbusy => if_pos (.inr hbusy)⟩
    refine (if_neg (not_or.mpr ⟨ne_false_of_eq_true hzeroing, Nat.not_lt.mpr hidle⟩)).trans (congrArg Outcome.next (endKey_idle hkey hidle))

end

end Sys2Proof.Machine
end
